-- ==== Sys2Proof/Word.lean ====
section
/-! DEFINITION. The word types of the Oliku 7720 and their plainest arithmetic (R7, R8). -/

namespace Sys2Proof

/-- One byte of memory. -/
abbrev Byte := BitVec 8

/-- A 32-bit little-endian word, the unit of every image, packet and register (R8). -/
abbrev Word := BitVec 32

/-- One 64-byte granule of on-package memory, byte 0 in bits [7:0] (R8). -/
abbrev GranuleBits := BitVec 512

/-- A table: a list of key and value pairs, keys rising, no entry equal to the table's default. -/
abbrev Tab (α : Type) := List (Nat × α)

end Sys2Proof
end

