-- ==== Sys2Proof/Syntax.lean ====
section
/-! DEFINITION. The commands of the block, one constructor per row of spec/opcode_table.json, and their operands.
The table gives no operand bits: the operands are the model's (log entry 1). -/

namespace Sys2Proof

/-- A ring: the pool's command ring and event ring, and those of a partition (R364). -/
inductive RingId where
  | pool
  | poolEv
  | part (p : Fin 64) (r : Fin 16)
  | partEv (p : Fin 64)
deriving DecidableEq, Repr

/-- A command packet but for its opcode, which the row gives (R366). w holds the parameter words 0 to 11. -/
structure Pkt where
  verMinor : BitVec 8
  verMajor : BitVec 8
  fence : Bool
  notify : Bool
  /-- word 0 [31:26] -/
  rsv0 : BitVec 6
  part : BitVec 8
  /-- word 1 [15:8] -/
  rsv1 : BitVec 8
  gen : BitVec 16
  tag : BitVec 32
  /-- word 3 -/
  rsv3 : BitVec 32
  w : List Word
deriving DecidableEq, Repr

/-- A PCIe function: the physical function of a port, or virtual function p + 1 of port h (R317). -/
inductive Fn where
  | pf (port : Fin 4)
  | vf (port : Fin 4) (p : Fin 64)
deriving DecidableEq, Repr

/-- What an ECC check of a granule found (R407, R412). -/
inductive Ecc where
  | clean
  | corrected
  | uncorrectable
deriving DecidableEq, Repr

/-- How the data of a queue entry in flight arrives (R130, R446). -/
inductive Arrival where
  /-- the data read at issue is complete -/
  | ok
  /-- granules of the entry that a fabric load or a host read supplies, with their poison, and the granules that a failed read
  touched, each with whether a fabric load timed out there -/
  | remote (granules : List (Nat × GranuleBits × Bool)) (failed : List (Nat × Bool))
deriving DecidableEq, Repr

/-- Where a CSP instruction stands: its cluster, its context, and whether it is the last of its bundle. -/
structure Slot where
  c : Fin 20
  x : Fin 4
  eob : Bool
deriving DecidableEq, Repr

/-- The lane types of R149. -/
inductive Lt where
  | h | w | l | c | f | d
deriving DecidableEq, Repr

/-- The conversions of VCVT (R157). -/
inductive Cvt where
  | ld | fd | df | hf | wf | fw
deriving DecidableEq, Repr

/-- The functions of VFUNC (R156). -/
inductive Func where
  | exp2 | rcp | rsq
deriving DecidableEq, Repr

/-- The source of a scalar set or add: an immediate or an M register (R157). -/
inductive Scalar where
  | imm (v : Word)
  | m (i : Fin 16)
deriving DecidableEq, Repr

/-- What the sensors and meters read at the end of a clove (R181, R383). -/
structure BoundaryEnv where
  /-- hottest junction of each cluster in degrees C -/
  tj : List Nat
  /-- current drawn by each cluster in A -/
  amps : List Nat
  /-- mean package current in A -/
  pkg : Nat
  /-- measured use of the past clove: cell, resource, amount -/
  use : List (Nat × Nat × Nat)
deriving DecidableEq, Repr

/-- A clove marker (R225); delayNs is the measured link delay and residence in ns at the receiver. -/
structure Marker where
  index : BitVec 32
  sender : BitVec 16
  master : BitVec 16
  hop : Fin 16
  /-- residence correction in ps -/
  res : Nat
deriving DecidableEq, Repr

/-- A flit as its receiver sees it (R253). -/
structure Flit where
  seq : Nat
  /-- virtual channel (R252) -/
  vc : Fin 3
  /-- bytes of the message it carries; 0 for a flit of link control alone -/
  bytes : Nat
  keyPhase : Bool
  /-- the FEC could correct it -/
  fecOk : Bool
  /-- its integrity tag verifies -/
  tagOk : Bool
  /-- FEC symbols corrected on each lane -/
  corrected : List Nat
  /-- link control: every flit below this number has been received -/
  ack : Option Nat
  /-- link control: the partner asks for every flit from this number on again -/
  nak : Option Nat
  /-- link control: credits that the partner grants again on each channel -/
  freed : List Nat
deriving DecidableEq, Repr

/-- What the ends of a link exchange at IDENT (R254, R256); a switch port sends its own identity. -/
structure Ident where
  partner : BitVec 16
  node : BitVec 8
  isSwitch : Bool
deriving DecidableEq, Repr

/-- What a training attempt has met so far, stage by stage (R254 to R256, R263). -/
structure Training where
  /-- DETECT: training sequences of the partner arrive -/
  answered : Bool
  /-- EQUALISE is done -/
  equalised : Bool
  /-- LOCK: the lanes that have locked -/
  locked : Option (BitVec 4)
  ident : Option Ident
  /-- MEASURE: the one-way delay -/
  delayPs : Option (BitVec 32)
  /-- SECURE: whether the partner has authenticated -/
  auth : Option Bool
deriving DecidableEq, Repr

/-- The segment of a FAB_DMA put that a store belongs to: the command, the segment and the segment's bytes (R283). -/
structure Stage where
  dma : Nat
  seg : Fin 64
  total : Nat
deriving DecidableEq, Repr

/-- A fabric request on the wire (R269, R273, R352). -/
structure FabReq where
  node : Fin 64
  part : Fin 64
  gen : BitVec 16
  seq : BitVec 32
  /-- 0 to 6 as R269 -/
  op : Fin 7
  typ : Fin 8
  fetch : Bool
  len : Nat
  addr : BitVec 52
  data : List Byte
  psn : Bool
  /-- node, partition and sequence number of each member of a combined atomic (R278); empty where it is not combined -/
  members : List (Fin 64 × Fin 64 × BitVec 32)
  /-- stores and atomics that its source issued to this node before it, since the partition's last reset (R272) -/
  writes : Nat
  stage : Option Stage
deriving DecidableEq, Repr

/-- A fabric response (R273). -/
structure FabResp where
  node : Fin 64
  seq : BitVec 32
  status : BitVec 8
  data : List Byte
  psn : Bool
deriving DecidableEq, Repr

/-- What DMA_SEGMENT_COMMIT commits: a segment of this chip's own FAB_DMA, or a segment that a chip puts here. -/
inductive DmaArrive where
  | own (p : Fin 64) (dma : Nat) (seg : Fin 64)
  | incoming (node part : Fin 64) (dma : Nat) (seg : Fin 64)
deriving DecidableEq, Repr

/-- What a cluster test found (R414). -/
structure ClusterTest where
  arrays : BitVec 17
  /-- failed SRAM units -/
  units : BitVec 64
  cspFailed : Bool
  engineFailed : Bool
deriving DecidableEq, Repr

/-- A switched domain of R436 other than the clusters. -/
inductive Domain where
  | hbm (s : Fin 8)
  | link (g : Fin 3)
  | eth (g : Fin 2)
  | host
  | radio
deriving DecidableEq, Repr

/-- A twin signature message (R245). -/
structure TwinMsg where
  runId : BitVec 32
  clove : BitVec 32
  disturb : Bool
  sigs : List (Nat × BitVec 64)
deriving DecidableEq, Repr

/-- A received Ethernet frame without its FCS, the priorities for which the port's receive buffers are more than 75 % in use as it
arrives (R294), and the time in ns since the first bit after its start-of-frame delimiter (R210). -/
structure RxFrame where
  port : Fin 8
  sub : Fin 4
  bytes : List Byte
  full : BitVec 8
  sofNs : Nat
deriving DecidableEq, Repr

/-- A C-plane message as the fronthaul engine finds it in its window (R170, R176): its flow in the cell's list, section, section
type, extensions, direction, start symbol and number of sections, and what follows the application header. -/
structure CpMsg where
  flow : Nat
  sect : Nat
  secType : Nat
  exts : List Nat
  up : Bool
  startSym : Fin 14
  nsect : BitVec 8
  ready : Bool
  poisoned : Bool
  body : List Byte
deriving DecidableEq, Repr

/-- What the fronthaul engine does with a section of a downlink symbol (R194): map its bits into cluster SRAM, or send it. -/
inductive DlAct where
  | map
  | send
deriving DecidableEq, Repr

/-- A section of a downlink symbol (R176, R194): its flow in the cell's list, section ID, PRBs, bits of a constellation point, and
the bits of the channel. -/
structure DlSection where
  act : DlAct
  flow : Nat
  sect : Nat
  first : Nat
  n : Nat
  order : Nat
  ready : Bool
  poisoned : Bool
  bits : List Byte
deriving DecidableEq, Repr

/-- The measurements of a detection (R187). -/
structure Detection where
  /-- received power in 0.25 dBFS steps at the AGC output -/
  power : Int
  toff : BitVec 16
  cfo : BitVec 24
  preamble : BitVec 6
  peak : BitVec 32
  /-- the detection falls in the last cycle of its occasion or earlier; metric above THRESH is what makes the row occur -/
  metric : Nat
deriving DecidableEq, Repr

/-- A polar job (R201). -/
structure Polar where
  encode : Bool
  part : Fin 64
  gen : BitVec 16
  n : Nat
  frozen : List Bool
  inAddr : BitVec 48
  outAddr : BitVec 48
  dlClove : BitVec 32
  dlCycle : Nat
deriving DecidableEq, Repr

/-- A UART frame as sampled (R425): the start sample, the data bits and the stop sample. -/
structure UartFrame where
  startHigh : Bool
  data : BitVec 8
  stopHigh : Bool
deriving DecidableEq, Repr


/-- What comes by a chip link, and the link that it came by; 24 stands for this chip itself. -/
structure Rx (α : Type) where
  msg : α
  via : Fin 25
deriving DecidableEq, Repr

/-- Whose queue a FAB_OP entry lies in: the cluster, and the logical array and context of the slice that issued it (R281). -/
structure FabSource where
  cluster : Fin 20
  array : Fin 16
  ctx : Bool
deriving DecidableEq, Repr

/-- A retrain request from a link's partner: the lane that caused it and the width it asks for, where it names them (R258, R260). -/
structure RetrainMsg where
  link : Fin 24
  lane : Option (Fin 4)
  width : Option (Fin 3)
deriving DecidableEq, Repr

/-- A section of a downlink flow, by its place in the cell's flows, in the C-plane or the U-plane (R176). -/
structure LateSect where
  cplane : Bool
  flow : Nat
  sect : Nat
deriving DecidableEq, Repr

/-- A part of a symbol: an eighth of its subcarriers (R182). -/
structure SymPart where
  slot : Nat
  sym : Fin 14
  part : Fin 8
deriving DecidableEq, Repr


/-- The commands: one constructor per row of spec/opcode_table.json. -/
inductive Instr where
  /-- CLOVE_BOUNDARY (R24): The time unit raises a clove boundary, which every cluster observes on the same array cycle and at which all
  committed scheduling decisions take effect. -/
  | cloveBoundary (env : BoundaryEnv)
  /-- MMA (R45): The execute engine checks and starts a multiply-accumulate operation on an array, taking operands from its queues. -/
  | mma (c : Fin 20) (owner : Fin 64) (d : List Word)
  /-- ACC_PRELOAD (R55): The execute engine writes accumulator start values from P_Q under the preload scheme. -/
  | accPreload (c : Fin 20) (owner : Fin 64) (d : List Word)
  /-- ACC_DRAIN (R56): The execute engine performs the final drain of open accumulations without adding products. -/
  | accDrain (c : Fin 20) (owner : Fin 64) (d : List Word)
  /-- DRAIN_ROW_PUSH (R444): The drain checks, rounds and pushes an output row to O_Q once room and data allow. errs are the errors that
  faults of the array added to the row's exact sums, by value of the row (a CI16 row holds two values to a column); empty in a
  fault-free array. -/
  | drainRowPush (c : Fin 20) (a : Fin 16) (errs : List (Nat × Int))
  /-- ARRAY_WATCHDOG (R63): The array watchdog count reaches ARY_WDOG.LIMIT and an array failure is recorded. -/
  | arrayWatchdog (c : Fin 20) (a : Fin 17)
  /-- REGISTER_PARITY_ERROR (R71): A parity error in an array's active, shadow or accumulator register is detected and an array failure
  is recorded. -/
  | registerParityError (c : Fin 20) (a : Fin 17)
  /-- SPARE_START (R72): The substituted spare starts work once the boundary window and the weight-buffer copy have ended. -/
  | spareStart (c : Fin 20)
  /-- END (R126): The cardamom instruction END ends the program and frees the engine. -/
  | endInsn (c : Fin 20) (e : Fin 8)
  /-- SETX (R126): The cardamom instruction SETX sets a coordinate register to an immediate. -/
  | setx (c : Fin 20) (e : Fin 8)
  /-- ADDX (R126): The cardamom instruction ADDX adds an immediate to a coordinate register. -/
  | addx (c : Fin 20) (e : Fin 8)
  /-- ADDR (R126): The cardamom instruction ADDR adds one coordinate register to another. -/
  | addr (c : Fin 20) (e : Fin 8)
  /-- LOOP (R128): The cardamom instruction LOOP runs a body a fixed number of times. -/
  | loop (c : Fin 20) (e : Fin 8)
  /-- LOOPX (R128): The cardamom instruction LOOPX runs a body a register-given number of times. -/
  | loopx (c : Fin 20) (e : Fin 8)
  /-- RD (R127): The cardamom instruction RD reads a run of elements and pushes them to a queue. -/
  | rd (c : Fin 20) (e : Fin 8) (ecc : List (Nat × Ecc))
  /-- WR (R137): The cardamom instruction WR pops elements from a queue and writes them, posting an index if the sideband is in use. -/
  | wr (c : Fin 20) (e : Fin 8)
  /-- RDS (R121): The cardamom instruction RDS reads MX block scales and pushes them to a queue. -/
  | rds (c : Fin 20) (e : Fin 8) (ecc : List (Nat × Ecc))
  /-- RDW (R119): The cardamom instruction RDW pushes the named planes of a W-tile. -/
  | rdw (c : Fin 20) (e : Fin 8) (ecc : List (Nat × Ecc))
  /-- WRW (R137): The cardamom instruction WRW pops one W-tile into a tensor tile. -/
  | wrw (c : Fin 20) (e : Fin 8)
  /-- RDT (R139): The cardamom instruction RDT pushes a transposed 128 x 128 block through the transposer. -/
  | rdt (c : Fin 20) (e : Fin 8) (ecc : List (Nat × Ecc))
  /-- PLS (R126): The cardamom instruction PLS sets the plane register. -/
  | pls (c : Fin 20) (e : Fin 8)
  /-- DLS (R126): The cardamom instruction DLS sets the deadline register. -/
  | dls (c : Fin 20) (e : Fin 8)
  /-- DLA (R126): The cardamom instruction DLA adds to the deadline register with carry and saturation. -/
  | dla (c : Fin 20) (e : Fin 8)
  /-- SLM (R140): The cardamom instruction SLM saves a checkpoint and marks the next entry of each queue. -/
  | slm (c : Fin 20) (e : Fin 8)
  /-- WAITB (R130): The cardamom instruction WAITB holds the engine until the next clove boundary. -/
  | waitb (c : Fin 20) (e : Fin 8)
  /-- CARD_ENTRY_COMPLETE (R130): A queue entry's data arrives and the entry is pushed, or is discarded against SKIP, or is taken as
  poisoned zeros after a failed read. -/
  | cardEntryComplete (c : Fin 20) (e : Fin 8) (q : Fin 64) (res : Arrival)
  /-- RT_SUBSTITUTE (R138): A real-time consumer reaches a passed deadline and takes a substitute entry of erased granules. -/
  | rtSubstitute (c : Fin 20) (q : Fin 64)
  /-- VLD (R157): The CSP instruction VLD loads 64 bytes and post-modifies its pointer. -/
  | vld (k : Slot) (d : Fin 32) (p m : Fin 16) (circ : Bool) (ecc : Ecc)
  /-- VLDB (R157): The CSP instruction VLDB loads one element and broadcasts it. -/
  | vldb (k : Slot) (t : Lt) (d : Fin 32) (p m : Fin 16) (circ : Bool) (ecc : Ecc)
  /-- VST (R157): The CSP instruction VST stores 64 bytes with the register's poison bit. -/
  | vst (k : Slot) (d : Fin 32) (p m : Fin 16) (circ : Bool)
  /-- VADD (R155): The CSP instruction VADD adds lanes with wrapping. -/
  | vadd (k : Slot) (t : Lt) (d u v : Fin 32)
  /-- VSUB (R155): The CSP instruction VSUB subtracts lanes with wrapping. -/
  | vsub (k : Slot) (t : Lt) (d u v : Fin 32)
  /-- VADDS (R155): The CSP instruction VADDS adds lanes with saturation. -/
  | vadds (k : Slot) (t : Lt) (d u v : Fin 32)
  /-- VSUBS (R155): The CSP instruction VSUBS subtracts lanes with saturation. -/
  | vsubs (k : Slot) (t : Lt) (d u v : Fin 32)
  /-- VMAX (R156): The CSP instruction VMAX takes the lane maximum. -/
  | vmax (k : Slot) (t : Lt) (d u v : Fin 32)
  /-- VMIN (R156): The CSP instruction VMIN takes the lane minimum. -/
  | vmin (k : Slot) (t : Lt) (d u v : Fin 32)
  /-- VAND (R157): The CSP instruction VAND performs a bitwise AND. -/
  | vand (k : Slot) (d u v : Fin 32)
  /-- VOR (R157): The CSP instruction VOR performs a bitwise OR. -/
  | vor (k : Slot) (d u v : Fin 32)
  /-- VXOR (R157): The CSP instruction VXOR performs a bitwise XOR. -/
  | vxor (k : Slot) (d u v : Fin 32)
  /-- VSEL (R157): The CSP instruction VSEL selects bits by a mask register. -/
  | vsel (k : Slot) (d m u v : Fin 32)
  /-- VSHL (R155): The CSP instruction VSHL shifts lanes left, discarding the bits shifted out. -/
  | vshl (k : Slot) (t : Lt) (d u : Fin 32) (n : Fin 64)
  /-- VSHR (R155): The CSP instruction VSHR shifts lanes right arithmetically. -/
  | vshr (k : Slot) (t : Lt) (d u : Fin 32) (n : Fin 64)
  /-- VPERM (R157): The CSP instruction VPERM permutes 16-bit lanes. -/
  | vperm (k : Slot) (d u v : Fin 32)
  /-- VMAC (R157): The CSP instruction VMAC multiply-accumulates into an ACC register with clamping. -/
  | vmac (k : Slot) (t : Lt) (a : Fin 8) (u v : Fin 32)
  /-- VMACJ (R157): The CSP instruction VMACJ multiply-accumulates against the complex conjugate. -/
  | vmacj (k : Slot) (a : Fin 8) (u v : Fin 32)
  /-- VCLR (R157): The CSP instruction VCLR zeroes an ACC register and its poison bit. -/
  | vclr (k : Slot) (a : Fin 8)
  /-- VBIAS (R156): The CSP instruction VBIAS adds 2^(s-1) to every ACC lane. -/
  | vbias (k : Slot) (a : Fin 8) (n : Nat)
  /-- VSHRN (R155): The CSP instruction VSHRN shifts ACC lanes right and narrows them with saturation. -/
  | vshrn (k : Slot) (t : Lt) (d : Fin 32) (a : Fin 8) (n : Nat) (h : Bool)
  /-- VFADD (R156): The CSP instruction VFADD adds floating lanes. -/
  | vfadd (k : Slot) (t : Lt) (d u v : Fin 32)
  /-- VFMUL (R156): The CSP instruction VFMUL multiplies floating lanes. -/
  | vfmul (k : Slot) (t : Lt) (d u v : Fin 32)
  /-- VFMA (R156): The CSP instruction VFMA performs a fused multiply-add on floating lanes. -/
  | vfma (k : Slot) (t : Lt) (d u v : Fin 32)
  /-- VCVT (R157): The CSP instruction VCVT converts between lane types. -/
  | vcvt (k : Slot) (t : Cvt) (d u : Fin 32) (h : Bool)
  /-- VFUNC (R156): The CSP instruction VFUNC computes EXP2, RCP or RSQ, correctly rounded. -/
  | vfunc (k : Slot) (f : Func) (d u : Fin 32)
  /-- VRMAX (R157): The CSP instruction VRMAX finds the largest lane and its index. -/
  | vrmax (k : Slot) (t : Lt) (d u : Fin 32)
  /-- VRSUM (R157): The CSP instruction VRSUM sums the lanes. -/
  | vrsum (k : Slot) (t : Lt) (d u : Fin 32)
  /-- MOVP (R157): The CSP instruction MOVP sets a P register. -/
  | movp (k : Slot) (p : Fin 16) (v : Scalar)
  /-- ADDP (R157): The CSP instruction ADDP adds to a P register. -/
  | addp (k : Slot) (p : Fin 16) (v : Scalar)
  /-- MOVM (R157): The CSP instruction MOVM sets an M register. -/
  | movm (k : Slot) (m : Fin 16) (v : Scalar)
  /-- SETB (R152): The CSP instruction SETB sets a circular base register, clearing bits [5:0]. -/
  | setb (k : Slot) (b : Fin 8) (v : Scalar)
  /-- SETL (R152): The CSP instruction SETL sets a circular length register, clearing bits [5:0]. -/
  | setl (k : Slot) (l : Fin 8) (v : Scalar)
  /-- VMOVS (R157): The CSP instruction VMOVS moves one 32-bit lane into an M register. -/
  | vmovs (k : Slot) (m : Fin 16) (u : Fin 32) (i : Fin 16)
  /-- DBNZ (R157): The CSP instruction DBNZ decrements an M register and branches if it is not zero. -/
  | dbnz (k : Slot) (m : Fin 16) (t : Fin 1024)
  /-- REP (R158): The CSP instruction REP repeats the next bundle n times without interruption. -/
  | rep (k : Slot) (n : Nat)
  /-- CSP_WAITB (R157): The CSP instruction WAITB makes the context wait for the next clove boundary. -/
  | cspWaitb (k : Slot)
  /-- WAITC (R163): The CSP instruction WAITC waits until a write or drain counter reaches a target. -/
  | waitc (k : Slot) (src : Fin 32) (m : Fin 16)
  /-- FSET (R164): The CSP instruction FSET defines a fence window. -/
  | fset (k : Slot) (f : Fin 8) (p m : Fin 16)
  /-- FCLOSE (R164): The CSP instruction FCLOSE closes a fence. -/
  | fclose (k : Slot) (f : Fin 8)
  /-- FOPEN (R164): The CSP instruction FOPEN opens a fence once every earlier store has completed. -/
  | fopen (k : Slot) (f : Fin 8)
  /-- HALT (R157): The CSP instruction HALT ends the program and sends CSP_HALT. -/
  | halt (k : Slot) (code : BitVec 8)
  /-- CSP_TIMESLICE (R144): The running CSP context reaches 4,096 cycles of run time and yields to the next ready context. -/
  | cspTimeslice (c : Fin 20)
  /-- CSP_PARITY_ERROR (R168): A register-file parity error stops every context that uses the file and takes the cluster out of service. -/
  | cspParityError (c : Fin 20) (users : BitVec 4)
  /-- GET_VERSION (R372): The command negotiates the interface version of a ring set. -/
  | getVersion (r : RingId) (k : Pkt)
  /-- POOL_AUTH (R363): The command issues a nonce or checks the pool manager's certificate chain and signatures. -/
  | poolAuth (r : RingId) (k : Pkt)
  /-- SPDM (R378): The command carries an SPDM request to the device's responder. -/
  | spdm (r : RingId) (k : Pkt)
  /-- SPDM_DOE_REQUEST (R378): An SPDM request arrives through a function's PCIe Data Object Exchange capability. -/
  | spdmDoeRequest (port : Fin 4) (req : List Byte)
  /-- TIME_CONFIG (R377): The command sets the unicast addresses and VLAN of a G.8275.2 domain. -/
  | timeConfig (r : RingId) (k : Pkt)
  /-- TIME_FREERUN (R377): The command steps the clock once and starts free-running clove boundaries. -/
  | timeFreerun (r : RingId) (k : Pkt)
  /-- CLOVE_PROG_LOAD (R389): The command writes a clove program image into the inactive buffer. -/
  | cloveProgLoad (r : RingId) (k : Pkt)
  /-- CLOVE_PROG_COMMIT (R389): The command makes the loaded clove program active at a named boundary. -/
  | cloveProgCommit (r : RingId) (k : Pkt)
  /-- PART_CREATE (R323): The command creates a partition with its resources, key, zeroed pages and reset notice. -/
  | partCreate (r : RingId) (k : Pkt)
  /-- PART_DESTROY (R324): The command stops a partition, zeroises its key and returns its resources. -/
  | partDestroy (r : RingId) (k : Pkt)
  /-- PART_RESET (R341): The command stops a partition's work, aborts its commands and advances its generation. -/
  | partReset (r : RingId) (k : Pkt)
  /-- PART_FREEZE (R346): The command freezes a partition at a named or earliest clove. -/
  | partFreeze (r : RingId) (k : Pkt)
  /-- PART_THAW (R346): The command restarts a frozen partition at a named or earliest clove. -/
  | partThaw (r : RingId) (k : Pkt)
  /-- PART_SAVE (R347): The command writes a sealed image of a frozen partition. -/
  | partSave (r : RingId) (k : Pkt)
  /-- PART_RESTORE (R348): The command loads a sealed image into a new partition. -/
  | partRestore (r : RingId) (k : Pkt)
  /-- DIRTY_SWAP (R345): The command makes the other dirty bitmap active at the next boundary. -/
  | dirtySwap (r : RingId) (k : Pkt)
  /-- MEM_MAP (R326): The command maps a range of virtual pages. -/
  | memMap (r : RingId) (k : Pkt)
  /-- MEM_UNMAP (R326): The command removes the mappings of a range of virtual pages. -/
  | memUnmap (r : RingId) (k : Pkt)
  /-- DESC_CREATE (R122): The command validates a tensor descriptor image and returns a handle. -/
  | descCreate (r : RingId) (k : Pkt)
  /-- DESC_DESTROY (R114): The command destroys a tensor descriptor. -/
  | descDestroy (r : RingId) (k : Pkt)
  /-- CARD_LOAD (R131): The command validates and loads a cardamom program onto an engine. -/
  | cardLoad (r : RingId) (k : Pkt)
  /-- CSP_LOAD (R167): The command validates and loads a CSP program into a context. -/
  | cspLoad (r : RingId) (k : Pkt)
  /-- PROG_LOAD (R376): The command validates a program binary and returns a handle. -/
  | progLoad (r : RingId) (k : Pkt)
  /-- PROG_UNLOAD (R376): The command unloads a program binary. -/
  | progUnload (r : RingId) (k : Pkt)
  /-- TASK_SUBMIT (R329): The command submits a task for placement in a Free partition. -/
  | taskSubmit (r : RingId) (k : Pkt)
  /-- TASK_END (R329): A task's program ends, its groups are freed and its completion is written. -/
  | taskEnd (p : Fin 64) (task : Nat)
  /-- LAUNCH_AT (R241): The command schedules a program to start at an agreed clove under a placement image. -/
  | launchAt (r : RingId) (k : Pkt)
  /-- RUN_END (R249): A launched run ends, DET_END_CLOVE and DET_END_CYCLE are set, and the completion is sent once twin rules allow. -/
  | runEnd (p : Fin 64)
  /-- RU_ADD (R173): The command creates a radio-unit endpoint. -/
  | ruAdd (r : RingId) (k : Pkt)
  /-- RU_REMOVE (R172): The command removes a radio-unit endpoint. -/
  | ruRemove (r : RingId) (k : Pkt)
  /-- RU_STATS (R176): The command returns an endpoint's fronthaul counters. -/
  | ruStats (r : RingId) (k : Pkt)
  /-- CELL_ADD (R179): The command admits and reserves a new cell. -/
  | cellAdd (r : RingId) (k : Pkt)
  /-- CELL_REMOVE (R180): The command removes a cell from a frame boundary. -/
  | cellRemove (r : RingId) (k : Pkt)
  /-- CELL_EXPORT (R349): The command writes a cell's image at a frame boundary and removes the cell. -/
  | cellExport (r : RingId) (k : Pkt)
  /-- CELL_IMPORT (R350): The command admits a cell from an exported image. -/
  | cellImport (r : RingId) (k : Pkt)
  /-- RAD_CLAIM (R337): The command claims general array groups for whole frames. -/
  | radClaim (r : RingId) (k : Pkt)
  /-- FAB_DMA (R282): The command moves up to 64 segments over the fabric. -/
  | fabDma (r : RingId) (k : Pkt)
  /-- DMA_SEGMENT_COMMIT (R283): A staged segment has fully arrived, is committed to memory, and sends its flag store. -/
  | dmaSegmentCommit (a : DmaArrive)
  /-- FAB_INVAL (R276): The command removes the partition's cached remote lines for a range. -/
  | fabInval (r : RingId) (k : Pkt)
  /-- FAB_EXPORT (R268): The command fills an export entry and writes the page list. -/
  | fabExport (r : RingId) (k : Pkt)
  /-- FAB_UNEXPORT (R268): The command removes an export entry. -/
  | fabUnexport (r : RingId) (k : Pkt)
  /-- NET_QP_CREATE (R295): The command creates a connected RoCE queue pair. -/
  | netQpCreate (r : RingId) (k : Pkt)
  /-- NET_QP_DESTROY (R295): The command destroys a queue pair, aborting its entries. -/
  | netQpDestroy (r : RingId) (k : Pkt)
  /-- NET_MR_REG (R298): The command registers a memory region for remote access. -/
  | netMrReg (r : RingId) (k : Pkt)
  /-- NET_MR_DEREG (R298): The command deregisters a memory region. -/
  | netMrDereg (r : RingId) (k : Pkt)
  /-- NET_RAW_CFG (R300): The command sets up or stops the raw transmit and receive rings. -/
  | netRawCfg (r : RingId) (k : Pkt)
  /-- SVC_CLUSTER_TEST (R413): The command takes a cluster out of service and tests it. -/
  | svcClusterTest (r : RingId) (k : Pkt)
  /-- CLUSTER_TEST_START (R415): After a CSP parity error the control core starts the cluster test once R413's conditions first allow it. -/
  | clusterTestStart (c : Fin 20)
  /-- CLUSTER_TEST_END (R414): The cluster test ends, passing arrays return to service and the result is reported. -/
  | clusterTestEnd (c : Fin 20) (found : ClusterTest)
  /-- CLUSTER_TEST_TIMEOUT (R414): A cluster test not ended within 400 cloves completes with TIMEOUT. -/
  | clusterTestTimeout (c : Fin 20)
  /-- SVC_ENGINE_BYPASS (R416): The command takes a coding-engine instance out of service or self-tests it and returns it. -/
  | svcEngineBypass (r : RingId) (k : Pkt)
  /-- SVC_PC_RETIRE (R418): The command moves every page off a pseudo-channel and retires it. -/
  | svcPcRetire (r : RingId) (k : Pkt)
  /-- NONCE (R396): The security request writes a fresh nonce into the request block. -/
  | nonce
  /-- TAMPER_CLEAR (R405): The security request clears the tamper latch and cause bits. -/
  | tamperClear
  /-- SVN_RAISE (R397): The security request raises the fused minimum SVN of an image type. -/
  | svnRaise
  /-- LIFE_ADVANCE (R391): The security request advances the lifecycle fuses to the next state. -/
  | lifeAdvance
  /-- DEBUG_DISABLE (R392): The security request blows DEBUG_DIS and closes the debug port. -/
  | debugDisable
  /-- ROOT_SET (R397): The security request programs the operator root hash once. -/
  | rootSet
  /-- SEAL_KEY (R401): The security request installs the volatile seal key from a capsule. -/
  | sealKey
  /-- PUSH (R359): A BOOT_CTL write pushes an image to the boot ROM for verification. -/
  | push
  /-- IMAGE_VERIFIED (R360): Image verification ends, LAST_STATUS is written, the image is accepted and measured or rejected, and STATE
  returns to WAIT_IMG. -/
  | imageVerified
  /-- START (R361): A BOOT_CTL write starts the firmware once all five image types are accepted. -/
  | start
  /-- BOOT_READY (R361): Start-up completes and STATE becomes READY. -/
  | bootReady
  /-- START_TIMEOUT (R361): The device is not ready 2 s after START and halts with cause 0x06. -/
  | startTimeout
  /-- RESET (R358): A BOOT_CTL write with the right key causes a device reset. -/
  | reset (key : BitVec 16)
  /-- FUNCTION_LEVEL_RESET (R357): A Function Level Reset or hot reset of a function resets the device, a host's partitions or one
  partition. -/
  | functionLevelReset (f : Fn)
  /-- PERST_N_LOW (R435): perst_n of a port goes low, causing a device reset for port 0 or a host reset otherwise. -/
  | perstNLow (port : Fin 4)
  /-- PERST_N_RISE (R435): With pwr_ok and perst_n both high, a PCIe port starts link training. -/
  | perstNRise (port : Fin 4)
  /-- POWER_ON_RESET (R357): por_n goes low and everything, including the always-on domain, is reset. -/
  | powerOnReset
  /-- POR_N_RISE (R433): por_n rises and the package leaves RESET. -/
  | porNRise (pwrOk : Bool)
  /-- PWR_OK_FALL (R434): pwr_ok falls, the main domain is reset and only the seal key is kept. -/
  | pwrOkFall
  /-- PWR_OK_RISE (R434): pwr_ok rises and the package starts from sleep. -/
  | pwrOkRise
  /-- TAMPER_ALARM (R403): A tamper monitor raises an alarm and the device responds according to its state. -/
  | tamperAlarm (causes : BitVec 5)
  /-- DEBUG_ACCESS (R392): The first internal debug-port access in DEVELOPMENT zeroises the key store before it is served. -/
  | debugAccess
  /-- THERMAL_TRIP (R439): A sensor reads 115 °C or more for 10 µs, and the main clocks stop and thermtrip_n falls. -/
  | thermalTrip
  /-- CLUSTER_IDLE_OFF (R385): A cluster unheld for 80 consecutive cloves is set to OFF. -/
  | clusterIdleOff (c : Fin 20)
  /-- DOMAIN_IDLE_OFF (R436): A switched domain whose on-condition has been false for 80 consecutive cloves is switched off. -/
  | domainIdleOff (d : Domain)
  /-- CMD_DOORBELL (R365): A write of CMD_TAIL makes firmware fetch commands, or stops the ring with FAULT on a bad index. -/
  | cmdDoorbell (r : RingId) (tail : BitVec 16)
  /-- CPL_HEAD_WRITE (R369): The host advances CPL_HEAD, and held completions are written. -/
  | cplHeadWrite (r : RingId) (head : BitVec 16)
  /-- RING_ENABLE (R370): A write of RING_CTL.EN stops fetching or enables the ring, resetting its indices. -/
  | ringEnable (r : RingId) (en : Bool)
  /-- RING_ENABLE_DEFERRED (R370): A pending enable takes effect when IDLE becomes 1. -/
  | ringEnableDeferred (r : RingId)
  /-- GENERATION_WRAP (R342): Once the host has consumed every completion, the generation advances from 0xFFFF to 0x0001. -/
  | generationWrap (p : Fin 64)
  /-- AUTH_LOCKOUT_EXPIRY (R363): The 60 s lockout after three failed POOL_AUTH attempts ends. -/
  | authLockoutExpiry
  /-- HOST_LINK_DOWN (R371): A host port's link goes down, fetching stops and records are held. -/
  | hostLinkDown (port : Fin 4)
  /-- HOST_LINK_UP (R371): A host port's link returns and held records are written in order. -/
  | hostLinkUp (port : Fin 4)
  /-- STEP_MARK (R424): A write of STEP_MARK ends a step and records its time. -/
  | stepMark (p : Fin 64) (v : Word)
  /-- SNAP (R221): A write of TIME_CTL.SNAP latches the snapshot registers from one instant. -/
  | snap
  /-- ACTIVE_REQ (R216): A write of TIME_CTL.ACTIVE_REQ requests a switch to a domain. -/
  | activeReq (d : Bool)
  /-- DOMAIN_ACQUIRE (R213): A domain completes 16 s of acquisition, the clock is stepped once and CLOVE_RUN becomes 1.
  frac is what its estimate has below one ns. -/
  | domainAcquire (d : Bool) (frac : BitVec 16)
  /-- DOMAIN_LOCK (R215): A domain holds its offset within ±50 ns for 16 s and becomes locked. -/
  | domainLock (d : Bool)
  /-- ANNOUNCE_TIMEOUT (R215): No Announce message arrives within the receipt timeout and the domain loses lock. -/
  | announceTimeout (d : Bool)
  /-- CLOVE_MARKER_RX (R226): A clove marker arrives and is validated, and clove phase is aligned to it. -/
  | cloveMarkerRx (link : Fin 24) (m : Marker)
  /-- MARKER_TIMEOUT (R227): No valid marker arrives for 8 cloves, and the chip clears MARK_SRC. -/
  | markerTimeout
  /-- PPS_IN_EDGE (R438): A rising edge of pps_in is stamped into PPS_IN_STAMP. -/
  | ppsInEdge
  /-- FLIT_RX (R253): A received flit is checked, and it is acknowledged or discarded for replay. -/
  | flitRx (link : Fin 24) (f : Flit)
  /-- LINK_TRAIN_ATTEMPT (R254): An enabled link that is down starts a training attempt through its stages. -/
  | linkTrainAttempt (link : Fin 24) (o : Training)
  /-- TRAIN_STAGE_TIMEOUT (R254): A training stage or the whole attempt exceeds its limit and the attempt fails into backoff. -/
  | trainStageTimeout (link : Fin 24)
  /-- PARTNER_SILENCE (R255): The partner sends no training sequence for 1 ms and the attempt fails. -/
  | partnerSilence (link : Fin 24)
  /-- LANE_LOCK_LOSS (R257): A lane of an up link loses lock and a fast retrain starts. -/
  | laneLockLoss (link : Fin 24) (lane : Fin 4)
  /-- LANE_LOCK_TIMEOUT (R257): After 8 µs, unlocked lanes are excluded and the link resumes at the widest width, or goes down. -/
  | laneLockTimeout (link : Fin 24) (locked : BitVec 4)
  /-- RETRAIN (R257): A write of LINK_CFG.RETRAIN starts a fast retrain. -/
  | retrain (link : Fin 24)
  /-- SERVICE (R262): A write of LINK_CFG.SERVICE clears retired lanes and retrains the link. -/
  | service (link : Fin 24)
  /-- RETRAIN_REQUEST_RX (R258): A retrain request from the partner arrives and merges with any own request. -/
  | retrainRequestRx (m : RetrainMsg)
  /-- PATH_DOWN (R285): A PATH_DOWN notice arrives, and the plane is removed for that node with resends. -/
  | pathDown (plane : Fin 18) (node : Fin 64)
  /-- LINK_REKEY (R400): A link's flit counter or hourly limit is reached, and the sender moves to the next key epoch. -/
  | linkRekey (link : Fin 24)
  /-- LOAD (R269): The fabric operation Load is issued from a FAB_OP entry or a cardamom read. -/
  | load (c : FabSource) (p : Fin 64) (e : List Word)
  /-- STORE (R269): The fabric operation Store is issued. -/
  | store (c : FabSource) (p : Fin 64) (e : List Word)
  /-- STORE_WITH_ORDERED_FLAG (R272): The fabric operation Store-with-ordered-flag is issued. -/
  | storeWithOrderedFlag (c : FabSource) (p : Fin 64) (e : List Word)
  /-- ATOMIC_ADD (R270): The fabric operation Atomic add is issued, or refused in Determined mode for FP types. -/
  | atomicAdd (c : FabSource) (p : Fin 64) (e : List Word)
  /-- ATOMIC_MIN (R269): The fabric operation Atomic min is issued. -/
  | atomicMin (c : FabSource) (p : Fin 64) (e : List Word)
  /-- ATOMIC_MAX (R269): The fabric operation Atomic max is issued. -/
  | atomicMax (c : FabSource) (p : Fin 64) (e : List Word)
  /-- COMPARE_AND_SWAP (R269): The fabric operation Compare-and-swap is issued. -/
  | compareAndSwap (c : FabSource) (p : Fin 64) (e : List Word)
  /-- FAB_OP_INVAL (R276): A FAB_OP entry with OP 7 invalidates the partition's cached lines for a range. -/
  | fabOpInval (c : FabSource) (p : Fin 64) (e : List Word)
  /-- FABRIC_ROUTER_RX (R277): A request reaches a router or switch, where it is combined, flushes an entry or is forwarded. -/
  | fabricRouterRx (q : Rx FabReq)
  /-- COMBINE_TIMEOUT (R278): A combining entry's 64 ns hold ends and one merged request is forwarded. -/
  | combineTimeout
  /-- FABRIC_REQUEST_RX (R267): A fabric request reaches its destination and is checked, deduplicated and applied or denied. -/
  | fabricRequestRx (q : Rx FabReq) (ecc : Ecc)
  /-- ORDERED_FLAG_APPLY (R272): A held ordered flag is applied once every earlier store and atomic of its source has been applied. -/
  | orderedFlagApply (node : Fin 64) (part : Fin 64)
  /-- FABRIC_RESPONSE_RX (R273): A response arrives at the source and completes the request. -/
  | fabricResponseRx (a : Rx FabResp)
  /-- FAB_TIMEOUT (R281): A fabric request gets no response within FAB_CFG.TIMEOUT and completes with TIMEOUT. -/
  | fabTimeout (node : Fin 64) (seq : Word)
  /-- RESET_NOTICE_RX (R351): A reset notice arrives, is written to PEER_GEN and is acknowledged. -/
  | resetNoticeRx (node : Rx (Fin 64)) (part : Fin 64) (gen : BitVec 16)
  /-- RESET_NOTICE_ACK_RX (R351): An acknowledgement of a reset notice arrives. -/
  | resetNoticeAckRx (node : Rx (Fin 64)) (part : Fin 64)
  /-- RESET_NOTICE_RESEND (R351): After 1 ms the notice is resent to unacknowledged nodes and the command may complete. -/
  | resetNoticeResend (part : Fin 64)
  /-- TWIN_SIGNATURE_RX (R246): The twin's signature message arrives and is compared with the chip's own signatures. -/
  | twinSignatureRx (p : Fin 64) (m : Rx TwinMsg)
  /-- TWIN_LOST (R245): A twin message has not arrived by cycle 200,000 and comparison is suspended. -/
  | twinLost (p : Fin 64)
  /-- FREEZE_NOTICE_RX (R247): A twin freeze notice arrives and the run is frozen at the next allowed boundary. -/
  | freezeNoticeRx (p : Fin 64) (runId : Rx Word)
  /-- ETH_RX_FRAME (R291): A received Ethernet frame is classified and delivered or dropped. -/
  | ethRxFrame (f : RxFrame)
  /-- RATE_INCREASE (R293): After 55 µs without a notification the QP's rate rises by 5 % of the subport rate. -/
  | rateIncrease (qp : BitVec 16)
  /-- ACK_TIMEOUT (R296): A QP's retransmit timeout expires and it retransmits or enters error. -/
  | ackTimeout (qp : BitVec 16)
  /-- NET_SQ_DB (R297): The send-queue doorbell posts send entries, which are run in ring order. -/
  | netSqDb (p : Fin 64) (v : Word)
  /-- NET_RQ_DB (R297): The receive-queue doorbell posts receive entries. -/
  | netRqDb (p : Fin 64) (v : Word)
  /-- NET_CQ_DB (R299): The completion-queue doorbell advances the consumer index. -/
  | netCqDb (p : Fin 64) (v : Word)
  /-- NET_RAW_TX_TAIL (R300): The raw transmit doorbell makes the device check and enqueue frames. -/
  | netRawTxTail (p : Fin 64) (v : Word)
  /-- NET_RAW_RX_TAIL (R300): A write posts raw receive entries. -/
  | netRawRxTail (p : Fin 64) (v : Word)
  /-- FRAME_TX_DONE (R304): A subport finishes a frame and picks the next RADIO or WFQ frame. -/
  | frameTxDone (port : Fin 8) (sub : Fin 4)
  /-- RADIO_FRAME_DEADLINE (R305): A RADIO frame reaches its deadline unsent and is removed and counted in TX_LATE. -/
  | radioFrameDeadline (q : Fin 4096)
  /-- SUBPORT_DOWN (R314): A subport goes down, ETH_PORT_DOWN is sent and the SHARED hold starts. -/
  | subportDown (port : Fin 8) (sub : Fin 4)
  /-- SUBPORT_UP (R316): A subport returns, ETH_PORT_UP is sent and the queues resume. -/
  | subportUp (port : Fin 8) (sub : Fin 4)
  /-- HOLD_EXPIRY (R316): A hold ends without a return and the subport's SHARED frames are flushed. -/
  | holdExpiry (port : Fin 8) (sub : Fin 4)
  /-- RX_WINDOW_CLOSE (R175): A symbol's reception window closes and unwritten granules are poisoned. -/
  | rxWindowClose (cell : Fin 512) (stream : Fin 2048) (slot : Nat) (sym : Fin 14)
  /-- DL_CPLANE_SEND (R176): The fronthaul engine sends a slot's C-plane messages in their window. -/
  | dlCplaneSend (cell : Fin 512) (slot : Nat) (msgs : List CpMsg)
  /-- DL_UPLANE_SEND (R176): The fronthaul engine maps, compresses and sends a symbol's U-plane messages in their window. -/
  | dlUplaneSend (cell : Fin 512) (slot : Nat) (sym : Fin 14) (msgs : List DlSection)
  /-- TX_LATE (R176): A section not ready or poisoned by the end of its window is not sent, and DEADLINE_MISS is raised. -/
  | txLate (cell : Fin 512) (slot : Nat) (sym : Fin 14) (part : LateSect)
  /-- AGC_UPDATE (R182): After each part of a symbol the AGC measures power and updates its gain. -/
  | agcUpdate (stream : Fin 2048) (part : SymPart)
  /-- SEARCH_DETECTION (R187): A lane declares a detection, latches its measurements, freezes the AGC and writes CORR. -/
  | searchDetection (lane : Fin 64) (m : Detection)
  /-- LDPC_JOB (R198): An LDPC decoder or encoder takes a job and runs it. -/
  | ldpcJob (w : List Word)
  /-- POLAR_JOB (R201): A polar unit takes a list-8 decode or encode job. -/
  | polarJob (j : Polar)
  /-- TRL_JOB (R203): A trellis unit takes a Viterbi, turbo or encode job. -/
  | trlJob (w : List Word)
  /-- JOB_DEADLINE (R197): A coding job that has not started by its deadline completes with DEADLINE and poisoned output. -/
  | jobDeadline (pool : Fin 4)
  /-- CODING_JOB_END (R197): A coding job ends, its output is written and its completion is posted. -/
  | codingJobEnd (pool : Fin 4) (n : Fin 16)
  /-- ENGINE_FAULT (R417): A coding-engine instance fails a check, is bypassed, and its job runs again elsewhere. -/
  | engineFault (pool : Fin 4) (n : Fin 16)
  /-- CLOVE_TIMER (R388): A clove-program timer fires in its cycle and posts CLOVE_TIMER. -/
  | cloveTimer (i : Fin 512)
  /-- SCRUB_READ (R408): The scrubber reads a granule, correcting it or poisoning it and logging the address. -/
  | scrubRead (granule : Nat) (found : Ecc)
  /-- UART_FRAME_RX (R425): The UART receives a frame, storing the byte or counting a framing or overrun error. -/
  | uartFrameRx (f : UartFrame)
  /-- UART_RX_READ (R426): A read of UART_RX returns the byte and clears VALID. -/
  | uartRxRead
  /-- REGISTER_WRITE (R11): A write to a register without a row of its own acts by its access codes, including W1C clears and WOS or RWL
  violations. -/
  | registerWrite (f : Fn) (off : BitVec 26) (v : Word)
  /-- LINK_UP (R254): A training attempt completes its SECURE stage and the link reaches UP, joining the fabric path sets and starting
  to carry traffic and clove markers. -/
  | linkUp (link : Fin 24)
  /-- PAUSE_EXPIRY (R294): The pause time of an obeyed IEEE 802.1Qbb pause frame for priority i runs out, and the port sends on that
  priority again. -/
  | pauseExpiry (port : Fin 8) (sub : Fin 4) (pri : Fin 8)
  /-- SHAPER_CREDIT_ZERO (R308): A shaped queue's credit climbs back to 0, its head frame becomes eligible, and an idle subport starts
  sending it. -/
  | shaperCreditZero (q : Fin 4096)
  /-- PPS_OUT_RISE (R438): At each second of the clock, with PPS_OUT_EN set, pps_out rises within ±2 ns. -/
  | ppsOutRise
  /-- PPS_OUT_FALL (R438): 100 ms after each rise, pps_out falls. -/
  | ppsOutFall
deriving DecidableEq, Repr

end Sys2Proof
end

