-- ==== Sys2Proof/Config.lean ====
section
/-! DEFINITION. What an implementation fixes and what the manual leaves open: free values, opaque constants with no body. -/

namespace Sys2Proof.Config

open Sys2Proof

/-- A free value of w bits by a counter: random words, tags, nonces, keys (log entry 3). -/
opaque freeValue (w : Nat) (n : Nat) : BitVec w

/-- SHA-384 of bytes (log entry 10). -/
opaque sha384 (bs : List Byte) : BitVec 384

/-- Both signatures of a firmware image verify under the key set, development or production (R360, log entry 10). -/
opaque imageSigOk (dev : Bool) (hash : BitVec 384) (sigBlock : List Byte) : Bool

/-- The certificate chain of a token ends at the root hash, its leaf carries both keys, and both signatures verify over the
message (R363, R396, log entry 10). -/
opaque tokenOk (root : BitVec 384) (message : List Byte) (token : List Byte) : Bool

/-- The seal key that a capsule carries, if it opens (R401, log entry 10). -/
opaque openCapsule (capsule : List Byte) : Option (BitVec 256)

/-- Seal an image under the seal key with a salt and a header (R402, log entry 10). -/
opaque sealImage (key : BitVec 256) (salt : BitVec 256) (header : List Byte) (plain : List Byte) : List Byte

/-- Open a sealed image: none where a tag fails (R402, log entry 10). -/
opaque openImage (key : BitVec 256) (sealedImage : List Byte) : Option (List Byte)

/-- The boot ROM hash of stepping B1 (R378, log entry 10). -/
opaque romHash : BitVec 384

/-- The SPDM responder's answer and its next connection state: whether the identity keys are there, measurements 1 to 8, the
measurement manifest and the request (R378, log entry 10). -/
opaque spdmAnswer (ident : Bool) (conn : Nat) (meas : List (BitVec 384)) (manifest : List Byte) (req : List Byte) :
    List Byte × Nat

/-- The CSP instruction that a word encodes in a slot (0 A, 1 B, 2 V, 3 S): none where it is unknown, some none for an empty
slot (R157 gives no encoding, log entry 13). -/
opaque cspDecode (slot : Nat) (w : Word) : Option (Option Instr)

/-- The lanes of VRSUM above lane 0, by the lane width and the source register (R157 states nothing of them, log entry 30). -/
opaque rsumRest (w : Nat) (v : BitVec 512) : BitVec 512

/-- The rotation of a CI16 sample by exp(-j 2 pi f tau) (R184 names no width or rounding, log entry 12). tau is in ns. -/
opaque ncoRotate (sample : Word) (freq : Int) (tauNs : Nat) : Word

/-- The mean power of samples in steps of 0.25 dBFS, by the sum of their squares and their count (R182 names neither the reference
nor the rounding, log entry 12). -/
opaque powerDb (sum count : Nat) : Int

/-- A part's mantissa is rounded up (R170 names no rounding, log entry 12). -/
opaque bfpUp (x : Int) (e : Nat) : Bool

/-- A part of a constellation point is rounded up (R194 names no rounding, log entry 12). -/
opaque qamUp (amp h : Nat) (k : Int) : Bool

/-- The granule of a cluster's SRAM where a buffer of a cell starts, by its use (0 uplink, 1 PRACH, 2 mapped downlink, 3 precoded
downlink), slot and symbol (R182 and R194 name no address, log entry 12). -/
opaque symBuffer (cell : List Word) (use slot sym : Nat) : Nat

/-- The initial value of the Gold sequence of a channel, and the place in it of a section's first bit (R194 leaves both to the
channel, log entry 12): the cell, its SFN and hyper-frame number, the slot in the frame, the symbol, the eAxC ID and the section. -/
opaque scramble (cell : List Word) (sfn hfn slot sym eaxc sect : Nat) : Nat × Nat

/-- The payload of a modulation-compressed section of scrambled bits (R170, R194, log entry 12). -/
opaque modCompress (order : Nat) (bits : List Bool) : List Byte

/-- The compensation value in ns of a one-way delay response (R170, log entry 12). -/
opaque delayCompensation (port sub : Nat) : Nat

/-- The shift of a base graph's entry in a row and column for a set of lifting sizes, none where the graph has no entry
(TS 38.212, which R198 names and the manual does not repeat, log entry 11). -/
opaque ldpcShift (bg2 : Bool) (set row col : Nat) : Option Nat

/-- A parity bit of an LDPC code word, by its place in it (log entry 11). -/
opaque ldpcParity (w : List Word) (info : List Bool) (i : Nat) : Bool

/-- The hard decision of a code-word bit after an iteration of layered min-sum (R198 fixes neither widths nor scaling, log entry
11). -/
opaque ldpcHard (w : List Word) (soft : List Int) (iter i : Nat) : Bool

/-- What a second soft bit for the same position of the circular buffer leaves there (R198 does not say, log entry 11). -/
opaque llrRepeat (old new : Int) : Int

/-- CRC_OK of a job without a CRC (R200 does not say, log entry 11). -/
opaque noCrcOk : Bool

/-- Path i of the eight that a list decoder is left with: its information bits and its metric (R201 fixes neither the metric's
arithmetic nor the paths' numbers, log entry 11). -/
opaque polarPath (j : Polar) (llr : List Int) (i : Nat) : List Bool × BitVec 32

/-- One window of a constituent pass: from its steps (systematic, parity, a priori) and the metrics at its two ends, the extrinsic
values before scaling, the hard decisions, and the metrics that the recursions leave at its end and at its start (R205, log entry
11). -/
opaque turboWindow (w : List Word) (steps : List (Int × Int × Int)) (fwd bwd : List Int) :
    List Int × List Bool × List Int × List Int

/-- The metrics that a training run over some steps leaves at a window's boundary (R205, log entry 11). -/
opaque turboTrain (w : List Word) (back : Bool) (steps : List (Int × Int × Int)) : List Int

/-- The metrics at the start of a block, or at its end by its tail (R205, log entry 11). -/
opaque turboEdge (w : List Word) (back : Bool) (tail : List (Int × Int)) : List Int

/-- The offset in ns and the frequency in ppb that a PTP servo estimates from a received message: its old estimates, the clock's
reading at the message's start of frame and as its own last request left, and the message (R210, R215, log entry 17). -/
opaque ptpEstimate (dom : Nat) (old freq : Int) (cameNs sentNs : Nat) (frame : List Byte) : Int × Int

/-- The announce receipt timeout of a profile, in array cycles (R215, log entry 17). -/
opaque announceTimeout (profile : Bool) : Nat

/-- The clock identity of the PTP slave of a domain, and the MAC addresses of its requests: its own, and that of the next hop to a
unicast master (R209, log entry 17). -/
opaque ptpIdentity (dom : Nat) : BitVec 80
opaque ptpOwnMac (dom : Nat) : BitVec 48
opaque ptpHopMac (dom : Nat) : BitVec 48

/-- The validity word of a cell image (R349, log entry 37). -/
opaque validityWord : BitVec 64

/-- The key of a link's direction in an epoch: HKDF-Expand(PRK, "TL-KEY" ‖ d ‖ k, 32) (R400). -/
opaque linkKey (prk : BitVec 384) (d : Bool) (k : Nat) : BitVec 256

/-- The fixed hash of R271 of a line address and a path number (log entry 18). -/
opaque pathHash (line : Nat) (path : Nat) : Nat

/-- Where in the weight buffer of a Saffron array the resident DFT tile stands, in 512-byte units (R193, log entry 12). -/
opaque dftOffset : Nat

/-- The granule that a fabric store of part of it enters into a signature: its offset in the granule and its bytes (R244,
log entry 24). -/
opaque partialGranule (off : Nat) (bs : List Byte) : BitVec 512

/-- The tag of a weight-buffer granule in a signature: logical array and byte offset (R244 names no space for it, log entry
24). -/
opaque wbTag (array off : Nat) : Nat

end Sys2Proof.Config
end

