-- ==== Sys2Proof/Machine/Bits.lean ====
section
/-! DEFINITION. Bit fields, byte order, saturation, sparse tables and the fixed hash functions of the manual. -/

namespace Sys2Proof.Machine

open Sys2Proof

/-- Bits [h:l] of a word as a number (R8). -/
def fld (w : Word) (h l : Nat) : Nat := (w.toNat >>> l) % 2 ^ (h - l + 1)

/-- Bit i of a word (R8). -/
def bit (w : Word) (i : Nat) : Bool := w.getLsbD i

/-- A Bool as a number. -/
def b2n (b : Bool) : Nat := if b then 1 else 0

/-- Word i of a list of words; a missing word reads 0. -/
def wd (ws : List Word) (i : Nat) : Word := ws.getD i 0

/-- A 48-bit field in two words, [31:0] in the first and [47:32] in the second. -/
def fld48 (ws : List Word) (i : Nat) : Nat := (wd ws i).toNat + 2 ^ 32 * fld (wd ws (i + 1)) 15 0

/-- A 64-bit field in two words. -/
def fld64 (ws : List Word) (i : Nat) : Nat := (wd ws i).toNat + 2 ^ 32 * (wd ws (i + 1)).toNat

/-- The n low bytes of a number, least significant first (R8). -/
def leBytes : Nat → Nat → List Byte
  | 0, _ => []
  | n + 1, v => BitVec.ofNat 8 v :: leBytes n (v / 256)

/-- The number that bytes spell, least significant first (R8). -/
def ofLe : List Byte → Nat
  | [] => 0
  | b :: bs => b.toNat + 256 * ofLe bs

/-- Words of a byte list, four bytes each (R8). -/
def wordsOf : Nat → List Byte → List Word
  | 0, _ => []
  | n + 1, bs => BitVec.ofNat 32 (ofLe (bs.take 4)) :: wordsOf n (bs.drop 4)

/-- Bytes of words (R8). -/
def bytesOfWords (ws : List Word) : List Byte := ws.flatMap (fun w => leBytes 4 w.toNat)

/-- ceil(a / b). -/
def ceilDiv (a b : Nat) : Nat := (a + b - 1) / b

/-- Add with saturation at a maximum (the saturating counters of the manual). -/
def satAdd (max a b : Nat) : Nat := Nat.min max (a + b)

/-- Clamp an integer to a range. -/
def clampInt (lo hi x : Int) : Int := if x < lo then lo else if hi < x then hi else x

/-- The two's-complement value of the low n bits of a number. -/
def toSigned (n v : Nat) : Int :=
  let u := v % 2 ^ n
  if 2 * u < 2 ^ n then (u : Int) else (u : Int) - (2 ^ n : Nat)

/-- The low n bits of an integer. -/
def ofSigned (n : Nat) (x : Int) : Nat := (x % ((2 ^ n : Nat) : Int)).toNat

/-- The signed comparison of R222 and R163: (s32)(a - b). -/
def s32Diff (a b : Nat) : Int := toSigned 32 (ofSigned 32 ((a : Int) - (b : Int)))

/-- Look a key up in a table; an unlisted key reads the default. -/
def tabGet {α : Type} (d : α) : Tab α → Nat → α
  | [], _ => d
  | (k, v) :: t, i => if k = i then v else tabGet d t i

/-- Write a key of a table, keeping keys rising and dropping an entry equal to the default. -/
def tabSet {α : Type} [DecidableEq α] (d : α) : Tab α → Nat → α → Tab α
  | [], i, v => if v = d then [] else [(i, v)]
  | (k, w) :: t, i, v =>
    if i < k then (if v = d then (k, w) :: t else (i, v) :: (k, w) :: t)
    else if k = i then (if v = d then t else (i, v) :: t)
    else (k, w) :: tabSet d t i v

/-- Apply a function to one key of a table. -/
def tabMod {α : Type} [DecidableEq α] (d : α) (t : Tab α) (i : Nat) (f : α → α) : Tab α :=
  tabSet d t i (f (tabGet d t i))

/-- The canonical form of a table whose keys are at or above lo: keys rising, no entry equal to the default. -/
def tabWfFrom {α : Type} [DecidableEq α] (d : α) : Nat → Tab α → Bool
  | _, [] => true
  | lo, (k, v) :: t => decide (lo ≤ k) && decide (v ≠ d) && tabWfFrom d (k + 1) t

/-- The canonical form of a table. -/
def tabWf {α : Type} [DecidableEq α] (d : α) (t : Tab α) : Bool := tabWfFrom d 0 t

/-- Change every listed value of a table. -/
def tabMapV {α : Type} [DecidableEq α] (d : α) (t : Tab α) (f : α → α) : Tab α :=
  (t.map (fun e => (e.1, f e.2))).filter (fun e => decide (e.2 ≠ d))

/-- Drop every entry whose key fails a test. -/
def tabKeep {α : Type} (p : Nat → Bool) (t : Tab α) : Tab α := t.filter (fun e => p e.1)

/-- One CRC-64 bit step of ECMA-182: polynomial 0x42F0E1EBA9EA3693, no reflection (R244). -/
def crc64Bit (c : BitVec 64) : BitVec 64 :=
  if c.getLsbD 63 then (c <<< 1) ^^^ 0x42F0E1EBA9EA3693#64 else c <<< 1

/-- CRC-64 of ECMA-182 over bytes, from a running value (R244). -/
def crc64From (c : BitVec 64) : List Byte → BitVec 64
  | [] => c
  | b :: bs =>
    let c0 := c ^^^ (b.zeroExtend 64 <<< 56)
    crc64From (crc64Bit (crc64Bit (crc64Bit (crc64Bit (crc64Bit (crc64Bit (crc64Bit (crc64Bit c0)))))))) bs

/-- crc64 of R244: initial value 0, no final exclusive-or. -/
def crc64 (bs : List Byte) : BitVec 64 := crc64From 0 bs

/-- The state of a Philox-4x32-10 round: four counter words and two key words. -/
structure Philox where
  c0 : Nat
  c1 : Nat
  c2 : Nat
  c3 : Nat
  k0 : Nat
  k1 : Nat
deriving DecidableEq, Repr

/-- One round of Philox-4x32 (R107). -/
def philoxRound (p : Philox) : Philox :=
  let p0 := 0xD2511F53 * p.c0
  let p1 := 0xCD9E8D57 * p.c2
  { c0 := ((p1 / 2 ^ 32) ^^^ p.c1) ^^^ p.k0
    c1 := p1 % 2 ^ 32
    c2 := ((p0 / 2 ^ 32) ^^^ p.c3) ^^^ p.k1
    c3 := p0 % 2 ^ 32
    k0 := (p.k0 + 0x9E3779B9) % 2 ^ 32
    k1 := (p.k1 + 0xBB67AE85) % 2 ^ 32 }

/-- n rounds of Philox-4x32. -/
def philoxRounds : Nat → Philox → Philox
  | 0, p => p
  | n + 1, p => philoxRounds n (philoxRound p)

/-- The random word u of a stochastic rounding: word 0 of Philox-4x32-10 (R107). -/
def philoxWord (seedLo seedHi linear c2 tensor : Nat) : Nat :=
  (philoxRounds 10 { c0 := linear % 2 ^ 32, c1 := linear / 2 ^ 32 % 2 ^ 32, c2 := c2 % 2 ^ 32, c3 := tensor % 2 ^ 32,
                     k0 := seedLo % 2 ^ 32, k1 := seedHi % 2 ^ 32 }).c0

/-- Parity of the bits of a number, over n bits (R203). -/
def parity : Nat → Nat → Bool
  | 0, _ => false
  | n + 1, v => xor (v % 2 = 1) (parity n (v / 2))

end Sys2Proof.Machine
end

