-- ==== Sys2Proof/Machine/State.lean ====
section
/-! DEFINITION. The state of the Oliku 7720 as plain data. A field's default is its value after reset.
A table (Tab) holds one record per instance number; an unlisted instance reads the record's default. -/

namespace Sys2Proof.Machine

open Sys2Proof

/-- Bytes by address; an unlisted byte reads 0 (log entry 4). -/
abbrev Mem := List Host.Cell

/-- Memory with one poison bit per 64-byte granule (R409). -/
structure PMem where
  mem : Mem := []
  psn : Tab Bool := []
deriving DecidableEq, Repr

/-! ### Time (07) -/

/-- One PTP domain (R215): its registers, its servo's standing, and its addresses (R377). -/
structure PtpDom where
  num : BitVec 8 := 0x18
  profile : Bool := false
  port : BitVec 3 := 0
  sub : BitVec 2 := 0
  en : Bool := false
  locked : Bool := false
  /-- PTP_OFS, the signed offset estimate in ns -/
  ofs : Int := 0
  /-- currentUtcOffset of its master -/
  utc : BitVec 16 := 0
  ipv6 : Bool := false
  addrs : List Word := []
  vlan : BitVec 12 := 0
  /-- the frequency that the servo measures for its master, in ppb (R213) -/
  freq : Int := 0
  /-- time of the last estimate, time since which every one has held (R213, R215), and time of the last Announce (R215), in array
  cycles -/
  estAt : Option Nat := none
  heldFrom : Option Nat := none
  annAt : Nat := 0
  /-- sequence number of the slave's requests, and the clock's reading in ns as the last of them left -/
  seq : BitVec 16 := 0
  sentNs : Nat := 0
deriving DecidableEq, Repr

/-- The time unit (R209-R227, R438). -/
structure TimeUnit where
  sec : BitVec 48 := 0
  ns : Nat := 0
  frac : BitVec 16 := 0
  /-- index of the current clove (R212) -/
  clove : Nat := 0
  /-- array cycle in the current clove, 0-249,999 (R24) -/
  cycle : Nat := 0
  /-- array cycles elapsed since reset -/
  now : Nat := 0
  activeReq : Bool := false
  auto : Bool := true
  synceEn : Bool := false
  syncePort : BitVec 3 := 0
  slew : BitVec 10 := 0x00A
  ppsOutEn : Bool := true
  rackMaster : Bool := false
  active : Bool := false
  slewing : Bool := false
  holdover : Bool := false
  cloveRun : Bool := false
  markSrc : Bool := false
  synceOk : Bool := false
  synceQl : BitVec 4 := 0
  dom0 : PtpDom := {}
  dom1 : PtpDom := {}
  /-- a request for a domain that is not locked waits (R216) -/
  reqWaits : Bool := false
  /-- the last request that switched: its time in array cycles and the domain that was active before (R216) -/
  reqAt : Option (Nat × Bool) := none
  /-- offset still to be slewed out, in 1/8000 ns, so that a limit of n ns/s takes n of it in each clove (R214) -/
  slewLeft : Int := 0
  /-- time of the last TIME_OFFSET event, in array cycles (R214) -/
  offsetEventAt : Option Nat := none
  /-- snapshot registers (R221) -/
  snapSec : BitVec 48 := 0
  snapNs : Nat := 0
  snapFrac : BitVec 16 := 0
  snapClove : BitVec 64 := 0
  ppsInStamp : BitVec 32 := 0
  ppsOut : Bool := false
  /-- the accepted master chip (R226) -/
  master : Option (BitVec 16) := none
  /-- consecutive cloves with a valid marker and the index of the last of them (R213), and cloves without one (R227) -/
  markGood : Nat := 0
  markIndex : Nat := 0
  markMiss : Nat := 0
  /-- best valid marker of this clove: HOP and link (R226) -/
  markBest : Option (Nat × Nat) := none
  /-- HOP of the marker followed (R225) -/
  markHop : Nat := 15
deriving DecidableEq, Repr

/-! ### Package, power (12, 14) -/

/-- Why an action lowers or withholds (R384). -/
inductive PwrAction where
  | lower (cluster : Nat)
  | withhold (part : Nat)
deriving DecidableEq, Repr

/-- The power core's view of a cluster (R382, R386). -/
structure PwrClu where
  /-- 0-3 P0-P3, 4 OFF -/
  point : Nat := 4
  radio : Bool := false
  pinned : Bool := false
  tj : Nat := 0
  /-- consecutive cloves on which no partition held a resource (R385) -/
  idle : Nat := 0
  /-- boundary at which the cluster is switched on, and clove at which it is usable -/
  usableAt : Nat := 0
  /-- boundary at which it is set to OFF, 0 where none (R25, R385) -/
  offAt : Nat := 0
deriving DecidableEq, Repr

/-- The package, its pins and the power core (R382-R386, R432-R439). -/
structure Power where
  porN : Bool := false
  pwrOk : Bool := false
  perstN : BitVec 4 := 0xF
  thermtripN : Bool := true
  /-- main clocks stopped by a thermal trip (R439) -/
  stopped : Bool := false
  pkgIlim : BitVec 16 := 0x07D0
  tjTarget : BitVec 8 := 0x64
  dvfsEn : Bool := true
  tjMax : Nat := 0
  crit : Bool := false
  /-- actions in force, most recent first (R383) -/
  actions : List PwrAction := []
  /-- decision committed for the next boundary: an action to take, or an undo (R383) -/
  due : List (Nat × Option PwrAction) := []
  cool : Nat := 0
  clu : Tab PwrClu := []
  hbmOn : BitVec 8 := 0xFF
  linkOn : BitVec 3 := 0
  ethOn : BitVec 2 := 0
  radioOn : Bool := false
  /-- the boundary at which a domain is to be switched off, 0 for none (R25, R436): link groups 0 to 2, Ethernet groups 3 and 4, the radio
  engine domain 5, the HBM group of stack n 6 + n -/
  domOffAt : Tab Nat := []
  /-- cloves for which a domain's on-condition has been false: link groups 0-2, Ethernet groups 3-4, radio 5 (R436) -/
  idle : Tab Nat := []
  /-- clove from which a domain is usable, by the same numbers -/
  usableAt : Tab Nat := []
  /-- pwr_ok has fallen since the last power-on reset: the next start is a start from sleep (R434) -/
  slept : Bool := false
  causePor : Bool := true
  causeWake : Bool := false
  causeDevice : Bool := false
  causeTherm : Bool := false
deriving DecidableEq, Repr

/-! ### Boot, security, UART (12, 13) -/

/-- BOOT_STAT.STATE (R358). -/
inductive BootSt where
  | rom | waitImg | verify | starting | ready | halt
deriving DecidableEq, Repr

/-- An entry of the measurement log (R362). -/
structure MeasEntry where
  typ : Nat
  svn : Nat
  hash : BitVec 384
  status : Nat
deriving DecidableEq, Repr

/-- Boot ROM and images (R356-R362). -/
structure Boot where
  st : BootSt := .rom
  lastStatus : Nat := 0
  haltCause : Nat := 0
  imgAddr : Nat := 0
  imgLen : Nat := 0
  /-- accepted image of each type: SVN + 1, 0 where none (R359) -/
  accepted : Tab Nat := []
  /-- command-interface version of the SCH image -/
  iface : Nat := 0
  /-- time of the START that took effect, in array cycles (R361) -/
  startAt : Nat := 0
  /-- M of image types 1-5 and, at 6, of clove programs (R362) -/
  meas : Tab (BitVec 384) := []
  log : List MeasEntry := []
deriving DecidableEq, Repr

/-- The security core (R391-R406). -/
structure Security where
  lifecycle : Nat := 1
  debugDis : Bool := false
  rootSet : Bool := false
  root : BitVec 384 := 0
  /-- minimum SVN of image types 1-5 -/
  minSvn : Tab Nat := []
  identErased : Bool := false
  tamperLatch : Bool := false
  tamperCause : BitVec 5 := 0
  lockViolation : Bool := false
  dbgAccess : Bool := false
  /-- the first internal debug access after any reset has been made (R392) -/
  dbgSeen : Bool := false
  reqAddr : Nat := 0
  reqStatus : Nat := 0
  nonce : Option (BitVec 384) := none
  errorLog : List Nat := []
  /-- the device identity keys are in the key store (R399) -/
  identKey : Bool := false
  sealKey : Option (BitVec 256) := none
  /-- AES-XTS keys of partitions, as drawn (R324) -/
  partKeys : Tab (Option (BitVec 512)) := []
deriving DecidableEq, Repr

/-- Pool manager authentication (R363). -/
structure PoolAuth where
  nonce : Option (BitVec 384) := none
  authed : Bool := false
  /-- times of the latest failures, in array cycles -/
  fails : List Nat := []
  locked : Bool := false
deriving DecidableEq, Repr

/-- UART (R425, R426). -/
structure Uart where
  div : BitVec 16 := 0x0364
  en : Bool := true
  framing : Nat := 0
  overrun : Nat := 0
  data : BitVec 8 := 0
  valid : Bool := false
deriving DecidableEq, Repr

/-! ### Rings (12) -/

/-- A finished completion or an event record waiting to be written (R369, R371). -/
structure Held where
  words : List Word
  notify : Bool
deriving DecidableEq, Repr

/-- A command or event ring (R364-R371). -/
structure Ring where
  en : Bool := false
  fault : Bool := false
  cmdLog2 : BitVec 4 := 4
  cplLog2 : BitVec 4 := 4
  msix : BitVec 11 := 0
  cmdBase : BitVec 64 := 0
  cplBase : BitVec 64 := 0
  /-- base and size in effect since the last enable (R370) -/
  cmdBaseAct : Nat := 0
  cplBaseAct : Nat := 0
  cmdLog2Act : Nat := 4
  cplLog2Act : Nat := 4
  cmdTail : BitVec 16 := 0
  cmdHead : BitVec 16 := 0
  cplTail : BitVec 16 := 0
  cplHead : BitVec 16 := 0
  lost : Nat := 0
  /-- records dropped since the last record written (R379) -/
  lostRun : Nat := 0
  enWaits : Bool := false
  /-- packets fetched and not yet started, oldest first: their 16 words (R366) -/
  fetched : List (List Word) := []
  held : List Held := []
deriving DecidableEq, Repr

/-- Why an accepted command has not completed yet; its later step completes it. -/
inductive Wait where
  | task (id : Nat)
  | run (p : Nat)
  | freeze (p : Nat)
  | thaw (p : Nat)
  | swap (p : Nat)
  | unmap (p : Nat)
  | progCommit (clove : Nat)
  | notice (p : Nat)
  | cellRemove (cell : Nat)
  | cellExport (cell : Nat)
  | cellImport (cell : Nat)
  | claim (id : Nat)
  | dma (id : Nat)
  | clusterTest (c : Nat)
  | resetWait (p : Nat)
  | powerOn (d : Nat)
  | pcRetire (pc : Nat)
  | cspLoad (c x : Nat)
  | qpGone (n : Nat)
  | mrGone (key : Word)
  | unexport (p ent : Nat)
deriving DecidableEq, Repr

/-- An accepted command that waits to complete: its ring, what its completion carries, and why it waits. -/
structure Outst where
  ring : RingId
  opcode : Nat
  part : BitVec 8
  gen : BitVec 16
  tag : BitVec 32
  notify : Bool
  why : Wait
  /-- it carried FENCE (R367) -/
  fence : Bool
  /-- result words so far -/
  res : List Word
deriving DecidableEq, Repr

/-! ### Partitions (08, 11, 12) -/

/-- A leaf page-table entry (R325). -/
structure Pte where
  v : Bool := false
  w : Bool := false
  c : Bool := false
  kind : Nat := 0
  /-- byte address of the target page -/
  target : Nat := 0
deriving DecidableEq, Repr

/-- The resources a partition holds in one cluster (R320). -/
structure Holding where
  saf : Bool := false
  groups : BitVec 4 := 0
  engines : BitVec 8 := 0
  csp : BitVec 4 := 0
  sram : BitVec 64 := 0
  eq : BitVec 64 := 0
  lss : BitVec 16 := 0
deriving DecidableEq, Repr

/-- A live tensor descriptor (R113): its image, 32 words. -/
structure Desc where
  live : Bool := false
  img : List Word := []
  /-- the handle belongs to an earlier generation (R114) -/
  stale : Bool := false
deriving DecidableEq, Repr

/-- A section of a loaded program (R376). -/
structure Section where
  kind : Nat
  shard : Nat
  slot : Nat
  bytes : List Byte
deriving DecidableEq, Repr

/-- A loaded program binary (R376). -/
structure Prog where
  live : Bool := false
  /-- the handle belongs to an earlier generation (R340) -/
  stale : Bool := false
  nshard : Nat := 0
  hash : BitVec 384 := 0
  resume : Nat := 0
  maxWcet : Nat := 0
  sections : List Section := []
deriving DecidableEq, Repr

/-- One shard of a placement (R235): cluster, first logical array, groups. -/
structure Shard where
  chip : Nat
  cluster : Nat
  arrayFirst : Nat
  ngroup : Nat
deriving DecidableEq, Repr

/-- A task (R329-R335). -/
structure Task where
  id : Nat
  prog : Nat
  ngroup : Nat
  half : Bool
  /-- shards of its placement image; empty for first-free placement -/
  place : List Shard
  /-- the first boundary at which it may be placed (R25), and the array cycle of its submission (R334) -/
  submitted : Nat
  subAt : Nat
  /-- clove of its submission or of its revocation (R335) -/
  waitFrom : Nat
  promoted : Bool
  /-- groups it holds, as 4 * cluster + group; empty while pending -/
  held : List Nat
  placedAt : Nat
  /-- boundary at which a revocation takes effect, 0 where none -/
  revokeAt : Nat
  /-- worst status of its ended slices -/
  status : Nat
  /-- placed by promotion during its first horizon: boundary up to which it is not revoked, 0 where none (R335) -/
  safeTo : Nat
  /-- it has been placed before: it restarts at its resume entry (R331) -/
  again : Bool
  /-- descriptors, engines (8 * cluster + engine) and contexts (4 * cluster + context) that its placement took (R447) -/
  descs : List Nat
  engs : List Nat
  ctxs : List Nat
deriving DecidableEq, Repr

/-- What writes in a cluster for its partition: a cardamom engine, a CSP context, or the execute engine with the control core. -/
inductive Writer where
  | engine (e : Nat)
  | context (x : Nat)
  | core
deriving DecidableEq, Repr

/-- A launch pending or running (R240-R249). -/
structure Launch where
  clove : Nat
  prog : Nat
  timing : Bool
  twin : Bool
  freeze : Bool
  seedLo : BitVec 32
  seedHi : BitVec 32
  runId : BitVec 32
  twinChip : BitVec 16
  twinPart : BitVec 8
  place : List Shard
  placeAddr : Nat
  running : Bool
  /-- running signature of each cluster (R244), and of the clove just ended -/
  sigs : Tab (BitVec 64)
  lastSigs : Tab (BitVec 64)
  /-- sum over the granules written in this clove -/
  sums : Tab (BitVec 64)
  /-- a disturbance was recorded in this clove, in the clove before, and in any ended clove of the run on either chip (R246) -/
  distNow : Bool
  distLast : Bool
  distEver : Bool
  /-- chip links that the run has sent requests on (R238) -/
  links : List Nat
  /-- boundary at which the run freezes, 0 where none -/
  freezeAt : Nat
  /-- last clove whose comparison has ended -/
  compared : Nat
  ended : Bool
  status : Nat
  endClove : Nat
  endCycle : Nat
  /-- clove in which the run ended -/
  endedIn : Nat
  /-- a data divergence has been found in this run (R246) -/
  diverged : Bool
  /-- a signature message for a clove that has not ended here yet -/
  twinRx : Option TwinMsg
  /-- descriptors, engines and contexts that its placement took (R447) -/
  descs : List Nat
  engs : List Nat
  ctxs : List Nat
deriving DecidableEq, Repr

/-- A fabric export entry (R268). -/
structure ExportEnt where
  used : Bool := false
  /-- FAB_UNEXPORT has removed it, and ordered flags admitted under it are still held (R268) -/
  closing : Bool := false
  srcNode : Nat := 0
  srcPart : Nat := 0
  rd : Bool := false
  wr : Bool := false
  aint : Bool := false
  afp : Bool := false
  cas : Bool := false
  va : Nat := 0
  /-- global addresses of its pages -/
  pages : List Nat := []
deriving DecidableEq, Repr

/-- A radio claim on general groups (R337). -/
structure Claim where
  id : Nat
  part : Nat
  frame : Nat
  nframes : Nat
  ngroup : Nat
  clusters : BitVec 20
  ring : RingId
  grantAddr : Nat
deriving DecidableEq, Repr

/-- The states of PART_INFO.STATE (R354). -/
inductive PartSt where
  | running | freezing | frozen | resetting
deriving DecidableEq, Repr

/-- A partition (R320) with the registers of its page. -/
structure Part where
  live : Bool := false
  typ : Nat := 0
  host : Fin 4 := 0
  det : Bool := false
  isSealed : Bool := false
  preload : Bool := false
  runsum : Bool := false
  gen : BitVec 16 := 0
  weight : Nat := 1
  urgency : Nat := 64
  nring : Nat := 0
  /-- physical HBM page of each of its page indices (R326) -/
  pages : List Nat := []
  netq : Nat := 0
  npol : Nat := 0
  nexport : Nat := 0
  dirtyBase : Nat := 0
  dirtySpan : Nat := 0
  /-- what it holds, by cluster -/
  hold : Tab Holding := []
  /-- first boundary that can give it its Saffron arrays (R25) -/
  saffFrom : Nat := 0
  pcs : List (Nat × Nat) := []
  st : PartSt := .running
  frozenAt : Nat := 0
  thawAt : Nat := 0
  everRun : Bool := false
  acct : BitVec 64 := 0
  nUse : BitVec 64 := 0
  pt : Tab Pte := []
  /-- nodes of its page tables, in the order in which firmware laid them out, and the HBM pages of the two copies, 512 nodes to a page
  (R325, R411) -/
  tabNodes : List Nat := []
  tabA : List Nat := []
  tabB : List Nat := []
  seedLo : BitVec 32 := 0
  seedHi : BitVec 32 := 0
  oobWr : Nat := 0
  srEntropy : Bool := false
  disturb : BitVec 6 := 0
  refused : Nat := 0
  endClove : BitVec 32 := 0
  endCycle : Nat := 0
  twinState : Nat := 0
  twinDiv : Bool := false
  twinTdiv : Bool := false
  twinLostF : Bool := false
  twinClusters : BitVec 20 := 0
  twinDivClove : BitVec 32 := 0
  twinMismatch : Nat := 0
  dirtyEn : Bool := false
  dirtyActive : Bool := false
  dirtyOver : Bool := false
  stepAt : Option Nat := none
  stepLast : Nat := 0
  stepMax : Nat := 0
  stepCnt : BitVec 32 := 0
  rawTxTail : BitVec 16 := 0
  rawTxHead : BitVec 16 := 0
  rawRxTail : BitVec 16 := 0
  rawRxHead : BitVec 16 := 0
  rawEn : Bool := false
  rawTxLog2 : Nat := 4
  rawRxLog2 : Nat := 4
  rawTxAddr : Nat := 0
  rawRxAddr : Nat := 0
  rxNobuf : Nat := 0
  dbBad : Nat := 0
  spoofCnt : Nat := 0
  /-- spoof checks that failed in this clove, with the subport and the check of the first (R313) -/
  spoofClove : Nat := 0
  spoofSub : Nat := 0
  spoofChk : Nat := 0
  version : Option (Nat × Nat) := none
  descs : Tab Desc := []
  progs : Tab Prog := []
  tasks : List Task := []
  nextTask : Nat := 1
  launch : Option Launch := none
  exps : Tab ExportEnt := []
  /-- the reset notice has not been acknowledged by all nodes (R351) -/
  noticeOpen : Bool := false
  /-- the power core withholds its slices (R384) -/
  withheld : Bool := false
  /-- it waits at generation 0xFFFF for its completions to be consumed (R342) -/
  wrapWait : Bool := false
deriving DecidableEq, Repr

/-! ### Clusters: arrays (02, 03) -/

/-- One accumulator: a 64-bit bank slot or cell register with what the execute engine keeps of it (R52, R94, R103, R445). -/
structure Acc where
  bits : BitVec 64 := 0
  psn : Bool := false
  count : Nat := 0
  spill : Nat := 0
  /-- the next spill writes the entry (R95) -/
  first : Bool := false
  /-- it has spilled since initialisation (R101) -/
  spilled : Bool := false
  /-- an operation of the accumulation had SPILL ≠ 0 (R93) -/
  mark : Bool := false
  /-- INIT = 1 has opened it and its first sum will overwrite it (R55) -/
  blank : Bool := false
  /-- context + 1 of the open accumulation, 0 where none (R135) -/
  openBy : Nat := 0
deriving DecidableEq, Repr

/-- The value a drain takes from an accumulator or an LSS entry: form 0 an integer of 2^-F units, 1 binary32, 2 binary64. -/
structure DVal where
  form : Nat
  bits : BitVec 64
  psn : Bool
deriving DecidableEq, Repr

/-- A cell's active or shadow register (R40): the stored bits of its weight, and its poison mask bit (R59). -/
structure WReg where
  code : Word := 0
  psn : Bool := false
deriving DecidableEq, Repr

/-- The active or the shadow registers of an array (R40, R49, R50): cell (k, c) is entry k * 128 + c; and the checksum-column
cells, tile row k at entry k: sums modulo 2^16, real and imaginary (R39, R58). -/
structure TileRegs where
  w : Tab WReg := []
  chk : Tab (Nat × Nat) := []
deriving DecidableEq, Repr

/-- What R58 compares for an output row: the checksum column's sum and the sum of the column sums, modulo 2^16. -/
structure RowSum where
  chk : Nat := 0
  col : Nat := 0
deriving DecidableEq, Repr

/-- A final drain in progress (R444): the descriptor, the rows it read, the row it has come to and what it rounds with. -/
structure Drain where
  d : List Word
  part : Nat
  /-- rows of values; a CI16 row holds real and imaginary values in turn -/
  rows : List (List DVal)
  row : Nat
  /-- the checksum column's sum and the sum of the column sums of each row, by part (R58) -/
  sums : List (List RowSum)
  /-- column scales of SCALE = 2, as FP32 codes with their poison -/
  scales : List (Nat × Bool)
  slice : Nat
  seedLo : BitVec 32
  seedHi : BitVec 32
  /-- rows still to push without data: those of a slice stopped under R70 -/
  blank : Bool
deriving DecidableEq, Repr

/-- One granule of a queue entry (R127, R136, R138). -/
structure Gran where
  data : GranuleBits := 0
  psn : Bool := false
  pad : Bool := true
  erased : Bool := false
  /-- a fabric load for it timed out (R446) -/
  tmo : Bool := false
deriving DecidableEq, Repr

/-- An operation that has started and takes its operands step by step (R45, R46, R55). -/
structure OpRun where
  d : List Word
  part : Nat
  /-- next step (WS, IS), K position (OS) or row (preload) -/
  pos : Nat
  /-- granules taken so far of the row operand (or preload row), the W-tile and the scales of the next unit (R59, R133) -/
  bufA : List Gran
  bufW : List Gran
  bufS : List Gran
  /-- the held tile is in the active registers (WS, IS), or the W-tile of the current 128 K-steps has been taken (OS) -/
  tileIn : Bool
  /-- the scales of the operation, or of the current K block in OS mode, have been taken -/
  scalesIn : Bool
  /-- the W-tile that feeds the columns in OS mode -/
  wts : List Gran
  /-- block scales in use -/
  scales : List Gran
  /-- column scales of SCALE = 2 -/
  cols : List (Nat × Bool)
  /-- sums of magnitudes for the bounds of R111, with their poison -/
  bounds : List (Nat × Bool)
  slice : Nat
  seedLo : BitVec 32
  seedHi : BitVec 32
deriving DecidableEq, Repr

/-- A slice open on an array and a context (R443). -/
structure Slice where
  live : Bool := false
  id : Nat := 0
  part : Nat := 0
  ctx : Bool := false
  seedLo : BitVec 32 := 0
  seedHi : BitVec 32 := 0
  status : Nat := 0
  /-- descriptors taken since its start, for a replay (R36) -/
  ops : List (List Word) := []
  /-- queues whose marked entry it took (R140) -/
  marks : List Nat := []
  /-- entries pushed so far to each queue, and entries a replay does not push again -/
  pushed : Tab Nat := []
  skip : Tab Nat := []
  /-- its operations that are not complete -/
  busy : Nat := 0
deriving DecidableEq, Repr

/-- One logical array (R42): who holds it and what runs on it. -/
structure LArray where
  part : Option Nat := none
  /-- partition + 1 that held it last (R328) -/
  prev : Nat := 0
  /-- work may start from this cycle of the clove (R26) -/
  startCycle : Nat := 0
  /-- boundary at which it is revoked, 0 where none (R28) -/
  revokeAt : Nat := 0
  sl0 : Slice := {}
  sl1 : Slice := {}
  /-- slices whose last operation is known and not complete -/
  closing : List Slice := []
  /-- slices to be replayed on the spare that have not begun again; their seeds stay (R36) -/
  replays : List Slice := []
  nextSlice : Nat := 1
  /-- context picked last (R135) -/
  lastCtx : Bool := false
  run : Option OpRun := none
  drains : List Drain := []
  /-- waiting descriptors with the partition that owns the queue -/
  descQ : List (Nat × List Word) := []
  drnCnt : BitVec 32 := 0
  /-- the array has failed and its work waits for the spare (R73) -/
  halted : Bool := false
deriving DecidableEq, Repr

/-- One physical array (R39): accumulators (bank at m * 128 + c, cell registers 0 and 1 above it) and weight buffer. -/
structure PArray where
  accs : Tab Acc := []
  /-- cells whose two registers have changed places by a spill in OS mode (R99) -/
  swap : Tab Bool := []
  /-- row sums of R58: WS and IS row m at m (CI16 part p at 2 m + p), OS row m of context x at 128 * (1 + x) + m -/
  sums : Tab RowSum := []
  wb : PMem := {}
  active : TileRegs := {}
  shadow : TileRegs := {}
  /-- consecutive cycles in which the array held a token and no cell fired (R63) -/
  wdog : Nat := 0
deriving DecidableEq, Repr

/-! ### Clusters: queues and engines (04) -/

/-- An execute-queue entry of eight granules (R132). -/
structure Entry where
  gr : List Gran
  /-- the entry a checkpoint marks (R140) -/
  mark : Bool
deriving DecidableEq, Repr

/-- An execute queue (R132-R142). -/
structure Eq where
  en : Bool := false
  rt : Bool := false
  idx : Bool := false
  base : Nat := 0
  part : Nat := 0
  entries : List Entry := []
  /-- slot of its storage that the next entry takes (R132) -/
  tail : Nat := 0
  /-- granules of the head already taken (R133) -/
  taken : Nat := 0
  side : List Nat := []
  skip : Nat := 0
  miss : Nat := 0
  late : Nat := 0
  /-- substitutions of this clove (R138) -/
  subs : Nat := 0
  /-- clove in which the consumer began waiting with nothing in flight -/
  waitFrom : Option Nat := none
deriving DecidableEq, Repr

/-- An entry in flight in an engine (R130, R138). -/
structure Flight where
  q : Nat
  entry : Entry
  dlClove : Nat
  dlCycle : Nat
  /-- granules with a byte from a fabric window, and with a byte from a host page -/
  far : List Nat
  hst : List Nat
deriving DecidableEq, Repr

/-- A loop of a cardamom program (R128). -/
structure LoopFr where
  start : Nat
  stop : Nat
  left : Nat
deriving DecidableEq, Repr

/-- What SLM saves (R140). pops counts the entries popped before it since the program began; early marks a checkpoint taken
while an earlier write instruction still held the port, whose pops still count into it. -/
structure EngSave where
  x : Tab Word
  loops : List LoopFr
  pc : Nat
  plFirst : Nat
  plCount : Nat
  dlOff : Nat
  dlCycle : Nat
  pops : Nat
  early : Bool
deriving DecidableEq, Repr

/-- What one granule of a space takes from a write instruction: bits written, their values, and poison (R137). -/
structure GranWr where
  mask : GranuleBits := 0
  data : GranuleBits := 0
  psn : Bool := false
deriving DecidableEq, Repr

/-- The data instruction that holds an engine's issue port (R129), with what it read of the registers in its first cycle there. -/
structure EngPort where
  w : Word
  /-- coordinate registers from X[xb] on -/
  xs : List Int
  plFirst : Nat
  plCount : Nat
  dlOff : Nat
  dlCycle : Nat
  /-- its entries belong to a replay in this clove (R140) -/
  replay : Option Nat
  /-- its first entry carries the slice mark (R140) -/
  mark : Bool
  /-- entries issued, or granules taken from the queue, so far -/
  done : Nat
  /-- it has posted its index (R134) -/
  posted : Bool
  /-- granules that a write instruction has written so far: what of each, and with what poison (R137) -/
  part : Tab GranWr
deriving DecidableEq, Repr

/-- A cardamom engine (R125). -/
structure Engine where
  run : Bool := false
  part : Nat := 0
  prog : List Word := []
  tslot : Tab Nat := []
  /-- bound queue of each queue slot: number + 1, with its word -/
  qslot : Tab Word := []
  x : Tab Word := []
  loops : List LoopFr := []
  pc : Nat := 0
  plFirst : Nat := 0
  plCount : Nat := 8
  dlOff : Nat := 0
  dlCycle : Nat := 249999
  /-- it starts, or a WAITB ends, at the next boundary -/
  waitB : Bool := false
  flight : List Flight := []
  saves : List EngSave := []
  /-- queues whose next pushed entry carries the slice mark (R140) -/
  markNext : List Nat := []
  /-- the control core stops it at its next SLM, and flushes these queues then (R141) -/
  stopSlm : Bool := false
  stopQs : List Nat := []
  wcnt : BitVec 32 := 0
  /-- during a replay, its clove, whose end is the deadline of its entries (R140) -/
  replay : Option Nat := none
  /-- the data instruction that holds the issue port (R129) -/
  port : Option EngPort := none
  /-- entries popped since the program began (R36, R140) -/
  pops : Nat := 0
deriving DecidableEq, Repr

/-! ### Clusters: CSP (05) -/

/-- The register set of a CSP context with its poison bits (R149, R150). ACC lane i is bits [40 i + 39 : 40 i]. -/
structure CspRegs where
  d : Tab GranuleBits := []
  acc : Tab (BitVec 1280) := []
  p : Tab Word := []
  m : Tab Word := []
  b : Tab Word := []
  l : Tab Word := []
  dPsn : Tab Bool := []
  accPsn : Tab Bool := []
deriving DecidableEq, Repr

/-- What a CSP context waits for (R157, R163). -/
inductive CspWait where
  | none
  | boundary
  | count (src : Nat) (target : Word)
  /-- R146: a REP bundle of a non-radio context waits for the next boundary -/
  | repHeld
deriving DecidableEq, Repr

/-- A CSP program context (R143-R169). old holds the registers as the running bundle's slots read them (R154). -/
structure CspCtx where
  en : Bool := false
  radio : Bool := false
  part : Nat := 0
  /-- 0 stopped, 1 ready or running, 2 waiting, 3 faulted -/
  st : Nat := 0
  sat : Bool := false
  stPsn : Bool := false
  cause : Nat := 0
  longRep : Nat := 0
  regs : CspRegs := {}
  old : CspRegs := {}
  /-- stores of the running bundle: address, data, poison -/
  stores : List (Nat × GranuleBits × Bool) := []
  prog : List Word := []
  pc : Nat := 0
  branch : Option Nat := none
  repArm : Nat := 0
  repLeft : Nat := 0
  wait : CspWait := .none
  startsAtBoundary : Bool := false
  /-- a stop that waits for the running REP to end (R148) -/
  stopPending : Bool := false
  /-- a slot of the running bundle has issued and its last slot has not -/
  mid : Bool := false
  /-- first CSP cycle in which it may issue in this clove (R147) -/
  issueFrom : Nat := 0
  /-- the owner, and whether it is RADIO, that a running REP holds back (R159) -/
  nextOwner : Option (Nat × Bool) := none
  /-- the longest REP and the image of a CSP_LOAD that a running REP holds back (R159, R160) -/
  load : Option (Nat × List Word) := none
deriving DecidableEq, Repr

/-- A CSP fence (R164). -/
structure Fence where
  base : Nat := 0
  len : Nat := 0
  closed : Bool := false
  ctx : Fin 4 := 0
deriving DecidableEq, Repr

/-- A cluster (R21) with the registers of its block. -/
structure Cluster where
  spareFor : BitVec 6 := 0x3F
  failed : BitVec 17 := 0
  cause : Nat := 0
  wdogLimit : BitVec 18 := 0x10000
  /-- logical index the spare takes at the next boundary (R36) -/
  subPending : Option Nat := none
  /-- elapsed-cycle time at which the weight-buffer copy ends (R72) -/
  copyEnd : Nat := 0
  /-- arrays that failed after the spare was used (R37) -/
  lostArrays : List Nat := []
  spareStarted : Bool := true
  lssSize : Nat := 0
  la : Tab LArray := []
  pa : Tab PArray := []
  sram : PMem := {}
  /-- poison of LSS entries by byte offset (R98) -/
  lssPsn : Tab Bool := []
  eq : Tab Eq := []
  eng : Tab Engine := []
  csp : Tab CspCtx := []
  fence : Tab Fence := []
  /-- running context and its run time; delay record of R146 -/
  cspRun : Fin 4 := 0
  /-- the context other than a radio context 0 whose turn it is, and the CSP cycles it has run in it (R144) -/
  cspTurn : Fin 4 := 0
  cspTime : Nat := 0
  cspDelayed : Bool := false
  /-- the boundary's events wait for a running REP to end (R159) -/
  cspHeld : Bool := false
  cspFailed : Bool := false
  /-- 0 in service, 1 test waits, 2 test runs, 3 out of service -/
  svc : Nat := 0
  /-- the boundary from which nothing is placed in the cluster (R413) -/
  svcFrom : Nat := 0
  testClove : Nat := 0
  /-- the control core itself asked for the test (R415) -/
  selfTest : Bool := false
  unitsRetired : BitVec 64 := 0
deriving DecidableEq, Repr

/-! ### Radio (06) -/

/-- A radio-unit endpoint (R172, R176): its image words and its counters in the order of R176. -/
structure Endpoint where
  live : Bool := false
  part : Nat := 0
  img : List Word := []
  ontime : Nat := 0
  early : Nat := 0
  late : Nat := 0
  dup : Nat := 0
  seqgap : Nat := 0
  unsup : Nat := 0
  txLate : Nat := 0
  /-- a delay measurement that waits for its Follow_Up: its number, and when its request came in ns (R170) -/
  delayReq : Option (Nat × Nat) := none
deriving DecidableEq, Repr

/-- A flow of a cell (R178). -/
structure Flow where
  eaxc : Nat
  ep : Nat
  down : Bool
  prach : Bool
  idx : Nat
  /-- last eCPRI sequence number seen, or sent -/
  lastSeq : Option Nat
  /-- RADIO egress queue of a downlink flow (R302) -/
  queue : Nat
deriving DecidableEq, Repr

/-- A cell context (R178). -/
structure Cell where
  live : Bool := false
  part : Nat := 0
  ctx : List Word := []
  flows : List Flow := []
  start : Nat := 0
  started : Bool := false
  /-- boundary from which it issues no work, 0 where none (R180) -/
  removeAt : Nat := 0
  streamFirst : Nat := 0
  nstream : Nat := 0
  rptOvf : Bool := false
  rptTail : BitVec 16 := 0
  rptHead : BitVec 16 := 0
  /-- address of the image an export writes, and of the image an import reads; 0 where none -/
  exportTo : Nat := 0
  exportLen : Nat := 0
  importFrom : Nat := 0
deriving DecidableEq, Repr

/-- An uplink DFE stream (R191). -/
structure Stream where
  en : Bool := false
  agcEn : Bool := true
  freezeEn : Bool := true
  cell : Nat := 0
  gain : Nat := 0
  target : Nat := 0x48
  maxStep : Nat := 8
  /-- lanes whose detection freezes the AGC, until their occasions end (R183) -/
  frozenBy : List Nat := []
  base : BitVec 24 := 0
  corr : BitVec 24 := 0
  corrLane : Nat := 0
  corrActive : Bool := false
  /-- time of the detection that wrote CORR (R190) -/
  corrAt : Nat := 0
  cal : BitVec 16 := 0
  /-- BASE as the symbol that runs has it (R184), and that symbol: slot and number -/
  baseNow : BitVec 24 := 0
  symNow : Option (Nat × Nat) := none
  /-- one more than the time of the last write of GAIN, and of the last update of the loop with the gain before it (R183, R190) -/
  gainAt : Nat := 0
  agcAt : Nat := 0
  agcOld : Nat := 0
deriving DecidableEq, Repr

/-- A search lane (R186, R191). -/
structure Lane where
  busy : Bool := false
  format : Nat := 0
  stream : Nat := 0
  nstr : Nat := 0
  cell : Nat := 0
  cfg : Nat := 0
  power : BitVec 16 := 0
  toff : BitVec 16 := 0
  cfo : BitVec 24 := 0
  preamble : BitVec 6 := 0
  ovf : Bool := false
  valid : Bool := false
  clove : BitVec 32 := 0
  /-- last clove of the occasion -/
  lastClove : Nat := 0
  thresh : Nat := 0
deriving DecidableEq, Repr

/-- An on-time uplink section that was accepted (R174): where it came from, its samples after decompression, and which of the
symbol's eight parts have passed the front end (R182). -/
structure UpSect where
  cell : Nat
  ep : Nat
  stream : Nat
  slot : Nat
  sym : Nat
  eaxc : Nat
  sect : Nat
  firstPrb : Nat
  nprb : Nat
  /-- the section came by a PRACH flow -/
  prach : Bool
  raw : List Word
  passed : BitVec 8
deriving DecidableEq, Repr

/-- A stream's symbol whose window has closed (R175). -/
structure Closed where
  cell : Nat
  stream : Nat
  slot : Nat
  sym : Nat
deriving DecidableEq, Repr

/-- A section of a downlink symbol, or a C-plane section of a slot, that has been sent or counted as late (R176). -/
structure TxKey where
  cell : Nat
  slot : Nat
  sym : Nat
  cplane : Bool
  flow : Nat
  sect : Nat
deriving DecidableEq, Repr

/-- What a coding job is (R197). -/
inductive JobKind where
  | ldpc (w : List Word)
  | polar (j : Polar)
  | trl (w : List Word)
deriving DecidableEq, Repr

/-- A coding job (R197). -/
structure Job where
  kind : JobKind
  part : Nat
  dlClove : Nat
  dlCycle : Nat
  /-- its HARQ write-back has completed (R417) -/
  harqDone : Bool
  /-- an input of that write-back was poisoned (R197) -/
  psn : Bool
deriving DecidableEq, Repr

/-- One coding-engine instance. -/
structure Inst where
  bypass : Bool := false
  faulty : Bool := false
  job : Option Job := none
deriving DecidableEq, Repr

/-- The radio (06). Pools: 0 LDPC decoders, 1 LDPC encoders, 2 polar, 3 trellis. Instance n of pool p is entry 16 p + n. -/
structure Radio where
  eps : Tab Endpoint := []
  cells : Tab Cell := []
  streams : Tab Stream := []
  lanes : Tab Lane := []
  sects : List UpSect := []
  closed : List Closed := []
  txDone : List TxKey := []
  inst : Tab Inst := []
  /-- waiting jobs, by pool, oldest first -/
  waiting : List (Nat × Job) := []
  /-- the soft buffers that HARQ jobs have written: partition, address and bytes (R198, R349, log entry 37) -/
  soft : List (Nat × Nat × Nat) := []
deriving DecidableEq, Repr

/-! ### Fabric and links (09) -/

/-- A message on a chip link (R225, R243, R247, R252, R258, R269, R351). -/
inductive Msg where
  | request (q : FabReq)
  | response (dst : Nat) (r : FabResp)
  | notice (node part : Nat) (gen : BitVec 16)
  | noticeAck (node part : Nat)
  | marker (m : Marker)
  | twin (chip : BitVec 16) (part : BitVec 8) (m : TwinMsg)
  | freeze (chip : BitVec 16) (part : BitVec 8) (runId : BitVec 32)
  /-- a retrain request, with the lane that caused it and the width requested (R258, R260) -/
  | retrain (lane : Option Nat) (width : Option Nat)
deriving DecidableEq, Repr

/-- A flit that a link has sent (R253, R263): its credits, nonce and key-phase bit. -/
structure TxFlit where
  seq : Nat
  credits : Nat
  nonce : BitVec 96
  phase : Bool
  msg : Msg
deriving DecidableEq, Repr

/-- A chip link (R251-R264, R287). -/
structure Link where
  /-- IDENT has recorded a partner since the reset (R256, R241) -/
  met : Bool := false
  /-- when the attempt and its stage began, and when the partner's training sequences were last heard (R254, R255) -/
  attemptAt : Nat := 0
  stageAt : Nat := 0
  heardAt : Nat := 0
  /-- when the fast retrain started, as its leader paces it (R257, R258) -/
  retrainAt : Nat := 0
  /-- a width request written during a retrain, and the width that the partner requests (R260) -/
  widthNow : Bool := false
  partnerW : Option Nat := none
  /-- the pseudorandom key that both directions' keys come from, while the link has keys (R263, R400), and when the sender's epoch began -/
  prk : Option (BitVec 384) := none
  keyAt : Nat := 0
  /-- credits that flits of each channel hold in this receiver's buffer, and in the partner's (R252) -/
  rxUsed : Tab Nat := []
  txUsed : Tab Nat := []
  /-- next sequence number, flits that wait for their acknowledgement, and messages that wait for credits or a retrain (R252, R253) -/
  txSeq : Nat := 0
  replay : List TxFlit := []
  txq : List Msg := []
  /-- flits sent again, with the time (R287) -/
  replayed : List (Nat × Nat) := []
  en : Bool := false
  widthReq : BitVec 2 := 0
  laneDis : BitVec 4 := 0
  errThr : BitVec 16 := 0x0400
  /-- 0 down, 1 training, 2 backoff, 3 up, 4 retraining, 5 RETIRED -/
  st : Nat := 0
  width : Nat := 0
  lanesUp : BitVec 4 := 0
  lanesRet : BitVec 4 := 0
  stage : Nat := 0
  partner : BitVec 16 := 0
  node : Nat := 0
  isSwitch : Bool := false
  retrains : Nat := 0
  delayPs : BitVec 32 := 0
  /-- lane set that locked, and lanes disabled in effect -/
  locked : BitVec 4 := 0xF
  disAct : BitVec 4 := 0
  /-- times at which each lane was charged with a retrain (R261) -/
  charges : List (Nat × Nat) := []
  failures : Nat := 0
  nextTry : Nat := 0
  lastFailEvent : Option Nat := none
  leader : Bool := false
  /-- this end has its own retrain request outstanding (R258) -/
  ownReq : Bool := false
  charged : BitVec 4 := 0
  /-- authentication failed: it trains only after SERVICE (R264) -/
  authFail : Bool := false
  badTags : Nat := 0
  rxSeq : Nat := 0
  txEpoch : Nat := 0
  rxEpoch : Nat := 0
  txCtr : Nat := 0
  /-- FEC corrections of each lane in this clove (R253) -/
  fec : Tab Nat := []
  /-- width request and the boundary at which it applies (R260) -/
  widthAt : Nat := 0
  widthAct : BitVec 2 := 0
deriving DecidableEq, Repr

/-- An outstanding fabric request in the retransmit store (R273). -/
structure FabOut where
  req : FabReq
  dst : Nat
  cluster : Nat
  /-- where its result goes -/
  localVa : Nat
  issued : Nat
  /-- link it went out on; 24 stands for this chip itself, 25 for none (R286) -/
  path : Nat
  /-- when it lost its last path (R284, R286) -/
  noPathAt : Nat := 0
  cacheable : Bool
  /-- 0 a FAB_OP entry, 1 a cardamom or CSP access, 2 a flag store of FAB_DMA, 3 a part of a FAB_DMA segment -/
  kind : Nat
  /-- the slice that issued it: logical array and slice number (R281) -/
  slice : Option (Nat × Nat) := none
  /-- the FAB_OP entry that it is a line of; for FAB_DMA the command and the segment -/
  grp : Nat := 0
  seg : Nat := 0
  /-- bytes of the answer that go to localVa: where they start, and how many -/
  off : Nat
  take : Nat
deriving DecidableEq, Repr

/-- A response kept for repeats (R273). -/
structure FabDone where
  node : Nat
  seq : Nat
  resp : FabResp
deriving DecidableEq, Repr

/-- A combining entry of the router (R277, R278). -/
structure Comb where
  req : FabReq
  members : List FabReq
  opened : Nat
  /-- sources that have sent a store or atomic to the line since it opened (R277) -/
  writers : List (Nat × Nat)
deriving DecidableEq, Repr

/-- A remote-read cache line (R274). -/
structure CacheLine where
  part : Nat
  addr : Nat
  data : List Byte
  psn : Bool
deriving DecidableEq, Repr

/-- A segment of a FAB_DMA that has not ended (R282, R283): its number, its entry, the bytes requested and the bytes answered so far,
what a get has staged, and whether it has committed and its flag store waits for room. -/
structure DmaSeg where
  n : Nat
  e : List Word
  next : Nat := 0
  got : Nat := 0
  psn : Bool := false
  data : List (Nat × List Byte) := []
  flag : Bool := false
deriving DecidableEq, Repr

/-- A segment that a chip puts here (R283): its parts so far; dead once a part was denied. -/
structure StagedSeg where
  node : Nat
  part : Nat
  dma : Nat
  seg : Nat
  parts : List FabReq := []
  dead : Bool := false
deriving DecidableEq, Repr

/-- An ordered flag that waits (R272), with the partition and export entry that admitted it (R268). -/
structure HeldFlag where
  q : FabReq
  owner : Nat
  ent : Nat
deriving DecidableEq, Repr

/-- A FAB_DMA in progress (R282-R284). -/
structure Dma where
  id : Nat
  part : Nat
  get : Bool
  segs : List DmaSeg
  map : BitVec 64
  psn : Bool
  fails : List (Nat × Nat)
  ring : RingId
deriving DecidableEq, Repr

/-- The fabric (09, 11). -/
structure Fabric where
  chipId : BitVec 16 := 0
  node : BitVec 8 := 0xFF
  locked : Bool := false
  combineEn : Bool := true
  cacheEn : Bool := true
  timeout : BitVec 8 := 0x64
  links : Tab Link := []
  /-- planes removed for a node by PATH_DOWN, as 64 * plane + node -/
  pathDown : List Nat := []
  unreach : List Nat := []
  outst : List FabOut := []
  /-- next sequence number to each node -/
  seqTx : Tab Nat := []
  /-- stores and atomics issued to each node by each partition since its reset, entry 64 * part + node (R272) -/
  wrTx : Tab Nat := []
  /-- stores and atomics of each source that have been answered here since its reset, entry 64 * node + part (R272) -/
  wrRx : Tab Nat := []
  done : List FabDone := []
  /-- ordered flags that wait for earlier requests of their source (R272) -/
  flagsHeld : List HeldFlag := []
  comb : List Comb := []
  cache : List CacheLine := []
  dma : List Dma := []
  nextDma : Nat := 1
  /-- the staging buffer: parts of segments that other chips put here (R283) -/
  staged : List StagedSeg := []
  /-- FAB_OP entries whose lines are not all answered: their status so far -/
  ops : Tab Nat := []
  nextOp : Nat := 1
  /-- completion queue of each cluster's control core (R281) -/
  cq : Tab (List (BitVec 64)) := []
  /-- PEER_GEN, entry 64 * node + part -/
  peerGen : Tab (BitVec 16) := []
  /-- unacknowledged reset notices: partition, generation, nodes -/
  notices : List (Nat × BitVec 16 × List Nat) := []
  denied : Nat := 0
  /-- host-memory windows: window index to host port and address -/
  windows : Tab (Nat × Nat) := []
  timeouts : Nat := 0
deriving DecidableEq, Repr

/-! ### Ethernet (10) -/

/-- An egress frame (R303, R305). -/
structure Frame where
  bytes : List Byte
  /-- deadline of a RADIO frame: clove and cycle -/
  dl : Option (Nat × Nat)
  /-- endpoint, cell, symbol of a RADIO frame -/
  radio : Option (Nat × Nat × Nat)
  /-- raw transmit entry it came from, as a virtual address of the queue's partition -/
  raw : Option Nat
  /-- queue pair that sent it (R295) -/
  qp : Option Nat := none
deriving DecidableEq, Repr

/-- An egress queue (R302-R308). -/
structure TmQ where
  en : Bool := false
  radio : Bool := false
  port : BitVec 3 := 0
  sub : BitVec 2 := 0
  part : BitVec 8 := 0
  weight : BitVec 16 := 1
  idleSlope : BitVec 12 := 0
  qlim : BitVec 12 := 0x040
  hiCredit : BitVec 8 := 0x10
  drop : Nat := 0
  flush : Nat := 0
  allow : Nat := 0
  demote : Nat := 0
  /-- allowance left in this clove, in bytes -/
  left : Nat := 0
  frames : List Frame := []
  fin : BitVec 48 := 0
  /-- the head frame has its tags (R306) -/
  tagged : Bool := false
  tagS : BitVec 48 := 0
  tagF : BitVec 48 := 0
  /-- shaper credit in 1/20 bit, so that a slope of n times 100 Mb/s moves it by n in each array cycle (R308) -/
  credit : Int := 0
  creditAt : Nat := 0
  cell : Nat := 0
deriving DecidableEq, Repr

/-- A policer (R309-R311). Buckets in bits of a byte/8,000 unit are kept as bytes times 8,000. -/
structure Pol where
  en : Bool := false
  mode : Bool := false
  aware : Bool := false
  path : Bool := false
  port : BitVec 3 := 0
  sub : BitVec 2 := 0
  part : BitVec 8 := 0
  map : BitVec 16 := 0
  cir : BitVec 19 := 0
  cbs : BitVec 24 := 0
  pir : BitVec 19 := 0
  pbs : BitVec 24 := 0
  yel : Nat := 0
  red : Nat := 0
  /-- bucket levels in units of 1/16,000 byte -/
  tc : Nat := 0
  tp : Nat := 0
  at_ : Nat := 0
deriving DecidableEq, Repr

/-- An Ethernet port (R288-R294, R314-R316). -/
structure EthPort where
  en : Bool := false
  mode : BitVec 2 := 0
  holdMs : BitVec 7 := 0x0A
  pfcPri : BitVec 7 := 0
  up : BitVec 4 := 0
  held : BitVec 4 := 0
  modeAct : BitVec 2 := 0
  downCnt : Nat := 0
  noMatch : Nat := 0
  rxErr : Nat := 0
  /-- hold has ended without a return, by subport: offered SHARED frames drop (R316) -/
  expired : BitVec 4 := 0
  /-- time in array cycles until which a priority is paused on a subport, by 8 * sub + pri (R294) -/
  paused : Tab Nat := []
  /-- time in array cycles at which a subport went down (R316), and at which it started the frame it is sending, by subport -/
  heldAt : Tab Nat := []
  beganAt : Tab Nat := []
  /-- the frame that each subport is sending: subport, queue, frame -/
  cur : List (Nat × Nat × Frame) := []
  /-- virtual time of each subport (R306) -/
  vt : Tab (BitVec 48) := []
deriving DecidableEq, Repr

/-- The traffic manager's registers and tags of a partition (R306, R312). -/
structure TmPart where
  macs : Tab Word := []
  vlans : Tab Word := []
  weight : BitVec 16 := 0
  /-- per port and subport (4 * port + sub): virtual time of the partition's node, its last finish tag, the finish tag of its
  head, and the queue + 1 of that head -/
  vt : Tab (BitVec 48) := []
  fin : Tab (BitVec 48) := []
  tagF : Tab (BitVec 48) := []
  head : Tab Nat := []
deriving DecidableEq, Repr

/-- A send entry on its way (R296, R297): its ring index, its first and last PSN and its words. -/
structure SendFl where
  idx : Nat
  first : BitVec 24
  last : BitVec 24
  w : List Word
deriving DecidableEq, Repr

/-- A queue pair (R295-R299). -/
structure Qp where
  live : Bool := false
  part : Nat := 0
  params : List Word := []
  conn : List Word := []
  sqTail : BitVec 16 := 0
  sqHead : BitVec 16 := 0
  rqTail : BitVec 16 := 0
  rqHead : BitVec 16 := 0
  cqTail : BitVec 16 := 0
  cqHead : BitVec 16 := 0
  err : Bool := false
  sqPsn : BitVec 24 := 0
  rqPsn : BitVec 24 := 0
  flight : List SendFl := []
  /-- oldest sequence number that is not acknowledged -/
  una : BitVec 24 := 0
  retries : Nat := 0
  rnr : Nat := 0
  /-- the answer was receiver not ready: the next timeout is its retry (R296) -/
  rnrWait : Bool := false
  /-- send rate in kb/s, none standing for the full subport rate, and the time of the last halving (R293) -/
  rate : Option Nat := none
  cutAt : Option Nat := none
  /-- time of the last notification or raise (R293), and of the last packet sent or acknowledged (R296), in array cycles -/
  rateAt : Nat := 0
  timerAt : Nat := 0
  /-- key of the WRITE that is being received (R298) -/
  rxKey : Option Word := none
  /-- the message being received: where its next byte goes, bytes still to come of a WRITE, bytes that have come -/
  rxVa : Nat := 0
  rxLeft : Nat := 0
  rxDone : Nat := 0
  msn : BitVec 24 := 0
deriving DecidableEq, Repr

/-- A registered memory region (R298). -/
structure Mr where
  live : Bool := false
  part : Nat := 0
  va : Nat := 0
  len : Nat := 0
  rwrite : Bool := false
  rread : Bool := false
  rkey : Word := 0
deriving DecidableEq, Repr

/-- Ethernet and the traffic manager (10). -/
structure Eth where
  ports : Tab EthPort := []
  qs : Tab TmQ := []
  pols : Tab Pol := []
  tmp : Tab TmPart := []
  qps : Tab Qp := []
  mrs : Tab Mr := []
deriving DecidableEq, Repr

/-! ### Clove program and HEALTH (12, 13) -/

/-- A timer in use (R388, R390): armed boundary + 1 (0 not armed), the entry it was armed under, whether the program has been
exchanged since, and whether it has fired. -/
structure Timer where
  armed : Nat := 0
  entry : List Word := []
  swapped : Bool := false
  fired : Bool := false
deriving DecidableEq, Repr

/-- A detector (R388, R390): level, count, whether a level has been set, and the entry in effect. -/
structure Detector where
  lvl : Bool := false
  k : Nat := 0
  known : Bool := false
  entry : List Word := []
deriving DecidableEq, Repr

/-- The clove program (R387-R390): active and inactive buffers as words. -/
structure CloveProg where
  act : List Word := []
  inact : Option (List Word) := none
  commitAt : Option Nat := none
  timers : Tab Timer := []
  dets : Tab Detector := []
deriving DecidableEq, Repr

/-- The counts of HEALTH over the past 8,000 cloves (R423). -/
structure Health where
  retrains : Nat := 0
  replays : Nat := 0
  downs : Nat := 0
  timeouts : Nat := 0
  hbmCe : Nat := 0
  misses : Nat := 0
  spares : Nat := 0
deriving DecidableEq, Repr

/-- HBM (13): contents, what the controllers have retired, and the corrected-error counts (R407). -/
structure Hbm where
  m : PMem := {}
  pcRetired : Tab Bool := []
  pageRetired : Tab Bool := []
  /-- pages to be retired when they return to the pool (R409) -/
  pageMarked : Tab Bool := []
  /-- partition + 1 that owns a physical page -/
  owner : Tab Nat := []
  /-- partition + 1 whose page tables lie in a physical page (R325, R411) -/
  tables : Tab Nat := []
  /-- the array cycles of a pseudo-channel's corrected reads within the last hour (R407) -/
  ceAt : Tab (List Nat) := []
  /-- a retired page's new home, for exported global addresses (R268) -/
  moved : Tab Nat := []
  /-- pages whose tables still point to the old page until the boundary (R418) -/
  retiring : Option Nat := none
deriving DecidableEq, Repr

/-- What the device sends to the world outside, oldest first (log entry 6). -/
inductive Out where
  | msix (port : Nat) (vector : Nat)
  /-- the event ARY_OVERRUN to the scheduler core: partition, cluster, logical array (R70) -/
  | aryOverrun (p c a : Nat)
  /-- an array operation ended: cluster, array, context, status -/
  | op (c a x : Nat) (status : Nat)
  /-- a slice ended -/
  | slice (c a x : Nat) (status : Nat)
  /-- completion of a FAB_OP in a control core's queue -/
  | fabOp (c : Nat) (status : Nat)
  /-- a request enters the fabric router of this chip -/
  | fabric (dst : Nat) (q : FabReq)
  /-- a message reaches this chip itself by its router -/
  | deliver (m : Msg)
  /-- a flit leaves on a link (R252, R253) -/
  | flit (link : Nat) (f : TxFlit)
  /-- link control: credits granted again on a channel (R252) -/
  | credit (link vc n : Nat)
  | frame (port sub : Nat) (bytes : List Byte)
  | pause (port sub pri : Nat)
  | flitAck (link seq : Nat)
  | flitNak (link seq : Nat)
  | rekey (link epoch : Nat)
  | job (pool inst : Nat) (status : Nat) (info : List Nat)
  | zeroise
  /-- an SPDM response through the Data Object Exchange of a port (R378) -/
  | doe (port : Nat) (rsp : List Byte)
deriving DecidableEq, Repr

/-- A flag of W1C access (R11): of the reset causes, a search lane, a cell, a context, a ring or a partition. -/
inductive W1cBit where
  | por
  | wake
  | device
  | therm
  | laneOvf (n : Nat)
  | laneValid (n : Nat)
  | rptOvf (n : Nat)
  | cspSat (c x : Nat)
  | cspPsn (c x : Nat)
  | ringFault (k : Nat)
  | dirtyOver (p : Nat)
  | twinDiv (p : Nat)
  | twinTdiv (p : Nat)
  | twinLost (p : Nat)
deriving DecidableEq, Repr

/-- The whole machine. -/
structure State where
  time : TimeUnit := {}
  pwr : Power := {}
  boot : Boot := {}
  sec : Security := {}
  auth : PoolAuth := {}
  uart : Uart := {}
  /-- ring 17 p + r is command ring r of partition p, 17 p + 16 its event ring, 1088 the pool ring, 1089 the pool event ring -/
  rings : Tab Ring := []
  poolVer : Option (Nat × Nat) := none
  outst : List Outst := []
  /-- host memory of the four ports -/
  host : Tab Mem := []
  hostUp : BitVec 4 := 0
  parts : Tab Part := []
  /-- last generation each partition ID had since power-on (R323) -/
  lastGen : Tab (BitVec 16) := []
  /-- PART_CREATE and PART_DESTROY commands that wait for the LSS window of a cluster to change or for the cluster to become
  usable: partition, cluster (R93, R385) -/
  lssHold : List (Nat × Nat) := []
  /-- groups that ended tasks gave back, with the first boundary at which they may be given again (R25) -/
  freed : List (Nat × Nat) := []
  claims : List Claim := []
  nextClaim : Nat := 1
  /-- radio grants: group, partition, first and last boundary -/
  grants : List (Nat × Nat × Nat × Nat) := []
  clusters : Tab Cluster := []
  hbm : Hbm := {}
  radio : Radio := {}
  fab : Fabric := {}
  eth : Eth := {}
  cprog : CloveProg := {}
  health : Health := {}
  /-- SPDM connection state: functions 0-3, ring sets 4 + p, pool 68 -/
  spdm : Tab Nat := []
  /-- W1C flags the device has set, each with the array cycle of its last setting; only those of the current cycle count (R13) -/
  flagsAt : List (W1cBit × Nat) := []
  /-- counter of free values (log entry 3) -/
  fresh : Nat := 0
  out : List Out := []
  pending : List Instr := []
deriving DecidableEq, Repr

/-- No meaning faults: every address and value the manual calls wrong is answered with a status, an event or a zero. -/
inductive Fault where
  /-- raised by no meaning; it stands for an access the manual says cannot be made. Safe: a stop proves nothing false. -/
  | noSuchAddress (addr : Nat)
deriving DecidableEq, Repr

/-- Why a command has no meaning. -/
inductive Refusal where
  /-- a command with no meaning yet, by its table mnemonic. Safe. -/
  | notModelled (mnemonic : String)
deriving DecidableEq, Repr

/-- The machine right after a power-on reset: por_n still low, every register at its reset value (R356, R432, log entry 5). -/
def State.reset : State := {}

end Sys2Proof.Machine
end

