-- ==== Sys2Proof/Machine/Ops.lean ====
section
/-! DEFINITION. The shared operations: entries of the tables of State, memory, virtual addresses, the clock, rings,
completions and events. -/

namespace Sys2Proof.Machine

open Sys2Proof

/-! ### Status codes (R19) and their choice (R20) -/

abbrev stOk : Nat := 0
abbrev stBadVersion : Nat := 1
abbrev stBadOpcode : Nat := 2
abbrev stBadParam : Nat := 3
abbrev stNoResource : Nat := 4
abbrev stBounds : Nat := 5
abbrev stStale : Nat := 6
abbrev stRefusedMode : Nat := 7
abbrev stPoisoned : Nat := 8
abbrev stDeadline : Nat := 9
abbrev stDenied : Nat := 10
abbrev stTimeout : Nat := 11
abbrev stAborted : Nat := 12
abbrev stBusy : Nat := 13
abbrev stPartial : Nat := 14

/-- The statuses whose condition holds. -/
def errsOf (l : List (Bool × Nat)) : List Nat := (l.filter (fun e => e.1)).map (fun e => e.2)

/-- The lowest code of a list, 0 where the list is empty (R20). -/
def lowest : List Nat → Nat
  | [] => 0
  | [a] => a
  | a :: t => Nat.min a (lowest t)

/-! ### Entries of the tables -/

def getRing (s : State) (k : Nat) : Ring := tabGet {} s.rings k
def modRing (s : State) (k : Nat) (f : Ring → Ring) : State := { s with rings := tabMod {} s.rings k f }
def getPart (s : State) (p : Nat) : Part := tabGet {} s.parts p
def modPart (s : State) (p : Nat) (f : Part → Part) : State := { s with parts := tabMod {} s.parts p f }
def getClu (s : State) (c : Nat) : Cluster := tabGet {} s.clusters c
def modClu (s : State) (c : Nat) (f : Cluster → Cluster) : State := { s with clusters := tabMod {} s.clusters c f }
def getEq (cl : Cluster) (q : Nat) : Eq := tabGet {} cl.eq q
def modEq (s : State) (c q : Nat) (f : Eq → Eq) : State :=
  modClu s c (fun cl => { cl with eq := tabMod {} cl.eq q f })
def getEng (s : State) (c e : Nat) : Engine := tabGet {} (getClu s c).eng e
def modEng (s : State) (c e : Nat) (f : Engine → Engine) : State :=
  modClu s c (fun cl => { cl with eng := tabMod {} cl.eng e f })
def getCsp (s : State) (c x : Nat) : CspCtx := tabGet {} (getClu s c).csp x
def modCsp (s : State) (c x : Nat) (f : CspCtx → CspCtx) : State :=
  modClu s c (fun cl => { cl with csp := tabMod {} cl.csp x f })
def getLa (s : State) (c l : Nat) : LArray := tabGet {} (getClu s c).la l
def modLa (s : State) (c l : Nat) (f : LArray → LArray) : State :=
  modClu s c (fun cl => { cl with la := tabMod {} cl.la l f })
def getPa (s : State) (c a : Nat) : PArray := tabGet {} (getClu s c).pa a
def modPa (s : State) (c a : Nat) (f : PArray → PArray) : State :=
  modClu s c (fun cl => { cl with pa := tabMod {} cl.pa a f })
def getHold (s : State) (p c : Nat) : Holding := tabGet {} (getPart s p).hold c
def getLink (s : State) (l : Nat) : Link := tabGet {} s.fab.links l
def modLink (s : State) (l : Nat) (f : Link → Link) : State :=
  { s with fab := { s.fab with links := tabMod {} s.fab.links l f } }
def getPort (s : State) (n : Nat) : EthPort := tabGet {} s.eth.ports n
def modPort (s : State) (n : Nat) (f : EthPort → EthPort) : State :=
  { s with eth := { s.eth with ports := tabMod {} s.eth.ports n f } }
def getQ (s : State) (q : Nat) : TmQ := tabGet {} s.eth.qs q
def modQ (s : State) (q : Nat) (f : TmQ → TmQ) : State := { s with eth := { s.eth with qs := tabMod {} s.eth.qs q f } }
def getTmp (s : State) (p : Nat) : TmPart := tabGet {} s.eth.tmp p
def modTmp (s : State) (p : Nat) (f : TmPart → TmPart) : State :=
  { s with eth := { s.eth with tmp := tabMod {} s.eth.tmp p f } }
def getQp (s : State) (q : Nat) : Qp := tabGet {} s.eth.qps q
def modQp (s : State) (q : Nat) (f : Qp → Qp) : State := { s with eth := { s.eth with qps := tabMod {} s.eth.qps q f } }
def getCell (s : State) (n : Nat) : Cell := tabGet {} s.radio.cells n
def modCell (s : State) (n : Nat) (f : Cell → Cell) : State :=
  { s with radio := { s.radio with cells := tabMod {} s.radio.cells n f } }
def getStream (s : State) (n : Nat) : Stream := tabGet {} s.radio.streams n
def modStream (s : State) (n : Nat) (f : Stream → Stream) : State :=
  { s with radio := { s.radio with streams := tabMod {} s.radio.streams n f } }
def getEp (s : State) (n : Nat) : Endpoint := tabGet {} s.radio.eps n
def modEp (s : State) (n : Nat) (f : Endpoint → Endpoint) : State :=
  { s with radio := { s.radio with eps := tabMod {} s.radio.eps n f } }
def getLane (s : State) (n : Nat) : Lane := tabGet {} s.radio.lanes n
def modLane (s : State) (n : Nat) (f : Lane → Lane) : State :=
  { s with radio := { s.radio with lanes := tabMod {} s.radio.lanes n f } }
def getInst (s : State) (k : Nat) : Inst := tabGet {} s.radio.inst k
def modInst (s : State) (k : Nat) (f : Inst → Inst) : State :=
  { s with radio := { s.radio with inst := tabMod {} s.radio.inst k f } }
def getPc (s : State) (c : Nat) : PwrClu := tabGet {} s.pwr.clu c
def modPc (s : State) (c : Nat) (f : PwrClu → PwrClu) : State :=
  { s with pwr := { s.pwr with clu := tabMod {} s.pwr.clu c f } }

/-- Do something for every number of a list, in order. -/
def forNats (f : State → Nat → State) (s : State) (l : List Nat) : State := l.foldl f s

/-- A free value of w bits, and the state with its counter advanced (log entry 3). -/
def takeFree (s : State) (w : Nat) : BitVec w × State :=
  (Config.freeValue w s.fresh, { s with fresh := s.fresh + 1 })

/-- Send something to the outside (log entry 6). -/
def emit (s : State) (o : Out) : State := { s with out := s.out ++ [o] }

/-- A field of PCIe port numbers. -/
def hostLinkUp (s : State) (port : Nat) : Bool := s.hostUp.getLsbD port

/-- The package is in RUN and its main clocks run (R432, R439). -/
def mainOn (s : State) : Bool := s.pwr.porN && s.pwr.pwrOk && !s.pwr.stopped

/-- A command of the main domain: it acts only in RUN with the clocks running, and does nothing otherwise (R432, R439). -/
def inRun (s : State) (f : State → State) : Host.Outcome State Fault Refusal := .next (if mainOn s then f s else s)

/-! ### Byte memory -/

def rdByte (m : Mem) (a : Nat) : Byte := tabGet 0 m a
def wrByte (m : Mem) (a : Nat) (b : Byte) : Mem := tabSet 0 m a b

/-- n bytes from an address. -/
def rdBytes (m : Mem) (a : Nat) : Nat → List Byte
  | 0 => []
  | n + 1 => rdByte m a :: rdBytes m (a + 1) n

/-- Write bytes from an address on. -/
def wrBytes (m : Mem) (a : Nat) : List Byte → Mem
  | [] => m
  | b :: bs => wrBytes (wrByte m a b) (a + 1) bs

/-- Zero the addresses lo to hi - 1. -/
def zeroRange (m : Mem) (lo hi : Nat) : Mem := tabKeep (fun k => decide (k < lo) || decide (hi ≤ k)) m

/-- The canonical form of byte memory. -/
def memWf (m : Mem) : Bool := tabWf 0 m

/-- Memory with poison in canonical form. -/
def pmemWf (m : PMem) : Bool := memWf m.mem && tabWf false m.psn

/-- The poison bit of granule g (R409). -/
def granPsn (m : PMem) (g : Nat) : Bool := tabGet false m.psn g

/-- Set the poison bit of granule g. -/
def setGranPsn (m : PMem) (g : Nat) (b : Bool) : PMem := { m with psn := tabSet false m.psn g b }

/-- The 64 bytes of granule g, as bits. -/
def granData (m : PMem) (g : Nat) : GranuleBits := BitVec.ofNat 512 (ofLe (rdBytes m.mem (64 * g) 64))

/-- Write granule g whole, with its poison (R124, R410). -/
def putGran (m : PMem) (g : Nat) (d : GranuleBits) (p : Bool) : PMem :=
  { mem := wrBytes m.mem (64 * g) (leBytes 64 d.toNat), psn := tabSet false m.psn g p }

/-- The granules that n bytes at a touch. -/
def granSpan (a n : Nat) : List Nat :=
  if n = 0 then [] else (List.range ((a + n - 1) / 64 - a / 64 + 1)).map (fun i => a / 64 + i)

/-- Is granule g covered whole by n bytes at a? -/
def granWhole (a n g : Nat) : Bool := decide (a ≤ 64 * g) && decide (64 * g + 64 ≤ a + n)

/-- Write bytes with poison: poisoned data marks each granule it touches, clean data clears those it covers whole, and
leaves the mark of a granule it covers in part (R124, R410). -/
def putBytes (m : PMem) (a : Nat) (bs : List Byte) (p : Bool) : PMem :=
  { mem := wrBytes m.mem a bs
    psn := (granSpan a bs.length).foldl
      (fun t g => if p then tabSet false t g true else if granWhole a bs.length g then tabSet false t g false else t) m.psn }

/-- Does any granule that n bytes at a touch carry poison? -/
def anyPsn (m : PMem) (a n : Nat) : Bool := (granSpan a n).any (fun g => granPsn m g)

/-- Zero bytes lo to hi - 1 and clear the poison of their granules (R328). -/
def clearPMem (m : PMem) (lo hi : Nat) : PMem :=
  { mem := zeroRange m.mem lo hi
    psn := tabKeep (fun g => decide (64 * g + 64 ≤ lo) || decide (hi ≤ 64 * g)) m.psn }

/-! ### Host memory -/

/-- Bytes of a port's host memory; none while its link is down. -/
def hostRead (s : State) (port a n : Nat) : Option (List Byte) :=
  if hostLinkUp s port then some (rdBytes (tabGet [] s.host port) a n) else none

/-- Write a port's host memory; lost while its link is down. -/
def hostWrite (s : State) (port a : Nat) (bs : List Byte) : State :=
  if hostLinkUp s port then { s with host := tabMod [] s.host port (fun m => wrBytes m a bs) } else s

/-- The device sets a W1C flag in this array cycle (R13). -/
def noteFlag (s : State) (b : W1cBit) : State :=
  { s with flagsAt := (b, s.time.now) :: s.flagsAt.filter (fun x => decide (x.2 = s.time.now) && decide (x.1 ≠ b)) }

/-- The device has set a W1C flag in the array cycle that runs. -/
def flagNow (s : State) (b : W1cBit) : Bool := s.flagsAt.contains (b, s.time.now)

/-- R344: mark the 4 KiB pages of n bytes at host address a in the active dirty bitmap of partition p. -/
def logDirty (s : State) (p a n : Nat) : State :=
  let P := getPart s p
  if P.dirtyEn && decide (0 < n) then
    let first := a / 4096
    let count := (a + n - 1) / 4096 - first + 1
    ((List.range count).map (fun i => first + i)).foldl (fun s g =>
      if 4096 * g < 2 ^ 30 * P.dirtySpan then
        let byteAddr := P.dirtyBase + b2n P.dirtyActive * (2 ^ 15 * P.dirtySpan) + g / 8
        { s with host := tabMod [] s.host P.host.val (fun m =>
            wrByte m byteAddr (rdByte m byteAddr ||| BitVec.ofNat 8 (2 ^ (g % 8)))) }
      else noteFlag (modPart s p (fun P => { P with dirtyOver := true })) (.dirtyOver p)) s
  else s

/-- A write to the owning host's memory on behalf of partition p (R344). -/
def hostWriteFor (s : State) (p a : Nat) (bs : List Byte) : State :=
  let port := (getPart s p).host.val
  if hostLinkUp s port then hostWrite (logDirty s p a bs.length) port a bs else s

/-! ### Virtual addresses (R325) -/

/-- Bytes of a page. -/
abbrev pageBytes : Nat := 2 ^ 21

/-- The page-table entry of a virtual address. -/
def pteOf (s : State) (p va : Nat) : Pte := tabGet {} (getPart s p).pt (va / pageBytes)

/-- The target address of a virtual address under its entry. -/
def pteAddr (e : Pte) (va : Nat) : Nat := e.target + va % pageBytes

/-- Split n bytes at va into runs that lie in one page each. -/
def vaRuns : Nat → Nat → Nat → List (Nat × Nat)
  | 0, _, _ => []
  | _ + 1, _, 0 => []
  | f + 1, va, n + 1 =>
    let k := Nat.min (n + 1) (pageBytes - va % pageBytes)
    (va, k) :: vaRuns f (va + k) (n + 1 - k)

/-- The runs of n bytes at va. -/
def runsOf (va n : Nat) : List (Nat × Nat) := vaRuns (n / pageBytes + 2) va n

/-- Read bytes through a partition's mappings to its own HBM or to host memory; none where a page is unmapped, is a
fabric target or cannot be read, or the range passes 2^48 (R375, log entry 19). The flag says a poisoned granule was met. -/
def rdVaP (s : State) (p va n : Nat) : Option (List Byte × Bool) :=
  if 2 ^ 48 < n + va then none else
  (runsOf va n).foldl (fun acc r =>
    match acc with
    | none => none
    | some (bs, psn) =>
      let e := pteOf s p r.1
      let a := pteAddr e r.1
      if !e.v then none
      else if e.kind = 0 then some (bs ++ rdBytes s.hbm.m.mem a r.2, psn || anyPsn s.hbm.m a r.2)
      else if e.kind = 2 then
        (match hostRead s (getPart s p).host.val a r.2 with
         | some b => some (bs ++ b, psn)
         | none => none)
      else none) (some ([], false))

/-- Bytes alone. -/
def rdVa (s : State) (p va n : Nat) : Option (List Byte) := (rdVaP s p va n).map (fun x => x.1)

/-- Are n bytes at va mapped writable to the partition's own HBM or to host memory? -/
def canWrVa (s : State) (p va n : Nat) : Bool :=
  decide (n + va ≤ 2 ^ 48) && (runsOf va n).all (fun r =>
    let e := pteOf s p r.1
    e.v && e.w && (decide (e.kind = 0) || decide (e.kind = 2)))

/-- A write of n bytes at va meets host memory whose link is down: it completes with TIMEOUT, and nothing of it reaches the host
(R371). -/
def writeLost (s : State) (p va n : Nat) : Bool :=
  !hostLinkUp s (getPart s p).host.val && (runsOf va n).any (fun r => decide ((pteOf s p r.1).kind = 2))

/-- Write one run of bytes that lies in one page. -/
def wrRun (s : State) (p va : Nat) (bs : List Byte) (psn : Bool) : State :=
  let e := pteOf s p va
  let a := pteAddr e va
  if e.kind = 0 then { s with hbm := { s.hbm with m := putBytes s.hbm.m a bs psn } }
  else if e.kind = 2 then hostWriteFor s p a bs
  else s

/-- Write bytes through a partition's mappings, where canWrVa allows it; otherwise nothing is written. -/
def wrVaP (s : State) (p va : Nat) (bs : List Byte) (psn : Bool) : State :=
  if canWrVa s p va bs.length then
    ((runsOf va bs.length).foldl (fun (acc : State × List Byte) r =>
      (wrRun acc.1 p r.1 (acc.2.take r.2) psn, acc.2.drop r.2)) (s, bs)).1
  else s

def wrVa (s : State) (p va : Nat) (bs : List Byte) : State := wrVaP s p va bs false

/-! ### The clock (R10, R212, R219) -/

/-- The u32 stamp of R219. -/
def stamp (s : State) : Word := BitVec.ofNat 32 (1000000000 * s.time.sec.toNat + s.time.ns)

/-- The clove that a 32-bit clove field names, none for a past one (R222). -/
def cloveOfField (s : State) (f : Nat) : Option Nat :=
  let d := s32Diff f s.time.clove
  if d < 0 then none else some (s.time.clove + d.toNat)

/-- A decision for boundary b can be committed by cycle 245,000 of clove b - 1 (R25). -/
def canCommit (s : State) (b : Nat) : Bool :=
  decide (s.time.clove + 1 < b) || (decide (s.time.clove + 1 = b) && decide (s.time.cycle ≤ 245000))

/-- The first boundary for which a decision that is ready now takes effect (R25). -/
def nextCommit (s : State) : Nat := if s.time.cycle ≤ 245000 then s.time.clove + 1 else s.time.clove + 2

/-- Advance the clock by one array cycle, 0.5 ns (R10). -/
def tick (s : State) : State :=
  let t := s.time
  let fr := t.frac.toNat + 32768
  let n := t.ns + fr / 65536
  { s with time := { t with
      now := t.now + 1
      cycle := Nat.min 249999 (t.cycle + 1)
      frac := BitVec.ofNat 16 fr
      ns := n % 1000000000
      sec := t.sec + BitVec.ofNat 48 (n / 1000000000) } }

/-! ### Switched domains (R436): link groups 0 to 2, Ethernet groups 3 and 4, the radio engine domain 5 -/

/-- A domain has power. -/
def domOn (s : State) (d : Nat) : Bool :=
  if d < 3 then s.pwr.linkOn.getLsbD d else if d < 5 then s.pwr.ethOn.getLsbD (d - 3) else s.pwr.radioOn

/-- Give or take a domain's power. -/
def setDom (s : State) (d : Nat) (on : Bool) : State :=
  let put {w : Nat} (v : BitVec w) (i : Nat) : BitVec w :=
    if on then v ||| BitVec.ofNat w (2 ^ i) else v &&& ~~~(BitVec.ofNat w (2 ^ i))
  { s with pwr :=
      if d < 3 then { s.pwr with linkOn := put s.pwr.linkOn d }
      else if d < 5 then { s.pwr with ethOn := put s.pwr.ethOn (d - 3) }
      else { s.pwr with radioOn := on } }

/-- The power core has committed to switch a domain off at the next boundary (R25, R436). -/
def domGoing (s : State) (d : Nat) : Bool :=
  decide (245000 < s.time.cycle) && decide (tabGet 0 s.pwr.domOffAt d = s.time.clove + 1)

/-- A domain has power and is usable; what comes once its switch-off is committed is handled at the boundary (R436). -/
def domUsable (s : State) (on : Bool) (d : Nat) : Bool :=
  on && decide (tabGet 0 s.pwr.usableAt d ≤ s.time.clove) && !domGoing s d

/-- Ask for a domain: it comes on at the next boundary that can be committed and is usable two cloves later; before the cloves
run it is usable at once (log entry 34). A switch-off that is not committed yet is given up (R436). -/
def requestOn (s : State) (d : Nat) : State :=
  let s := { s with pwr := { s.pwr with
    idle := tabSet 0 s.pwr.idle d 0, domOffAt := if domGoing s d then s.pwr.domOffAt else tabSet 0 s.pwr.domOffAt d 0 } }
  if domOn s d then s
  else if !s.time.cloveRun then setDom s d true
  else if s.time.clove < tabGet 0 s.pwr.usableAt d then s
  else { s with pwr := { s.pwr with usableAt := tabSet 0 s.pwr.usableAt d (nextCommit s + 2) } }

/-! ### Rings (R364-R371) -/

/-- The number of a ring in State.rings. -/
def ringKey : RingId → Nat
  | .pool => 1088
  | .poolEv => 1089
  | .part p r => 17 * p.val + r.val
  | .partEv p => 17 * p.val + 16

/-- The partition whose ring a number is; 64 for the pool's rings. -/
def ringPart (k : Nat) : Nat := k / 17

/-- Is a ring an event ring? -/
def ringIsEvent (k : Nat) : Bool := decide (k = 1089) || (decide (k < 1088) && decide (k % 17 = 16))

/-- The port whose host holds a ring. -/
def ringPort (s : State) (k : Nat) : Nat := if 1088 ≤ k then 0 else (getPart s (ringPart k)).host.val

/-- Bytes of a completion or of an event record (R368, R379). -/
def recBytes (k : Nat) : Nat := if ringIsEvent k then 64 else 32

/-- Entries of the completion or event ring (R364). -/
def cplSize (r : Ring) : Nat := 2 ^ r.cplLog2Act

/-- Entries of the command ring (R364). -/
def cmdSize (r : Ring) : Nat := 2 ^ r.cmdLog2Act

/-- Records that the host has not consumed. -/
def cplUsed (r : Ring) : Nat := (r.cplTail - r.cplHead).toNat

/-- Room for one more record. -/
def cplRoom (r : Ring) : Bool := decide (cplUsed r < cplSize r)

/-- PHASE of R368. -/
def phaseBit (r : Ring) : Nat := if r.cplTail.toNat / cplSize r % 2 = 0 then 1 else 0

/-- A ring drops a record. -/
def dropRec (r : Ring) : Ring := { r with lost := satAdd (2 ^ 32 - 1) r.lost 1, lostRun := satAdd (2 ^ 32 - 1) r.lostRun 1 }

/-- The words of a record as it is written: PHASE, and for an event the recipient's generation and the LOST count (R379). -/
def finishRec (s : State) (k : Nat) (r : Ring) (h : Held) : List Word :=
  if ringIsEvent k then
    let gen : Nat := if 1088 ≤ k then 0 else (getPart s (ringPart k)).gen.toNat
    let w0 := (wd h.words 0).toNat + 2 ^ 16 * phaseBit r + (if r.lostRun = 0 then 0 else 2 ^ 17)
    let w1 := (wd h.words 1).toNat + 2 ^ 16 * gen
    BitVec.ofNat 32 w0 :: BitVec.ofNat 32 w1 :: wd h.words 2 :: wd h.words 3 :: BitVec.ofNat 32 r.lostRun ::
      h.words.drop 5
  else
    wd h.words 0 :: wd h.words 1 :: BitVec.ofNat 32 ((wd h.words 2).toNat + 2 ^ 8 * phaseBit r) :: h.words.drop 3

/-- Write one record to its ring and send the MSI-X vector (R366, R368, R379). -/
def writeRec (s : State) (k : Nat) (h : Held) : State :=
  let r := getRing s k
  let a := r.cplBaseAct + r.cplTail.toNat % cplSize r * recBytes k
  let bs := bytesOfWords (finishRec s k r h)
  let s := if 1088 ≤ k then hostWrite s 0 a bs else hostWriteFor s (ringPart k) a bs
  let s := modRing s k (fun r => { r with cplTail := r.cplTail + 1, lostRun := if ringIsEvent k then 0 else r.lostRun })
  if h.notify then emit s (.msix (ringPort s k) r.msix.toNat) else s

/-- Write held records, in order, while the ring takes them (R369, R371). -/
def flushHeld (s : State) (k : Nat) : List Held → State
  | [] => modRing s k (fun r => { r with held := [] })
  | h :: t =>
    let r := getRing s k
    if !hostLinkUp s (ringPort s k) then modRing s k (fun r => { r with held := h :: t })
    else if cplRoom r && !(ringIsEvent k && (r.fault || !r.en)) then flushHeld (writeRec s k h) k t
    else if ringIsEvent k || r.fault then flushHeld (modRing s k dropRec) k t
    else modRing s k (fun r => { r with held := h :: t })

/-- A record is finished: it is written, held or dropped. A completion ring that is full holds it (R369), an event ring that
is full drops it (R379), a ring whose host link is down holds as many as its size (R371), and a faulted ring drops what it
cannot take (R365). An event ring that is disabled or faulted drops it (log entry 20). -/
def deliver (s : State) (k : Nat) (h : Held) : State :=
  let r := getRing s k
  if !hostLinkUp s (ringPort s k) && decide (cplSize r ≤ r.held.length) then modRing s k dropRec
  else flushHeld s k (r.held ++ [h])

/-! ### Events (R379-R381) -/

/-- Items of DATA at their aligned offsets, from an offset on (R381). -/
def packItems : Nat → List (Nat × Nat) → List Byte
  | off, [] => List.replicate (44 - off) 0
  | off, (sz, v) :: t =>
    let pad := (sz - off % sz) % sz
    List.replicate pad 0 ++ leBytes sz v ++ packItems (off + pad + sz) t

/-- An event record without PHASE, GEN and LOST. dst is a partition, or 255 for the pool. -/
def eventWords (s : State) (dst code : Nat) (items : List (Nat × Nat)) : List Word :=
  BitVec.ofNat 32 code :: BitVec.ofNat 32 dst :: stamp s :: BitVec.ofNat 32 s.time.clove :: 0 ::
    wordsOf 11 (packItems 0 items)

/-- Send an event to the pool event ring. -/
def evPool (s : State) (code : Nat) (items : List (Nat × Nat)) : State :=
  deliver s 1089 { words := eventWords s 255 code items, notify := true }

/-- Send an event to a partition's event ring; a partition that does not exist gets nothing. -/
def evPart (s : State) (p code : Nat) (items : List (Nat × Nat)) : State :=
  if (getPart s p).live then deliver s (17 * p + 16) { words := eventWords s p code items, notify := true } else s

/-- The partitions that exist, ascending. -/
def liveParts (s : State) : List Nat := (List.range 64).filter (fun p => (getPart s p).live)

/-- The radio partitions, ascending. -/
def radioParts (s : State) : List Nat := (liveParts s).filter (fun p => (getPart s p).typ = 0)

/-- RING_FAULT of R365: a command ring's goes to its partition, an event ring's and the pool's to the pool event ring. -/
def ringFault (s : State) (k : Nat) : State :=
  if (getRing s k).fault then s else
  let s := noteFlag (modRing s k (fun r => { r with fault := true })) (.ringFault k)
  if 1088 ≤ k || ringIsEvent k then evPool s 0x0001 [] else evPart s (ringPart k) 0x0001 []

/-! ### Completions (R368, R375) -/

/-- What a completion repeats of its packet. -/
structure CmdHead where
  ring : RingId
  opcode : Nat
  part : BitVec 8
  gen : BitVec 16
  tag : BitVec 32
  fence : Bool
  notify : Bool
deriving DecidableEq, Repr

/-- Write the completion of a command (R368). -/
def complete (s : State) (h : CmdHead) (status : Nat) (res : List Word) : State :=
  deliver s (ringKey h.ring)
    { words := [BitVec.ofNat 32 (status + 2 ^ 8 * h.opcode + 2 ^ 16 * h.gen.toNat), h.tag, BitVec.ofNat 32 h.part.toNat,
        stamp s, wd res 0, wd res 1, wd res 2, wd res 3], notify := h.notify }

/-- The head of an accepted command that waits. -/
def outstHead (o : Outst) : CmdHead :=
  { ring := o.ring, opcode := o.opcode, part := o.part, gen := o.gen, tag := o.tag, fence := o.fence, notify := o.notify }

/-- Complete every waiting command that a test picks, in order, with a status and result words of its own. -/
def completeWhere (s : State) (pick : Outst → Bool) (f : Outst → Nat × List Word) : State :=
  let done := s.outst.filter pick
  let s := { s with outst := s.outst.filter (fun o => !pick o) }
  done.foldl (fun s o => complete s (outstHead o) (f o).1 (f o).2) s

/-- Complete the commands that wait for a reason, keeping their result words. -/
def completeWait (s : State) (w : Wait) (status : Nat) : State :=
  completeWhere s (fun o => decide (o.why = w)) (fun o => (status, o.res))

/-- IDLE of R364: nothing fetched is outstanding and every completion is written. -/
def ringIdle (s : State) (k : Nat) : Bool :=
  let r := getRing s k
  r.held.isEmpty && r.fetched.isEmpty && s.outst.all (fun o => decide (ringKey o.ring ≠ k))

end Sys2Proof.Machine
end

