-- ==== Sys2Proof/Machine/Flags.lean ====
section
/-! DEFINITION. Flag computations: the outcome of a slice or a run, W1C writes, saturation. -/

namespace Sys2Proof.Machine

open Sys2Proof

/-- The rank of an outcome: DEADLINE and TIMEOUT stand above POISONED, ABORTED above all (R138, R446, R70). -/
def outcomeRank (st : Nat) : Nat :=
  if st = stOk then 0 else if st = stPoisoned then 1 else if st = stDeadline then 2 else if st = stTimeout then 3
  else if st = stAborted then 5 else 4

/-- The outcome of two parts of one slice; of two checks that failed, the lower code (R20). -/
def worse (a b : Nat) : Nat :=
  if outcomeRank a < outcomeRank b then b else if outcomeRank a = 4 ∧ outcomeRank b = 4 then Nat.min a b else a

/-- A status that a command may complete with once its execution has begun (R20). -/
def isOutcome (st : Nat) : Bool := [0x00, 0x08, 0x09, 0x0B, 0x0C, 0x0E].contains st

/-- A W1C bit after a write (R11): a 1 clears it, unless the device set it in the same cycle (R13). -/
def w1c (s : State) (b : W1cBit) (old written : Bool) : Bool := old && (!written || flagNow s b)

/-- Add to an n-bit saturating counter. -/
def satInc (bits old by_ : Nat) : Nat := Nat.min (2 ^ bits - 1) (old + by_)

end Sys2Proof.Machine
end

