-- ==== Sys2Proof/Machine/Float.lean ====
section
/-! DEFINITION. Element encodings, exact values, and the roundings of the manual (R78-R82, R92, R104-R106, R156). -/

namespace Sys2Proof.Machine

open Sys2Proof

/-- The value of a floating element: not a number, an infinity, or sign, magnitude m and exponent e meaning m * 2^e. -/
inductive Fv where
  | nan
  | inf (neg : Bool)
  | fin (neg : Bool) (m : Nat) (e : Int)
deriving DecidableEq, Repr

/-- The shape of a binary floating format: exponent bits, mantissa bits, and its special codes. -/
structure Fmt where
  eb : Nat
  mb : Nat
  /-- exponent bias -/
  bias : Nat
  /-- infinities and NaNs as IEEE 754 -/
  ieee : Bool
  /-- S.1111.111 is NaN, and no infinity (R78) -/
  topNan : Bool
deriving DecidableEq, Repr

/-- R78: FP8_E4M3. -/
def fmtE4M3 : Fmt := { eb := 4, mb := 3, bias := 7, ieee := false, topNan := true }
/-- R78: FP8_E5M2. -/
def fmtE5M2 : Fmt := { eb := 5, mb := 2, bias := 15, ieee := true, topNan := false }
/-- R78: BF16, the upper half of a binary32. -/
def fmtBF16 : Fmt := { eb := 8, mb := 7, bias := 127, ieee := true, topNan := false }
/-- R78: FP16, binary16. -/
def fmtFP16 : Fmt := { eb := 5, mb := 10, bias := 15, ieee := true, topNan := false }
/-- R78: FP32, binary32. -/
def fmtFP32 : Fmt := { eb := 8, mb := 23, bias := 127, ieee := true, topNan := false }
/-- binary64 (R92, R149). -/
def fmtFP64 : Fmt := { eb := 11, mb := 52, bias := 1023, ieee := true, topNan := false }
/-- R78: MXFP4 elements. -/
def fmtMX4 : Fmt := { eb := 2, mb := 1, bias := 1, ieee := false, topNan := false }
/-- R78: MXFP6 elements. -/
def fmtMX6 : Fmt := { eb := 2, mb := 3, bias := 1, ieee := false, topNan := false }

/-- The value that a code of a format spells; subnormals are kept (R78, R79). -/
def fvOf (f : Fmt) (code : Nat) : Fv :=
  let man := code % 2 ^ f.mb
  let ex := code / 2 ^ f.mb % 2 ^ f.eb
  let neg := decide (code / 2 ^ (f.mb + f.eb) % 2 = 1)
  if f.ieee && decide (ex = 2 ^ f.eb - 1) then
    (if man = 0 then .inf neg else .nan)
  else if f.topNan && decide (ex = 2 ^ f.eb - 1) && decide (man = 2 ^ f.mb - 1) then .nan
  else if ex = 0 then .fin neg man (1 - (f.bias : Int) - f.mb)
  else .fin neg (2 ^ f.mb + man) ((ex : Int) - f.bias - f.mb)

/-- The canonical quiet NaN of a format (R82). -/
def nanCode (f : Fmt) : Nat :=
  if f.topNan then 2 ^ (f.eb + f.mb) - 1 else (2 ^ f.eb - 1) * 2 ^ f.mb + 2 ^ (f.mb - 1)

/-- The largest finite code of a format, without sign (R78). -/
def maxCode (f : Fmt) : Nat :=
  if f.ieee then (2 ^ f.eb - 1) * 2 ^ f.mb - 1
  else if f.topNan then 2 ^ (f.eb + f.mb) - 2
  else 2 ^ (f.eb + f.mb) - 1

/-- A code with a sign. -/
def signCode (f : Fmt) (neg : Bool) (mag : Nat) : Nat := if neg then 2 ^ (f.eb + f.mb) + mag else mag

/-- floor(log2(n / d)) of two positive numbers. -/
def ratLog2 (n d : Nat) : Int :=
  let k : Int := (n.log2 : Int) - d.log2
  let ge : Bool := if 0 ≤ k then decide (d * 2 ^ k.toNat ≤ n) else decide (d ≤ n * 2 ^ (-k).toNat)
  if ge then k else k - 1

/-- The three roundings of R106; a stochastic rounding carries its random word. -/
inductive Rnd where
  | rne
  | trunc
  | sr (u : Nat)
deriving DecidableEq, Repr

/-- Round the non-negative ratio n / d to an integer by R106. -/
def roundRat (r : Rnd) (n d : Nat) : Nat :=
  let lo := n / d
  let rem := n % d
  match r with
  | .trunc => lo
  | .rne => if 2 * rem < d then lo else if d < 2 * rem then lo + 1 else if lo % 2 = 0 then lo else lo + 1
  | .sr u => if 2 ^ 32 ≤ rem * 2 ^ 32 / d + u then lo + 1 else lo

/-- n / d scaled by 2^(-q), as a ratio. -/
def scaleDown (n d : Nat) (q : Int) : Nat × Nat :=
  if 0 ≤ q then (n, d * 2 ^ q.toNat) else (n * 2 ^ (-q).toNat, d)

/-- The magnitude code of n / d in a format, unbounded above (R106). -/
def roundMag (f : Fmt) (r : Rnd) (n d : Nat) : Nat :=
  if n = 0 then 0 else
  let emin : Int := 1 - (f.bias : Int)
  let e := max (ratLog2 n d) emin
  let q := e - f.mb
  let sc := scaleDown n d q
  let s := roundRat r sc.1 sc.2
  if s < 2 ^ f.mb then s else (e - emin + 1).toNat * 2 ^ f.mb + (s - 2 ^ f.mb)

/-- Round the exact value with sign neg and magnitude n / d to a code of a format, with the overflow of R105. -/
def roundCode (f : Fmt) (r : Rnd) (neg : Bool) (n d : Nat) : Nat :=
  let m := roundMag f r n d
  if m ≤ maxCode f then signCode f neg m
  else if f.ieee && decide (r = .rne) then signCode f neg (maxCode f + 1)
  else signCode f neg (maxCode f)

/-- An exact dyadic number z * 2^e. -/
structure Dy where
  z : Int
  e : Int
deriving DecidableEq, Repr

/-- Exact sum of two dyadic numbers. -/
def dyAdd (a b : Dy) : Dy :=
  if a.e ≤ b.e then { z := a.z + b.z * 2 ^ (b.e - a.e).toNat, e := a.e }
  else { z := a.z * 2 ^ (a.e - b.e).toNat + b.z, e := b.e }

/-- Exact product of two dyadic numbers. -/
def dyMul (a b : Dy) : Dy := { z := a.z * b.z, e := a.e + b.e }

/-- The numerator and denominator of |a|. -/
def dyRat (a : Dy) : Nat × Nat :=
  if 0 ≤ a.e then (a.z.natAbs * 2 ^ a.e.toNat, 1) else (a.z.natAbs, 2 ^ (-a.e).toNat)

/-- Round an exact dyadic value; a zero result takes the sign given. -/
def dyRound (f : Fmt) (r : Rnd) (zneg : Bool) (a : Dy) : Nat :=
  if a.z = 0 then signCode f zneg 0 else roundCode f r (decide (a.z < 0)) (dyRat a).1 (dyRat a).2

/-- The exact value of a finite floating value. -/
def fvDy (neg : Bool) (m : Nat) (e : Int) : Dy := { z := if neg then -(m : Int) else m, e := e }

/-- One rounded addition, to nearest even, with canonical NaNs (R82, R156). -/
def fAdd (f : Fmt) (a b : Nat) : Nat :=
  match fvOf f a, fvOf f b with
  | .nan, _ => nanCode f
  | _, .nan => nanCode f
  | .inf x, .inf y => if x = y then signCode f x (maxCode f + 1) else nanCode f
  | .inf x, .fin _ _ _ => signCode f x (maxCode f + 1)
  | .fin _ _ _, .inf y => signCode f y (maxCode f + 1)
  | .fin x m e, .fin y n g => dyRound f .rne (x && y) (dyAdd (fvDy x m e) (fvDy y n g))

/-- The code of minus a. -/
def fNeg (f : Fmt) (a : Nat) : Nat :=
  match fvOf f a with
  | .nan => nanCode f
  | _ => if a / 2 ^ (f.eb + f.mb) % 2 = 1 then a - 2 ^ (f.eb + f.mb) else a + 2 ^ (f.eb + f.mb)

/-- One rounded multiplication from one format into another, to nearest even (R88, R156). -/
def fMulTo (f g : Fmt) (a b : Nat) : Nat :=
  match fvOf f a, fvOf f b with
  | .nan, _ => nanCode g
  | _, .nan => nanCode g
  | .inf x, .inf y => signCode g (xor x y) (maxCode g + 1)
  | .inf x, .fin y m _ => if m = 0 then nanCode g else signCode g (xor x y) (maxCode g + 1)
  | .fin x m _, .inf y => if m = 0 then nanCode g else signCode g (xor x y) (maxCode g + 1)
  | .fin x m e, .fin y n h => dyRound g .rne (xor x y) (dyMul (fvDy x m e) (fvDy y n h))

/-- One rounded multiplication within a format. -/
def fMul (f : Fmt) (a b : Nat) : Nat := fMulTo f f a b

/-- The fused multiply-add c + a * b with one rounding (R157 VFMA). -/
def fFma (f : Fmt) (c a b : Nat) : Nat :=
  match fvOf f c, fvOf f a, fvOf f b with
  | .nan, _, _ => nanCode f
  | _, .nan, _ => nanCode f
  | _, _, .nan => nanCode f
  | fc, .fin x m e, .fin y n h =>
    match fc with
    | .nan => nanCode f
    | .inf z => signCode f z (maxCode f + 1)
    | .fin z k g => dyRound f .rne (z && (xor x y)) (dyAdd (fvDy z k g) (dyMul (fvDy x m e) (fvDy y n h)))
  | fc, fa, fb =>
    let sa : Bool := match fa with
      | .inf x => x
      | .fin x _ _ => x
      | .nan => false
    let sb : Bool := match fb with
      | .inf y => y
      | .fin y _ _ => y
      | .nan => false
    let za : Bool := match fa with
      | .fin _ m _ => decide (m = 0)
      | _ => false
    let zb : Bool := match fb with
      | .fin _ m _ => decide (m = 0)
      | _ => false
    if za || zb then nanCode f else
    match fc with
    | .inf z => if z = xor sa sb then signCode f z (maxCode f + 1) else nanCode f
    | _ => signCode f (xor sa sb) (maxCode f + 1)

/-- Convert a code from one format to another, to nearest even (R157 VCVT). -/
def fCvt (f g : Fmt) (r : Rnd) (a : Nat) : Nat :=
  match fvOf f a with
  | .nan => nanCode g
  | .inf x => signCode g x (maxCode g + 1)
  | .fin x m e => dyRound g r x (fvDy x m e)

/-- Truncate an exact dyadic value toward zero to an integer. -/
def dyTrunc (a : Dy) : Int :=
  let q : Nat := (dyRat a).1 / (dyRat a).2
  if a.z < 0 then -(q : Int) else q

/-- The order of two floating codes that are not NaN, with -0 below +0 (R156): a key that rises with the value. -/
def fKey (f : Fmt) (a : Nat) : Int :=
  let mag : Int := ((a % 2 ^ (f.eb + f.mb) : Nat) : Int)
  if a / 2 ^ (f.eb + f.mb) % 2 = 1 then -mag - 1 else mag

/-- Floating maximum or minimum of one lane (R156). -/
def fMaxMin (f : Fmt) (isMax : Bool) (a b : Nat) : Nat :=
  if fvOf f a = .nan || fvOf f b = .nan then nanCode f
  else if isMax then (if fKey f a < fKey f b then b else a)
  else (if fKey f b < fKey f a then b else a)

/-- One level of the pairwise tree of R92: pairs at distance w are added. -/
def treeLevel : List Nat → List Nat
  | [] => []
  | [a] => [a]
  | a :: b :: t => fAdd fmtFP64 a b :: treeLevel t

/-- The tree of R92 over binary64 codes, with fuel for its levels (17 levels cover 65,536 shards). -/
def treeSumFuel : Nat → List Nat → Nat
  | _, [] => 0
  | _, [a] => a
  | 0, a :: _ => a
  | n + 1, l => treeSumFuel n (treeLevel l)

/-- tree_sum of R92. -/
def treeSum (l : List Nat) : Nat := treeSumFuel 17 l

/-- The largest k below 2^n that a downward-closed test accepts, by bisection from the top bit. -/
def bisect (test : Nat → Bool) : Nat → Nat → Nat
  | 0, acc => acc
  | n + 1, acc => if test (acc + 2 ^ n) then bisect test n (acc + 2 ^ n) else bisect test n acc

/-- Correctly rounded 1 / x in binary32 (R156). -/
def fRcp (a : Nat) : Nat :=
  match fvOf fmtFP32 a with
  | .nan => nanCode fmtFP32
  | .inf x => signCode fmtFP32 x 0
  | .fin x m e =>
    if m = 0 then signCode fmtFP32 x (maxCode fmtFP32 + 1)
    else
      let p := if 0 ≤ e then (1, m * 2 ^ e.toNat) else (2 ^ (-e).toNat, m)
      roundCode fmtFP32 .rne x p.1 p.2

/-- Correctly rounded 1 / sqrt(x) in binary32 (R156): a quotient with more bits than any tie needs, made odd when inexact. -/
def fRsq (a : Nat) : Nat :=
  match fvOf fmtFP32 a with
  | .nan => nanCode fmtFP32
  | .inf x => if x then nanCode fmtFP32 else 0
  | .fin x m e =>
    if m = 0 then signCode fmtFP32 x (maxCode fmtFP32 + 1)
    else if x then nanCode fmtFP32
    else
      let e2 : Int := if e % 2 = 0 then e else e - 1
      let m2 : Nat := if e % 2 = 0 then m else 2 * m
      -- 1 / sqrt(m2 * 2^e2) = sqrt(2^200 / m2) * 2^(-100 - e2 / 2)
      let t := 2 ^ 200 / m2
      let r := Nat.sqrt t
      let s := 2 * r + (if r * r * m2 = 2 ^ 200 then 0 else 1)
      let q : Int := -101 - e2 / 2
      dyRound fmtFP32 .rne false { z := s, e := q }

/-- The product of the roots 2^(2^(-j)) for the set bits of p, from bit n-1 down, in units of 2^(-200), rounded down.
root is the last root taken. -/
def exp2Frac (p : Nat) : Nat → Nat → Nat → Nat
  | 0, _, acc => acc
  | n + 1, root, acc =>
    let r := Nat.sqrt (root * 2 ^ 200)
    exp2Frac p n r (if p / 2 ^ n % 2 = 1 then acc * r / 2 ^ 200 else acc)

/-- Correctly rounded 2^x in binary32 (R156). x = i + p / 2^k with 0 ≤ p < 2^k; the fraction is formed to 200 bits, far
finer than any binary32 argument needs to settle its rounding (log entry 16), and is inexact unless p = 0. -/
def fExp2 (a : Nat) : Nat :=
  match fvOf fmtFP32 a with
  | .nan => nanCode fmtFP32
  | .inf x => if x then 0 else maxCode fmtFP32 + 1
  | .fin neg m e =>
    let d := fvDy neg m e
    if m = 0 || decide (d.e < -50) then 127 * 2 ^ 23
    else
      let k := (-d.e).toNat
      let num : Int := if 0 ≤ d.e then d.z * 2 ^ d.e.toNat else d.z
      let i : Int := num / ((2 ^ k : Nat) : Int)
      let p : Nat := (num % ((2 ^ k : Nat) : Int)).toNat
      if 128 ≤ i then maxCode fmtFP32 + 1
      else if i < -200 then 0
      else
        let c := exp2Frac p k (2 * 2 ^ 200) (2 ^ 200)
        dyRound fmtFP32 .rne false { z := ((2 * c + (if p = 0 then 0 else 1) : Nat) : Int), e := i - 201 }

end Sys2Proof.Machine
end

