-- ==== Sys2Proof/Machine/Operands.lean ====
section
/-! DEFINITION. Operand forms: element formats and their values (R43, R44, R78-R85, R110), the fields of ARY_OPDESC (R67),
W-tiles, K32 blocks and scales as granules (R118, R119, R133), and what the execute queues give up (R132, R133). -/

namespace Sys2Proof.Machine

open Sys2Proof

/-! ### Formats -/

/-- Stored bits per element (R43, R44). -/
def fmtBits (c : Nat) : Nat :=
  if 1 ≤ c ∧ c ≤ 5 then 8 else if c = 6 ∨ c = 7 then 16 else if c = 8 ∨ c = 9 then 32
  else if 0x10 ≤ c ∧ c ≤ 0x17 then c - 0x0F
  else if c = 0x18 ∨ c = 0x1A then 4 else if c = 0x19 then 2 else if c = 0x1B then 6 else 0

/-- Element size in bytes of a format that stores whole bytes; 8 for code 0x00 (R113, R117). -/
def fmtBytes (c : Nat) : Nat := if c = 0 then 8 else fmtBits c / 8

/-- Is a code in the table of formats? -/
def fmtKnown (c : Nat) : Bool := decide (fmtBits c ≠ 0)

/-- May a code be an output? -/
def fmtOut (c : Nat) : Bool := decide (1 ≤ c) && decide (c ≤ 9)

/-- Stored with planes apart (R44). -/
def fmtApart (c : Nat) : Bool := (decide (0x10 ≤ c) && decide (c ≤ 0x17)) || decide (c = 0x19) || decide (c = 0x1A) || decide (c = 0x1B)

/-- MX formats carry block scales (R78). -/
def fmtMx (c : Nat) : Bool := decide (c = 4) || decide (c = 5) || decide (c = 0x1A) || decide (c = 0x1B)

/-- The plane count n of R44; 0 for the 16-bit formats. -/
def fmtPlanes (c : Nat) : Nat := if c = 6 ∨ c = 7 ∨ c = 8 ∨ c = 9 then 0 else fmtBits c

/-- The lattice exponent f of R78. -/
def fmtLattice (c : Nat) : Option Nat :=
  if c = 1 ∨ c = 8 ∨ (0x10 ≤ c ∧ c ≤ 0x19) then some 0
  else if c = 2 ∨ c = 4 then some 9 else if c = 0x1A then some 1 else if c = 0x1B then some 3 else none

/-- The operand pairs of R43. -/
def fmtPairOk (a w : Nat) : Bool :=
  (decide (1 ≤ a) && decide (a ≤ 5) && ((decide (1 ≤ w) && decide (w ≤ 5)) || (decide (0x10 ≤ w) && decide (w ≤ 0x1B)))) ||
  ((decide (a = 6) || decide (a = 7)) && (decide (w = 6) || decide (w = 7))) || (decide (a = 8) && decide (w = 8))

/-- An MMA of these formats runs on an exact path (R83). -/
def exactPath (scale a w : Nat) : Bool :=
  (decide (a = 8) && decide (w = 8)) ||
  (decide (scale ≠ 3) && (decide (a = 1) || decide (a = 2) || decide (a = 4)) &&
    (decide (w = 1) || decide (w = 2) || decide (w = 4) || (decide (0x10 ≤ w) && decide (w ≤ 0x1B))))

/-- An integer as a floating value. -/
def fvInt (z : Int) : Fv := .fin (decide (z < 0)) z.natAbs 0

/-- The floating shape of a code that has one. -/
def fmtOf (c : Nat) : Fmt :=
  if c = 2 ∨ c = 4 then fmtE4M3 else if c = 3 ∨ c = 5 then fmtE5M2 else if c = 6 then fmtBF16 else if c = 7 then fmtFP16
  else if c = 0x1A then fmtMX4 else if c = 0x1B then fmtMX6 else fmtFP32

/-- The value of an element that is not stored with planes apart (R78). -/
def eltVal (fmt code : Nat) : Fv :=
  if fmt = 1 then fvInt (toSigned 8 code) else if fmt = 0x18 then fvInt (toSigned 4 code) else fvOf (fmtOf fmt) code

/-- The value that planes first to first + count - 1 contribute, their bits given as a number, first plane on top (R80, R81,
R110). -/
def planeVal (fmt first count sel : Nat) : Fv :=
  let n := fmtPlanes fmt
  if fmt = 0x1A ∨ fmt = 0x1B then fvOf (fmtOf fmt) (sel * 2 ^ (n - count))
  else if first = 0 then fvInt (toSigned count sel * 2 ^ (n - count))
  else fvInt ((sel : Int) * 2 ^ (n - first - count))

/-- A finite value in units of 2^-f; none for NaN (R82, R85). -/
def latticeOf (f : Nat) : Fv → Option Int
  | .nan => none
  | .inf _ => none
  | .fin neg m e => some ((if neg then -1 else 1) * ((m : Int) * 2 ^ (e + (f : Int)).toNat))

/-- One product rounded to binary32 (R88). -/
def prodFp32 (a b : Fv) : Nat :=
  match a, b with
  | .nan, _ => nanCode fmtFP32
  | _, .nan => nanCode fmtFP32
  | .inf x, .inf y => signCode fmtFP32 (xor x y) (maxCode fmtFP32 + 1)
  | .inf x, .fin y m _ => if m = 0 then nanCode fmtFP32 else signCode fmtFP32 (xor x y) (maxCode fmtFP32 + 1)
  | .fin x m _, .inf y => if m = 0 then nanCode fmtFP32 else signCode fmtFP32 (xor x y) (maxCode fmtFP32 + 1)
  | .fin x m e, .fin y n h => dyRound fmtFP32 .rne (xor x y) (dyMul (fvDy x m e) (fvDy y n h))

/-! ### ARY_OPDESC (R67) -/

def dOp (d : List Word) : Nat := fld (wd d 0) 3 0
def dFlow (d : List Word) : Nat := fld (wd d 0) 5 4
def dInit (d : List Word) : Bool := bit (wd d 0) 6
def dLast (d : List Word) : Bool := bit (wd d 0) 7
def dCtx (d : List Word) : Bool := bit (wd d 0) 8
def dRem (d : List Word) : Bool := bit (wd d 0) 9
def dStart (d : List Word) : Bool := bit (wd d 0) 10
def dBcast (d : List Word) : Bool := bit (wd d 0) 11
def dA (d : List Word) : Nat := fld (wd d 0) 20 16
def dW (d : List Word) : Nat := fld (wd d 0) 25 21
def dO (d : List Word) : Nat := fld (wd d 0) 30 26
def dRnd (d : List Word) : Nat := fld (wd d 1) 1 0
def dScale (d : List Word) : Nat := fld (wd d 1) 3 2
def dPlane (d : List Word) : Nat := fld (wd d 1) 6 4
def dCount (d : List Word) : Nat := fld (wd d 1) 10 7
def dShift (d : List Word) : Nat := Nat.min 40 (fld (wd d 1) 21 16)
def dArray (d : List Word) : Nat := fld (wd d 1) 29 24
def dK (d : List Word) : Nat := fld (wd d 2) 7 0
def dN (d : List Word) : Nat := fld (wd d 2) 15 8
def dM (d : List Word) : Nat := fld (wd d 2) 23 16
def dKSteps (d : List Word) : Nat := fld (wd d 3) 23 0
def dSpill (d : List Word) : Nat := fld (wd d 4) 16 0
def dLss (d : List Word) : Nat := fld (wd d 5) 23 0
def dWb (d : List Word) : Nat := fld (wd d 6) 11 0
def dAQ (d : List Word) : Nat := fld (wd d 7) 5 0
def dWQ (d : List Word) : Nat := fld (wd d 7) 13 8
def dOQ (d : List Word) : Nat := fld (wd d 7) 21 16
def dPQ (d : List Word) : Nat := fld (wd d 7) 29 24
def dSQ (d : List Word) : Nat := fld (wd d 8) 5 0
def dRQ (d : List Word) : Nat := fld (wd d 8) 13 8
def dTensor (d : List Word) : Nat := (wd d 9).toNat
def dOScale (d : List Word) : Nat := (wd d 10).toNat
def dWcet (d : List Word) : Nat := fld (wd d 11) 17 0
def dGen (d : List Word) : Nat := fld (wd d 12) 15 0
def dPart (d : List Word) : Nat := fld (wd d 12) 23 16

/-- Reserved bits of ARY_OPDESC are zero (R67, R68). -/
def dReservedOk (d : List Word) : Bool :=
  !outsideMasks' d [0x7FFF0FFF, 0x3F3F07FF, 0xFFFFFF, 0xFFFFFF, 0x1FFFF, 0xFFFFFF, 0xFFF, 0x3F3F3F3F, 0x3F3F, 0xFFFFFFFF,
    0xFFFFFFFF, 0x3FFFF, 0xFFFFFF, 0, 0, 0]
where
  outsideMasks' : List Word → List Nat → Bool
    | [], _ => false
    | w :: ws, [] => decide (w ≠ 0) || outsideMasks' ws []
    | w :: ws, m :: ms => decide (w.toNat &&& (0xFFFFFFFF - m) ≠ 0) || outsideMasks' ws ms

/-- Both operands are CI16. -/
def dCi16 (d : List Word) : Bool := decide (dA d = 8) && decide (dW d = 8)

/-- The operation's accumulators are integers (R83). -/
def dExact (d : List Word) : Bool := exactPath (dScale d) (dA d) (dW d)

/-- F of R85. -/
def dF (d : List Word) : Nat := (fmtLattice (dA d)).getD 0 + (fmtLattice (dW d)).getD 0

/-- Stored bits per weight that the operation reads (R49). -/
def dWBits (d : List Word) : Nat := if fmtApart (dW d) then dCount d else fmtBits (dW d)

/-- R of R49, in cycles, which are units of 512 bytes. -/
def dReload (d : List Word) : Nat := ceilDiv (dK d * dN d * dWBits d) 4096

/-- Products a cell completes per cycle in OS mode (R47). -/
def dOsGroup (d : List Word) : Nat := if fmtApart (dW d) ∨ dW d = 0x18 then Nat.max 1 (8 / Nat.max 1 (dCount d)) else 1

/-- The queues that an operation takes from (R133). -/
def inQueues (d : List Word) : List Nat :=
  if dOp d = 1 then [dAQ d] ++ (if dFlow d = 0 then [] else [dWQ d]) ++ (if dScale d = 2 ∨ dScale d = 3 then [dSQ d] else [])
  else if dOp d = 2 then [dPQ d]
  else if dScale d = 2 then [dSQ d] else []

/-- The queues that an operation's drain pushes to. -/
def outQueues (d : List Word) : List Nat :=
  (if dLast d then [dOQ d] else []) ++ (if dOp d = 1 ∧ dRem d then [dRQ d] else [])

/-- The key of an accumulator: the bank slot of WS and IS, or the cell register of the operation's context in OS (R52, R53,
R56), which a spill of that cell exchanges with the other (R99). Part 1 of a CI16 accumulator is its imaginary slot. -/
def accKey (pa : PArray) (d : List Word) (m c part : Nat) : Nat :=
  if dFlow d = 1 then 16384 * (1 + b2n (xor (dCtx d) (tabGet false pa.swap (m * 128 + c)))) + m * 128 + c
  else if dCi16 d then (2 * m + part) * 128 + c
  else m * 128 + c

/-- The other register of an OS cell (R53, R99). -/
def otherKey (pa : PArray) (d : List Word) (m c : Nat) : Nat :=
  16384 * (1 + b2n (!(xor (dCtx d) (tabGet false pa.swap (m * 128 + c))))) + m * 128 + c

/-- The key of the row sums of R58 for row or step m. -/
def rowKey (d : List Word) (m part : Nat) : Nat :=
  if dFlow d = 1 then 128 * (1 + b2n (dCtx d)) + m else if dCi16 d then 2 * m + part else m

/-! ### Granules -/

/-- The byte at index i of a list of granules. -/
def granByte (gs : List Gran) (i : Nat) : Nat := ((gs.getD (i / 64) {}).data >>> (8 * (i % 64))).toNat % 256

/-- The poison of the granule that holds byte i; an erased granule counts as poisoned (R138). -/
def granBad (gs : List Gran) (i : Nat) : Bool :=
  let g := gs.getD (i / 64) {}
  g.psn || g.erased

/-- A little-endian number of e bytes at byte i. -/
def granNum (gs : List Gran) (i : Nat) : Nat → Nat
  | 0 => 0
  | e + 1 => granByte gs i + 256 * granNum gs (i + 1) e

/-- The bits of planes p to p + n - 1 of the weight at (k, c) of a W-tile, first plane on top, with their poison (R118). -/
def planeBits (gs : List Gran) (k c : Nat) : Nat → Nat → Nat × Bool
  | _, 0 => (0, false)
  | p, n + 1 =>
    let i := 2048 * p + k * 16 + c / 8
    let r := planeBits gs k c (p + 1) n
    (granByte gs i / 2 ^ (c % 8) % 2 * 2 ^ n + r.1, granBad gs i || r.2)

/-- The stored weight at (k, c) of a W-tile with its poison: named planes, nibble or bytes (R118, R119; INT4: log entry 90). -/
def tileCode (d : List Word) (gs : List Gran) (k c : Nat) : Nat × Bool :=
  if fmtApart (dW d) then planeBits gs k c 0 (dCount d)
  else if dW d = 0x18 then
    let i := (k * 128 + c) / 2
    (if c % 2 = 0 then granByte gs i % 16 else granByte gs i / 16, granBad gs i)
  else
    let e := fmtBytes (dW d)
    let i := (k * 128 + c) * e
    (granNum gs i e, granBad gs i)

/-- The tile that the reload path or the column ports take in, as registers: K_VALID rows of N_VALID weights (R40, R49). -/
def tileRegs (d : List Word) (gs : List Gran) (rows : Nat) : Tab WReg :=
  ((List.range rows).flatMap (fun k => (List.range (dN d)).map (fun c =>
    let w := tileCode d gs k c
    (k * 128 + c, ({ code := BitVec.ofNat 32 w.1, psn := w.2 } : WReg))))).filter (fun x => decide (x.2 ≠ {}))

/-- The value of a weight code as the operation evaluates it. -/
def weightVal (d : List Word) (code : Nat) : Fv :=
  if fmtApart (dW d) then planeVal (dW d) (dPlane d) (dCount d) code else eltVal (dW d) code

/-- The real and imaginary parts of a CI16 code. -/
def ci16Parts (code : Nat) : Int × Int := (toSigned 16 code, toSigned 16 (code / 65536))

/-! ### Execute queues (R132, R133) -/

/-- The first n granules of a list that are not padding, and how many granules they stretch over. -/
def pickGrans : Nat → List Gran → List Gran × Nat
  | 0, _ => ([], 0)
  | _, [] => ([], 0)
  | n + 1, g :: t =>
    let r := if g.pad then pickGrans (n + 1) t else pickGrans n t
    (if g.pad then r.1 else g :: r.1, r.2 + 1)

/-- Take n granules from the entries of a queue, the head having given up some already; none where they are not there. The
third part lists the marks of the entries touched (R140). -/
def takeGrans : Nat → List Entry → Nat → Option (List Gran × List Entry × Nat × Bool)
  | 0, es, k => some ([], es, k, false)
  | _ + 1, [], _ => none
  | n + 1, e :: es, k =>
    let rest := e.gr.drop k
    let r := pickGrans (n + 1) rest
    if r.1.length < n + 1 then
      match takeGrans (n + 1 - r.1.length) es 0 with
      | none => none
      | some (gs, es', k', mk) => some (r.1 ++ gs, es', k', mk || e.mark)
    else
      if (rest.drop r.2).all (fun g => g.pad) then some (r.1, es, 0, e.mark)
      else some (r.1, e :: es, k + r.2, e.mark)

/-- Granules in a queue that are not padding. -/
def granAvail (Q : Eq) : Nat := ((Q.entries.flatMap (fun e => e.gr)).drop Q.taken).countP (fun g => !g.pad)

/-- Take up to n granules from queue q of a cluster, as many as it holds (R133); the answer says whether the marked entry of a
checkpoint was touched. -/
def pullQ (s : State) (c q n : Nat) : List Gran × Bool × State :=
  let Q := getEq (getClu s c) q
  match takeGrans (Nat.min n (granAvail Q)) Q.entries Q.taken with
  | none => ([], false, s)
  | some (gs, es, k, mk) => (gs, mk, modEq s c q (fun Q => { Q with entries := es, taken := k }))

/-- Room for n more entries (R132). -/
def qRoom (s : State) (c q n : Nat) : Bool := decide ((getEq (getClu s c) q).entries.length + n ≤ 64)

/-- An entry in its slot of the queue's storage in cluster SRAM, where CSP loads see it (R132, R162); padding is not written. -/
def storeEntry (m : PMem) (a : Nat) (e : Entry) : PMem :=
  (e.gr.mapIdx (fun i g => (i, g))).foldl (fun m x =>
    if x.2.pad then m else putGran m (a / 64 + x.1) x.2.data (x.2.psn || x.2.erased)) m

/-- Where the storage of a queue takes its next entry (log entry 8). -/
def slotAddr (Q : Eq) : Nat := 32768 * Q.base + 512 * Q.tail

/-- Push an entry at the tail. -/
def pushQ (s : State) (c q : Nat) (e : Entry) : State :=
  modClu s c (fun cl => { cl with
    sram := storeEntry cl.sram (slotAddr (getEq cl q)) e
    eq := tabMod {} cl.eq q (fun Q => { Q with entries := Q.entries ++ [e], tail := (Q.tail + 1) % 64 }) })

/-- A granule of bytes with its poison. -/
def mkGran (bs : List Byte) (psn : Bool) : Gran := { data := BitVec.ofNat 512 (ofLe bs), psn := psn, pad := false, erased := false }

/-- Cut bytes, each with its poison, into granules. -/
def gransOf : Nat → List (Byte × Bool) → List Gran
  | 0, _ => []
  | _ + 1, [] => []
  | f + 1, bs =>
    let h := bs.take 64
    mkGran (h.map (fun b => b.1)) (h.any (fun b => b.2)) :: gransOf f (bs.drop 64)

/-- Fill an entry up to eight granules with padding. -/
def padEntry (gs : List Gran) (mark : Bool) : Entry := { gr := gs ++ List.replicate (8 - gs.length) {}, mark := mark }

/-- Cut granules into entries of eight. -/
def entriesOf : Nat → List Gran → List Entry
  | 0, _ => []
  | _ + 1, [] => []
  | f + 1, gs => padEntry (gs.take 8) false :: entriesOf f (gs.drop 8)

/-- The entries that bytes fill, each run starting a new one (R127, R133). DESIGN CHOICE: R133 asks of an output row only that it
starts at a granule boundary; each row starts a new entry (log entry 89). -/
def entriesOfBytes (bs : List (Byte × Bool)) : List Entry :=
  let gs := gransOf (bs.length + 1) bs
  entriesOf (gs.length + 1) gs

end Sys2Proof.Machine
end

