-- ==== Sys2Proof/Machine/ArrayCore.lean ====
section
/-! DEFINITION. What an array operation does: its checks (R68), its accumulators, spills and the Long Sum Store (R85-R103),
its steps (R45, R46, R65, R88-R90), its final drain (R101, R104-R109) and its slices (R443). -/

namespace Sys2Proof.Machine

open Sys2Proof

/-- The physical array that logical array l maps to (R42). -/
def physOf (cl : Cluster) (l : Nat) : Nat := if cl.spareFor.toNat = l then 16 else l

/-- A Saffron array, or the spare that stands for one (R23, R64). -/
def isSaffron (c l : Nat) : Bool := decide (c < 16) && decide (l < 2)

/-- The partition's allocation in a cluster covers logical array l (R68, R321, R322). -/
def allotted (h : Holding) (c l : Nat) : Bool := if isSaffron c l then h.saf else h.groups.getLsbD (l / 4)

/-- Bytes of one entry of the Long Sum Store: 8, or 4 under RUNSUM (R96, R100). -/
def lssWidth (P : Part) : Nat := if P.runsum then 4 else 8

/-- The index of an accumulator's entry in its region (R100, R120). -/
def lssIndex (d : List Word) (m c part : Nat) : Nat := if dCi16 d then m * 256 + 2 * c + part else m * 128 + c

/-- The region of an operation, up to the end of its last entry, lies inside the units that the partition holds through LSS_MASK
(R93, R120). -/
def lssHeld (P : Part) (h : Holding) (d : List Word) : Bool :=
  let w := lssWidth P
  let lo := dLss d
  let hi := lo + (lssIndex d (dM d - 1) (dN d - 1) 1 + 1) * w
  let first := lo / 2 ^ 18
  (List.range ((hi - 1) / 2 ^ 18 - first + 1)).all (fun i =>
    decide (48 ≤ first + i) && decide (first + i < 64) && h.lss.getLsbD (first + i - 48))

/-- The accumulators that an operation adds into or drains, as (row, column, part). -/
def accList (d : List Word) : List (Nat × Nat × Nat) :=
  (List.range (dM d)).flatMap (fun m => (List.range (dN d)).flatMap (fun c =>
    if dCi16 d then [(m, c, 0), (m, c, 1)] else [(m, c, 0)]))

/-- Some accumulator of the operation carries the spill mark (R93). -/
def accMarked (pa : PArray) (d : List Word) : Bool :=
  (accList d).any (fun x => (tabGet {} pa.accs (accKey pa d x.1 x.2.1 x.2.2)).mark)

/-- A bank slot or register holds an open accumulation of the other context (R135). -/
def otherOpen (pa : PArray) (d : List Word) (key : Nat) : Bool :=
  let o := (tabGet {} pa.accs key).openBy
  decide (o ≠ 0) && decide (o ≠ 1 + b2n (dCtx d))

/-- Some bank slot or register that the operation adds into holds an open accumulation of the other context (R135); one that
spills in OS mode adds into both registers of a cell (R99). -/
def accBlocked (pa : PArray) (d : List Word) : Bool :=
  (accList d).any (fun x => otherOpen pa d (accKey pa d x.1 x.2.1 x.2.2) ||
    (decide (dFlow d = 1) && decide (dSpill d ≠ 0) && otherOpen pa d (otherKey pa d x.1 x.2.1)))

/-- The open slice of a context. -/
def sliceOf (la : LArray) (ctx : Bool) : Slice := if ctx then la.sl1 else la.sl0

/-- Replace the open slice of a context. -/
def putSlice (la : LArray) (ctx : Bool) (sl : Slice) : LArray := if ctx then { la with sl1 := sl } else { la with sl0 := sl }

/-- The operation can touch the Long Sum Store (R93). -/
def touchesLss (pa : PArray) (d : List Word) : Bool :=
  decide (dSpill d ≠ 0) || (dLast d && !(decide (dOp d = 1) && dInit d) && accMarked pa d)

/-- The checks of R68, with those of R55, R56, R81, R91, R93 and R111. A descriptor of an earlier generation is discarded for
its generation although a reset has closed its slice (R69). DESIGN CHOICE: where the operation can touch the Long Sum Store, an
LSS_OFFSET that is no multiple of 64, as R67 says it is, gives BAD_PARAM (log entry 89). -/
def opErrs (s : State) (c owner : Nat) (d : List Word) : List Nat :=
  let P := getPart s owner
  let cl := getClu s c
  let h := getHold s owner c
  let l := dArray d
  let la := tabGet {} cl.la l
  let pa := tabGet {} cl.pa (physOf cl l)
  let op := dOp d
  let drain := decide (op = 3)
  let ci := decide (dA d = 8) || decide (dW d = 8)
  let n := fmtPlanes (dW d)
  let saf := isSaffron c l
  errsOf
    [ (!dReservedOk d, stBadParam),
      (decide (op = 0) || decide (3 < op) || decide (dFlow d = 3) || decide (dRnd d = 3), stBadParam),
      (!fmtPairOk (dA d) (dW d) || !fmtOut (dO d), stBadParam),
      (dLast d && ((decide (dO d = 8) && !dCi16 d) || (dCi16 d && decide (dO d ≠ 8) && decide (dO d ≠ 9))), stBadParam),
      (decide (dN d = 0) || decide (128 < dN d) || decide (dM d = 0) || decide (128 < dM d) || (ci && decide (64 < dM d)),
        stBadParam),
      (!drain && (decide (dK d = 0) || decide (128 < dK d)), stBadParam),
      (!drain && decide ((dKSteps d = 0) ↔ (dFlow d = 1)), stBadParam),
      (!drain && decide (n ≠ 0) && (decide (n < dPlane d + dCount d) || decide (dCount d = 0)), stBadParam),
      (!drain && decide (n ≠ 0) && !fmtApart (dW d) && (decide (dPlane d ≠ 0) || decide (dCount d ≠ n)), stBadParam),
      (!drain && decide (n = 0) && (decide (dPlane d ≠ 0) || decide (dCount d ≠ 0)), stBadParam),
      (!drain && (decide (dW d = 0x1A) || decide (dW d = 0x1B)) && decide (dPlane d ≠ 0), stBadParam),
      (decide (65536 < dSpill d) || (touchesLss pa d && decide (dLss d % 64 ≠ 0)), stBadParam),
      (!drain && decide (3072 < dWb d + dReload d), stBadParam),
      (dStart d && (decide (dWcet d = 0) || decide (248976 < dWcet d)), stBadParam),
      (!dStart d && !(sliceOf la (dCtx d)).live && decide (BitVec.ofNat 16 (dGen d) = P.gen), stBadParam),
      (decide (15 < l), stBadParam),
      (decide (op = 2) && dLast d, stBadParam),
      (drain && !dLast d, stBadParam),
      (!drain && P.preload && dInit d, stBadParam),
      (decide (dScale d = 3) && !(fmtMx (dA d) || fmtMx (dW d)), stBadParam),
      (!drain && dRem d && !(dExact d && fmtApart (dW d)), stBadParam),
      (decide (dPart d ≠ owner), stDenied),
      (decide (BitVec.ofNat 16 (dGen d) ≠ P.gen), stStale),
      (!allotted h c l, stDenied),
      (touchesLss pa d && !lssHeld P h d, stBounds),
      ((saf && decide (dFlow d ≠ 0)) || (ci && !saf) || (decide (op = 2) && !P.preload), stRefusedMode) ]

/-! ### Slices (R443) -/

/-- The array cycles per clove of an operating point (R382). -/
def pointCycles (p : Nat) : Nat := if p = 0 then 250000 else if p = 1 then 212500 else if p = 2 then 175000 else if p = 3 then 125000 else 0

/-- A length in nominal cycles at a cluster's point (R382). -/
def atPoint (s : State) (c n : Nat) : Nat :=
  let k := pointCycles (getPc s c).point
  if k = 0 then 250001 else ceilDiv (250000 * n) k

/-- The outcome of a slice goes to the task or run that holds its array (R329, R249); a status of a check, which its FAB_OP entries
may have given it (R281), is none that a command whose execution has begun completes with (R20, log entry 85). -/
def noteSlice (s : State) (p c l st : Nat) : State :=
  if !isOutcome st then s else
  modPart s p (fun P => { P with
    tasks := P.tasks.map (fun t => if t.held.contains (4 * c + l / 4) then { t with status := worse t.status st } else t)
    launch := P.launch.map (fun L => if L.running then { L with status := worse L.status st } else L) })

/-- Free the oldest checkpoint of every engine that feeds a queue whose marked entry the slice took (R140). -/
def freeCheckpoints (s : State) (c : Nat) (marks : List Nat) : State :=
  if marks.isEmpty then s else
  modClu s c (fun cl => { cl with eng := cl.eng.map (fun e =>
    if marks.any (fun q => e.2.qslot.any (fun w => bit w.2 31 && !bit w.2 6 && decide (fld w.2 5 0 = q))) then
      (e.1, { e.2 with saves := e.2.saves.drop 1 }) else e) })

/-- Slices whose last operation is known and that have nothing left to do end (R443). -/
def endSlices (s : State) (c l : Nat) : State :=
  let la := getLa s c l
  let fin := la.closing.filter (fun x => decide (x.busy = 0))
  let s := modLa s c l (fun la => { la with closing := la.closing.filter (fun x => decide (x.busy ≠ 0)) })
  fin.foldl (fun s x =>
    freeCheckpoints (noteSlice (emit s (.slice c l (b2n x.ctx) x.status)) x.part c l x.status) c x.marks) s

/-- The open slice of a context has had its last operation. -/
def closeSlice (s : State) (c l : Nat) (ctx : Bool) : State :=
  let la := getLa s c l
  if (sliceOf la ctx).live then
    endSlices (modLa s c l (fun la => putSlice { la with closing := la.closing ++ [sliceOf la ctx] } ctx {})) c l
  else s

/-- Change one slice of an array, open or closing, by its number. -/
def modSlice (s : State) (c l id : Nat) (f : Slice → Slice) : State :=
  modLa s c l (fun la => { la with
    sl0 := if la.sl0.live && decide (la.sl0.id = id) then f la.sl0 else la.sl0
    sl1 := if la.sl1.live && decide (la.sl1.id = id) then f la.sl1 else la.sl1
    closing := la.closing.map (fun x => if x.id = id then f x else x) })

/-- An operation begins a slice: the seed is sampled or drawn (R108, R230). -/
def openSlice (s : State) (c l : Nat) (d : List Word) (owner : Nat) : State :=
  let s := closeSlice s c l (dCtx d)
  let P := getPart s owner
  let draw := P.srEntropy && !P.det
  let lo := if draw then Config.freeValue 32 s.fresh else P.seedLo
  let hi := if draw then Config.freeValue 32 (s.fresh + 1) else P.seedHi
  let s := if draw then { s with fresh := s.fresh + 2 } else s
  modLa s c l (fun la => putSlice { la with nextSlice := la.nextSlice + 1 } (dCtx d)
    { live := true, id := la.nextSlice, part := owner, ctx := dCtx d, seedLo := lo, seedHi := hi })

/-- A slice that is to be replayed begins again, with the seed of its first run (R36). -/
def reopenSlice (s : State) (c l : Nat) (x : Slice) : State :=
  modLa (closeSlice s c l x.ctx) c l (fun la =>
    putSlice { la with replays := la.replays.filter (fun y => decide (y.id ≠ x.id)) } x.ctx x)

/-- The slice that an operation belongs to, opened if the operation begins it. -/
def joinSlice (s : State) (c l : Nat) (d : List Word) (owner : Nat) : State :=
  let s := if dStart d then
      (match (getLa s c l).replays.find? (fun x => x.ctx == dCtx d) with
       | some x => reopenSlice s c l x
       | none => openSlice s c l d owner) else s
  modLa s c l (fun la =>
    let x := sliceOf la (dCtx d)
    putSlice la (dCtx d) { x with ops := x.ops ++ [d], busy := x.busy + 1 })

/-- An operation of a slice has completed. -/
def opDone (s : State) (c l id : Nat) : State := endSlices (modSlice s c l id (fun x => { x with busy := x.busy - 1 })) c l

/-! ### Accumulators -/

/-- The X56 value of an accumulator (R85, R445). -/
def accInt (a : Acc) : Int := toSigned 56 a.bits.toNat

/-- Add to an X56 accumulator with the saturation of R86. -/
def accAddInt (a : Acc) (x : Int) (cnt : Nat) (psn : Bool) : Acc :=
  let v := if a.blank then x else accInt a + x
  let w := clampInt (-(2 ^ 55 - 1)) (2 ^ 55 - 1) v
  let ovf := decide (v < -(2 ^ 55)) || decide (2 ^ 55 - 1 < v)
  { a with bits := BitVec.ofInt 64 (if ovf then w else v), psn := a.psn || psn || ovf, count := a.count + cnt, blank := false }

/-- Add to a binary32 accumulator (R88, R89). -/
def accAddFp (a : Acc) (x cnt : Nat) (psn : Bool) : Acc :=
  let v := if a.blank then x else fAdd fmtFP32 (a.bits.toNat % 2 ^ 32) x
  { a with bits := BitVec.ofNat 64 v, psn := a.psn || psn, count := a.count + cnt, blank := false }

/-- What an operation adds to an accumulator: an integer of 2^-F units, or a binary32 code. -/
inductive Sum where
  | int (z : Int)
  | fp (code : Nat)
deriving DecidableEq, Repr

/-- The exact value of an accumulator on its operation's path, as a floating value. -/
def accFv (d : List Word) (bits : Nat) : Fv :=
  if dExact d then
    let z := toSigned 56 bits
    .fin (decide (z < 0)) z.natAbs (-(dF d : Int))
  else fvOf fmtFP32 (bits % 2 ^ 32)

/-- Exact sum of two floating values, IEEE for the special ones. -/
def fvAdd (a b : Fv) : Fv :=
  match a, b with
  | .nan, _ => .nan
  | _, .nan => .nan
  | .inf x, .inf y => if x = y then .inf x else .nan
  | .inf x, .fin _ _ _ => .inf x
  | .fin _ _ _, .inf y => .inf y
  | .fin x m e, .fin y n g =>
    let r := dyAdd (fvDy x m e) (fvDy y n g)
    .fin (if r.z = 0 then x && y else decide (r.z < 0)) r.z.natAbs r.e

/-- Round a floating value into a format, overflow and infinities as R105 writes them at the final drain. -/
def fvRound (f : Fmt) (r : Rnd) : Fv → Nat
  | .nan => nanCode f
  | .inf x => if f.ieee && decide (r = .rne) then signCode f x (maxCode f + 1) else signCode f x (maxCode f)
  | .fin x m e => dyRound f r x (fvDy x m e)

/-- One byte string of the cluster SRAM as a number. -/
def sramNum (cl : Cluster) (a n : Nat) : Nat := ofLe (rdBytes cl.sram.mem a n)

/-- The entry after a spill (R95, R96, R100): the value, and whether it overflowed. Under RUNSUM an infinity and a NaN propagate
(R82). DESIGN CHOICE: R100 and R106 name no result for a finite sum above the largest FP32 value; the model writes the largest
finite value, as R105 does for a stochastic rounding at the final drain (log entry 89). -/
def spillEntry (P : Part) (d : List Word) (a : Acc) (old idx seedLo seedHi : Nat) : Nat × Bool :=
  if P.runsum then
    let u := philoxWord seedLo seedHi idx a.spill (dTensor d)
    let v := accFv d a.bits.toNat
    let sum := if a.first then v else fvAdd (fvOf fmtFP32 old) v
    ((match sum with
      | .inf x => signCode fmtFP32 x (maxCode fmtFP32 + 1)
      | v => fvRound fmtFP32 (.sr u) v), false)
  else if dExact d then
    let v := (if a.first then 0 else toSigned 64 old) + accInt a
    let w := clampInt (-(2 ^ 63 - 1)) (2 ^ 63 - 1) v
    let ovf := decide (v < -(2 ^ 63)) || decide (2 ^ 63 - 1 < v)
    (ofSigned 64 (if ovf then w else v), ovf)
  else
    let v := fCvt fmtFP32 fmtFP64 .rne (a.bits.toNat % 2 ^ 32)
    (if a.first then v else fAdd fmtFP64 old v, false)

/-- An accumulator after a spill: zero, with its next spill index (R94, R95, R97). DESIGN CHOICE: R95 sets the accumulator to
zero and does not name its poison, which the entry has taken (R98); the model clears it with the value (log entry 89). -/
def spilledAcc (a : Acc) : Acc :=
  { a with bits := 0, psn := false, count := 0, spill := a.spill + 1, first := false, spilled := true, blank := false }

/-- A spill empties the accumulator. In OS mode, accumulation goes on in the cell's other register, and the spilled one is free
(R99); at the spill before a final drain (R101) it stays. -/
def emptyAcc (pa : PArray) (d : List Word) (m n part : Nat) (goOn : Bool) : PArray :=
  let key := accKey pa d m n part
  let a := tabGet {} pa.accs key
  if decide (dFlow d = 1) && goOn then
    { pa with
      accs := tabSet {} (tabSet {} pa.accs key {}) (otherKey pa d m n) (spilledAcc a)
      swap := tabMod false pa.swap (m * 128 + n) (fun b => !b) }
  else { pa with accs := tabSet {} pa.accs key (spilledAcc a) }

/-- A writer in cluster c writes for the partition's run, not for one of its tasks (R242, R244). -/
def ofRun (P : Part) (L : Launch) (c : Nat) : Writer → Bool
  | .engine e => P.det || L.engs.contains (8 * c + e)
  | .context x => P.det || L.ctxs.contains (4 * c + x)
  | .core => P.det || !P.tasks.any (fun t => t.held.any (fun k => decide (k / 4 = c)))

/-- The run of a partition goes on, and the writer in cluster c writes for it. -/
def writesForRun (P : Part) (c : Nat) (w : Writer) : Bool := match P.launch with
  | none => false
  | some L => L.running && !L.ended && ofRun P L c w

/-- The run's last write so far is now (R242). -/
def runWrote (s : State) (p c : Nat) (w : Writer) : State :=
  if writesForRun (getPart s p) c w then
    modPart s p (fun P => { P with launch := P.launch.map (fun L => { L with endClove := s.time.clove, endCycle := s.time.cycle }) })
  else s

/-- One spill of an accumulator into its entry, which empties it (R95-R99). -/
def spillAcc (s : State) (c l : Nat) (r : OpRun) (m n part : Nat) (goOn : Bool) : State :=
  let cl := getClu s c
  let ph := physOf cl l
  let pa := tabGet {} cl.pa ph
  let a := tabGet {} pa.accs (accKey pa r.d m n part)
  let P := getPart s r.part
  let w := lssWidth P
  let idx := lssIndex r.d m n part
  let addr := dLss r.d + idx * w
  let e := spillEntry P r.d a (sramNum cl addr w) idx r.seedLo.toNat r.seedHi.toNat
  let bad := a.psn || e.2 || (!a.first && tabGet false cl.lssPsn addr)
  modClu (runWrote s r.part c .core) c (fun cl => { cl with
    sram := { cl.sram with mem := wrBytes cl.sram.mem addr (leBytes w e.1) }
    lssPsn := tabSet false cl.lssPsn addr bad
    pa := tabMod {} cl.pa ph (fun pa => emptyAcc pa r.d m n part goOn) })

/-- Change the accumulator of an operation's row, column and part on the array that l maps to. -/
def modAcc (s : State) (c l : Nat) (d : List Word) (m n part : Nat) (f : Acc → Acc) : State :=
  modPa s c (physOf (getClu s c) l) (fun pa => { pa with accs := tabMod {} pa.accs (accKey pa d m n part) f })

/-- The accumulator of an operation's row, column and part on the array that l maps to. -/
def accOf (s : State) (c l : Nat) (d : List Word) (m n part : Nat) : Acc :=
  let pa := getPa s c (physOf (getClu s c) l)
  tabGet {} pa.accs (accKey pa d m n part)

/-- Change the sums of R58 of a row. -/
def modSums (s : State) (c l : Nat) (d : List Word) (m part : Nat) (f : RowSum → RowSum) : State :=
  modPa s c (physOf (getClu s c) l) (fun pa => { pa with sums := tabMod {} pa.sums (rowKey d m part) f })

/-- Add to the checksum column's sum of a row and to the sum of its column sums (R58). -/
def addSums (s : State) (c l : Nat) (d : List Word) (m part : Nat) (chk col : Int) : State :=
  modSums s c l d m part (fun x => { chk := ofSigned 16 (x.chk + chk), col := ofSigned 16 (x.col + col) })

/-- A contribution of cnt products is to come: the accumulator spills first where R94 says so. The first contribution of an
INIT = 1 operation overwrites the accumulator (R55), so nothing is spilled before it (log entry 43). -/
def makeRoom (s : State) (c l : Nat) (r : OpRun) (m n part cnt : Nat) : State :=
  let a := accOf s c l r.d m n part
  if dSpill r.d ≠ 0 ∧ dSpill r.d < a.count + cnt ∧ a.blank = false then spillAcc s c l r m n part true else s

/-- Add a sum of cnt products into an accumulator. -/
def addSum (s : State) (c l : Nat) (r : OpRun) (m n part : Nat) (x : Sum) (cnt : Nat) (psn : Bool) : State :=
  modAcc s c l r.d m n part (fun a => match x with
    | .int z => accAddInt a z cnt psn
    | .fp v => accAddFp a v cnt psn)

/-- Add one contribution of cnt products, spilling first where R94 says so. -/
def contribute (s : State) (c l : Nat) (r : OpRun) (m n part : Nat) (x : Sum) (cnt : Nat) (psn : Bool) : State :=
  addSum (makeRoom s c l r m n part cnt) c l r m n part x cnt psn

/-- The sums of R58 of some rows of an operation begin again with their accumulations. -/
def clearSums (s : State) (c l : Nat) (d : List Word) (rows : List Nat) : State :=
  rows.foldl (fun s m => (List.range (if dCi16 d then 2 else 1)).foldl (fun s i => modSums s c l d m i (fun _ => {})) s) s

/-- Open or continue the accumulations of an operation: INIT = 1 initialises them (R55, R103), SPILL sets the spill mark
(R93), and they belong to the operation's context (R135). -/
def openAccs (s : State) (c l : Nat) (d : List Word) (init : Bool) : State :=
  (accList d).foldl (fun s x => modAcc s c l d x.1 x.2.1 x.2.2 (fun a =>
    let a := if init then { ({} : Acc) with first := true, blank := true } else a
    { a with mark := a.mark || decide (dSpill d ≠ 0), openBy := 1 + b2n (dCtx d) }))
    (if init then clearSums s c l d (List.range (dM d)) else s)

/-! ### Products -/

/-- The sum of magnitudes and the poison of a row operand: what the bound column forms (R57). -/
def magSum (f : Nat) (xs : List (Fv × Bool)) : Nat × Bool :=
  (xs.foldl (fun n x => n + ((latticeOf f x.1).getD 0).natAbs) 0, xs.any (fun x => x.2 || decide (x.1 = .nan)))

/-- Exact sum of products, with poison; a NaN element poisons it (R82, R85). -/
def exactSum (fa fw : Nat) : List ((Fv × Bool) × (Fv × Bool)) → Int × Bool
  | [] => (0, false)
  | (a, w) :: t =>
    let r := exactSum fa fw t
    match latticeOf fa a.1, latticeOf fw w.1 with
    | some x, some y => (r.1 + x * y, r.2 || a.2 || w.2)
    | _, _ => (r.1, true)

/-- Ordered binary32 sum of rounded products onto a start value (R88, R89). -/
def floatSum (start : Nat) (l : List ((Fv × Bool) × (Fv × Bool))) : Nat :=
  l.foldl (fun acc x => fAdd fmtFP32 acc (prodFp32 x.1.1 x.2.1)) start

/-- Is any operand of a list of products poisoned? -/
def anyBad (l : List ((Fv × Bool) × (Fv × Bool))) : Bool := l.any (fun x => x.1.2 || x.2.2)

/-- A block sum in binary32 under its two block scales (R90). -/
def scaleBlock (d : List Word) (l : List ((Fv × Bool) × (Fv × Bool))) (ea ew : Nat) : Nat :=
  let fp : Nat := match fmtLattice (dA d), fmtLattice (dW d) with
    | some fa, some fw =>
      let r := exactSum fa fw l
      if l.any (fun x => decide (x.1.1 = .nan) || decide (x.2.1 = .nan)) then nanCode fmtFP32
      else dyRound fmtFP32 .rne false { z := r.1, e := -(((fa + fw : Nat)) : Int) }
    | _, _ => floatSum 0 l
  if ea = 255 ∨ ew = 255 then nanCode fmtFP32
  else prodFp32 (fvOf fmtFP32 fp) (.fin false 1 ((ea : Int) + ew - 254))

/-- Granules of the block scales of one K block (R133). -/
def scaleGrans (d : List Word) : Nat :=
  (if fmtMx (dA d) then ceilDiv (dM d) 64 else 0) + (if fmtMx (dW d) then ceilDiv (dN d) 64 else 0)

/-- The block scales of row m and column n in block j, with poison (R90, R133). -/
def blockScales (d : List Word) (sg : List Gran) (j m n : Nat) : Nat × Nat × Bool :=
  let base := j * scaleGrans d * 64
  let ga := if fmtMx (dA d) then ceilDiv (dM d) 64 * 64 else 0
  let ia := base + m
  let iw := base + ga + n
  (if fmtMx (dA d) then granByte sg ia else 127, if fmtMx (dW d) then granByte sg iw else 127,
   (fmtMx (dA d) && granBad sg ia) || (fmtMx (dW d) && granBad sg iw))

/-- Cut a list into pieces of n, with fuel. -/
def piecesOf {α : Type} (n : Nat) : Nat → List α → List (List α)
  | 0, _ => []
  | _ + 1, [] => []
  | f + 1, l => l.take n :: piecesOf n f (l.drop n)

/-- The row operand's element k in the granules of one step (R133). -/
def stepElem (d : List Word) (gs : List Gran) (k : Nat) : Nat × Bool :=
  let e := fmtBytes (dA d)
  (granNum gs (k * e) e, granBad gs (k * e))

/-- The weight in the register of cell (k, c), with its poison. -/
def regWeight (t : TileRegs) (k c : Nat) : Nat × Bool :=
  let r := tabGet {} t.w (k * 128 + c)
  (r.code.toNat, r.psn)

/-- What a weight adds to the checksum cell of its tile row, real and imaginary, in units of 2^-f_w (R58). A NaN adds nothing
(R82, log entry 90). -/
def weightSum (d : List Word) (code : Nat) : Int × Int :=
  if dCi16 d then ci16Parts code
  else ((latticeOf ((fmtLattice (dW d)).getD 0) (weightVal d code)).getD 0, 0)

/-- The sum modulo 2^16 of the weights of a row, real and imaginary (R58). -/
def rowCheck (d : List Word) (ws : List Nat) : Nat × Nat :=
  let z := ws.foldl (fun (acc : Int × Int) w => (acc.1 + (weightSum d w).1, acc.2 + (weightSum d w).2)) (0, 0)
  (ofSigned 16 z.1, ofSigned 16 z.2)

/-- The reload path writes a tile into the shadow registers, and on exact paths the sum of each row's weights into its
checksum-column cell (R49, R58). -/
def loadShadow (d : List Word) (gs : List Gran) (pa : PArray) : PArray :=
  let w := tileRegs d gs (dK d)
  let chk : Tab (Nat × Nat) := if dExact d then ((List.range (dK d)).map (fun k =>
      (k, rowCheck d ((List.range (dN d)).map (fun c => (tileCode d gs k c).1))))).filter (fun x => decide (x.2 ≠ (0, 0)))
    else []
  { pa with shadow := { w := w, chk := chk } }

/-- The switch mark passes: each cell copies its shadow register into its active register (R50). -/
def switchTile (pa : PArray) : PArray := { pa with active := pa.shadow }

/-- The pairs (row operand, held weight) of column n over the tile rows. -/
def stepPairs (d : List Word) (gs : List Gran) (tile : TileRegs) (n : Nat) : List ((Fv × Bool) × (Fv × Bool)) :=
  (List.range (dK d)).map (fun k =>
    let a := stepElem d gs k
    let w := regWeight tile k n
    ((eltVal (dA d) a.1, a.2), (weightVal d w.1, w.2)))

/-- The complex sum of column n in CI16 mode, with poison (R65). -/
def stepComplex (d : List Word) (gs : List Gran) (tile : TileRegs) (n : Nat) : Int × Int × Bool :=
  (List.range (dK d)).foldl (fun acc k =>
    let a := stepElem d gs k
    let w := regWeight tile k n
    let x := ci16Parts a.1
    let y := ci16Parts w.1
    (acc.1 + x.1 * y.1 - x.2 * y.2, acc.2.1 + x.1 * y.2 + x.2 * y.1, acc.2.2 || a.2 || w.2)) (0, 0, false)

/-- The checksum column's sum of one step, real and imaginary (R58). -/
def stepCheck (d : List Word) (gs : List Gran) (tile : TileRegs) : Int × Int :=
  (List.range (dK d)).foldl (fun acc k =>
    let a := stepElem d gs k
    let w := tabGet (0, 0) tile.chk k
    if dCi16 d then
      let x := ci16Parts a.1
      (acc.1 + x.1 * w.1 - x.2 * w.2, acc.2 + x.1 * w.2 + x.2 * w.1)
    else (acc.1 + (latticeOf ((fmtLattice (dA d)).getD 0) (eltVal (dA d) a.1)).getD 0 * w.1, acc.2)) (0, 0)

/-- Step m of a WS or IS operation: each column's sum goes into its slot m (R45, R88, R90), and on exact paths the checksum
column forms its sum beside them (R58). -/
def wsStep (s : State) (c l : Nat) (r : OpRun) (gs : List Gran) : State :=
  let d := r.d
  let m := r.pos
  let tile := (getPa s c (physOf (getClu s c) l)).active
  let chk := if dExact d then stepCheck d gs tile else (0, 0)
  (List.range (dN d)).foldl (fun s n =>
    if dCi16 d then
      let z := stepComplex d gs tile n
      let s := addSums (addSums s c l d m 0 0 z.1) c l d m 1 0 z.2.1
      contribute (contribute s c l r m n 0 (.int z.1) (dK d) z.2.2) c l r m n 1 (.int z.2.1) (dK d) z.2.2
    else
      let ps := stepPairs d gs tile n
      if dExact d then
        let z := exactSum ((fmtLattice (dA d)).getD 0) ((fmtLattice (dW d)).getD 0) ps
        contribute (addSums s c l d m 0 0 z.1) c l r m n 0 (.int z.1) (dK d) z.2
      else if dScale d = 3 then
        let bl := piecesOf 32 5 ps
        let z := (List.range bl.length).foldl (fun acc j =>
          let b := bl.getD j []
          let sc := blockScales d r.scales j m n
          (fAdd fmtFP32 acc.1 (scaleBlock d b sc.1 sc.2.1), acc.2 || anyBad b || sc.2.2)) ((0 : Nat), false)
        contribute s c l r m n 0 (.fp z.1) (dK d) z.2
      else contribute s c l r m n 0 (.fp (floatSum 0 ps)) (dK d) (anyBad ps))
    (addSums (addSums s c l d m 0 chk.1 0) c l d m 1 chk.2 0)

/-- The element of row m at K position k of a K32 block (R118, R133). -/
def osElem (d : List Word) (gs : List Gran) (m k : Nat) : Nat × Bool :=
  let e := fmtBytes (dA d)
  let i := (m * 32 + k) * e
  (granNum gs i e, granBad gs i)

/-- The pairs of row m and column n over K positions lo to lo + len - 1 of a block, whose first K position is row base of the
W-tile. -/
def osPairs (d : List Word) (ga gw : List Gran) (base m n lo len : Nat) : List ((Fv × Bool) × (Fv × Bool)) :=
  (List.range len).map (fun i =>
    let a := osElem d ga m (lo + i)
    let w := tileCode d gw (base + lo + i) n
    ((eltVal (dA d) a.1, a.2), (weightVal d w.1, w.2)))

/-- Up to 32 K-steps of an OS operation on one cell: contributions of a cycle's K-steps, or of the K block under SCALE = 3
(R46, R47, R89, R90, R94). -/
def osCell (s : State) (c l : Nat) (r : OpRun) (ga : List Gran) (m n len : Nat) : State :=
  let d := r.d
  let base := r.pos % 128
  let g := if dScale d = 3 then 32 else dOsGroup d
  (List.range (ceilDiv len g)).foldl (fun s j =>
    let k := Nat.min g (len - j * g)
    let ps := osPairs d ga r.wts base m n (j * g) k
    if dExact d then
      let z := exactSum ((fmtLattice (dA d)).getD 0) ((fmtLattice (dW d)).getD 0) ps
      contribute (addSums s c l d m 0 0 z.1) c l r m n 0 (.int z.1) k z.2
    else if dScale d = 3 then
      let sc := blockScales d r.scales 0 m n
      contribute s c l r m n 0 (.fp (scaleBlock d ps sc.1 sc.2.1)) k (anyBad ps || sc.2.2)
    else ps.foldl (fun s p => addSum s c l r m n 0 (.fp (prodFp32 p.1.1 p.2.1)) 1 (p.1.2 || p.2.2)) (makeRoom s c l r m n 0 k)) s

/-- The checksum column's sum of a block for row m, its weights formed at the top edge from those that enter the columns in the
same step (R58). -/
def osCheck (d : List Word) (ga gw : List Gran) (base m len : Nat) : Int :=
  (List.range len).foldl (fun acc i =>
    acc + (latticeOf ((fmtLattice (dA d)).getD 0) (eltVal (dA d) (osElem d ga m i).1)).getD 0 *
      ((rowCheck d ((List.range (dN d)).map (fun n => (tileCode d gw (base + i) n).1))).1 : Int)) 0

/-- Up to 32 K-steps of an OS operation: one K32 block. -/
def osUnit (s : State) (c l : Nat) (r : OpRun) (ga : List Gran) (len : Nat) : State :=
  (List.range (dM r.d)).foldl (fun s m =>
    (List.range (dN r.d)).foldl (fun s n => osCell s c l r ga m n len)
      (if dExact r.d then addSums s c l r.d m 0 (osCheck r.d ga r.wts (r.pos % 128) m len) 0 else s)) s

/-- Q of R111: the most that the planes after the last one evaluated add to one weight. -/
def remQ (d : List Word) : Nat :=
  let n := fmtPlanes (dW d)
  let p := dPlane d + dCount d
  if dW d = 0x1A then ([12, 8, 4, 0] : List Nat).getD (p - 1) 0
  else if dW d = 0x1B then ([60, 44, 28, 12, 4, 0] : List Nat).getD (p - 1) 0
  else 2 ^ (n - p) - 1

/-- Add a row operand's magnitudes to bound m. -/
def addBound (r : OpRun) (m : Nat) (x : Nat × Bool) : OpRun :=
  { r with bounds := r.bounds.mapIdx (fun i b => if i = m then (b.1 + x.1, b.2 || x.2) else b) }

/-! ### The drain -/

/-- Exact product of two floating values, IEEE for the special ones. -/
def fvMul (a b : Fv) : Fv :=
  match a, b with
  | .nan, _ => .nan
  | _, .nan => .nan
  | .inf x, .inf y => .inf (xor x y)
  | .inf x, .fin y m _ => if m = 0 then .nan else .inf (xor x y)
  | .fin x m _, .inf y => if m = 0 then .nan else .inf (xor x y)
  | .fin x m e, .fin y n g => .fin (xor x y) (m * n) (e + g)

/-- What the final drain reads of one accumulator: its LSS entry if it has spilled, else itself (R101), in the form of the
operation's path (R445). -/
def drainVal (s : State) (c l : Nat) (r : OpRun) (m n part : Nat) : DVal :=
  let cl := getClu s c
  let a := accOf s c l r.d m n part
  let P := getPart s r.part
  if a.spilled then
    let w := lssWidth P
    let addr := dLss r.d + lssIndex r.d m n part * w
    { form := if P.runsum then 1 else if dExact r.d then 0 else 2, bits := BitVec.ofNat 64 (sramNum cl addr w)
      psn := tabGet false cl.lssPsn addr }
  else if dExact r.d then { form := 0, bits := BitVec.ofInt 64 (accInt a), psn := a.psn }
  else { form := 1, bits := BitVec.ofNat 64 (a.bits.toNat % 2 ^ 32), psn := a.psn }

/-- The last spill of every accumulator that has spilled (R101). -/
def lastSpills (s : State) (c l : Nat) (r : OpRun) : State :=
  (accList r.d).foldl (fun s x =>
    if (accOf s c l r.d x.1 x.2.1 x.2.2).spilled then spillAcc s c l r x.1 x.2.1 x.2.2 false else s) s

/-- Read the rows of a final drain. -/
def drainRows (s : State) (c l : Nat) (r : OpRun) : List (List DVal) :=
  (List.range (dM r.d)).map (fun m => (List.range (dN r.d)).flatMap (fun n =>
    if dCi16 r.d then [drainVal s c l r m n 0, drainVal s c l r m n 1] else [drainVal s c l r m n 0]))

/-- The sums of R58 of the rows of a final drain, by part. -/
def drainSums (s : State) (c l : Nat) (d : List Word) : List (List RowSum) :=
  let pa := getPa s c (physOf (getClu s c) l)
  (List.range (dM d)).map (fun m => (List.range (if dCi16 d then 2 else 1)).map (fun i => tabGet {} pa.sums (rowKey d m i)))

/-- The final drain of an operation begins: it reads its values, and the accumulations end for R135. Product counts, spill
indices and spill marks carry on (R445). -/
def startDrain (s : State) (c l : Nat) (r : OpRun) : State :=
  let s := lastSpills s c l r
  let dr : Drain :=
    { d := r.d, part := r.part, rows := drainRows s c l r, row := 0, sums := drainSums s c l r.d, scales := r.cols, slice := r.slice
      seedLo := r.seedLo, seedHi := r.seedHi, blank := false }
  let s := (accList r.d).foldl (fun s x =>
    modAcc s c l r.d x.1 x.2.1 x.2.2 (fun a => { a with openBy := 0 })) s
  modLa s c l (fun la => { la with drains := la.drains ++ [dr] })

/-- The exact value that a drained value stands for (R104). -/
def dvalFv (d : List Word) (v : DVal) : Fv :=
  if v.form = 0 then
    let z := toSigned 64 v.bits.toNat
    .fin (decide (z < 0)) z.natAbs (-(dF d : Int))
  else if v.form = 1 then fvOf fmtFP32 (v.bits.toNat % 2 ^ 32) else fvOf fmtFP64 v.bits.toNat

/-- The scale s of R104 for column n, with its poison. -/
def drainScale (dr : Drain) (n : Nat) : Fv × Bool :=
  if dScale dr.d = 0 then (.fin false 1 0, false)
  else if dScale dr.d = 2 then
    let x := dr.scales.getD n (0, false)
    (fvOf fmtFP32 x.1, x.2)
  else (fvOf fmtFP32 (dOScale dr.d), false)

/-- Y of R104 for one value of column n, with its poison, that of a column scale which a CI16 output does not use included (R105).
A zero takes the sign of its product (log entry 43). -/
def drainY (dr : Drain) (n : Nat) (v : DVal) : Fv × Bool :=
  let sc := if dO dr.d = 8 then (.fin false 1 0, false) else drainScale dr n
  let sh := if dO dr.d = 1 ∨ dO dr.d = 8 then dShift dr.d else 0
  (fvMul (fvMul (dvalFv dr.d v) sc.1) (.fin false 1 (-(sh : Int))), v.psn || (drainScale dr n).2)

/-- The rounding of RND with the random word of an element (R106, R107). -/
def drainRnd (dr : Drain) (linear : Nat) : Rnd :=
  if dRnd dr.d = 0 then .rne
  else if dRnd dr.d = 1 then .sr (philoxWord dr.seedLo.toNat dr.seedHi.toNat linear 0xFFFFFFFF (dTensor dr.d))
  else .trunc

/-- Round Y to a two's-complement integer of some bits, saturating; NaN gives 0 and poison (R105). -/
def roundInt (bits : Nat) (r : Rnd) : Fv → Nat × Bool
  | .nan => (0, true)
  | .inf x => (ofSigned bits (if x then -(2 ^ (bits - 1)) else 2 ^ (bits - 1) - 1), false)
  | .fin x m e =>
    let q := dyRat (fvDy x m e)
    let n : Int := roundRat r q.1 q.2
    (ofSigned bits (clampInt (-(2 ^ (bits - 1))) (2 ^ (bits - 1) - 1) (if x then -n else n)), false)

/-- floor(log2 |Y|) of a finite value that is not zero. -/
def fvLog2 : Fv → Option Int
  | .fin _ m e => if m = 0 then none else some ((m.log2 : Int) + e)
  | _ => none

/-- The block scale of R109 over the Y of a block. -/
def mxScale (o : Nat) (ys : List Fv) : Nat :=
  let emax : Int := if o = 4 then 8 else 15
  if ys.any (fun y => decide (y = .inf true) || decide (y = .inf false)) then 254
  else match (ys.filterMap fvLog2).foldl (fun (b : Option Int) x =>
      match b with
      | none => some x
      | some y => some (max x y)) none with
    | none => 0
    | some k => (clampInt 0 254 (k - emax + 127)).toNat

/-- The bytes of a row, each with its poison (R104-R109). Element i has linear index base + i (R134); the two parts of a CI16
element share its index, and the FP32 parts that CI16 operands give with O_FMT = FP32 are elements of their own (log entry 90).
DESIGN CHOICE: no rule gives an MX block scale the poison of its elements; its byte is written clean (log entry 89). -/
def rowBytes (dr : Drain) (base : Nat) (vals : List DVal) : List (Byte × Bool) :=
  let o := dO dr.d
  let per := if dCi16 dr.d then 2 else 1
  let ys := vals.mapIdx (fun i v => (drainY dr (i / per) v, if o = 8 then i / per else i))
  if o = 4 ∨ o = 5 then
    (piecesOf 32 5 ys).flatMap (fun b =>
      let e := mxScale o (b.map (fun y => y.1.1))
      b.map (fun y => (BitVec.ofNat 8 (fvRound (fmtOf o) (drainRnd dr (base + y.2))
        (fvMul y.1.1 (.fin false 1 (127 - (e : Int))))), y.1.2)) ++ [(BitVec.ofNat 8 e, false)])
  else
    ys.flatMap (fun y =>
      let rnd := drainRnd dr (base + y.2)
      let r : Nat × Bool := if o = 1 then roundInt 8 rnd y.1.1 else if o = 8 then roundInt 16 rnd y.1.1
        else (fvRound (fmtOf o) rnd y.1.1, false)
      let e := if o = 8 then 2 else fmtBytes o
      (leBytes e r.1).map (fun b => (b, y.1.2 || r.2)))

/-- The bytes of a row that its slice did not complete: poisoned, of no stated value (R70, log entry 22). -/
def blankBytes (s : State) (dr : Drain) : List (Byte × Bool) :=
  let o := dO dr.d
  let n := dN dr.d * (if dCi16 dr.d then 2 else 1)
  let len := if o = 4 ∨ o = 5 then n + ceilDiv n 32 else if o = 8 then n * 2 else n * fmtBytes o
  (List.range len).map (fun i => (Config.freeValue 8 (s.fresh + i), true))

/-- The entries of the bounds of an operation: one 8-byte bound per row, 64 to an entry (R133). -/
def boundEntries (r : OpRun) : List Entry :=
  entriesOfBytes (r.bounds.flatMap (fun b => (leBytes 8 (b.1 * remQ r.d)).map (fun x => (x, b.2))))

end Sys2Proof.Machine
end

