-- ==== Sys2Proof/Machine/Array.lean ====
section
/-! DEFINITION. The execute engine's operations: MMA, ACC_PRELOAD and ACC_DRAIN (R43-R57, R67-R70, R133, R135). -/

namespace Sys2Proof.Machine

open Sys2Proof

/-- The waiting descriptor of a context that comes first. -/
def ctxHead (la : LArray) (ctx : Bool) : Option (Nat × List Word) := la.descQ.find? (fun x => dCtx x.2 == ctx)

/-- A descriptor that cannot start yet waits in its queue (R67). -/
def waitDesc (s : State) (c l owner : Nat) (d : List Word) : State :=
  modLa s c l (fun la => if la.descQ.contains (owner, d) then la else { la with descQ := la.descQ ++ [(owner, d)] })

/-- A descriptor leaves its queue. -/
def popDesc (s : State) (c l owner : Nat) (d : List Word) : State :=
  modLa s c l (fun la => { la with descQ := la.descQ.erase (owner, d) })

/-- The queue whose granule is the first operand granule of an operation. DESIGN CHOICE: R135 does not say which operand it
means; the model takes the row operand of A_Q for an MMA of every flow and the first preload row of P_Q, and a final drain, which
takes no operand, is ready at once (log entry 89). -/
def firstQ (d : List Word) : Option Nat := if dOp d = 3 then none else some (if dOp d = 2 then dPQ d else dAQ d)

/-- The first operand granule of an operation is visible (R135). -/
def opVisible (s : State) (c : Nat) (d : List Word) : Bool :=
  match firstQ d with
  | none => true
  | some q => decide (0 < granAvail (getEq (getClu s c) q))

/-- A slice of a length may start now on an array that boundary n + 1 revokes: it ends by cycle 249,999 (R28, R70, R382). -/
def fitsClove (s : State) (c wcet : Nat) : Bool := decide (s.time.cycle + atPoint s c wcet ≤ 250000)

/-- A boundary takes the array from its partition: its revocation (R28), or the freeze of the partition (R346). -/
def takenAt (la : LArray) (P : Part) : Nat :=
  if la.revokeAt ≠ 0 then la.revokeAt else if P.st = .freezing then P.frozenAt else 0

/-- The head operation of a context may start once its first operand granule is visible, as far as it is for that context to say
(R26, R28, R70, R73, R135, R213, R346, R384). -/
def headFree (s : State) (c l owner : Nat) (d : List Word) : Bool :=
  let cl := getClu s c
  let la := tabGet {} cl.la l
  let P := getPart s owner
  s.time.cloveRun && decide (la.part = some owner) && !la.halted && decide (la.startCycle ≤ s.time.cycle) &&
  (decide (cl.spareFor.toNat ≠ l) || cl.spareStarted) && decide ((getPc s c).point < 4) &&
  (decide (P.st = .running) || decide (P.st = .freezing)) && decide (P.twinState ≠ 3) &&
  (!dStart d || (!P.withheld &&
    (decide (takenAt la P = 0) || decide (s.time.clove + 1 < takenAt la P) ||
      (decide (takenAt la P = s.time.clove + 1) && fitsClove s c (dWcet d))))) &&
  !accBlocked (tabGet {} cl.pa (physOf cl l)) d

/-- The head operation of a context may start. -/
def headReady (s : State) (c l owner : Nat) (d : List Word) : Bool := headFree s c l owner d && opVisible s c d

/-- An operation that passed its checks may start: it is ready, and of two ready contexts the one that was not picked last is
picked (R135, log entry 85). DESIGN CHOICE: after reset the context picked last is 0, so that of two ready heads context 1
starts first (log entry 89). -/
def canStart (s : State) (c l owner : Nat) (d : List Word) : Bool :=
  let la := getLa s c l
  headReady s c l owner d && !(decide (la.lastCtx = dCtx d) && (match ctxHead la (!dCtx d) with
    | some x => headReady s c l x.1 x.2
    | none => false))

/-- A slice has taken granules: an erased one makes it end with DEADLINE, one of a timed-out load with TIMEOUT (R138, R446),
and the marked entry of a queue is noted (R140). -/
def noteTaken (s : State) (c l id q : Nat) (gs : List Gran) (mk : Bool) : State :=
  modSlice s c l id (fun x => { x with
    status := worse (worse x.status (if gs.any (fun g => g.erased) then stDeadline else stOk))
      (if gs.any (fun g => g.tmo) then stTimeout else stOk)
    marks := if mk && !x.marks.contains q then x.marks ++ [q] else x.marks })

/-- The held tile of a WS operation, read from the weight buffer (R49, R119). -/
def wbTile (cl : Cluster) (l : Nat) (d : List Word) : List Gran :=
  let wb := (tabGet {} cl.pa (physOf cl l)).wb
  let g0 := dWb d * 8 + (if fmtApart (dW d) then dPlane d * 32 else 0)
  (List.range (32 * dWBits d)).map (fun i => { data := granData wb (g0 + i), psn := granPsn wb (g0 + i), pad := false })

/-- Start an operation: it leaves its queue, joins its slice and opens its accumulations. In WS mode the reload path writes its tile
from the weight buffer into the shadow registers, and its first operand carries the switch mark (R49, R50). -/
def beginOp (s : State) (c l owner : Nat) (d : List Word) : State × OpRun :=
  let s := joinSlice (popDesc s c l owner d) c l d owner
  let sl := sliceOf (getLa s c l) (dCtx d)
  let s := if dOp d = 1 then openAccs s c l d (dInit d) else s
  let ws := decide (dOp d = 1) && decide (dFlow d = 0)
  let s := if ws then
      modPa s c (physOf (getClu s c) l) (fun pa => switchTile (loadShadow d (wbTile (getClu s c) l d) pa)) else s
  let r : OpRun :=
    { d := d, part := owner, pos := 0, bufA := [], bufW := [], bufS := [], tileIn := ws, scalesIn := false, wts := [], scales := []
      cols := [], bounds := if dRem d ∧ dOp d = 1 then List.replicate (dM d) (0, false) else []
      slice := sl.id, seedLo := sl.seedLo, seedHi := sl.seedHi }
  (modLa s c l (fun la => { la with run := some r, lastCtx := dCtx d }), r)

/-- How far an operation has to come: steps, K positions or rows (R45, R46, R55). -/
def opTotal (d : List Word) : Nat :=
  if dOp d = 1 then (if dFlow d = 1 then dKSteps d else dM d) else if dOp d = 2 then (if dBcast d then 1 else dM d) else 0

/-- The bits that a preload entry puts into an accumulator: an X56 value in the form of R85, or an FP32 value (R102). -/
def preloadBits (d : List Word) (v : Nat) : BitVec 64 :=
  if dExact d then BitVec.ofInt 64 (toSigned 56 v) else BitVec.ofNat 64 (v % 2 ^ 32)

/-- Write one preload row into the accumulators (R55, R102, R103). -/
def preloadRow (s : State) (c l : Nat) (r : OpRun) (gs : List Gran) : State :=
  let d := r.d
  let per := if dCi16 d then 2 else 1
  let rows := if dBcast d then List.range (dM d) else [r.pos]
  rows.foldl (fun s m => (List.range (dN d)).foldl (fun s n => (List.range per).foldl (fun s i =>
    let at_ := 8 * (n * per + i)
    modAcc s c l d m n i (fun _ =>
      { ({} : Acc) with
        bits := preloadBits d (granNum gs at_ 8), psn := granBad gs at_, first := true
        mark := decide (dSpill d ≠ 0), openBy := 1 + b2n (dCtx d) })) s) s) (clearSums s c l d rows)

/-! ### Operands (R133) -/

/-- Granules of the W-tile that an operation takes from W_Q before it goes on: the held tile in IS, one tile per 128 K-steps in
OS. -/
def needW (r : OpRun) : Nat :=
  if dOp r.d = 1 ∧ dFlow r.d ≠ 0 ∧ r.tileIn = false ∧ r.pos < opTotal r.d then 32 * dWBits r.d else 0

/-- Granules of scales that it takes from S_Q before it goes on: the column scales of SCALE = 2, or block scales, of every block of
the held tile in WS and IS, of one K block in OS. -/
def needS (r : OpRun) : Nat :=
  let d := r.d
  if r.scalesIn ∨ dOp d = 2 then 0
  else if dScale d = 2 then ceilDiv (4 * dN d) 64
  else if dScale d = 3 ∧ dOp d = 1 ∧ r.pos < opTotal d then (if dFlow d = 1 then 1 else ceilDiv (dK d) 32) * scaleGrans d
  else 0

/-- Granules of the row operand of the next step, K32 block or preload row. -/
def needA (r : OpRun) : Nat :=
  let d := r.d
  if opTotal d ≤ r.pos then 0
  else if dOp d = 2 then ceilDiv (8 * dN d * (if dCi16 d then 2 else 1)) 64
  else if dFlow d = 1 then 64 * fmtBytes (dA d)
  else ceilDiv (dK d * fmtBytes (dA d)) 64

/-- The queue of the row operand, or of preload rows. -/
def rowQ (d : List Word) : Nat := if dOp d = 2 then dPQ d else dAQ d

/-- The queue whose next granule the operation needs, in the order in which the model takes them: W-tile, scales, row operand
(log entry 91). -/
def opWants (r : OpRun) : Option Nat :=
  if r.bufW.length < needW r then some (dWQ r.d)
  else if r.bufS.length < needS r then some (dSQ r.d)
  else if r.bufA.length < needA r then some (rowQ r.d)
  else none

/-- Take from a queue what is there of the granules that are needed. -/
def pullFor (s : State) (c l id q need : Nat) (buf : List Gran) : State × List Gran :=
  if need ≤ buf.length then (s, buf) else
  let x := pullQ s c q (need - buf.length)
  (noteTaken x.2.2 c l id q x.1 x.2.1, buf ++ x.1)

/-- The W-tile is complete: in IS mode it passes through the shadow registers into the active ones, in OS mode it feeds the
columns. -/
def tileDone (s : State) (c l : Nat) (r : OpRun) : State × OpRun :=
  if dFlow r.d = 2 then
    (modPa s c (physOf (getClu s c) l) (fun pa => switchTile (loadShadow r.d r.bufW pa)), { r with tileIn := true, bufW := [] })
  else (s, { r with tileIn := true, wts := r.bufW, bufW := [] })

/-- The scales are complete. -/
def scalesDone (r : OpRun) : OpRun :=
  if dScale r.d = 2 then
    { r with
      scalesIn := true, bufS := []
      cols := (List.range (dN r.d)).map (fun n => (granNum r.bufS (4 * n) 4, granBad r.bufS (4 * n))) }
  else { r with scalesIn := true, scales := r.bufS, bufS := [] }

/-- An operation takes what its queues hold of its next operands, each entry leaving its queue as its last granule is taken
(R133). -/
def takeOperands (s : State) (c l : Nat) (r : OpRun) : State × OpRun :=
  let w := pullFor s c l r.slice (dWQ r.d) (needW r) r.bufW
  let r1 := { r with bufW := w.2 }
  if r1.bufW.length < needW r1 then (w.1, r1) else
  let t := if needW r1 = 0 then (w.1, r1) else tileDone w.1 c l r1
  let x := pullFor t.1 c l r.slice (dSQ r.d) (needS t.2) t.2.bufS
  let r2 := { t.2 with bufS := x.2 }
  if r2.bufS.length < needS r2 then (x.1, r2) else
  let r3 := if needS r2 = 0 then r2 else scalesDone r2
  let a := pullFor x.1 c l r.slice (rowQ r.d) (needA r3) r3.bufA
  (a.1, { r3 with bufA := a.2 })

/-- The operands of the next step, K32 block or preload row are there: the operation takes that step. -/
def unitOp (s : State) (c l : Nat) (r : OpRun) : State × OpRun :=
  let d := r.d
  let gs := r.bufA
  let f := (fmtLattice (dA d)).getD 0
  let r0 := { r with bufA := [] }
  if dOp d = 2 then (preloadRow s c l r gs, { r0 with pos := r.pos + 1 })
  else if dFlow d = 1 then
    let len := Nat.min 32 (dKSteps d - r.pos)
    let r1 := if r.bounds.isEmpty then r0 else
      (List.range (dM d)).foldl (fun r m => addBound r m (magSum f ((List.range len).map (fun k =>
        let x := osElem d gs m k
        (eltVal (dA d) x.1, x.2))))) r0
    (osUnit s c l r gs len,
      { r1 with pos := r.pos + len, tileIn := decide ((r.pos + len) % 128 ≠ 0), scalesIn := r.scalesIn && decide (dScale d ≠ 3) })
  else
    let r1 := if r.bounds.isEmpty then r0 else
      addBound r0 r.pos (magSum f ((List.range (dK d)).map (fun k =>
        let x := stepElem d gs k
        (eltVal (dA d) x.1, x.2))))
    (wsStep s c l r gs, { r1 with pos := r.pos + 1 })

/-- Take operands and steps while the operands are there. -/
def unitsOp (s : State) (c l : Nat) (r : OpRun) : Nat → State × OpRun
  | 0 => (s, r)
  | n + 1 =>
    let x := takeOperands s c l r
    if (opWants x.2).isSome || decide (opTotal r.d ≤ r.pos) then x
    else
      let u := unitOp x.1 c l x.2
      unitsOp u.1 c l u.2 n

/-- Push entries to a queue for a slice; a replay does not push again what its consumer keeps (R36, log entry 23). -/
def pushFor (s : State) (c l id q : Nat) (es : List Entry) : State :=
  es.foldl (fun s e =>
    let la := getLa s c l
    let sl := ([la.sl0, la.sl1] ++ la.closing).find? (fun x => decide (x.id = id))
    match sl with
    | none => pushQ s c q e
    | some x =>
      if 0 < tabGet 0 x.skip q then modSlice s c l id (fun x => { x with skip := tabMod 0 x.skip q (fun n => n - 1) })
      else pushQ (modSlice s c l id (fun x => { x with pushed := tabMod 0 x.pushed q (fun n => n + 1) })) c q e) s

/-- An operation has taken everything: it pushes its bounds, its final drain begins or it completes (R56, R57, R133). -/
def finishOp (s : State) (c l : Nat) (r : OpRun) : State :=
  let d := r.d
  let es := boundEntries r
  if !es.isEmpty && !qRoom s c (dRQ d) es.length then modLa s c l (fun la => { la with run := some r })
  else
    let s := modLa s c l (fun la => { la with run := none })
    let s := pushFor s c l r.slice (dRQ d) es
    let s := if r.bounds.any (fun b => b.2) then modSlice s c l r.slice (fun x => { x with status := worse x.status stPoisoned })
      else s
    if dLast d then startDrain s c l r
    else opDone (emit s (.op c l (b2n (dCtx d)) stOk)) c l r.slice

/-- An operation has taken all its operands and steps. -/
def opComplete (r : OpRun) : Bool := decide (opTotal r.d ≤ r.pos) && decide (needS r = 0)

/-- An operation that has started goes on; a step that it takes ends the watchdog's count (R63). -/
def advanceOp (s : State) (c l : Nat) (r : OpRun) : State :=
  let x := unitsOp s c l r (opTotal r.d + 1)
  let s := if r.pos < x.2.pos then modPa x.1 c (physOf (getClu x.1 c) l) (fun pa => { pa with wdog := 0 }) else x.1
  if opComplete x.2 then finishOp s c l x.2 else modLa s c l (fun la => { la with run := some x.2 })

/-- A descriptor fails its checks: its operation completes with the lowest code and does not run (R20, R68). The code is the
operation's alone: a slice, task or run reports what came of the work that ran (R20, log entry 85). DESIGN CHOICE: a
SLICE_START = 1 descriptor that fails is not taken, so it does not end the slice before it, and later SLICE_START = 0 operations
still join that slice (R443, log entry 89). -/
def failOp (s : State) (c l owner : Nat) (d : List Word) (st : Nat) : State :=
  emit (popDesc s c l owner d) (.op c l (b2n (dCtx d)) st)

/-- The execute engine meets a descriptor (R67-R70, R135): it checks and starts it, goes on with it, or leaves it waiting. -/
def issueOp (s : State) (c owner : Nat) (d : List Word) : State :=
  let l := dArray d % 16
  let la := getLa s c l
  if !(getPart s owner).live then s else
  match la.run with
  | some r =>
    if r.d = d ∧ r.part = owner then
      (if la.halted || decide ((getPart s owner).twinState = 3) then s else advanceOp s c l r)
    else waitDesc s c l owner d
  | none =>
    if (match ctxHead la (dCtx d) with
        | none => false
        | some x => decide (x ≠ (owner, d))) then waitDesc s c l owner d
    else
      let e := opErrs s c owner d
      if !e.isEmpty then failOp s c l owner d (lowest e)
      else if !canStart s c l owner d then waitDesc s c l owner d
      else
        let b := beginOp s c l owner d
        advanceOp b.1 c l b.2

/-! ### The watchdog (R63) -/

/-- What the queues hold completes the operands of the next unit. -/
def unitThere (s : State) (c : Nat) (r : OpRun) : Bool :=
  let have_ (q : Nat) : Nat := granAvail (getEq (getClu s c) q)
  decide (needW r ≤ r.bufW.length + have_ (dWQ r.d)) && decide (needS r ≤ r.bufS.length + have_ (dSQ r.d)) &&
    decide (needA r ≤ r.bufA.length + have_ (rowQ r.d))

/-- A logical array holds a token of its row operand and no cell can fire: the operands of its step are not complete (R60, R63). -/
def arrayStalled (s : State) (c l : Nat) : Bool :=
  let la := getLa s c l
  match la.run with
  | none => false
  | some r => !la.halted && decide (r.pos < opTotal r.d) &&
      (!r.bufA.isEmpty || decide (0 < granAvail (getEq (getClu s c) (rowQ r.d)))) && !unitThere s c r

/-- Some cycles pass for the watchdogs of a cluster (R63). -/
def watchCluster (n : Nat) (s : State) (c : Nat) : State :=
  (List.range 16).foldl (fun s l =>
    let ph := physOf (getClu s c) l
    if arrayStalled s c l then modPa s c ph (fun pa => { pa with wdog := pa.wdog + n })
    else modPa s c ph (fun pa => { pa with wdog := 0 })) s

/-- Some cycles pass for every array's watchdog (R63). -/
def watchArrays (s : State) (n : Nat) : State := (s.clusters.map (fun x => x.1)).foldl (watchCluster n) s

/-- MMA (R43-R54, R57, R65-R70). -/
def execMma (c : Fin 20) (owner : Fin 64) (d : List Word) (s : State) : Host.Outcome State Fault Refusal :=
  inRun s (fun s => issueOp s c.val owner.val d)

/-- ACC_PRELOAD (R55, R102, R103). -/
def execAccPreload (c : Fin 20) (owner : Fin 64) (d : List Word) (s : State) : Host.Outcome State Fault Refusal :=
  inRun s (fun s => issueOp s c.val owner.val d)

/-- ACC_DRAIN (R56). -/
def execAccDrain (c : Fin 20) (owner : Fin 64) (d : List Word) (s : State) : Host.Outcome State Fault Refusal :=
  inRun s (fun s => issueOp s c.val owner.val d)

end Sys2Proof.Machine
end

