-- ==== Sys2Proof/Machine/Firmware.lean ====
section
/-! DEFINITION. Command packets and what firmware does with every one of them: its start, the checks that every command
shares, and its completion (R15, R18-R20, R366-R375). -/

namespace Sys2Proof.Machine

open Sys2Proof

/-- The 16 words of a packet with its opcode (R366). -/
def pktWords (op : Nat) (k : Pkt) : List Word :=
  BitVec.ofNat 32 (k.verMinor.toNat + 2 ^ 8 * k.verMajor.toNat + 2 ^ 16 * op + 2 ^ 24 * b2n k.fence + 2 ^ 25 * b2n k.notify
    + 2 ^ 26 * k.rsv0.toNat) ::
  BitVec.ofNat 32 (k.part.toNat + 2 ^ 8 * k.rsv1.toNat + 2 ^ 16 * k.gen.toNat) :: k.tag :: k.rsv3 :: k.w

/-- The packet that 16 words spell, and its opcode (R366). -/
def pktOfWords (ws : List Word) : Nat × Pkt :=
  let a := wd ws 0
  let b := wd ws 1
  (fld a 23 16,
   { verMinor := BitVec.ofNat 8 (fld a 7 0), verMajor := BitVec.ofNat 8 (fld a 15 8), fence := bit a 24, notify := bit a 25
     rsv0 := BitVec.ofNat 6 (fld a 31 26), part := BitVec.ofNat 8 (fld b 7 0), rsv1 := BitVec.ofNat 8 (fld b 15 8)
     gen := BitVec.ofNat 16 (fld b 31 16), tag := wd ws 2, rsv3 := wd ws 3, w := ws.drop 4 })

/-- An opcode of R374: is it taken on a partition ring, on the pool ring, and which parameter bits are not reserved. -/
structure OpInfo where
  onPart : Bool
  onPool : Bool
  masks : List Nat
deriving DecidableEq, Repr

/-- A whole word of parameters. -/
abbrev full : Nat := 0xFFFFFFFF

/-- The opcode table of R374. -/
def opInfo (op : Nat) : Option OpInfo :=
  match op with
  | 0x00 => some { onPart := true, onPool := true, masks := [full] }
  | 0x01 => some { onPart := false, onPool := true, masks := [1, full, 0xFFFF, full] }
  | 0x02 => some { onPart := true, onPool := true, masks := [full, 0xFFFF, 0xFFFF, full, 0xFFFF, 0xFFFF] }
  | 0x03 => some { onPart := false, onPool := true, masks := [3, full, full, full, full, full, full, full, full, 0xFFF] }
  | 0x04 => some { onPart := false, onPool := true, masks := [full, 0xFFFF, 0x3FFFFFFF] }
  | 0x05 => some { onPart := false, onPool := true, masks := [full, 0xFFFF] }
  | 0x06 => some { onPart := false, onPool := true, masks := [full] }
  | 0x10 => some { onPart := false, onPool := true,
                   masks := [full, full, full, 0xFFFF, 0x1F1F, 0x3FFFF, 0x7FFFFF, 0xFFFF, full, 0xFFFF, 0xFFFF] }
  | 0x11 => some { onPart := false, onPool := true, masks := [0xFF] }
  | 0x12 => some { onPart := true, onPool := true, masks := [0xFFFF00FF] }
  | 0x13 => some { onPart := true, onPool := true, masks := [0x1FF, full] }
  | 0x14 => some { onPart := true, onPool := true, masks := [0x1FF, full] }
  | 0x15 => some { onPart := true, onPool := true, masks := [0xFF, full, 0xFFFF, full, full] }
  | 0x16 => some { onPart := true, onPool := true, masks := [0xFF, full, 0xFFFF, full, full] }
  | 0x17 => some { onPart := true, onPool := true, masks := [0xFF] }
  | 0x18 => some { onPart := true, onPool := false, masks := [full, 0xFFFF, 0x3FFFF, 0xF, full, 0xFFFFF] }
  | 0x19 => some { onPart := true, onPool := false, masks := [full, 0xFFFF, 0x3FFFF] }
  | 0x20 => some { onPart := true, onPool := false, masks := [full, 0xFFFF] }
  | 0x21 => some { onPart := true, onPool := false, masks := [0xFFFF] }
  | 0x22 => some { onPart := true, onPool := false, masks := [0x7FF, full, 0xFFFF] }
  | 0x23 => some { onPart := true, onPool := false, masks := [0x3FF, full, 0xFFFF] }
  | 0x24 => some { onPart := true, onPool := false, masks := [full, 0xFFFF, full] }
  | 0x25 => some { onPart := true, onPool := false, masks := [0xFFFF] }
  | 0x26 => some { onPart := true, onPool := false, masks := [0xFFFFFF, full, 0xFFFF] }
  | 0x27 => some { onPart := true, onPool := false, masks := [0x7FFFF, full, full, 0xFFFF, full, full, full, 0xFFFFFF] }
  | 0x30 => some { onPart := true, onPool := false, masks := [full, 0xFFFF] }
  | 0x31 => some { onPart := true, onPool := false, masks := [0x3FF] }
  | 0x32 => some { onPart := true, onPool := false, masks := [0x3FF, full, 0xFFFF] }
  | 0x33 => some { onPart := true, onPool := false, masks := [full, 0xFFFF, full, 0xFFFF, 0x1FFF, full, full] }
  | 0x34 => some { onPart := true, onPool := false, masks := [0x1FF, full] }
  | 0x35 => some { onPart := true, onPool := false, masks := [0x1FF, full, full, 0xFFFF, full] }
  | 0x36 => some { onPart := true, onPool := false, masks := [full, 0xFFFF, full, 0xFFFF, 0x1FFF, full, full] }
  | 0x37 => some { onPart := true, onPool := true, masks := [full, 0x3FFF, 0xFFFFF, full, 0xFFFF, 0xFF] }
  | 0x40 => some { onPart := true, onPool := false, masks := [0xFF, full, 0xFFFF, full, full] }
  | 0x41 => some { onPart := true, onPool := false, masks := [full, 0xFFFF, full] }
  | 0x42 => some { onPart := true, onPool := false, masks := [0xFFFF0FFF, 0x1F, full, 0xFFFF, 0x3FFFF, full, 0xFFFF] }
  | 0x43 => some { onPart := true, onPool := false, masks := [0xFFF] }
  | 0x50 => some { onPart := false, onPool := true, masks := [0xFF] }
  | 0x51 => some { onPart := false, onPool := true, masks := [0x13F] }
  | 0x52 => some { onPart := false, onPool := true, masks := [0x1FF] }
  | 0x60 => some { onPart := true, onPool := false,
                   masks := [0xFFFFF, 0xFFF, full, 0xFFFF, full, 0xFFFF, full, 0xFFFF, full, 0xFFFF] }
  | 0x61 => some { onPart := true, onPool := false, masks := [0xFFFF] }
  | 0x62 => some { onPart := true, onPool := false, masks := [full, 0xFFFF, full, full, 3] }
  | 0x63 => some { onPart := true, onPool := false, masks := [full] }
  | 0x64 => some { onPart := true, onPool := false, masks := [0x1FF, full, 0xFFFF, full, 0xFFFF] }
  | _ => none

/-- Do the words have a bit set outside the masks? A word with no mask is reserved (R375). -/
def outsideMasks : List Word → List Nat → Bool
  | [], _ => false
  | w :: ws, [] => decide (w ≠ 0) || outsideMasks ws []
  | w :: ws, m :: ms => decide (w.toNat &&& (full - m) ≠ 0) || outsideMasks ws ms

/-- Is the ring a command ring that exists? -/
def ringExists (s : State) (r : RingId) : Bool :=
  match r with
  | .pool => true
  | .poolEv => false
  | .part p i => (getPart s p).live && decide (i.val < (getPart s p).nring)
  | .partEv _ => false

/-- The partition of a partition ring. -/
def ringOwner (r : RingId) : Option Nat :=
  match r with
  | .pool => none
  | .poolEv => none
  | .part p _ => some p
  | .partEv p => some p

/-- The agreed version of a ring's ring set (R372). -/
def ringVersion (s : State) (r : RingId) : Option (Nat × Nat) :=
  match ringOwner r with
  | none => s.poolVer
  | some p => (getPart s p).version

/-- The statuses that R15, R18, R318, R319, R340, R342, R363, R366, R372, R373 and R375 give any command. -/
def genericErrs (s : State) (r : RingId) (op : Nat) (k : Pkt) : List Nat :=
  let info := opInfo op
  let masks : List Nat := match info with
    | some i => i.masks
    | none => List.replicate 12 full
  errsOf
    [ (decide (op ≠ 0) && decide (ringVersion s r ≠ some (k.verMajor.toNat, k.verMinor.toNat)), stBadVersion),
      (info.isNone, stBadOpcode),
      (decide (k.rsv0 ≠ 0) || decide (k.rsv1 ≠ 0) || decide (k.rsv3 ≠ 0) || outsideMasks k.w masks, stBadParam),
      (match ringOwner r with
       | none => decide (k.part ≠ 0xFF) || decide (k.gen ≠ 0)
       | some _ => decide (64 ≤ k.part.toNat) || decide (k.gen = 0), stBadParam),
      (match ringOwner r with
       | none => false
       | some p => decide (k.gen ≠ (getPart s p).gen), stStale),
      (match ringOwner r, info with
       | none, some i => !i.onPool || (decide (2 < op) && !s.auth.authed)
       | some p, some i => !i.onPart || decide (k.part.toNat ≠ p)
       | _, none => false, stDenied),
      (match ringOwner r with
       | none => false
       | some p => (getPart s p).wrapWait, stBusy) ]

/-- The head that a completion repeats. -/
def headOf (r : RingId) (op : Nat) (k : Pkt) : CmdHead :=
  { ring := r, opcode := op, part := k.part, gen := k.gen, tag := k.tag, fence := k.fence, notify := k.notify }

/-- How a command that passed its checks goes on: it completes with a status and result words, or waits for a later step. -/
inductive Fw where
  | done (s : State) (status : Nat) (res : List Word)
  | wait (s : State) (why : Wait) (res : List Word)

/-- May the command start now? It is the oldest packet of its ring that has not started, or comes to the ring in this step;
no completion is held (R369); no earlier FENCE command is open, and with FENCE no earlier command at all (R367). -/
def mayStart (s : State) (r : RingId) (op : Nat) (k : Pkt) : Bool :=
  let R := getRing s (ringKey r)
  let mine := s.outst.filter (fun o => decide (o.ring = r))
  (R.fetched.isEmpty || decide (R.fetched.head? = some (pktWords op k))) && R.held.isEmpty &&
    mine.all (fun o => !o.fence) && (!k.fence || mine.isEmpty)

/-- The packet leaves the list of packets that have not started. -/
def startCmd (s : State) (r : RingId) : State := modRing s (ringKey r) (fun R => { R with fetched := R.fetched.drop 1 })

/-- A packet that may not start yet waits in its ring. -/
def parkCmd (s : State) (r : RingId) (op : Nat) (k : Pkt) : State :=
  if decide ((getRing s (ringKey r)).fetched.contains (pktWords op k)) then s
  else modRing s (ringKey r) (fun R => { R with fetched := R.fetched ++ [pktWords op k] })

/-- Record how a command goes on. -/
def settle (h : CmdHead) : Fw → State
  | .done s status res => complete s h status res
  | .wait s why res =>
    let o : Outst :=
      { ring := h.ring, opcode := h.opcode, part := h.part, gen := h.gen, tag := h.tag, notify := h.notify, why := why
        fence := h.fence, res := res }
    { s with outst := s.outst ++ [o] }

/-- Packets of unknown opcode at the head of a ring's list complete at once with the status R20 picks, BAD_OPCODE unless a
lower code applies (R375). -/
def sweepUnknown (s : State) (r : RingId) : Nat → State
  | 0 => s
  | n + 1 =>
    match (getRing s (ringKey r)).fetched with
    | [] => s
    | ws :: _ =>
      let op := (pktOfWords ws).1
      let k := (pktOfWords ws).2
      if (opInfo op).isNone && mayStart s r op k then
        sweepUnknown (complete (startCmd s r) (headOf r op k) (lowest (genericErrs s r op k)) []) r n
      else s

/-- What firmware does with a command of any kind: errs lists the command's own failing checks and act is what it does when
no check fails (R20, R375). errRes are the result words of a command that fails. -/
def fwRun (s : State) (r : RingId) (op : Nat) (k : Pkt) (errRes : List Word)
    (errs : State → List Nat) (act : State → Fw) : State :=
  if !ringExists s r || decide (s.boot.st ≠ .ready) then s
  else if !mayStart s r op k then parkCmd s r op k
  else
    let s := startCmd s r
    let e := genericErrs s r op k ++ errs s
    let t := if e.isEmpty then settle (headOf r op k) (act s) else complete s (headOf r op k) (lowest e) errRes
    sweepUnknown t r (getRing t (ringKey r)).fetched.length

/-! ### Operands that several commands share -/

/-- Read n bytes at an A of a command on a ring (R374). -/
def rdA (s : State) (r : RingId) (a n : Nat) : Option (List Byte) :=
  match ringOwner r with
  | none => hostRead s 0 a n
  | some p => rdVa s p a n

/-- Can n bytes be written at an A? -/
def canWrA (s : State) (r : RingId) (a n : Nat) : Bool :=
  match ringOwner r with
  | none => true
  | some p => canWrVa s p a n

/-- A write of n bytes at an A meets a host whose link is down (R371; for the pool ring log entry 99). -/
def lostA (s : State) (r : RingId) (a n : Nat) : Bool :=
  match ringOwner r with
  | none => !hostLinkUp s 0
  | some p => writeLost s p a n

/-- Write bytes at an A. -/
def wrA (s : State) (r : RingId) (a : Nat) (bs : List Byte) : State :=
  match ringOwner r with
  | none => if hostLinkUp s 0 then hostWrite s 0 a bs else s
  | some p => wrVa s p a bs

/-- A command writes bytes at an A and completes; with TIMEOUT where they are lost (R371). -/
def writeDone (s : State) (r : RingId) (a : Nat) (bs : List Byte) (st : Nat) (res : List Word) : Fw :=
  .done (wrA s r a bs) (if lostA s r a bs.length then worse st stTimeout else st) res

/-- The PART parameter of a command marked Both: on a partition ring it must be the ring's own (R319, R374); on the pool ring
it must name a partition that exists (R18, log entry 21). -/
def partParamErrs (s : State) (r : RingId) (p : Nat) : List Nat :=
  errsOf [ (decide (64 ≤ p), stBadParam),
    ((ringOwner r).isNone && decide (p < 64) && !(getPart s p).live, stBadParam),
    (match ringOwner r with
     | none => false
     | some q => decide (p ≠ q), stDenied) ]

end Sys2Proof.Machine
end

