-- ==== Sys2Proof/Machine/Rings.lean ====
section
/-! DEFINITION. Doorbells, indices, enables and host links of the rings, version negotiation and the authentication lockout
(R363-R373). -/

namespace Sys2Proof.Machine

open Sys2Proof

/-- Does the ring exist, command or event ring? -/
def ringThere (s : State) (r : RingId) : Bool :=
  decide (s.boot.st = .ready) && (match r with
    | .pool => true
    | .poolEv => true
    | .part p i => (getPart s p).live && decide (i.val < (getPart s p).nring)
    | .partEv p => (getPart s p).live)

/-- Fetch n entries of a command ring from CMD_HEAD on (R365). -/
def fetchEntries (s : State) (k : Nat) : Nat → State
  | 0 => s
  | n + 1 =>
    let r := getRing s k
    let a := r.cmdBaseAct + r.cmdHead.toNat % cmdSize r * 64
    match hostRead s (ringPort s k) a 64 with
    | none => ringFault s k
    | some bs =>
      fetchEntries (modRing s k (fun r =>
        { r with cmdHead := r.cmdHead + 1, fetched := r.fetched ++ [wordsOf 16 bs] })) k n

/-- Fetch what the indices name, or stop the ring with FAULT where an index is more than a ring's size ahead (R365). -/
def fetchRing (s : State) (rid : RingId) : State :=
  let k := ringKey rid
  let r := getRing s k
  if !r.en || r.fault || !hostLinkUp s (ringPort s k) || ringIsEvent k then s
  else if cmdSize r < (r.cmdTail - r.cmdHead).toNat || cplSize r < cplUsed r then ringFault s k
  else
    let s := fetchEntries s k (r.cmdTail - r.cmdHead).toNat
    sweepUnknown s rid (getRing s k).fetched.length

/-- CMD_DOORBELL (R365): CMD_TAIL takes the value, and firmware fetches. -/
def execCmdDoorbell (r : RingId) (tail : BitVec 16) (s : State) : Host.Outcome State Fault Refusal :=
  inRun s (fun s => if !ringThere s r || ringIsEvent (ringKey r) then s
    else fetchRing (modRing s (ringKey r) (fun R => { R with cmdTail := tail })) r)

/-- CPL_HEAD_WRITE (R365, R369): CPL_HEAD takes the value; an index that leaves more than a ring's size outstanding stops the
ring; held completions are written while there is room. -/
def execCplHeadWrite (r : RingId) (head : BitVec 16) (s : State) : Host.Outcome State Fault Refusal :=
  inRun s (fun s => if !ringThere s r then s else
    let k := ringKey r
    let s := modRing s k (fun R => { R with cplHead := head })
    let s := if cplSize (getRing s k) < cplUsed (getRing s k) then ringFault s k else s
    flushHeld s k (getRing s k).held)

/-- EN goes from 0 to 1 (R364, R370). -/
def enableRing (r : Ring) : Ring :=
  { r with
    en := true, enWaits := false, fault := false, cmdHead := 0, cplTail := 0, cplHead := 0
    cmdBaseAct := 4096 * (r.cmdBase.toNat / 4096)
    cplBaseAct := 4096 * (r.cplBase.toNat / 4096)
    cmdLog2Act := Nat.min 12 (Nat.max 4 r.cmdLog2.toNat)
    cplLog2Act := Nat.min 13 (Nat.max 4 r.cplLog2.toNat) }

/-- RING_ENABLE (R370). -/
def execRingEnable (r : RingId) (en : Bool) (s : State) : Host.Outcome State Fault Refusal :=
  inRun s (fun s => if !ringThere s r then s else
    let k := ringKey r
    if !en then modRing s k (fun R => { R with en := false, enWaits := false })
    else if (getRing s k).en then s
    else if ringIdle s k then modRing s k enableRing
    else modRing s k (fun R => { R with enWaits := true }))

/-- RING_ENABLE_DEFERRED (R370): the pending enable takes effect once IDLE is 1. -/
def execRingEnableDeferred (r : RingId) (s : State) : Host.Outcome State Fault Refusal :=
  inRun s (fun s => if ringThere s r && (getRing s (ringKey r)).enWaits && ringIdle s (ringKey r) then modRing s (ringKey r) enableRing
    else s)

/-- The rings that lie in a port's host memory: of its partitions in ascending order, then the pool's for port 0. -/
def ringsOfPort (s : State) (port : Nat) : List RingId :=
  ((List.finRange 64).filter (fun p => (getPart s p.val).live && decide ((getPart s p.val).host.val = port))).flatMap
    (fun p => ((List.finRange 16).filter (fun i => decide (i.val < (getPart s p.val).nring))).map (fun i => RingId.part p i)
      ++ [RingId.partEv p])
  ++ (if port = 0 then [RingId.pool, RingId.poolEv] else [])

/-- HOST_LINK_DOWN (R371): records are held from now on, and port 0's loss ends the pool manager's authentication (R363). -/
def hostLinkLost (s : State) (port : Nat) : State :=
  if !hostLinkUp s port then s else
  let s := { s with hostUp := s.hostUp &&& ~~~(BitVec.ofNat 4 (2 ^ port)) }
  let s := if port = 0 then { s with auth := { s.auth with authed := false } } else s
  if s.boot.st = .ready then evPool s 0x0002 [] else s

def execHostLinkDown (port : Fin 4) (s : State) : Host.Outcome State Fault Refusal :=
  inRun s (fun s => hostLinkLost s port.val)

/-- HOST_LINK_UP (R371): the held records are written in order, and fetching goes on. A link whose perst_n or pwr_ok is low
does not come up (R435). -/
def execHostLinkUp (port : Fin 4) (s : State) : Host.Outcome State Fault Refusal :=
  inRun s (fun s => if hostLinkUp s port.val || !s.pwr.perstN.getLsbD port.val || !s.pwr.pwrOk || !s.pwr.porN then s else
    let s := { s with hostUp := s.hostUp ||| BitVec.ofNat 4 (2 ^ port.val) }
    if s.boot.st ≠ .ready then s else
    let rs := ringsOfPort s port.val
    let s := rs.foldl (fun s r => flushHeld s (ringKey r) (getRing s (ringKey r)).held) s
    let s := evPool s 0x0002 []
    rs.foldl fetchRing s)

/-- DEV_ID of R5. -/
def devId : Word := 0x7720B111

/-- The command rings of a ring's ring set. -/
def setRings (r : RingId) : List RingId :=
  match ringOwner r with
  | none => [.pool]
  | some p => if h : p < 64 then (List.finRange 16).map (fun i => RingId.part ⟨p, h⟩ i) else []

/-- A command of the same ring set is open: it has started, or has been fetched on another ring of the set (R372). -/
def setBusy (s : State) (r : RingId) : Bool :=
  s.outst.any (fun o => decide (ringOwner o.ring = ringOwner r)) ||
  (setRings r).any (fun q => decide (q ≠ r) && !(getRing s (ringKey q)).fetched.isEmpty)

/-- GET_VERSION's checks (R372): version 1.0 is the only one offered (R6). -/
def getVersionErrs (r : RingId) (k : Pkt) (s : State) : List Nat :=
  let w := wd k.w 0
  let lo := fld w 15 8 * 256 + fld w 7 0
  let hi := fld w 31 24 * 256 + fld w 23 16
  errsOf [ (decide (lo ≤ hi) && !(decide (lo ≤ 256) && decide (256 ≤ hi)), stBadVersion),
    (decide (hi < lo), stBadParam), (setBusy s r, stBusy) ]

/-- The result words of GET_VERSION: the agreed version, if any, and DEV_ID. -/
def getVersionRes (v : Option (Nat × Nat)) : List Word :=
  [match v with
   | some (a, b) => BitVec.ofNat 32 (b + a * 256)
   | none => 0, devId]

/-- GET_VERSION (R372). -/
def execGetVersion (r : RingId) (k : Pkt) (s : State) : Host.Outcome State Fault Refusal :=
  inRun s (fun s => fwRun s r 0x00 k (getVersionRes (ringVersion s r)) (getVersionErrs r k) (fun s =>
    let s := match ringOwner r with
      | none => { s with poolVer := some (1, 0) }
      | some p => modPart s p (fun P => { P with version := some (1, 0) })
    .done s stOk (getVersionRes (some (1, 0)))))

/-- Array cycles in 60 s. -/
abbrev minuteCycles : Nat := 120000000000

/-- AUTH_LOCKOUT_EXPIRY (R363): the lockout ends 60 s after the failure that began it. -/
def execAuthLockoutExpiry (s : State) : Host.Outcome State Fault Refusal :=
  inRun s (fun s => if s.auth.locked && decide (s.auth.fails.getLastD 0 + minuteCycles ≤ s.time.now) then
    { s with auth := { s.auth with locked := false, fails := [] } } else s)

end Sys2Proof.Machine
end

