-- ==== Sys2Proof/Machine/Boot.lean ====
section
/-! DEFINITION. The boot ROM and firmware images (R356, R358-R362, R405), and the boot-time rows PUSH, IMAGE_VERIFIED, START,
BOOT_READY and START_TIMEOUT. -/

namespace Sys2Proof.Machine

open Sys2Proof

/-- A hash as its 48 bytes. -/
def hashBytes (h : BitVec 384) : List Byte := leBytes 48 h.toNat

/-- 48 bytes as a hash. -/
def hashOf (bs : List Byte) : BitVec 384 := BitVec.ofNat 384 (ofLe (bs.take 48))

/-- The boot ROM begins: HALT in lifecycle DECOMMISSIONED, else WAIT_IMG with nothing accepted (R359, R362). -/
def bootRom (s : State) : State :=
  { s with boot := if s.sec.lifecycle = 2 then { st := .halt, haltCause := 1 } else { st := .waitImg } }

/-- Extend a measurement with a hash and log it (R362). -/
def measure (s : State) (i typ svn : Nat) (h : BitVec 384) : State :=
  { s with boot := { s.boot with
      meas := tabMod 0 s.boot.meas i (fun m => Config.sha384 (hashBytes m ++ hashBytes h))
      log := s.boot.log ++ [{ typ := typ, svn := svn, hash := h, status := stOk }] } }

/-- Log a push that was rejected (R362). -/
def logReject (s : State) (typ svn : Nat) (h : BitVec 384) (status : Nat) : State :=
  { s with boot := { s.boot with log := s.boot.log ++ [{ typ := typ, svn := svn, hash := h, status := status }] } }

/-! ### Images (R360) -/

def hdrType (h : List Word) : Nat := fld (wd h 1) 7 0
def hdrDev (h : List Word) : Bool := bit (wd h 1) 8
def hdrSvn (h : List Word) : Nat := fld (wd h 2) 15 0
def hdrBody (h : List Word) : Nat := (wd h 4).toNat

/-- Bytes of an image's signature block. -/
abbrev sigBytes : Nat := 4736

/-- The header is not one that R360 describes. -/
def hdrBad (h : List Word) : Bool :=
  decide ((wd h 0).toNat ≠ 0x57465256) || decide (hdrType h = 0) || decide (5 < hdrType h) || decide (fld (wd h 1) 31 9 ≠ 0) ||
  decide (fld (wd h 2) 23 16 ≠ 0xB1) || decide (fld (wd h 2) 31 24 ≠ 0) || decide (fld (wd h 3) 31 16 ≠ 0) ||
  (decide (hdrType h ≠ 3) && decide (fld (wd h 3) 15 0 ≠ 0)) || decide (hdrBody h % 64 ≠ 0) || decide (hdrBody h < 64) ||
  decide (67108864 < hdrBody h) || (h.drop 5).any (fun w => decide (w ≠ 0))

/-- Images of a type have been accepted (R359). -/
def accepted (s : State) (t : Nat) : Bool := decide (tabGet 0 s.boot.accepted t ≠ 0)

/-- All five types have been accepted (R361). -/
def allAccepted (s : State) : Bool := (List.range 5).all (fun i => accepted s (i + 1))

/-- The header at BOOT_IMG_ADDR. -/
def imgHeader (s : State) : Option (List Word) := (hostRead s 0 s.boot.imgAddr 256).map (wordsOf 64)

/-- The statuses that R360 gives an image, with its hash. -/
def imgCheck (s : State) (after : Bool) : List Nat × Nat × Nat × BitVec 384 :=
  match imgHeader s with
  | none => ([stBounds], 0, 0, 0)
  | some h =>
    let first := (List.range 5).all (fun i => !accepted s (i + 1))
    let bad := hdrBad h || decide (s.boot.imgLen ≠ 256 + hdrBody h + sigBytes) || (first && decide (hdrType h ≠ 1))
    if bad then ([stBadParam], hdrType h, hdrSvn h, 0)
    else match hostRead s 0 s.boot.imgAddr s.boot.imgLen with
      | none => ([stBounds], hdrType h, hdrSvn h, 0)
      | some bs =>
        let hash := Config.sha384 (bs.take (256 + hdrBody h))
        (errsOf [ (!Config.imageSigOk (hdrDev h) hash (bs.drop (256 + hdrBody h)) || (hdrDev h && decide (s.sec.lifecycle ≠ 0)) ||
            decide (hdrSvn h < tabGet 0 s.sec.minSvn (hdrType h)) || after, stDenied) ], hdrType h, hdrSvn h, hash)

/-- The outcome of a push: the image is accepted and measured, or the push is logged (R359, R360, R362). -/
def pushOutcome (s : State) (after : Bool) : State :=
  let r := imgCheck s after
  let st := lowest r.1
  let s := { s with boot := { s.boot with lastStatus := st } }
  if st ≠ stOk then logReject s r.2.1 r.2.2.1 r.2.2.2 st
  else
    let h := (imgHeader s).getD []
    let s := { s with boot := { s.boot with
      accepted := tabSet 0 s.boot.accepted r.2.1 (r.2.2.1 + 1)
      iface := if r.2.1 = 3 then fld (wd h 3) 15 0 else s.boot.iface } }
    measure s r.2.1 r.2.1 r.2.2.1 r.2.2.2

/-- PUSH (R359, R360): STATE becomes VERIFY; during VERIFY only LAST_STATUS changes; after START the push is denied. -/
def execPush (s : State) : Host.Outcome State Fault Refusal :=
  inRun s (fun s =>
    match s.boot.st with
    | .rom => s
    | .waitImg => { s with boot := { s.boot with st := .verify } }
    | .verify => { s with boot := { s.boot with lastStatus := stBusy } }
    | .starting => pushOutcome s true
    | .ready => pushOutcome s true
    | .halt => s)

/-- IMAGE_VERIFIED (R359, R360, R362). -/
def execImageVerified (s : State) : Host.Outcome State Fault Refusal :=
  inRun s (fun s =>
    if s.boot.st ≠ .verify then s else
    let s := pushOutcome s false
    { s with boot := { s.boot with st := .waitImg } })

/-- START (R361, R405): it waits in WAIT_IMG for all five types and for the tamper latch to be clear. -/
def execStart (s : State) : Host.Outcome State Fault Refusal :=
  inRun s (fun s =>
    if s.boot.st ≠ .waitImg ∧ s.boot.st ≠ .verify then s else
    let e := errsOf [(!allAccepted s, stBadParam), (s.sec.tamperLatch, stDenied)]
    if !e.isEmpty then { s with boot := { s.boot with lastStatus := lowest e } }
    else if s.boot.st = .verify then s
    else { s with boot := { s.boot with st := .starting, lastStatus := stOk, startAt := s.time.now } })

/-- Array cycles in 2 s. -/
abbrev startCycles : Nat := 4000000000

/-- BOOT_READY (R361, R393, R399): the identity keys are derived unless their fuse is blown. -/
def execBootReady (s : State) : Host.Outcome State Fault Refusal :=
  inRun s (fun s =>
    if s.boot.st = .starting ∧ s.time.now ≤ s.boot.startAt + startCycles then
      { s with boot := { s.boot with st := .ready }, sec := { s.sec with identKey := !s.sec.identErased } }
    else s)

/-- START_TIMEOUT (R361). -/
def execStartTimeout (s : State) : Host.Outcome State Fault Refusal :=
  inRun s (fun s =>
    if s.boot.st = .starting ∧ s.boot.startAt + startCycles ≤ s.time.now then
      { s with boot := { s.boot with st := .halt, haltCause := 6 } }
    else s)

end Sys2Proof.Machine
end

