-- ==== Sys2Proof/Machine/EthFrame.lean ====
section
/-! DEFINITION. Ethernet frames: byte order on the wire, MAC addresses and VLAN tags, IP, UDP and RoCE v2 headers, checksums
(R288-R296; the layouts are those of the standards the manual names, log entry 35). -/

namespace Sys2Proof.Machine

open Sys2Proof

/-- The number that bytes spell, most significant first. -/
def ofBe (bs : List Byte) : Nat := bs.foldl (fun n b => n * 256 + b.toNat) 0

/-- The n low bytes of a number, most significant first. -/
def beBytes (n v : Nat) : List Byte := (leBytes n v).reverse

/-- n bytes of a frame from an offset, as a number. -/
def beAt (bs : List Byte) (off n : Nat) : Nat := ofBe ((bs.drop off).take n)

/-- A frame's headers: addresses, the tag if there is one, the Ethertype and what follows it. -/
structure EthHdr where
  dst : Nat
  src : Nat
  tci : Option Nat
  etype : Nat
  pay : List Byte
deriving DecidableEq, Repr

/-- Take a frame apart. -/
def parseEth (bs : List Byte) : EthHdr :=
  if beAt bs 12 2 = 0x8100 then
    { dst := beAt bs 0 6, src := beAt bs 6 6, tci := some (beAt bs 14 2), etype := beAt bs 16 2, pay := bs.drop 18 }
  else { dst := beAt bs 0 6, src := beAt bs 6 6, tci := none, etype := beAt bs 12 2, pay := bs.drop 14 }

/-- VLAN ID of a frame, 0 where it is untagged. -/
def hdrVlan (h : EthHdr) : Nat := match h.tci with
  | some t => t % 4096
  | none => 0

/-- PCP of a frame, 0 where it is untagged (R310). -/
def hdrPcp (h : EthHdr) : Nat := match h.tci with
  | some t => t / 8192 % 8
  | none => 0

/-- A frame with DEI set, if it is tagged (R311). -/
def setDei (bs : List Byte) : List Byte :=
  if beAt bs 12 2 = 0x8100 then bs.take 14 ++ [(bs.getD 14 0) ||| 0x10] ++ bs.drop 15 else bs

/-- The UDP datagram of a frame: source port, destination port and payload. -/
def parseUdp (h : EthHdr) : Option (Nat × Nat × List Byte) :=
  let u (d : List Byte) : Option (Nat × Nat × List Byte) := some (beAt d 0 2, beAt d 2 2, d.drop 8)
  if h.etype = 0x0800 ∧ beAt h.pay 9 1 = 17 then u (h.pay.drop (beAt h.pay 0 1 % 16 * 4))
  else if h.etype = 0x86DD ∧ beAt h.pay 6 1 = 17 then u (h.pay.drop 40)
  else none

/-- The UDP payload alone, as the PTP rules see it. -/
def udpPort (h : EthHdr) : Nat := match parseUdp h with
  | some (_, d, _) => d
  | none => 0

/-! ### Checksums -/

/-- Eight steps of the reflected CRC-32 of IEEE 802.3. -/
def crc32Bits : Nat → BitVec 32 → BitVec 32
  | 0, c => c
  | n + 1, c => crc32Bits n (if c.getLsbD 0 then (c >>> 1) ^^^ 0xEDB88320#32 else c >>> 1)

/-- CRC-32 of IEEE 802.3. -/
def crc32 (bs : List Byte) : BitVec 32 :=
  ~~~(bs.foldl (fun c b => crc32Bits 8 (c ^^^ b.setWidth 32)) 0xFFFFFFFF#32)

/-- Sum of 16-bit words, most significant byte first. -/
def sum16 : List Byte → Nat
  | [] => 0
  | [a] => a.toNat * 256
  | a :: b :: t => a.toNat * 256 + b.toNat + sum16 t

/-- The checksum of an IPv4 header whose checksum field is zero. -/
def ipSum (bs : List Byte) : Nat :=
  let s := sum16 bs
  let s := s % 65536 + s / 65536
  let s := s % 65536 + s / 65536
  65535 - s

/-! ### RoCE v2 -/

/-- The addresses and fields of a QP's connection (R295). -/
structure Conn where
  ipv6 : Bool
  smac : Nat
  dmac : Nat
  vlan : Nat
  pcp : Nat
  dscp : Nat
  sip : List Word
  dip : List Word
  hop : Nat
  flow : Nat
deriving DecidableEq, Repr

/-- Bytes of an address: one word for IPv4, four for IPv6, the first byte on top of the first word. -/
def ipBytes (ipv6 : Bool) (ws : List Word) : List Byte :=
  (List.range (if ipv6 then 4 else 1)).flatMap (fun i => beBytes 4 (wd ws i).toNat)

/-- The IP header of a UDP datagram of n bytes; ecn is the ECN field. -/
def ipHeader (c : Conn) (ecn n : Nat) : List Byte :=
  let tos := c.dscp * 4 + ecn
  if c.ipv6 then
    beBytes 4 (6 * 2 ^ 28 + 2 ^ 20 * tos + c.flow) ++ beBytes 2 n ++ beBytes 1 17 ++ beBytes 1 c.hop ++ ipBytes true c.sip ++ ipBytes true c.dip
  else
    let h (sum : Nat) : List Byte := beBytes 2 (0x4500 + tos) ++ beBytes 2 (20 + n) ++ beBytes 4 0x4000 ++ beBytes 1 c.hop ++
      beBytes 1 17 ++ beBytes 2 sum ++ ipBytes false c.sip ++ ipBytes false c.dip
    h (ipSum (h 0))

/-- The fields of an IP header that the ICRC covers as ones. -/
def ipMasked (ipv6 : Bool) (h : List Byte) : List Byte :=
  if ipv6 then [(h.getD 0 0) ||| 0x0F, 0xFF, 0xFF, 0xFF] ++ (h.drop 4).take 3 ++ [0xFF] ++ h.drop 8
  else h.take 1 ++ [0xFF] ++ (h.drop 2).take 6 ++ [0xFF] ++ (h.drop 9).take 1 ++ [0xFF, 0xFF] ++ h.drop 12

/-- The ICRC of a datagram under an IP header, the ICRC itself left off: the fields that change on the way count as ones (R292). -/
def icrcWord (ipv6 : Bool) (ip d : List Byte) : Word :=
  crc32 (List.replicate 8 0xFF ++ ipMasked ipv6 ip ++ d.take 6 ++ [0xFF, 0xFF] ++ (d.drop 8).take 4 ++ [0xFF] ++ d.drop 13)

/-- The ICRC of a received RoCE v2 frame verifies (R292). -/
def icrcGood (h : EthHdr) : Bool :=
  let v6 := decide (h.etype = 0x86DD)
  let hl := if v6 then 40 else beAt h.pay 0 1 % 16 * 4
  let u := h.pay.drop hl
  let n := beAt u 4 2
  decide (24 ≤ n) && decide (n ≤ u.length) &&
    decide ((u.drop (n - 4)).take 4 = leBytes 4 (icrcWord v6 (h.pay.take hl) (u.take (n - 4))).toNat)

/-- A RoCE v2 frame (R292, R296): base transport header, extension, payload and ICRC, under UDP, IP and Ethernet. -/
def roceFrame (c : Conn) (sport op dqpn psn : Nat) (ackReq : Bool) (ext payload : List Byte) : List Byte :=
  let pad := (4 - payload.length % 4) % 4
  let bth : List Byte := beBytes 1 op ++ beBytes 1 (0x40 + pad * 16) ++ beBytes 2 0xFFFF ++ beBytes 1 0 ++
    beBytes 3 dqpn ++ beBytes 1 (b2n ackReq * 128) ++ beBytes 3 psn
  let body := ext ++ payload ++ List.replicate pad 0
  let n := 8 + 12 + body.length + 4
  let ip := ipHeader c 2 n
  let d := beBytes 2 sport ++ beBytes 2 4791 ++ beBytes 2 n ++ beBytes 2 0 ++ bth ++ body
  beBytes 6 c.dmac ++ beBytes 6 c.smac ++ (if c.vlan = 0 then [] else beBytes 2 0x8100 ++ beBytes 2 (8192 * c.pcp + c.vlan)) ++
    beBytes 2 (if c.ipv6 then 0x86DD else 0x0800) ++ ip ++ d ++
    leBytes 4 (icrcWord c.ipv6 ip d).toNat

/-- Set ECN CE in an ECN-capable RoCE frame (R293); the ICRC does not cover the field. -/
def setCe (bs : List Byte) : List Byte :=
  let h := parseEth bs
  let hl := bs.length - h.pay.length
  if udpPort h ≠ 4791 then bs
  else if h.etype = 0x0800 ∧ beAt h.pay 1 1 % 4 ≠ 0 then
    let hdr := h.pay.take 20
    let z := hdr.take 1 ++ [(hdr.getD 1 0) ||| 3] ++ (hdr.drop 2).take 8 ++ [0, 0] ++ hdr.drop 12
    bs.take hl ++ z.take 10 ++ beBytes 2 (ipSum z) ++ z.drop 12 ++ h.pay.drop 20
  else if h.etype = 0x86DD ∧ beAt h.pay 1 1 / 16 % 4 ≠ 0 then
    bs.take hl ++ h.pay.take 1 ++ [(h.pay.getD 1 0) ||| 0x30] ++ h.pay.drop 2
  else bs

end Sys2Proof.Machine
end

