-- ==== Sys2Proof/Machine/EthCore.lean ====
section
/-! DEFINITION. The traffic manager: queues, allowances, weighted fair queueing, the shaper and transmission (R293, R302-R308),
spoof checks (R312, R313) and policers (R309-R311). -/

namespace Sys2Proof.Machine

open Sys2Proof

/-- Bytes of a frame with its FCS. -/
def frameLen (f : Frame) : Nat := f.bytes.length + 4

/-- Bytes in a queue. -/
def qBytes (q : TmQ) : Nat := q.frames.foldl (fun n f => n + frameLen f) 0

/-- Bytes that queues of a class hold in the egress buffer. -/
def bufBytes (s : State) (radio : Bool) : Nat := s.eth.qs.foldl (fun n e => if e.2.radio = radio then n + qBytes e.2 else n) 0

/-- Rate of a subport in units of 100 Mb/s (R288). -/
def subRate (p : EthPort) : Nat := if p.modeAct = 1 then 2000 else if p.modeAct = 2 then 1000 else 4000

/-- Subports of a mode (R288). -/
def subCount (mode : BitVec 2) : Nat := if mode = 1 then 2 else if mode = 2 then 4 else 1

/-- The subport of a queue. -/
def qSub (q : TmQ) : Nat := 4 * q.port.toNat + q.sub.toNat

/-- The queues of a subport that are enabled, by number. -/
def subQueues (s : State) (port sub : Nat) : List Nat :=
  (s.eth.qs.filter (fun e => e.2.en && decide (qSub e.2 = 4 * port + sub))).map (fun e => e.1)

/-- The frame that a subport is sending. -/
def curOf (s : State) (port sub : Nat) : Option (Nat × Frame) :=
  ((getPort s port).cur.find? (fun x => decide (x.1 = sub))).map (fun x => x.2)

/-! ### Serial tags (R306, R307) -/

/-- a comes before b under serial arithmetic modulo 2^48. -/
def serLt (a b : BitVec 48) : Bool := decide (2 ^ 47 ≤ (a - b).toNat)

/-- max(V, F_prev). -/
def serMax (a b : BitVec 48) : BitVec 48 := if serLt a b then b else a

/-- F of a frame of n bytes that starts at S under a weight. -/
def finTag (st : BitVec 48) (n w : Nat) : BitVec 48 := st + BitVec.ofNat 48 (ceilDiv (n * 256) (Nat.max 1 w))

/-! ### Credit (R308) -/

/-- The queue is shaped. -/
def shaped (q : TmQ) : Bool := !q.radio && decide (q.idleSlope ≠ 0)

/-- The credit of a queue brought up to now. -/
def settleCredit (s : State) (q : Nat) : State :=
  let Q := getQ s q
  if !shaped Q then s else
  let dt : Int := (s.time.now : Int) - Q.creditAt
  let idle : Int := Q.idleSlope.toNat
  let sends := (getPort s Q.port.toNat).cur.any (fun x => decide (x.2.1 = q))
  let hi : Int := 8192 * (Q.hiCredit.toNat : Int) * 20
  let c : Int :=
    if sends then Q.credit + dt * (idle - subRate (getPort s Q.port.toNat))
    else if !Q.frames.isEmpty then min (max hi Q.credit) (Q.credit + dt * idle)
    else if Q.credit < 0 then min 0 (Q.credit + dt * idle) else 0
  modQ s q (fun Q => { Q with credit := c, creditAt := s.time.now })

/-- Settle every queue of a subport. -/
def settleSub (s : State) (port sub : Nat) : State := (subQueues s port sub).foldl settleCredit s

/-! ### Deadlines (R305) -/

/-- A deadline has come. -/
def dlDone (s : State) (d : Nat × Nat) : Bool :=
  decide (d.1 < s.time.clove) || (decide (d.1 = s.time.clove) && decide (d.2 ≤ s.time.cycle))

/-- A deadline comes before another. -/
def dlBefore (a b : Nat × Nat) : Bool := decide (a.1 < b.1) || (decide (a.1 = b.1) && decide (a.2 < b.2))

/-- Array cycles that a subport takes for a frame, with 20 bytes of preamble and gap (R304, R308). -/
def frameCycles (s : State) (port : Nat) (f : Frame) : Nat := ceilDiv ((frameLen f + 20) * 160) (subRate (getPort s port))

/-- A frame of a queue pair waits in an egress queue or is being sent (R295). -/
def qpInFlight (s : State) (n : Nat) : Bool :=
  s.eth.qs.any (fun q => q.2.frames.any (fun f => decide (f.qp = some n))) ||
  s.eth.ports.any (fun p => p.2.cur.any (fun x => decide (x.2.2.qp = some n)))

/-- A message that writes under a key is being received (R298). -/
def keyInUse (s : State) (key : Word) : Bool := s.eth.qps.any (fun q => q.2.live && !q.2.err && decide (q.2.rxKey = some key))

/-- NET_QP_DESTROY and NET_MR_DEREG complete when nothing of theirs is in flight any more (R295, R298). -/
def settleNet (s : State) : State :=
  completeWhere s (fun o => match o.why with
    | .qpGone n => !qpInFlight s n
    | .mrGone key => !keyInUse s key
    | _ => false) (fun o => (stOk, o.res))

/-- A frame that the device itself sends on a subport, outside the queues of the partitions (log entry 95). -/
def sendCtrl (s : State) (port sub : Nat) (bs : List Byte) : State :=
  if (getPort s port).up.getLsbD sub then emit s (.frame port sub bs) else s

/-- A fronthaul send that missed its window: TX_LATE of the endpoint and DEADLINE_MISS of kind 1 (R176, R305, R381). -/
def sendMiss (s : State) (ep cell sym : Nat) : State :=
  let s := modEp s ep (fun e => { e with txLate := satInc 32 e.txLate 1 })
  let s := { s with health := { s.health with misses := satInc 32 s.health.misses 1 } }
  evPart s (getCell s cell).part 0x0102 [(1, 1), (2, cell), (1, sym), (4, s.time.clove % 2 ^ 32)]

/-- Remove the frames of a RADIO queue whose deadline has come. -/
def purgeLate (s : State) (q : Nat) : State :=
  let late (f : Frame) : Bool := match f.dl with
    | some d => dlDone s d
    | none => false
  let Q := getQ s q
  if !Q.radio then s else
  let gone := Q.frames.filter late
  let s := modQ s q (fun Q => { Q with frames := Q.frames.filter (fun f => !late f) })
  gone.foldl (fun s f => match f.radio with
    | some (e, c, y) => sendMiss s e c y
    | none => s) s

/-! ### Which frame goes next (R304-R306) -/

/-- The head of a RADIO queue is not covered by its allowance: it is served as a SHARED frame. -/
def demotes (q : TmQ) : Bool := match q.frames with
  | [] => false
  | f :: _ => q.radio && decide (q.left < frameLen f)

/-- The queue takes part in weighted fair queueing. -/
def contends (q : TmQ) : Bool := q.en && !q.frames.isEmpty && (!q.radio || demotes q)

/-- A subport obeys a pause of a priority now (R294). -/
def priPaused (s : State) (port sub pri : Nat) : Bool :=
  (getPort s port).pfcPri.getLsbD pri && decide (s.time.now < tabGet 0 (getPort s port).paused (8 * sub + pri))

/-- The priority of a queue's head is paused on its subport (R294). -/
def headPaused (s : State) (q : TmQ) : Bool := match q.frames with
  | [] => false
  | f :: _ => priPaused s q.port.toNat q.sub.toNat (hdrPcp (parseEth f.bytes))

/-- The head frame is eligible under the shaper and PFC. -/
def eligible (s : State) (q : TmQ) : Bool := contends q && (!shaped q || decide (0 ≤ q.credit)) && !headPaused s q

/-- Give a queue's new head its tags; a queue that no longer contends loses them. -/
def tagQueue (s : State) (q : Nat) : State :=
  let Q := getQ s q
  match Q.frames with
  | [] => if Q.tagged then modQ s q (fun Q => { Q with tagged := false }) else s
  | f :: _ =>
    if !contends Q then (if Q.tagged then modQ s q (fun Q => { Q with tagged := false }) else s)
    else if Q.tagged then s
    else
      let v := tabGet 0 (getTmp s Q.part.toNat).vt (qSub Q)
      let st := serMax v Q.fin
      modQ s q (fun Q => { Q with tagged := true, tagS := st, tagF := finTag st (frameLen f) Q.weight.toNat })

/-- The first of a list of tagged numbers: smallest tag, lowest number on a tie. -/
def minTag : List (Nat × BitVec 48) → Option Nat
  | [] => none
  | (n, f) :: t =>
    some (t.foldl (fun (b : Nat × BitVec 48) x =>
      if serLt x.2 b.2 || (decide (x.2 = b.2) && decide (x.1 < b.1)) then x else b) (n, f)).1

/-- The queue that a partition's node picks on a subport. -/
def bestQueue (s : State) (port sub p : Nat) : Option Nat :=
  minTag (((subQueues s port sub).filter (fun q => decide ((getQ s q).part.toNat = p) && eligible s (getQ s q))).map
    (fun q => (q, (getQ s q).tagF)))

/-- The partitions with an eligible head on a subport. -/
def subParts (s : State) (port sub : Nat) : List Nat :=
  (List.range 64).filter (fun p => (bestQueue s port sub p).isSome)

/-- Give a partition's new head its tags. -/
def tagPart (s : State) (port sub p : Nat) : State :=
  match bestQueue s port sub p with
  | none => s
  | some q =>
    let k := 4 * port + sub
    let T := getTmp s p
    if tabGet 0 T.head k = q + 1 then s
    else match (getQ s q).frames with
      | [] => s
      | f :: _ =>
        let st := serMax (tabGet 0 (getPort s port).vt sub) (tabGet 0 T.fin k)
        modTmp s p (fun T => { T with
          head := tabSet 0 T.head k (q + 1), tagF := tabSet 0 T.tagF k (finTag st (frameLen f) T.weight.toNat) })

/-- Bring the tags of a subport up to date. -/
def refreshSub (s : State) (port sub : Nat) : State :=
  let s := (subQueues s port sub).foldl tagQueue s
  (subParts s port sub).foldl (fun s p => tagPart s port sub p) s

/-- The eligible RADIO frame with the earliest deadline: its queue and place (R304, R305). -/
def bestRadio (s : State) (port sub : Nat) : Option (Nat × Nat × (Nat × Nat)) :=
  ((subQueues s port sub).filter (fun q => (getQ s q).radio)).foldl (fun best q =>
    let Q := getQ s q
    (Q.frames.mapIdx (fun i f => (i, f))).foldl (fun best x =>
      let d := x.2.dl.getD (0, 0)
      if Q.left < frameLen x.2 then best
      else match best with
        | none => some (q, x.1, d)
        | some (_, _, e) => if dlBefore d e then some (q, x.1, d) else best) best) none

/-- A subport starts a frame. -/
def beginFrame (s : State) (port sub q : Nat) (f : Frame) : State :=
  let Q := getQ s q
  let f1 : Frame := if 16384 * Q.qlim.toNat < 2 * (qBytes Q + frameLen f) then { f with bytes := setCe f.bytes } else f
  let s := settleCredit s q
  modPort s port (fun P => { P with cur := P.cur ++ [(sub, q, f1)], beganAt := tabSet 0 P.beganAt sub s.time.now })

/-- An idle subport that is up starts its next frame (R304-R306). -/
def startNext (s : State) (port sub : Nat) : State :=
  if !(getPort s port).up.getLsbD sub || (curOf s port sub).isSome then s else
  let s := settleSub ((subQueues s port sub).foldl purgeLate s) port sub
  let s := refreshSub s port sub
  match bestRadio s port sub with
  | some (q, i, _) =>
    let f := (getQ s q).frames.getD i { bytes := [], dl := none, radio := none, raw := none }
    beginFrame (modQ s q (fun Q => { Q with frames := Q.frames.eraseIdx i, left := Q.left - frameLen f })) port sub q f
  | none =>
    let k := 4 * port + sub
    match minTag ((subParts s port sub).map (fun p => (p, tabGet 0 (getTmp s p).tagF k))) with
    | none => s
    | some p => match bestQueue s port sub p with
      | none => s
      | some q => match (getQ s q).frames with
        | [] => s
        | f :: t =>
          let F := tabGet 0 (getTmp s p).tagF k
          let s := modPort s port (fun P => { P with vt := tabSet 0 P.vt sub F })
          let s := modTmp s p (fun T => { T with
            vt := tabSet 0 T.vt k (getQ s q).tagF, fin := tabSet 0 T.fin k F, head := tabSet 0 T.head k 0 })
          let s := settleCredit s q
          let s := modQ s q (fun Q => { Q with
            frames := t, fin := Q.tagF, tagged := false, demote := if Q.radio then satInc 8 Q.demote 1 else Q.demote })
          refreshSub (beginFrame s port sub q f) port sub

/-! ### Enqueue (R303, R316) -/

/-- A frame is offered to a queue. -/
def enqueue (s : State) (q : Nat) (f : Frame) : State :=
  let Q := getQ s q
  let port := Q.port.toNat
  let sub := Q.sub.toNat
  if !Q.en then s else
  let drop := (!Q.radio && (getPort s port).expired.getLsbD sub) || decide (16384 * Q.qlim.toNat < qBytes Q + frameLen f) ||
    (!Q.radio && decide (56 * 2 ^ 20 < bufBytes s false + frameLen f)) ||
    decide (64 * 2 ^ 20 < bufBytes s false + bufBytes s true + frameLen f)
  if drop then modQ s q (fun Q => { Q with drop := satInc 16 Q.drop 1 })
  else
    let s := modQ (settleCredit s q) q (fun Q => { Q with frames := Q.frames ++ [f] })
    startNext (refreshSub s port sub) port sub

/-- Flush the frames of a queue, counting them (R289, R302, R316). -/
def flushQ (s : State) (q : Nat) : State :=
  modQ (settleCredit s q) q (fun Q => { Q with flush := satInc 16 Q.flush Q.frames.length, frames := [], tagged := false })

/-- Disable a queue (R302). -/
def disableQ (s : State) (q : Nat) : State := modQ (flushQ s q) q (fun Q => { Q with en := false })

/-- A frame has left: it goes out, and a raw transmit entry gets its stamp (R300). -/
def frameLeft (s : State) (port sub : Nat) : State :=
  match curOf s port sub with
  | none => s
  | some (q, f) =>
    let s := settleCredit s q
    let s := modPort s port (fun P => { P with cur := P.cur.filter (fun x => decide (x.1 ≠ sub)) })
    let s := emit s (.frame port sub f.bytes)
    match f.raw with
    | some va => wrVa s (getQ s q).part.toNat (va + 16) (leBytes 4 (stamp s).toNat)
    | none => s

/-! ### Spoof checks (R312, R313) -/

/-- A MAC address is registered for a partition on a port. -/
def macOk (s : State) (p port mac : Nat) : Bool :=
  (List.range 4).any (fun i =>
    let lo := tabGet 0 (getTmp s p).macs (2 * i)
    let hi := tabGet 0 (getTmp s p).macs (2 * i + 1)
    bit hi 31 && hi.getLsbD (16 + port) && decide (lo.toNat + 2 ^ 32 * fld hi 15 0 = mac))

/-- A VLAN ID is in a partition's set; 0 stands for untagged frames. -/
def vlanOk (s : State) (p vlan : Nat) : Bool :=
  (List.range 4).any (fun i =>
    let w := tabGet 0 (getTmp s p).vlans i
    (bit w 12 && decide (fld w 11 0 = vlan)) || (bit w 28 && decide (fld w 27 16 = vlan)))

/-- The eAxC ID belongs to a downlink flow of one of the partition's cells. -/
def eaxcOk (s : State) (p eaxc : Nat) : Bool :=
  s.radio.cells.any (fun c => c.2.live && decide (c.2.part = p) && c.2.flows.any (fun f => f.down && decide (f.eaxc = eaxc)))

/-- A QP of the partition stands behind a UDP source port (R296, R312). -/
def sportOk (s : State) (p sport : Nat) : Bool :=
  s.eth.qps.any (fun q => q.2.live && decide (q.2.part = p) && decide (0xC000 + q.1 % 16384 = sport))

/-- The first check that a frame fails, by its place in the list of R312; ecpriVlan says whether a VLAN is that of an endpoint of
the partition. -/
def spoofCheck (s : State) (p port : Nat) (ecpriVlan : Nat → Bool) (bs : List Byte) : Option Nat :=
  let h := parseEth bs
  if !macOk s p port h.src then some 0
  else if !(if h.etype = 0xAEFE then ecpriVlan (hdrVlan h) else vlanOk s p (hdrVlan h)) then some 1
  else if h.etype = 0xAEFE && !eaxcOk s p (beAt h.pay 4 2) then some 2
  else match parseUdp h with
    | some (sport, 4791, _) => if sportOk s p sport then none else some 3
    | _ => none

/-- Count a spoof (R313); the event goes out at the end of the clove. -/
def countSpoof (s : State) (p sub chk : Nat) : State :=
  modPart s p (fun P => { P with
      spoofSub := if P.spoofClove = 0 then sub else P.spoofSub, spoofChk := if P.spoofClove = 0 then chk else P.spoofChk
      spoofClove := satInc 32 P.spoofClove 1, spoofCnt := satInc 32 P.spoofCnt 1 })

/-- Check a frame of a partition's queue and offer it; the answer says whether it passed. -/
def sendChecked (s : State) (q : Nat) (ecpriVlan : Nat → Bool) (f : Frame) : State × Bool :=
  let Q := getQ s q
  match spoofCheck s Q.part.toNat Q.port.toNat ecpriVlan f.bytes with
  | some c => (countSpoof s Q.part.toNat Q.sub.toNat c, false)
  | none => (enqueue s q f, true)

/-! ### Policers (R309-R311) -/

/-- The colours. -/
inductive Colour where
  | green | yellow | red
deriving DecidableEq, Repr

/-- The pre-colour of a PCP (R310). -/
def preColour (p : Pol) (pcp : Nat) : Colour :=
  let c := p.map.toNat / 4 ^ pcp % 4
  if c = 0 then .green else if c = 1 then .yellow else .red

/-- A policer with its buckets filled up to now, in units of 1/16,000 byte. -/
def polFill (p : Pol) (now : Nat) : Pol :=
  let dt := now - p.at_
  let pir := if p.mode then p.pir.toNat else Nat.max p.pir.toNat p.cir.toNat
  { p with tc := Nat.min (16000 * p.cbs.toNat) (p.tc + dt * p.cir.toNat), tp := Nat.min (16000 * p.pbs.toNat) (p.tp + dt * pir), at_ := now }

/-- police_2698 and police_4115 of R310 for a frame of n bytes. -/
def polColour (p : Pol) (n : Nat) (pre : Colour) : Colour × Pol :=
  let b := 16000 * n
  if p.aware ∧ pre = .red then (.red, p)
  else if p.mode then
    (if (!p.aware ∨ pre = .green) ∧ b ≤ p.tc then (.green, { p with tc := p.tc - b })
     else if b ≤ p.tp then (.yellow, { p with tp := p.tp - b }) else (.red, p))
  else if p.tp < b then (.red, p)
  else if (p.aware ∧ pre = .yellow) ∨ p.tc < b then (.yellow, { p with tp := p.tp - b })
  else (.green, { p with tp := p.tp - b, tc := p.tc - b })

/-- POLICE (R311): the frame as it is accepted, or none where it is dropped. -/
def police (s : State) (p port sub : Nat) (raw : Bool) (bs : List Byte) : State × Option (List Byte) :=
  match s.eth.pols.find? (fun e => e.2.en && decide (e.2.part.toNat = p) && (e.2.path == raw) && decide (e.2.port.toNat = port) &&
      decide (e.2.sub.toNat = sub)) with
  | none => (s, some bs)
  | some (i, P) =>
    let r := polColour (polFill P s.time.now) (bs.length + 4) (preColour P (hdrPcp (parseEth bs)))
    let P1 : Pol := { r.2 with
      yel := if r.1 = .yellow then satInc 32 P.yel 1 else P.yel, red := if r.1 = .red then satInc 32 P.red 1 else P.red }
    let s := { s with eth := { s.eth with pols := tabSet {} s.eth.pols i P1 } }
    (s, if r.1 = .green then some bs else if r.1 = .yellow then some (setDei bs) else none)

end Sys2Proof.Machine
end

