-- ==== Sys2Proof/Machine/Sample.lean ====
section
/-! DEFINITION. Samples of the radio: compressed PRBs (R170), constellations and scrambling (R194), and the symbol buffers of a cell
in cluster SRAM (R175, R182, R194). The layouts and sequences are those of the standards that R170 and R194 name (log entry 12). -/

namespace Sys2Proof.Machine

open Sys2Proof

/-- A CI16 sample: the real part in the low half. -/
def ci16 (re im : Int) : Word := BitVec.ofNat 32 (ofSigned 16 re + 2 ^ 16 * ofSigned 16 im)

/-- The parts of a CI16 sample. -/
def ciRe (x : Word) : Int := toSigned 16 (fld x 15 0)
def ciIm (x : Word) : Int := toSigned 16 (fld x 31 16)

/-! ### Compression (R170) -/

/-- Mantissa bits of a compression: 1 to 4 are block floating point. -/
def compWidth (comp : Nat) : Nat := if comp = 1 then 8 else if comp = 2 then 9 else if comp = 3 then 12 else if comp = 4 then 14 else 16

/-- Bytes of one PRB under a compression (R170, R207). -/
def prbBytes (comp : Nat) : Nat := 3 * compWidth comp + (if 1 ≤ comp ∧ comp ≤ 4 then 1 else 0)

/-- Field i of w bits of bytes, the first in the most significant place. -/
def beField (w : Nat) (bs : List Byte) (i : Nat) : Nat :=
  bs.foldl (fun n b => n * 256 + b.toNat) 0 / 2 ^ (8 * bs.length - w * (i + 1)) % 2 ^ w

/-- The parts of a PRB's twelve samples as they came: mantissas times the block's power of two, in 16 bits. -/
def prbParts (comp : Nat) (bs : List Byte) : List Int :=
  let w := compWidth comp
  let e := if prbBytes comp = 3 * w then 0 else (bs.getD 0 0).toNat % 16
  let m := bs.drop (prbBytes comp - 3 * w)
  (List.range 24).map (fun i => clampInt (-32768) 32767 (toSigned w (beField w m i) * (2 ^ e : Nat)))

/-- The samples of n PRBs. -/
def unpackPrbs (comp : Nat) : Nat → List Byte → List Word
  | 0, _ => []
  | n + 1, bs =>
    let p := prbParts comp (bs.take (prbBytes comp))
    (List.range 12).map (fun i => ci16 (p.getD (2 * i) 0) (p.getD (2 * i + 1) 0)) ++ unpackPrbs comp n (bs.drop (prbBytes comp))

/-- The least exponent under which a block's parts fit w bits. -/
def bfpExp (w : Nat) (ps : List Int) : Nat :=
  ((List.range 16).find? (fun e => ps.all (fun x => decide (Int.fdiv x (2 ^ e : Nat) < (2 ^ (w - 1) : Nat)) &&
    decide (-((2 ^ (w - 1) : Nat) : Int) ≤ Int.fdiv x (2 ^ e : Nat))))).getD 15

/-- A part's mantissa: the manual names no rounding, so it goes down or up freely. -/
def bfpMant (w e : Nat) (x : Int) : Nat :=
  let up : Int := if x % (2 ^ e : Nat) ≠ 0 ∧ Config.bfpUp x e then 1 else 0
  ofSigned w (clampInt (-((2 ^ (w - 1) : Nat) : Int)) ((2 ^ (w - 1) : Nat) - 1) (Int.fdiv x (2 ^ e : Nat) + up))

/-- Fields of w bits as bytes, the first in the most significant place. -/
def beFields (w : Nat) (xs : List Nat) : List Byte :=
  let n := ceilDiv (w * xs.length) 8
  (leBytes n (xs.foldl (fun n x => n * 2 ^ w + x % 2 ^ w) 0 * 2 ^ (8 * n - w * xs.length))).reverse

/-- A PRB of samples under a compression. -/
def packPrb (comp : Nat) (xs : List Word) : List Byte :=
  let ps := xs.flatMap (fun x => [ciRe x, ciIm x])
  let w := compWidth comp
  if prbBytes comp = 3 * w then beFields 16 (ps.map (ofSigned 16))
  else
    let e := bfpExp w ps
    BitVec.ofNat 8 e :: beFields w (ps.map (bfpMant w e))

/-- Samples in blocks of twelve. -/
def packPrbs (comp : Nat) : Nat → List Word → List Byte
  | 0, _ => []
  | n + 1, xs => packPrb comp (xs.take 12) ++ packPrbs comp n (xs.drop 12)

/-! ### Constellations and scrambling (R194) -/

/-- One more bit of the two shift registers of the Gold sequence. -/
def goldStep (x : Nat × Nat) : Nat × Nat :=
  let f (a : Nat) (taps : List Nat) : Nat := a / 2 + 2 ^ 30 * (taps.foldl (fun n i => n + a / 2 ^ i) 0 % 2)
  (f x.1 [0, 3], f x.2 [0, 1, 2, 3])

/-- n steps of the Gold sequence. -/
def goldSkip : Nat → Nat × Nat → Nat × Nat
  | 0, x => x
  | n + 1, x => goldSkip n (goldStep x)

/-- n bits of the Gold sequence from a state. -/
def goldBits : Nat → Nat × Nat → List Bool
  | 0, _ => []
  | n + 1, x => decide ((x.1 + x.2) % 2 = 1) :: goldBits n (goldStep x)

/-- n bits of the Gold sequence of an initial value from a place on. -/
def goldFrom (init at_ n : Nat) : List Bool := goldBits n (goldSkip (1600 + at_) (1, init % 2 ^ 31))

/-- The signed level that a part's bits choose: 1 - 2b, each further bit within the half that the one before it left. -/
def qamAxis : List Bool → Int
  | [] => 0
  | [b] => if b then -1 else 1
  | b :: t => (if b then -1 else 1) * ((2 ^ t.length : Nat) - qamAxis t)

/-- A level of a part with h bits at an amplitude: amp * k / sqrt(mean of k^2), the manual naming no rounding. -/
def qamPart (amp h : Nat) (k : Int) : Int :=
  let mean := (4 ^ h - 1) / 3
  let x := amp * amp * (k.natAbs * k.natAbs)
  let r := Nat.sqrt (x / mean)
  let up := if x ≠ r * r * mean ∧ Config.qamUp amp h k then 1 else 0
  (if k < 0 then -1 else 1) * (Nat.min 32767 (r + up) : Nat)

/-- The points of some bits, m to a point: even places give the real part. -/
def qamPoints (amp m : Nat) : Nat → List Bool → List Word
  | 0, _ => []
  | n + 1, bs =>
    let b := bs.take m
    let axis (o : Nat) : List Bool := (List.range (m / 2)).map (fun i => b.getD (2 * i + o) false)
    ci16 (qamPart amp (m / 2) (qamAxis (axis 0))) (qamPart amp (m / 2) (qamAxis (axis 1))) :: qamPoints amp m n (bs.drop m)

/-- The bits of bytes, the least significant first. -/
def bitsOfBytes (bs : List Byte) : List Bool := bs.flatMap (fun b => (List.range 8).map (fun i => b.getLsbD i))

/-! ### Symbol buffers (R175, R182, R194) -/

/-- Granules of one subcarrier of n antennas (R118). -/
def antGrans (n : Nat) : Nat := ceilDiv n 16

/-- Byte of a sample in a buffer that starts at a granule: subcarrier f of antenna a of n (R118). -/
def sampleAt (base n f a : Nat) : Nat := 64 * (base + f * antGrans n + a / 16) + 4 * (a % 16)

/-- The granule lies in an SRAM unit that a partition holds. -/
def granMine (s : State) (p c g : Nat) : Bool := decide (g < 2 ^ 18) && (getHold s p c).sram.getLsbD (g / 4096)

/-- Write a sample of a symbol buffer; poisoned data poisons its granule, and other data leaves it clean (log entry 12). -/
def putSample (p c : Nat) (psn : Bool) (s : State) (x : Nat × Word) : State :=
  if !granMine s p c (x.1 / 64) then s else
  modClu s c (fun cl =>
    let m : PMem := { cl.sram with mem := wrBytes cl.sram.mem x.1 (leBytes 4 x.2.toNat) }
    { cl with sram := setGranPsn m (x.1 / 64) psn })

/-- Poison a granule of a symbol buffer. -/
def poisonSample (p c : Nat) (s : State) (g : Nat) : State :=
  if !granMine s p c g then s else modClu s c (fun cl => { cl with sram := setGranPsn cl.sram g true })

end Sys2Proof.Machine
end

