-- ==== Sys2Proof/Machine/RadioCore.lean ====
section
/-! DEFINITION. Cells, flows, symbols, windows, the uplink front end and the search lanes (R170-R191). -/

namespace Sys2Proof.Machine

open Sys2Proof

/-! ### Fields of RU_EP and CELL_CTX (R172, R178) -/

def epPort (e : Endpoint) : Nat := fld (wd e.img 0) 2 0
def epSub (e : Endpoint) : Nat := fld (wd e.img 0) 4 3
def epVlan (e : Endpoint) : Nat := fld (wd e.img 0) 16 5
def epMac (e : Endpoint) : Nat := fld48 e.img 1
def epT1aMinUp (e : Endpoint) : Nat := (wd e.img 4).toNat
def epT1aMaxUp (e : Endpoint) : Nat := (wd e.img 5).toNat
def epT1aMinCp (e : Endpoint) : Nat := (wd e.img 6).toNat
def epT1aMaxCp (e : Endpoint) : Nat := (wd e.img 7).toNat
def epTa4Min (e : Endpoint) : Nat := (wd e.img 8).toNat
def epTa4Max (e : Endpoint) : Nat := (wd e.img 9).toNat

def cRat (w : List Word) : Nat := fld (wd w 0) 1 0
def cMu (w : List Word) : Nat := fld (wd w 0) 3 2
def cCat (w : List Word) : Nat := fld (wd w 0) 5 5
def cNprb (w : List Word) : Nat := fld (wd w 0) 14 6
def cNstream (w : List Word) : Nat := fld (wd w 0) 21 15
def cLayersDl (w : List Word) : Nat := fld (wd w 1) 4 0
def cLayersUl (w : List Word) : Nat := fld (wd w 1) 9 5
def cCompUl (w : List Word) : Nat := fld (wd w 1) 12 10
def cCompDl (w : List Word) : Nat := fld (wd w 1) 15 13
def cCluster (w : List Word) : Nat := fld (wd w 2) 7 0
def cSaf (w : List Word) : Nat := fld (wd w 2) 8 8
def cSfn (w : List Word) : Nat := fld (wd w 3) 9 0
def cHsfn (w : List Word) : Nat := fld (wd w 3) 19 10
/-- DL_AMP, 0 acting as 8,192 (R194). -/
def cDlAmp (w : List Word) : Nat := if fld (wd w 29) 31 16 = 0 then 8192 else fld (wd w 29) 31 16
/-- Budget field r: B_SAF, B_CSP, B_LDEC, B_LENC, B_POL, B_TRL, B_FH_UL, B_FH_DL, B_HBM. -/
def cBudget (w : List Word) (r : Nat) : Nat := (wd w (18 + r)).toNat
def cRptAddr (w : List Word) : Nat := fld48 w 27
/-- Records of the report ring (R178, R189). -/
def cRptSize (w : List Word) : Nat := 2 ^ (Nat.min 8 (fld (wd w 29) 3 0) + 4)

/-- Search configuration i (R185). -/
def srEn (w : List Word) (i : Nat) : Bool := bit (wd w (9 + 3 * i)) 0
def srFormat (w : List Word) (i : Nat) : Nat := fld (wd w (9 + 3 * i)) 5 1
def srPeriod (w : List Word) (i : Nat) : Nat := fld (wd w (10 + 3 * i)) 15 0
def srOffset (w : List Word) (i : Nat) : Nat := fld (wd w (10 + 3 * i)) 31 16
def srLen (w : List Word) (i : Nat) : Nat := fld (wd w (11 + 3 * i)) 15 0
def srThresh (w : List Word) (i : Nat) : Nat := fld (wd w (11 + 3 * i)) 31 16

/-! ### Time of slots and symbols (R177) -/

/-- Cloves of a slot of the cell; LTE and NB-IoT count subframes. -/
def slotCloves (w : List Word) : Nat := 2 ^ (3 - cMu w)

/-- SFN of the cell in a clove (R177). -/
def cellSfn (w : List Word) (clove : Nat) : Nat := (clove / 80 + cSfn w) % 1024

/-- Hyper-frame number of the cell in a clove (R177). -/
def cellHfn (w : List Word) (clove : Nat) : Nat := (clove / 81920 + cHsfn w) % 1024

/-- The PTP time now in ns. -/
def nowNs (s : State) : Nat := 1000000000 * s.time.sec.toNat + s.time.ns

/-- Start of symbol y of a slot in units of 1/30.72 MHz from the start of its subframe, the slot being the n-th of the subframe
(TS 38.211 and TS 36.211, normal cyclic prefix). -/
def symStart (mu n y : Nat) : Nat :=
  let a := n * 14 + y
  a * (2192 / 2 ^ mu) + (if 0 < a then 16 else 0) + (if 7 * 2 ^ mu < a then 16 else 0)

/-- Air start time in ns of symbol y of the slot that begins at a clove index. -/
def airTime (w : List Word) (slot y : Nat) : Nat :=
  let n := slot % 8 / slotCloves w
  1000000 * (slot / 8) + 3125 * symStart (cMu w) n y / 96

/-- The cell works for a clove: from its start to its removal boundary (R178, R180). -/
def cellWorks (c : Cell) (clove : Nat) : Bool :=
  c.live && decide (c.start ≤ clove) && (decide (c.removeAt = 0) || decide (clove < c.removeAt))

/-- The cell issues work now: it has started and its removal boundary has not come (R178, R180). -/
def cellRuns (s : State) (c : Cell) : Bool := cellWorks c s.time.clove && c.started

/-! ### Uplink front end (R182-R184) -/

/-- The largest n below 2^k + lo with a test that holds downward, by bisection. -/
def agcBisect (test : Nat → Bool) : Nat → Nat → Nat
  | 0, lo => lo
  | k + 1, lo => if test (lo + 2 ^ k) then agcBisect test k (lo + 2 ^ k) else agcBisect test k lo

/-- g = round(2^14 * 10^(G/80)) (R182). -/
def agcFactor (gain : Nat) : Nat := agcBisect (fun n => decide ((2 * n - 1) ^ 80 ≤ 2 ^ 1200 * 10 ^ gain)) 25 0

/-- One part of a sample after the AGC gain (R182). -/
def agcPart (g v : Nat) : Nat :=
  ofSigned 16 (clampInt (-32768) 32767 (toSigned 16 v * g / 16384))

/-- A sample after the AGC gain. -/
def agcSample (g : Nat) (x : Word) : Word :=
  BitVec.ofNat 32 (agcPart g (fld x 15 0) + 2 ^ 16 * agcPart g (fld x 31 16))

/-- The clove that begins what the NCO counts its time from, for a stream's symbol in a clove: the occasion of the first search
configuration that covers it, or the frame outside occasions (R184, R185). -/
def ncoClove (C : Cell) (st clove : Nat) : Nat :=
  let w := C.ctx
  let into (i : Nat) : Nat := (clove + srPeriod w i - srOffset w i) % Nat.max 1 (srPeriod w i)
  match (List.range 3).find? (fun i => srEn w i && decide (st < C.streamFirst + Nat.min 8 (cNstream w)) &&
      decide (into i < srLen w i) && decide (C.start + into i ≤ clove)) with
  | some i => clove - into i
  | none => clove / 80 * 80

/-- Time in ns from there to the start of a symbol. -/
def ncoTau (C : Cell) (st air : Nat) : Nat := air - 125000 * ncoClove C st (air / 125000)

/-- A sample turned by a frequency over a time: by whole turns it stays as it is (R184). -/
def ncoTurn (freq : Int) (tau : Nat) (x : Word) : Word :=
  if freq * tau % 1000000000 = 0 then x else Config.ncoRotate x freq tau

/-- A sample after the AGC gain and the two rotations (R182, R184). -/
def frontEnd (S : Stream) (tau : Nat) (x : Word) : Word :=
  ncoTurn (toSigned 24 S.corr.toNat) tau (ncoTurn (toSigned 24 S.baseNow.toNat) tau (agcSample (agcFactor S.gain) x))

/-- The part of a symbol that a subcarrier of n PRBs arrives in (R182, log entry 12). -/
def partOf (nprb sub : Nat) : Nat := Nat.min 7 (8 * sub / Nat.max 1 (12 * nprb))

/-- A section belongs to a stream's symbol. -/
def sectOf (cell stream slot sym : Nat) (u : UpSect) : Bool :=
  decide (u.cell = cell) && decide (u.stream = stream) && decide (u.slot = slot) && decide (u.sym = sym)

/-- The samples of a section in a part of its symbol that has not passed the front end, with their subcarriers. -/
def partSamples (nprb part : Nat) (u : UpSect) : List (Nat × Word) :=
  if u.passed.getLsbD part then [] else
  (u.raw.mapIdx (fun i x => (12 * u.firstPrb + i, x))).filter (fun x => decide (partOf nprb x.1 = part))

/-- A symbol begins to pass: BASE is that of its start (R184). -/
def beginSym (s : State) (stream slot sym : Nat) : State :=
  modStream s stream (fun S => if S.symNow = some (slot, sym) then S else { S with symNow := some (slot, sym), baseNow := S.base })

/-- A part of a symbol passes the front end with the gain and the frequencies of now, into the cell's buffers (R182, R184). -/
def passPart (s : State) (cell stream slot sym part : Nat) : State :=
  let C := getCell s cell
  let w := C.ctx
  let s := beginSym s stream slot sym
  let S := getStream s stream
  let tau := ncoTau C stream (airTime w slot sym)
  let a := stream - C.streamFirst
  let mine := s.radio.sects.filter (sectOf cell stream slot sym)
  let s := mine.foldl (fun s u =>
    let base := Config.symBuffer w (b2n u.prach) slot sym
    ((partSamples (cNprb w) part u).map (fun x => (sampleAt base (cNstream w) x.1 a, frontEnd S tau x.2))).foldl
      (putSample C.part (cCluster w) false) s) s
  { s with radio := { s.radio with sects := s.radio.sects.map (fun u =>
      if sectOf cell stream slot sym u then { u with passed := u.passed ||| BitVec.ofNat 8 (2 ^ part) } else u) } }

/-- The samples of a part at the output of the gain stage (R182): none of those that were erased. -/
def gainedPart (s : State) (cell stream slot sym part : Nat) : List Word :=
  let g := agcFactor (getStream s stream).gain
  ((s.radio.sects.filter (fun u => sectOf cell stream slot sym u && !u.prach)).flatMap
    (partSamples (cNprb (getCell s cell).ctx) part)).map (fun x => agcSample g x.2)

/-- The gain after an update for a part of mean power p (R182). -/
def agcGain (S : Stream) (p : Int) : Nat :=
  let m : Int := Nat.max 1 S.maxStep
  (clampInt 0 255 ((S.gain : Int) + clampInt (-m) m (-(S.target : Int) - p))).toNat

/-- The sum of the squares of some samples. -/
def squareSum (xs : List Word) : Nat := (xs.foldl (fun n x => n + ciRe x * ciRe x + ciIm x * ciIm x) (0 : Int)).toNat

/-- AGC_UPDATE (R182, R183, R190): a part of a stream's symbol has arrived; its samples pass with the gain as it is, and the loop
makes its update, which a freeze, a part without samples and a write of GAIN in the same cycle each prevent. -/
def execAgcUpdate (stream : Fin 2048) (part : SymPart) (s : State) : Host.Outcome State Fault Refusal :=
  inRun s (fun s =>
    let S := getStream s stream.val
    let C := getCell s S.cell
    if !S.en || !cellWorks C part.slot then s else
    let xs := gainedPart s S.cell stream.val part.slot part.sym.val part.part.val
    let s := passPart s S.cell stream.val part.slot part.sym.val part.part.val
    if !S.agcEn || !S.frozenBy.isEmpty || xs.isEmpty || decide (S.gainAt = s.time.now + 1) then s else
    modStream s stream.val (fun S => { S with
      gain := agcGain S (Config.powerDb (squareSum xs) xs.length), agcAt := s.time.now + 1, agcOld := S.gain }))

/-! ### Search (R185-R190) -/

/-- An occasion starts: it takes the lowest lane that is free (R186). -/
def startOccasion (s : State) (cell cfg : Nat) : State :=
  let C := getCell s cell
  match (List.range 64).find? (fun l => !(getLane s l).busy) with
  | none => s
  | some l => modLane s l (fun L => { L with
      busy := true, format := srFormat C.ctx cfg, stream := C.streamFirst, nstr := Nat.min 8 (cNstream C.ctx) - 1, cell := cell
      cfg := cfg, thresh := srThresh C.ctx cfg, lastClove := s.time.clove + srLen C.ctx cfg - 1 })

/-- The occasions that start at the boundary that has just come (R185). -/
def startOccasions (s : State) : State :=
  let run := (s.radio.cells.filter (fun c => cellRuns s c.2)).map (fun c => c.1)
  run.foldl (fun s c => (List.range 3).foldl (fun s i =>
    let w := (getCell s c).ctx
    if srEn w i && decide (s.time.clove % srPeriod w i = srOffset w i) then startOccasion s c i else s) s) s

/-- OCCASION_END (R183, R187): freezes and corrections of occasions that are over end. -/
def endOccasions (s : State) : State :=
  let gone := (s.radio.lanes.filter (fun l => l.2.busy && decide (l.2.lastClove + 1 = s.time.clove))).map (fun l => l.1)
  let s := gone.foldl (fun s l =>
    let L := getLane s l
    (List.range (L.nstr + 1)).foldl (fun s i => modStream s (L.stream + i) (fun S =>
      let S := { S with frozenBy := S.frozenBy.filter (fun x => decide (x ≠ l)) }
      if S.corrActive && decide (S.corrLane = l) then { S with corr := 0, corrActive := false } else S)) s) s
  let free := (s.radio.lanes.filter (fun l => l.2.busy && decide (l.2.lastClove + 2 ≤ s.time.clove))).map (fun l => l.1)
  free.foldl (fun s l => modLane s l (fun L => { L with busy := false })) s

/-- REPORT_RECORD (R188, R189). -/
def reportRecord (s : State) (lane : Nat) (m : Detection) : State :=
  let L := getLane s lane
  let C := getCell s L.cell
  let n := cRptSize C.ctx
  if (C.rptTail - C.rptHead).toNat = n then noteFlag (modCell s L.cell (fun C => { C with rptOvf := true })) (.rptOvf L.cell) else
  let ws : List Word :=
    [BitVec.ofNat 32 (lane + L.cfg * 2 ^ 6 + 2 ^ 8 * L.cell + 2 ^ 17 * L.preamble.toNat),
     BitVec.ofNat 32 (L.power.toNat + 2 ^ 16 * L.toff.toNat), BitVec.ofNat 32 L.cfo.toNat, m.peak,
     BitVec.ofNat 32 s.time.clove, BitVec.ofNat 32 (s.time.clove / 2 ^ 32), 0, 0]
  let s := wrVa s C.part (cRptAddr C.ctx + C.rptTail.toNat % n * 32) (bytesOfWords ws)
  modCell s L.cell (fun C => { C with rptTail := C.rptTail + 1 })

/-- The power of a detection at the radio unit's input in 0.1 dBm; half a step is rounded freely (R187). -/
def inputPower (p : Int) (S : Stream) (up : Bool) : Int :=
  let x := (p - S.gain) * 5
  (x + (if x % 2 ≠ 0 ∧ up then 1 else 0)) / 2 + toSigned 16 S.cal.toNat

/-- SEARCH_DETECTION (R183, R187, R188, R190). -/
def execSearchDetection (lane : Fin 64) (m : Detection) (s : State) : Host.Outcome State Fault Refusal :=
  inRun s (fun s =>
    let L := getLane s lane.val
    if !L.busy || decide (L.lastClove < s.time.clove) || decide (m.metric ≤ L.thresh) then s else
    let f := takeFree s 1
    let p := inputPower m.power (getStream s L.stream) (decide (f.1 = 1))
    let s := if ((m.power - (getStream s L.stream).gain) * 5) % 2 ≠ 0 then f.2 else s
    let s := noteFlag (if L.valid then noteFlag s (.laneOvf lane.val) else s) (.laneValid lane.val)
    let s := modLane s lane.val (fun L => { L with
      power := BitVec.ofInt 16 p, toff := m.toff, cfo := m.cfo, preamble := m.preamble, ovf := L.ovf || L.valid, valid := true
      clove := BitVec.ofNat 32 s.time.clove })
    let s := (List.range (L.nstr + 1)).foldl (fun s i => modStream s (L.stream + i) (fun S =>
      let S := if S.freezeEn && decide (S.agcAt = s.time.now + 1) && decide (S.gainAt ≠ s.time.now + 1) then
        { S with gain := S.agcOld, agcAt := 0 } else S
      let S := if S.freezeEn && !S.frozenBy.contains lane.val then { S with frozenBy := S.frozenBy ++ [lane.val] } else S
      if !S.corrActive || (decide (S.corrAt = s.time.now) && decide (lane.val < S.corrLane)) then
        { S with corr := -m.cfo, corrLane := lane.val, corrActive := true, corrAt := s.time.now } else S)) s
    reportRecord s lane.val m)

/-! ### Uplink fronthaul (R170, R171, R174, R175) -/

/-- A section of a U-plane message: symbol offset, section number, first PRB, PRBs, payload. -/
structure Sect where
  symInc : Nat
  sect : Nat
  first : Nat
  n : Nat
  data : List Byte
deriving DecidableEq, Repr

/-- The sections of a U-plane message, after its four bytes of radio time. -/
def sectsOf (w : List Word) : Nat → Nat → List Byte → List Sect
  | 0, _, _ => []
  | f + 1, inc, bs =>
    if bs.length < 4 then [] else
    let h := beAt bs 0 4
    let inc := inc + h / 2 ^ 18 % 2
    let n := if h % 256 = 0 then cNprb w else h % 256
    let k := n * prbBytes (cCompUl w)
    { symInc := inc, sect := h / 2 ^ 20, first := h / 2 ^ 8 % 1024, n := n, data := (bs.drop 4).take k } ::
      sectsOf w f inc (bs.drop (4 + k))

/-- The eCPRI messages of a payload: type and body (R170). -/
def ecpriMsgs : Nat → List Byte → List (Nat × List Byte)
  | 0, _ => []
  | f + 1, bs =>
    if bs.length < 4 then [] else
    let n := beAt bs 2 2
    let one := (beAt bs 1 1, (bs.drop 4).take n)
    if beAt bs 0 1 % 2 = 1 then one :: ecpriMsgs f (bs.drop ((4 + n + 3) / 4 * 4)) else [one]

/-- The cell and the place in its flow list of an uplink flow of an endpoint. -/
def upFlow (s : State) (ep eaxc : Nat) : Option (Nat × Nat × Flow) :=
  (s.radio.cells.flatMap (fun c => if c.2.live then
    (c.2.flows.mapIdx (fun i f => (c.1, i, f))).filter (fun x => !x.2.2.down && decide (x.2.2.ep = ep) && decide (x.2.2.eaxc = eaxc))
    else [])).head?

/-- Replace a flow of a cell. -/
def setFlow (s : State) (c i : Nat) (f : Flow) : State := modCell s c (fun C => { C with flows := C.flows.set i f })

/-- The slot that a message's radio time names, as a clove index: the one nearest to now (R177). -/
def slotOf (s : State) (w : List Word) (frame subframe slot : Nat) : Nat :=
  let f := s.time.clove / 80
  let d := toSigned 8 (ofSigned 8 ((frame : Int) - (cellSfn w s.time.clove % 256 : Nat)))
  ((f : Int) + d).toNat * 80 + subframe * 8 + slot * slotCloves w

/-- A U-plane message of a flow (R174). -/
def uplaneRx (s : State) (ep c i : Nat) (f : Flow) (b : List Byte) : State :=
  let C := getCell s c
  let w := C.ctx
  let seq := beAt b 2 1
  let gap := match f.lastSeq with
    | none => false
    | some q => decide (seq ≠ (q + 1) % 256) && decide (seq ≠ q)
  let s := setFlow s c i { f with lastSeq := some seq }
  let s := if gap then modEp s ep (fun e => { e with seqgap := satInc 32 e.seqgap 1 }) else s
  let t := beAt b 4 4
  let slot := slotOf s w (t / 2 ^ 16 % 256) (t / 2 ^ 12 % 16) (t / 2 ^ 6 % 64)
  let y := t % 64
  let air := airTime w slot y
  let E := getEp s ep
  if nowNs s < air + epTa4Min E then modEp s ep (fun e => { e with early := satInc 32 e.early 1 })
  else if air + epTa4Max E < nowNs s then modEp s ep (fun e => { e with late := satInc 32 e.late 1 })
  else if !cellWorks C slot then s
  else
    let st := C.streamFirst + f.idx
    let secs := sectsOf w b.length 0 (b.drop 8)
    let seen (x : Sect) : Bool := s.radio.sects.any (fun u => decide (u.cell = c) && decide (u.ep = ep) && decide (u.eaxc = f.eaxc) &&
      decide (u.slot = slot) && decide (u.sym = y + x.symInc) && decide (u.sect = x.sect))
    if secs.any seen then modEp s ep (fun e => { e with dup := satInc 32 e.dup 1 })
    else
      let s := modEp s ep (fun e => { e with ontime := satInc 32 e.ontime 1 })
      let new : List UpSect := secs.map (fun x =>
        { cell := c, ep := ep, stream := st, slot := slot, sym := y + x.symInc, eaxc := f.eaxc, sect := x.sect, firstPrb := x.first
          nprb := x.n, prach := f.prach, raw := unpackPrbs (cCompUl w) x.n x.data, passed := 0 })
      { s with radio := { s.radio with sects := s.radio.sects ++ new } }

/-- The source MAC of frames that the device sends for a partition: its first address registered on the port. -/
def partMac (s : State) (p port : Nat) : Nat :=
  (((List.range 4).filter (fun i => bit (tabGet 0 (getTmp s p).macs (2 * i + 1)) 31 &&
      (tabGet 0 (getTmp s p).macs (2 * i + 1)).getLsbD (16 + port))).map (fun i =>
    (tabGet 0 (getTmp s p).macs (2 * i)).toNat + 2 ^ 32 * fld (tabGet 0 (getTmp s p).macs (2 * i + 1)) 15 0)).headD 0

/-- An eCPRI message to an endpoint, never concatenated: tagged with its VLAN and PCP 7 (R170, R294, R305). -/
def ecpriFrame (s : State) (p : Nat) (E : Endpoint) (typ : Nat) (body : List Byte) : List Byte :=
  beBytes 6 (epMac E) ++ beBytes 6 (partMac s p (epPort E)) ++ beBytes 2 0x8100 ++ beBytes 2 (7 * 8192 + epVlan E) ++
    beBytes 2 0xAEFE ++ beBytes 1 0x10 ++ beBytes 1 typ ++ beBytes 2 body.length ++ body

/-- Send a message of a one-way delay measurement (R170, log entry 95): its number, action, time stamp and compensation. -/
def delaySend (s : State) (ep id act t : Nat) : State :=
  let E := getEp s ep
  let comp := Config.delayCompensation (epPort E) (epSub E) * 65536
  sendCtrl s (epPort E) (epSub E) (ecpriFrame s E.part E 5
    (beBytes 1 id ++ beBytes 1 act ++ beBytes 6 (t / 1000000000) ++ beBytes 4 (t % 1000000000) ++ beBytes 8 comp))

/-- A message of a one-way delay measurement (R170, log entry 95): a request is answered with the time it came, at once or after its
Follow_Up, and a remote request starts a measurement. -/
def delayRx (s : State) (ep : Nat) (b : List Byte) : State :=
  let id := beAt b 0 1
  let act := beAt b 1 1
  if act = 0 then delaySend s ep id 2 (nowNs s)
  else if act = 1 then modEp s ep (fun e => { e with delayReq := some (id, nowNs s) })
  else if act = 3 then delaySend s ep id 0 (nowNs s)
  else if act = 4 then delaySend (delaySend s ep id 1 0) ep id 5 (nowNs s)
  else if act = 5 then
    (match (getEp s ep).delayReq with
     | some (n, t) => if n = id then delaySend (modEp s ep (fun e => { e with delayReq := none })) ep id 2 t else s
     | none => s)
  else s

/-- FRONTHAUL_RX (R170, R171, R174): the messages of a frame from an endpoint. -/
def fronthaulRx (s : State) (ep : Nat) (pay : List Byte) : State :=
  (ecpriMsgs pay.length pay).foldl (fun s m =>
    if m.1 = 0 then
      (match upFlow s ep (beAt m.2 0 2) with
       | some (c, i, f) => uplaneRx s ep c i f m.2
       | none => s)
    else if m.1 = 5 then delayRx s ep m.2
    else if m.1 = 2 then s
    else modEp s ep (fun e => { e with unsup := satInc 32 e.unsup 1 })) s

/-- The endpoint that a fronthaul frame comes from (R291). -/
def epOf (s : State) (port sub : Nat) (h : EthHdr) : Option Nat :=
  (s.radio.eps.find? (fun e => e.2.live && decide (epPort e.2 = port) && decide (epSub e.2 = sub) &&
    decide (h.tci.isSome) && decide (epVlan e.2 = hdrVlan h) && decide (epMac e.2 = h.src))).map (fun e => e.1)

/-- An on-time message has written the granule of a symbol's buffer that holds an antenna's group of sixteen at a subcarrier
(R118, R175). -/
def symWritten (s : State) (c slot y group sub : Nat) : Bool :=
  s.radio.sects.any (fun u => decide (u.cell = c) && decide (u.slot = slot) && decide (u.sym = y) && !u.prach &&
    decide ((u.stream - (getCell s c).streamFirst) / 16 = group) && decide (12 * u.firstPrb ≤ sub) &&
    decide (sub < 12 * u.firstPrb + u.raw.length))

/-- The subcarriers of a symbol at which no on-time message has written an antenna group's granule. -/
def erasedSubs (s : State) (c slot y group : Nat) : List Nat :=
  (List.range (12 * cNprb (getCell s c).ctx)).filter (fun f => !symWritten s c slot y group f)

/-- RX_WINDOW_CLOSE (R175): what has arrived and not passed the front end passes, and every granule of the stream's antenna group
that no on-time message has written is poisoned. -/
def execRxWindowClose (cell : Fin 512) (stream : Fin 2048) (slot : Nat) (sym : Fin 14) (s : State) :
    Host.Outcome State Fault Refusal :=
  inRun s (fun s =>
    let C := getCell s cell.val
    match C.flows.find? (fun f => !f.down && !f.prach && decide (C.streamFirst + f.idx = stream.val)) with
    | none => s
    | some f =>
      let x : Closed := { cell := cell.val, stream := stream.val, slot := slot, sym := sym.val }
      if !cellWorks C slot || s.radio.closed.contains x ||
        decide (nowNs s < airTime C.ctx slot sym.val + epTa4Max (getEp s f.ep)) then s else
      let s := (List.range 8).foldl (fun s part => passPart s cell.val stream.val slot sym.val part) s
      let base := Config.symBuffer C.ctx 0 slot sym.val
      let group := f.idx / 16
      let s := ((erasedSubs s cell.val slot sym.val group).map (fun i => base + i * antGrans (cNstream C.ctx) + group)).foldl
        (poisonSample C.part (cCluster C.ctx)) s
      { s with radio := { s.radio with closed := s.radio.closed ++ [x] } })

/-! ### Downlink fronthaul (R176, R194) -/

/-- The clove and cycle of a PTP time in ns. -/
def cloveTime (t : Nat) : Nat × Nat := (t / 125000, t % 125000 * 2)

/-- Send one eCPRI message of a downlink flow through its RADIO queue; the answer says whether it passed the checks of R312. A
message whose frame would be longer than 9,216 bytes does not go (R290). -/
def sendEcpri (s : State) (c i : Nat) (f : Flow) (typ y stop : Nat) (body : List Byte) : State × Bool :=
  let C := getCell s c
  let E := getEp s f.ep
  let seq := match f.lastSeq with
    | none => 0
    | some q => (q + 1) % 256
  let bs := ecpriFrame s C.part E typ (beBytes 2 f.eaxc ++ beBytes 1 seq ++ beBytes 1 0x80 ++ body)
  if 9212 < bs.length then (s, false) else
  sendChecked (setFlow s c i { f with lastSeq := some seq }) f.queue (fun v => decide (v = epVlan E))
    { bytes := bs, dl := some (cloveTime stop), radio := some (f.ep, c, y), raw := none }

/-- The windows of the two planes before the air time: the end and the start of the send window (R172, R176). -/
def txMin (cplane : Bool) (E : Endpoint) : Nat := if cplane then epT1aMinCp E else epT1aMinUp E
def txMax (cplane : Bool) (E : Endpoint) : Nat := if cplane then epT1aMaxCp E else epT1aMaxUp E

/-- Now lies in the send window of an endpoint before an air time (R176). -/
def inTxWindow (s : State) (cplane : Bool) (E : Endpoint) (air : Nat) : Bool :=
  decide (air ≤ nowNs s + txMax cplane E) && decide (nowNs s + txMin cplane E ≤ air)

/-- A slot of a cell whose work is to be done (R177, R178, R180). -/
def slotDue (C : Cell) (slot : Nat) : Bool := cellWorks C slot && decide (slot % slotCloves C.ctx = 0)

/-- A section goes out in its window and is known as sent (R176). -/
def sendSect (s : State) (k : TxKey) (f : Flow) (body : List Byte) : State :=
  let air := airTime (getCell s k.cell).ctx k.slot k.sym
  let E := getEp s f.ep
  if !inTxWindow s k.cplane E air then s else
  let r := sendEcpri s k.cell k.flow f (if k.cplane then 2 else 0) k.sym (air - txMin k.cplane E) body
  if r.2 then { r.1 with radio := { r.1.radio with txDone := r.1.radio.txDone ++ [k] } } else r.1

/-- The downlink flow of a cell with a number in its list. -/
def downFlow (C : Cell) (i : Nat) : Option Flow := (C.flows[i]?).bind (fun f => if f.down then some f else none)

/-- The application header of a message: direction, frame, subframe, slot and symbol of a slot of the cell (log entry 35). -/
def radioHead (w : List Word) (up : Bool) (slot y : Nat) : List Byte :=
  beBytes 1 ((if up then 0 else 0x80) + 0x10) ++ beBytes 1 (cellSfn w slot) ++
    beBytes 2 (slot % 80 / 8 * 4096 + slot % 8 / slotCloves w * 64 + y)

/-- The section type and the extensions of a C-plane message are ones that the engine sends for the cell (R170). -/
def cpSupported (w : List Word) (m : CpMsg) : Bool :=
  (decide (m.secType = 1) || decide (m.secType = 3) || (decide (cCat w = 1) && (decide (m.secType = 5) || decide (m.secType = 6)))) &&
    m.exts.all (fun e => decide (e = 1) || decide (e = 4) || decide (e = 5) || decide (e = 6))

/-- DL_CPLANE_SEND (R170, R176): symbol 0 stands for the slot. -/
def execDlCplaneSend (cell : Fin 512) (slot : Nat) (msgs : List CpMsg) (s : State) : Host.Outcome State Fault Refusal :=
  inRun s (fun s =>
    let C := getCell s cell.val
    if !slotDue C slot then s else
    msgs.foldl (fun s m =>
      match downFlow C m.flow with
      | none => s
      | some _ =>
        if !m.ready || m.poisoned || !cpSupported C.ctx m then s else
        match downFlow (getCell s cell.val) m.flow with
        | none => s
        | some f => sendSect s { cell := cell.val, slot := slot, sym := 0, cplane := true, flow := m.flow, sect := m.sect } f
            (radioHead C.ctx m.up slot m.startSym.val ++ beBytes 1 m.nsect.toNat ++ beBytes 1 m.secType ++ m.body)) s)

/-- The bits of a section after scrambling (R194). -/
def scrambled (C : Cell) (slot y : Nat) (f : Flow) (m : DlSection) : List Bool :=
  let n := 12 * m.n * m.order
  let g := Config.scramble C.ctx (cellSfn C.ctx slot) (cellHfn C.ctx slot) (slot % 80 / slotCloves C.ctx) y f.eaxc m.sect
  ((List.range n).map (fun i => (bitsOfBytes m.bits).getD i false)).zipWith xor (goldFrom g.1 g.2 n)

/-- Antennas, or layers, that a cell's downlink flows number. -/
def downWidth (C : Cell) : Nat := (C.flows.filter (fun f => f.down)).foldl (fun n f => Nat.max n (f.idx + 1)) 1

/-- Map a section's bits into the cell's buffer of mapped symbols (R194): poisoned bits leave poisoned granules. -/
def mapSect (s : State) (C : Cell) (slot y : Nat) (f : Flow) (m : DlSection) : State :=
  let w := C.ctx
  let base := Config.symBuffer w 2 slot y
  let pts := qamPoints (cDlAmp w) m.order (12 * m.n) (scrambled C slot y f m)
  (pts.mapIdx (fun i x => (sampleAt base (cLayersDl w) (12 * m.first + i) f.idx, x))).foldl (putSample C.part (cCluster w) m.poisoned) s

/-- The precoded samples of a section, and whether one of their granules is poisoned (R176, R194). -/
def precoded (s : State) (C : Cell) (slot y : Nat) (f : Flow) (m : DlSection) : List Word × Bool :=
  let w := C.ctx
  let cl := getClu s (cCluster w)
  let at_ := (List.range (12 * m.n)).map (fun i => sampleAt (Config.symBuffer w 3 slot y) (downWidth C) (12 * m.first + i) f.idx)
  (at_.map (fun a => BitVec.ofNat 32 (ofLe (rdBytes cl.sram.mem a 4))),
   at_.any (fun a => granPsn cl.sram (a / 64) || !granMine s C.part (cCluster w) (a / 64)))

/-- The payload of a section that is sent, none where its data is poisoned: constellation indices under modulation compression, else
the precoded samples compressed (R194). -/
def sectPayload (s : State) (C : Cell) (slot y : Nat) (f : Flow) (m : DlSection) : Option (List Byte) :=
  if cCompDl C.ctx = 5 then (if m.poisoned then none else some (Config.modCompress m.order (scrambled C slot y f m)))
  else
    let x := precoded s C slot y f m
    if x.2 then none else some (packPrbs (cCompDl C.ctx) m.n x.1)

/-- Section header of a U-plane message (log entry 35). -/
def sectHead (m : DlSection) : List Byte := beBytes 4 (m.sect % 4096 * 2 ^ 20 + m.first % 1024 * 2 ^ 8 + m.n % 256)

/-- DL_UPLANE_SEND (R176, R194). -/
def execDlUplaneSend (cell : Fin 512) (slot : Nat) (sym : Fin 14) (msgs : List DlSection) (s : State) :
    Host.Outcome State Fault Refusal :=
  inRun s (fun s =>
    let C := getCell s cell.val
    if !slotDue C slot then s else
    msgs.foldl (fun s m =>
      match downFlow (getCell s cell.val) m.flow with
      | none => s
      | some f =>
        match m.act with
        | .map => if cCompDl C.ctx = 5 then s else mapSect s C slot sym.val f m
        | .send =>
          if !m.ready then s else
          match sectPayload s C slot sym.val f m with
          | none => s
          | some pay => sendSect s { cell := cell.val, slot := slot, sym := sym.val, cplane := false, flow := m.flow, sect := m.sect } f
              (radioHead C.ctx false slot sym.val ++ sectHead m ++ pay)) s)

/-- TX_LATE (R176): the window of a section has ended, and it has not been sent; symbol 0 stands for the slot in the C-plane. -/
def execTxLate (cell : Fin 512) (slot : Nat) (sym : Fin 14) (part : LateSect) (s : State) : Host.Outcome State Fault Refusal :=
  inRun s (fun s =>
    let C := getCell s cell.val
    let y := if part.cplane then 0 else sym.val
    let k : TxKey := {
      cell := cell.val, slot := slot, sym := y, cplane := part.cplane, flow := part.flow, sect := part.sect }
    match downFlow C part.flow with
    | none => s
    | some f =>
      if !slotDue C slot || s.radio.txDone.contains k || decide (nowNs s + txMin part.cplane (getEp s f.ep) ≤ airTime C.ctx slot y) then s
      else sendMiss { s with radio := { s.radio with txDone := s.radio.txDone ++ [k] } } f.ep cell.val y)

end Sys2Proof.Machine
end

