-- ==== Sys2Proof/Machine/Roce.lean ====
section
/-! DEFINITION. RoCE v2 queue pairs: creation and destruction (R295), send and receive entries (R296, R297), memory regions (R298),
completion queues and errors (R299), congestion notifications (R293), and the QP commands and doorbells. -/

namespace Sys2Proof.Machine

open Sys2Proof

/-! ### Fields -/

def qpPort (q : Qp) : Nat := fld (wd q.params 0) 2 0
def qpSub (q : Qp) : Nat := fld (wd q.params 0) 4 3
def qpTxq (q : Qp) : Nat := fld (wd q.params 0) 19 8
def qpMtu (q : Qp) : Nat := 1024 * 2 ^ fld (wd q.params 0) 7 6
def sqSize (q : Qp) : Nat := 2 ^ fld (wd q.params 1) 3 0
def rqSize (q : Qp) : Nat := 2 ^ fld (wd q.params 1) 7 4
def cqSize (q : Qp) : Nat := 2 ^ fld (wd q.params 1) 11 8
def qpRetry (q : Qp) : Nat := fld (wd q.conn 16) 7 5
def qpRnrRetry (q : Qp) : Nat := fld (wd q.conn 16) 10 8

/-- The connection of a QP. -/
def qpConn (q : Qp) : Conn :=
  { ipv6 := bit (wd q.params 0) 5, smac := fld48 q.conn 0, dmac := fld48 q.conn 2, vlan := fld (wd q.conn 4) 11 0
    pcp := fld (wd q.conn 4) 14 12, dscp := fld (wd q.conn 4) 20 15, sip := q.conn.drop 5, dip := q.conn.drop 9
    hop := if fld (wd q.conn 17) 7 0 = 0 then 64 else fld (wd q.conn 17) 7 0, flow := fld (wd q.conn 17) 27 8 }

/-- Send one packet of a QP through its egress queue and the spoof checks (R296, R312). -/
def qpSend (s : State) (n op : Nat) (psn : BitVec 24) (ackReq : Bool) (ext payload : List Byte) : State :=
  let q := getQp s n
  let bs := roceFrame (qpConn q) (0xC000 + n % 16384) op (fld (wd q.conn 13) 23 0) psn.toNat ackReq ext payload
  (sendChecked s (qpTxq q) (fun _ => false) { bytes := bs, dl := none, radio := none, raw := none, qp := some n }).1

/-! ### Completions (R299) -/

/-- Completions that software has not consumed. -/
def cqUsed (q : Qp) : Nat := (q.cqTail - q.cqHead).toNat

/-- Room for a completion beside those that the entries under way may need (log entry 36). -/
def cqRoom (q : Qp) : Bool := decide (cqUsed q + q.flight.length < cqSize q)

/-- Write one completion-queue entry. -/
def cqWrite (s : State) (n status op : Nat) (recv : Bool) (imm : Option Nat) (bytes : Nat) (id : List Word) : State :=
  let q := getQp s n
  if cqSize q ≤ cqUsed q then s else
  let phase := if q.cqTail.toNat / cqSize q % 2 = 0 then 1 else 0
  let w0 := status + 2 ^ 8 * op + 2 ^ 12 * b2n recv + 2 ^ 13 * b2n imm.isSome + 2 ^ 14 * phase
  let ws : List Word := [BitVec.ofNat 32 w0, BitVec.ofNat 32 n, BitVec.ofNat 32 bytes, BitVec.ofNat 32 (imm.getD 0),
    wd id 0, wd id 1, stamp s, 0]
  modQp (wrVa s q.part (fld48 q.params 6 + q.cqTail.toNat % cqSize q * 32) (bytesOfWords ws)) n
    (fun q => { q with cqTail := q.cqTail + 1 })

/-- A send entry as it stands in its ring. -/
def sqEntry (s : State) (q : Qp) (i : Nat) : List Word :=
  match rdVa s q.part (fld48 q.params 2 + i % sqSize q * 64) 64 with
  | some bs => wordsOf 16 bs
  | none => []

/-- A receive entry as it stands in its ring. -/
def rqEntry (s : State) (q : Qp) (i : Nat) : List Word :=
  match rdVa s q.part (fld48 q.params 4 + i % rqSize q * 32) 32 with
  | some bs => wordsOf 8 bs
  | none => []

/-- The identity of an entry. -/
def seId (w : List Word) : List Word := (w.drop 8).take 2
def reId (w : List Word) : List Word := (w.drop 3).take 2

/-- Complete the entries that are posted and not complete with ABORTED, send entries first, while the completion queue has room. -/
def qpFlush (s : State) (n : Nat) : Nat → State
  | 0 => s
  | f + 1 =>
    let q := getQp s n
    if cqSize q ≤ cqUsed q then s else
    match q.flight with
    | x :: t => qpFlush (cqWrite (modQp s n (fun q => { q with flight := t })) n stAborted (fld (wd x.w 0) 3 0) false none 0 (seId x.w)) n f
    | [] =>
      if q.sqHead ≠ q.sqTail then
        let w := sqEntry s q q.sqHead.toNat
        qpFlush (cqWrite (modQp s n (fun q => { q with sqHead := q.sqHead + 1 })) n stAborted (fld (wd w 0) 3 0) false none 0 (seId w)) n f
      else if q.rqHead ≠ q.rqTail then
        let w := rqEntry s q q.rqHead.toNat
        qpFlush (cqWrite (modQp s n (fun q => { q with rqHead := q.rqHead + 1 })) n stAborted 0 true none 0 (reId w)) n f
      else s

/-- Entries that a QP can hold. -/
def qpFuel (q : Qp) : Nat := sqSize q + rqSize q + q.flight.length + 1

/-- A completion other than OK or ABORTED puts the QP into error (R299). -/
def qpError (s : State) (n status : Nat) : State :=
  let q := getQp s n
  let s := modQp s n (fun q => { q with err := true })
  let s := evPart s q.part 0x0604 [(2, n), (1, status)]
  qpFlush s n (qpFuel q)

/-- Complete a send entry: with SIGNAL, or where it did not end with OK (R299). -/
def sendDone (s : State) (n status bytes : Nat) (w : List Word) : State :=
  let s := if bit (wd w 0) 4 || decide (status ≠ stOk) then cqWrite s n status (fld (wd w 0) 3 0) false none bytes (seId w) else s
  if status = stOk then s else qpError s n status

/-! ### Sending (R296, R297) -/

def seOp (w : List Word) : Nat := fld (wd w 0) 3 0
def seLen (w : List Word) : Nat := fld (wd w 4) 30 0
def seVa (w : List Word) : Nat := fld48 w 2

/-- Packets of a message (R296). -/
def packets (mtu len : Nat) : Nat := Nat.max 1 (ceilDiv len mtu)

/-- A send entry breaks its table. -/
def seBad (w : List Word) : Bool :=
  decide (4 < seOp w) || decide (fld (wd w 0) 31 6 ≠ 0) || decide (fld (wd w 3) 31 16 ≠ 0) || bit (wd w 4) 31 ||
  (w.drop 10).any (fun x => decide (x ≠ 0))

/-- Remote address, key and length of a WRITE or READ. -/
def reth (va rkey len : Nat) : List Byte := beBytes 8 va ++ beBytes 4 rkey ++ beBytes 4 len

/-- The operation number of packet i of n of an entry (log entry 35). -/
def pktOp (op i n : Nat) : Nat :=
  let base := if op ≤ 1 then 0 else 6
  let imm := decide (op = 1) || decide (op = 3)
  if n = 1 then base + (if imm then 5 else 4)
  else if i = 0 then base else if i + 1 < n then base + 1 else base + (if imm then 3 else 2)

/-- Send the packets of a started entry whose sequence numbers are from one on (R296). -/
def sendPackets (s : State) (n : Nat) (x : SendFl) (from_ : BitVec 24) : State :=
  let q := getQp s n
  let mtu := qpMtu q
  let k := packets mtu (seLen x.w)
  let skip := (from_ - x.first).toNat
  if seOp x.w = 4 then
    qpSend s n 0x0C from_ true (reth (fld64 x.w 5 + skip * mtu) (wd x.w 7).toNat (seLen x.w - skip * mtu)) []
  else match rdVa s q.part (seVa x.w) (seLen x.w) with
    | none => s
    | some bs => ((List.range k).filter (fun i => decide (skip ≤ i))).foldl (fun s i =>
        let ext := (if i = 0 ∧ 2 ≤ seOp x.w then reth (fld64 x.w 5) (wd x.w 7).toNat (seLen x.w) else []) ++
          (if i + 1 = k ∧ (seOp x.w = 1 ∨ seOp x.w = 3) then beBytes 4 (wd x.w 1).toNat else [])
        qpSend s n (pktOp (seOp x.w) i k) (x.first + BitVec.ofNat 24 i) (decide (i + 1 = k)) ext ((bs.drop (i * mtu)).take mtu)) s

/-- Why a send entry cannot be carried out: its status, none where it can (R296, R297). -/
def sqBad (s : State) (q : Qp) (w : List Word) : Option Nat :=
  if w = [] then some stBounds else if seBad w then some stBadParam
  else if seOp w = 4 then (if canWrVa s q.part (seVa w) (seLen w) then none else some stBounds)
  else if (rdVa s q.part (seVa w) (seLen w)).isSome then none else some stBounds

/-- The QP goes to its next send entry, and the answer says whether it goes on after it. A wrong entry completes in its turn, when
the entries before it have. -/
def sqStep (s : State) (n : Nat) : State × Bool :=
  let q := getQp s n
  if !q.live || q.err || decide (q.sqHead = q.sqTail) || !cqRoom q then (s, false) else
  let w := sqEntry s q q.sqHead.toNat
  match sqBad s q w with
  | some st =>
    if !q.flight.isEmpty then (s, false)
    else (sendDone (modQp s n (fun q => { q with sqHead := q.sqHead + 1 })) n st 0 w, false)
  | none =>
    if bit (wd w 0) 5 && q.flight.any (fun x => decide (seOp x.w = 4)) then (s, false) else
    let k := packets (qpMtu q) (seLen w)
    let x : SendFl := { idx := q.sqHead.toNat, first := q.sqPsn, last := q.sqPsn + BitVec.ofNat 24 (k - 1), w := w }
    let s := modQp s n (fun q => { q with
      timerAt := if q.flight.isEmpty then s.time.now else q.timerAt, sqHead := q.sqHead + 1, sqPsn := q.sqPsn + BitVec.ofNat 24 k, flight := q.flight ++ [x]
      una := if q.flight.isEmpty then x.first else q.una })
    (sendPackets s n x x.first, true)

/-- The QP runs its send entries in ring order (R297). -/
def runSq (s : State) (n : Nat) : Nat → State
  | 0 => s
  | f + 1 =>
    let r := sqStep s n
    if r.2 then runSq r.1 n f else r.1

/-- Go on with the send queue. -/
def goSq (s : State) (n : Nat) : State := runSq s n (sqSize (getQp s n))

/-- a is at or before b in sequence. -/
def psnLe (a b : BitVec 24) : Bool := decide ((b - a).toNat < 2 ^ 23)

/-- The retransmit timer starts anew (R296). -/
def restartTimer (s : State) (n : Nat) : State := modQp s n (fun q => { q with timerAt := s.time.now })

/-- ACK_TIMEOUT in array cycles (R295, R296). -/
def ackTimeout (q : Qp) : Nat :=
  let v := fld (wd q.conn 16) 4 0
  8192 * 2 ^ (if v = 0 then 14 else v)

/-- Everything up to a sequence number is acknowledged: entries that end there complete, READs only by their data. -/
def ackTo (s : State) (n : Nat) (psn : BitVec 24) : Nat → State
  | 0 => s
  | f + 1 =>
    let q := getQp s n
    match q.flight with
    | [] => s
    | x :: t =>
      if seOp x.w ≠ 4 ∧ psnLe x.last psn then
        let s := modQp s n (fun q => { q with flight := t, una := x.last + 1, retries := 0, rnr := 0, rnrWait := false })
        ackTo (sendDone s n stOk (seLen x.w) x.w) n psn f
      else if seOp x.w ≠ 4 ∧ psnLe q.una psn then
        modQp s n (fun q => { q with una := psn + 1, retries := 0, rnr := 0, rnrWait := false })
      else s

/-- The oldest entry under way fails. -/
def failOldest (s : State) (n status : Nat) : State :=
  match (getQp s n).flight with
  | [] => s
  | x :: t => sendDone (modQp s n (fun q => { q with flight := t })) n status 0 x.w

/-- An acknowledgement packet: its sequence number and syndrome (R296, R298). -/
def ackRx (s : State) (n : Nat) (psn : BitVec 24) (syn : Nat) : State :=
  let fuel := (getQp s n).flight.length + 1
  let s := restartTimer s n
  if syn / 32 = 0 then goSq (ackTo s n psn fuel) n
  else
    let s := ackTo s n (psn - 1) fuel
    if syn / 32 = 1 then
      let q := getQp s n
      if q.flight.isEmpty then s
      else if qpRnrRetry q ≤ q.rnr then failOldest s n stTimeout
      else modQp s n (fun q => { q with rnr := q.rnr + 1, rnrWait := true })
    else if syn = 0x62 then failOldest s n stDenied
    else goSq s n

/-- A read response: its data go to the local buffer (R292, R296). -/
def readRx (s : State) (n : Nat) (psn : BitVec 24) (data : List Byte) : State :=
  let q := getQp s n
  match q.flight.find? (fun x => decide (seOp x.w = 4) && psnLe x.first psn && psnLe psn x.last) with
  | none => s
  | some x =>
    let s := ackTo s n (x.first - 1) (q.flight.length + 1)
    let q := getQp s n
    match q.flight with
    | [] => s
    | y :: t =>
      if y ≠ x ∨ psn ≠ q.una then s else
      let off := (psn - x.first).toNat * qpMtu q
      let bs := data.take (seLen x.w - off)
      if !canWrVa s q.part (seVa x.w + off) bs.length then failOldest s n stBounds else
      if writeLost s q.part (seVa x.w + off) bs.length then failOldest s n stTimeout else
      let s := wrVa s q.part (seVa x.w + off) bs
      let s := modQp s n (fun q => { q with una := psn + 1, retries := 0, rnr := 0, rnrWait := false, timerAt := s.time.now })
      if psn = x.last then goSq (sendDone (modQp s n (fun q => { q with flight := t })) n stOk (seLen x.w) x.w) n else s

/-- A retransmit timeout (R296). -/
def execAckTimeout (qp : BitVec 16) (s : State) : Host.Outcome State Fault Refusal :=
  inRun s (fun s =>
    let n := qp.toNat
    let q := getQp s n
    if !q.live || q.err || q.flight.isEmpty || decide (s.time.now < q.timerAt + ackTimeout q) then s else
    let resend (s : State) : State :=
      (getQp s n).flight.foldl (fun s x => sendPackets s n x (if psnLe x.first q.una ∧ psnLe q.una x.last then q.una else x.first))
        (restartTimer s n)
    if q.rnrWait then resend (modQp s n (fun q => { q with rnrWait := false }))
    else if qpRetry q ≤ q.retries then failOldest s n stTimeout
    else resend (modQp s n (fun q => { q with retries := q.retries + 1 })))

/-! ### Receiving (R297, R298) -/

/-- Answer with an acknowledgement. -/
def sendAck (s : State) (n : Nat) (psn : BitVec 24) (syn : Nat) : State :=
  qpSend s n 0x11 psn false (beBytes 1 syn ++ beBytes 3 (getQp s n).msn.toNat) []

/-- The region of a key that permits an access to a range (R298). -/
def mrOk (s : State) (p : Nat) (rkey va len : Nat) (write : Bool) : Bool :=
  let m : Mr := tabGet {} s.eth.mrs (rkey % 2 ^ 24)
  m.live && decide (m.part = p) && decide (m.rkey.toNat = rkey) && (if write then m.rwrite else m.rread) &&
  decide (m.va ≤ va) && decide (va + len ≤ m.va + m.len)

/-- The receive entry in turn ends with a status; other than OK it puts the QP into error. -/
def recvDone (s : State) (n status : Nat) (imm : Option Nat) (bytes : Nat) : State :=
  let q := getQp s n
  let w := rqEntry s q q.rqHead.toNat
  let s := cqWrite (modQp s n (fun q => { q with rqHead := q.rqHead + 1 })) n status 0 true imm bytes (reId w)
  if status = stOk then s else qpError s n status

/-- The payload of a packet, its extension skipped and its padding and ICRC cut off. -/
def pktBody (b : List Byte) (ext : Nat) : List Byte :=
  let pad := beAt b 1 1 / 16 % 4
  (b.drop (12 + ext)).take (b.length - 12 - ext - pad - 4)

/-- A packet has been taken: the next one is expected; the last one of a request is acknowledged. -/
def took (s : State) (n : Nat) (psn : BitVec 24) (last : Bool) : State :=
  let s := modQp s n (fun q => { q with rqPsn := psn + 1, msn := if last then q.msn + 1 else q.msn })
  if last then sendAck s n psn 0x1F else s

/-- A SEND packet in sequence. -/
def sendRx (s : State) (n op : Nat) (psn : BitVec 24) (b : List Byte) : State :=
  let q := getQp s n
  let first := decide (op = 0) || decide (op = 4) || decide (op = 5)
  let last := decide (2 ≤ op)
  let imm := decide (op = 3) || decide (op = 5)
  let body := pktBody b (if imm then 4 else 0)
  if (first && decide (q.rqHead = q.rqTail)) || (first && !cqRoom q) then sendAck s n psn 0x20
  else
    let w := rqEntry s q q.rqHead.toNat
    let done := if first then 0 else q.rxDone
    if w = [] then recvDone s n stBounds none 0
    else if fld (wd w 1) 31 16 ≠ 0 ∨ bit (wd w 2) 31 ∨ (w.drop 5).any (fun x => decide (x ≠ 0)) then recvDone s n stBadParam none 0
    else if fld (wd w 2) 30 0 < done + body.length ∨ !canWrVa s q.part (fld48 w 0 + done) body.length then recvDone s n stBounds none 0
    else if writeLost s q.part (fld48 w 0 + done) body.length then recvDone s n stTimeout none 0
    else
      let s := wrVa s q.part (fld48 w 0 + done) body
      let s := modQp s n (fun q => { q with rxDone := done + body.length })
      let s := took s n psn last
      if last then recvDone s n stOk (if imm then some (beAt b 12 4) else none) (done + body.length) else s

/-- A WRITE packet in sequence. -/
def writeRx (s : State) (n op : Nat) (psn : BitVec 24) (b : List Byte) : State :=
  let q := getQp s n
  let first := decide (op = 6) || decide (op = 10) || decide (op = 11)
  let last := decide (8 ≤ op)
  let imm := decide (op = 9) || decide (op = 11)
  let ext := (if first then 16 else 0) + (if imm then 4 else 0)
  let body := pktBody b ext
  let va := if first then beAt b 12 8 else q.rxVa
  let total := beAt b 24 4
  if first ∧ !mrOk s q.part (beAt b 20 4) va total true then sendAck s n psn 0x62
  else if imm ∧ (q.rqHead = q.rqTail ∨ !cqRoom q) then sendAck s n psn 0x20
  else
    let left := if first then total else q.rxLeft
    let lost := writeLost s q.part va (body.take left).length
    let s := wrVa s q.part va (body.take left)
    let done := (if first then 0 else q.rxDone) + body.length
    let s := modQp s n (fun q => { q with
      rxVa := va + body.length, rxLeft := left - body.length, rxDone := done
      rxKey := if last then none else if first then some (BitVec.ofNat 32 (beAt b 20 4)) else q.rxKey })
    let s := took s n psn last
    if last && imm then recvDone s n (if lost then stTimeout else stOk) (some (beAt b (12 + ext - 4) 4)) done else s

/-- A READ request: its data go back in packets of the path MTU. -/
def readReq (s : State) (n : Nat) (psn : BitVec 24) (b : List Byte) (fresh : Bool) : State :=
  let q := getQp s n
  let va := beAt b 12 8
  let len := beAt b 24 4
  let mtu := qpMtu q
  let k := packets mtu len
  match (if mrOk s q.part (beAt b 20 4) va len false then rdVa s q.part va len else none) with
  | none => sendAck s n psn 0x62
  | some bs =>
    let s := if fresh then modQp s n (fun q => { q with rqPsn := psn + BitVec.ofNat 24 k, msn := q.msn + 1 }) else s
    (List.range k).foldl (fun s i =>
      let op := if k = 1 then 0x10 else if i = 0 then 0x0D else if i + 1 < k then 0x0E else 0x0F
      let ext := if op = 0x0E then [] else beBytes 1 0x1F ++ beBytes 3 (getQp s n).msn.toNat
      qpSend s n op (psn + BitVec.ofNat 24 i) false ext ((bs.drop (i * mtu)).take mtu)) s

/-- CONGESTION_NOTIFICATION (R293): the rate is halved, at most once in 50 µs. -/
def cnpRx (s : State) (n : Nat) : State :=
  let q := getQp s n
  let full := 100000 * subRate (getPort s (qpPort q))
  let may := match q.cutAt with
    | none => true
    | some t => decide (t + 100000 ≤ s.time.now)
  let s := modQp s n (fun q => { q with rateAt := s.time.now })
  if may then modQp s n (fun q => { q with rate := some ((q.rate.getD full) / 2), cutAt := some s.time.now }) else s

/-- ROCE_PACKET_RX (R292, R296-R298): the base transport header and what follows it. -/
def rocePacketRx (s : State) (n : Nat) (b : List Byte) : State :=
  let q := getQp s n
  let op := beAt b 0 1
  let psn := BitVec.ofNat 24 (beAt b 9 3)
  if q.err ∨ b.length < 16 then s
  else if op = 0x81 then cnpRx s n
  else if op = 0x11 then ackRx s n psn (beAt b 12 1)
  else if 0x0D ≤ op ∧ op ≤ 0x10 then readRx s n psn (pktBody b (if op = 0x0E then 0 else 4))
  else if 0x0C < op then s
  else if psn = q.rqPsn then
    (if op ≤ 5 then sendRx s n op psn b else if op ≤ 11 then writeRx s n op psn b else readReq s n psn b true)
  else if psnLe q.rqPsn psn then sendAck s n q.rqPsn 0x60
  else if op = 0x0C then readReq s n psn b false
  else sendAck s n (q.rqPsn - 1) 0x1F

/-- RATE_INCREASE (R293): 55 µs have passed since the last notification or raise. -/
def execRateIncrease (qp : BitVec 16) (s : State) : Host.Outcome State Fault Refusal :=
  inRun s (fun s =>
    let q := getQp s qp.toNat
    let full := 100000 * subRate (getPort s (qpPort q))
    if !q.live || decide (s.time.now < q.rateAt + 110000) then s else
    modQp s qp.toNat (fun q => { q with rateAt := s.time.now, rate := match q.rate with
      | none => none
      | some r => if full ≤ r + full / 20 then none else some (r + full / 20) }))

/-! ### Doorbells (R297, R301) -/

/-- A doorbell that names another partition's QP or an index too far ahead is counted (R297). -/
def dbBad (s : State) (p : Nat) : State := modPart s p (fun P => { P with dbBad := satInc 16 P.dbBad 1 })

/-- The QP of a doorbell, if the partition has it. -/
def dbQp (s : State) (p : Nat) (v : Word) : Option Nat :=
  let n := fld v 15 0
  if (getQp s n).live && decide ((getQp s n).part = p) then some n else none

/-- NET_SQ_DB. -/
def execNetSqDb (p : Fin 64) (v : Word) (s : State) : Host.Outcome State Fault Refusal :=
  inRun s (fun s =>
    if !(getPart s p.val).live then s else
    match dbQp s p.val v with
    | none => dbBad s p.val
    | some n =>
      let q := getQp s n
      let t := BitVec.ofNat 16 (fld v 31 16)
      if sqSize q < (t - (q.sqHead - BitVec.ofNat 16 q.flight.length)).toNat then dbBad s p.val
      else
        let s := modQp s n (fun q => { q with sqTail := t })
        if q.err then qpFlush s n (qpFuel q) else goSq s n)

/-- NET_RQ_DB. -/
def execNetRqDb (p : Fin 64) (v : Word) (s : State) : Host.Outcome State Fault Refusal :=
  inRun s (fun s =>
    if !(getPart s p.val).live then s else
    match dbQp s p.val v with
    | none => dbBad s p.val
    | some n =>
      let q := getQp s n
      let t := BitVec.ofNat 16 (fld v 31 16)
      if rqSize q < (t - q.rqHead).toNat then dbBad s p.val
      else
        let s := modQp s n (fun q => { q with rqTail := t })
        if q.err then qpFlush s n (qpFuel q) else s)

/-- NET_CQ_DB: the consumer index advances, and a QP that had stopped takes entries again (R299). -/
def execNetCqDb (p : Fin 64) (v : Word) (s : State) : Host.Outcome State Fault Refusal :=
  inRun s (fun s =>
    if !(getPart s p.val).live then s else
    match dbQp s p.val v with
    | none => dbBad s p.val
    | some n =>
      let q := getQp s n
      let h := BitVec.ofNat 16 (fld v 31 16)
      if cqSize q < (q.cqTail - h).toNat then dbBad s p.val
      else
        let s := modQp s n (fun q => { q with cqHead := h })
        if q.err then qpFlush s n (qpFuel q) else goSq s n)

/-! ### Commands (R295, R298) -/

/-- The partition of the ring that a partition command came by. -/
def netP (r : RingId) : Nat := (ringOwner r).getD 0

/-- The connection block of NET_QP_CREATE. -/
def connBlock (s : State) (r : RingId) (k : Pkt) : Option (List Word) := (rdVa s (netP r) (fld48 k.w 8) 128).map (wordsOf 32)

/-- Reserved fields and ranges of a connection block (R295). -/
def connOk (ipv6 : Bool) (w : List Word) : Bool :=
  decide (fld (wd w 1) 31 16 = 0) && decide (fld (wd w 3) 31 16 = 0) && decide (fld (wd w 4) 31 21 = 0) &&
  decide (fld (wd w 4) 14 12 ≤ 6) && decide (fld (wd w 13) 31 24 = 0) && decide (fld (wd w 14) 31 24 = 0) &&
  decide (fld (wd w 15) 31 24 = 0) && decide (fld (wd w 16) 31 11 = 0) && decide (fld (wd w 16) 4 0 ≤ 20) &&
  decide (fld (wd w 17) 31 28 = 0) && (w.drop 18).all (fun x => decide (x = 0)) &&
  (ipv6 || ((List.range 3).all (fun i => decide (wd w (6 + i) = 0)) && (List.range 3).all (fun i => decide (wd w (10 + i) = 0))))

/-- The first QP number that is free: no packet of a destroyed QP that had it is in flight (R295). -/
def freeQp (s : State) : Option Nat := ((List.range 65536).drop 2).find? (fun n => !(getQp s n).live && !qpInFlight s n)

/-- NET_QP_CREATE's checks (R295). -/
def qpCreateErrs (r : RingId) (k : Pkt) (s : State) : List Nat :=
  let p := netP r
  let w := k.w
  let sq := fld (wd w 1) 3 0
  let rq := fld (wd w 1) 7 4
  let cq := fld (wd w 1) 11 8
  let q := getQ s (fld (wd w 0) 19 8)
  let port := fld (wd w 0) 2 0
  let ring (i n : Nat) : Bool := (rdVa s p (fld48 w i) n).isSome && canWrVa s p (fld48 w i) n
  errsOf
    [ (decide (fld (wd w 0) 31 20 ≠ 0) || decide (fld (wd w 1) 31 12 ≠ 0) || decide (fld (wd w 3) 31 16 ≠ 0) ||
        decide (fld (wd w 5) 31 16 ≠ 0) || decide (fld (wd w 7) 31 16 ≠ 0) || decide (fld (wd w 9) 31 16 ≠ 0), stBadParam),
      (decide (sq < 4) || decide (12 < sq) || decide (rq < 4) || decide (12 < rq) || decide (cq < 4) || decide (13 < cq), stBadParam),
      (decide (fld (wd w 0) 7 6 = 3), stBadParam),
      (decide (fld48 w 2 % 4096 ≠ 0) || decide (fld48 w 4 % 4096 ≠ 0) || decide (fld48 w 6 % 4096 ≠ 0), stBadParam),
      (!(q.en && !q.radio && decide (q.part.toNat = p) && decide (q.port.toNat = port) && decide (q.sub.toNat = fld (wd w 0) 4 3)),
        stBadParam),
      (match connBlock s r k with
       | none => false
       | some c => !connOk (bit (wd w 0) 5) c || !macOk s p port (fld48 c 0) || !vlanOk s p (fld (wd c 4) 11 0), stBadParam),
      ((freeQp s).isNone, stNoResource),
      ((connBlock s r k).isNone || !ring 2 (2 ^ sq * 64) || !ring 4 (2 ^ rq * 32) || !ring 6 (2 ^ cq * 32), stBounds) ]

/-- NET_QP_CREATE (R295). -/
def execNetQpCreate (r : RingId) (k : Pkt) (s : State) : Host.Outcome State Fault Refusal :=
  inRun s (fun s => fwRun s r 0x60 k [] (qpCreateErrs r k) (fun s =>
    let n := (freeQp s).getD 0
    let c := (connBlock s r k).getD []
    let q : Qp :=
      { live := true, part := netP r, params := k.w, conn := c, sqPsn := BitVec.ofNat 24 (fld (wd c 14) 23 0)
        rqPsn := BitVec.ofNat 24 (fld (wd c 15) 23 0), rateAt := s.time.now }
    .done (modQp s n (fun _ => q)) stOk [BitVec.ofNat 32 n]))

/-- Destroy a QP: every posted entry completes with ABORTED (R295). -/
def dropQp (s : State) (n : Nat) : State := modQp (qpFlush s n (qpFuel (getQp s n))) n (fun _ => {})

/-- NET_QP_DESTROY (R295): it completes when no packet of the QP remains in flight. -/
def execNetQpDestroy (r : RingId) (k : Pkt) (s : State) : Host.Outcome State Fault Refusal :=
  inRun s (fun s =>
    let n := fld (wd k.w 0) 15 0
    fwRun s r 0x61 k [] (fun s => errsOf [ (!((getQp s n).live && decide ((getQp s n).part = netP r)), stBadParam) ])
      (fun s =>
        let s := settleNet (dropQp s n)
        if qpInFlight s n then .wait s (.qpGone n) [] else .done s stOk []))

/-- The first region that is free. -/
def freeMr (s : State) : Option Nat := (List.range 65536).find? (fun n => !(tabGet ({} : Mr) s.eth.mrs n).live)

/-- Every page of a range is mapped, and writable where that is asked (R298). -/
def mapped (s : State) (p va len : Nat) (write : Bool) : Bool :=
  decide (va + len ≤ 2 ^ 48) && (runsOf va len).all (fun x => (pteOf s p x.1).v && (!write || (pteOf s p x.1).w))

/-- NET_MR_REG's checks (R298). -/
def mrRegErrs (r : RingId) (k : Pkt) (s : State) : List Nat :=
  let va := fld48 k.w 0
  let len := fld64 k.w 2
  errsOf [ (decide (va % 4096 ≠ 0) || decide (fld (wd k.w 1) 31 16 ≠ 0), stBadParam), ((freeMr s).isNone, stNoResource),
    (decide (2 ^ 48 < va + len) || !mapped s (netP r) va len (bit (wd k.w 4) 0), stBounds) ]

/-- NET_MR_REG (R298): the key's tag is a free value. -/
def execNetMrReg (r : RingId) (k : Pkt) (s : State) : Host.Outcome State Fault Refusal :=
  inRun s (fun s => fwRun s r 0x62 k [] (mrRegErrs r k) (fun s =>
    let n := (freeMr s).getD 0
    let f := takeFree s 8
    let key := BitVec.ofNat 32 (n + 2 ^ 24 * f.1.toNat)
    let m : Mr :=
      { live := true, part := netP r, va := fld48 k.w 0, len := fld64 k.w 2, rwrite := bit (wd k.w 4) 0, rread := bit (wd k.w 4) 1
        rkey := key }
    .done { f.2 with eth := { f.2.eth with mrs := tabSet {} f.2.eth.mrs n m } } stOk [key]))

/-- NET_MR_DEREG (R298): the region is gone at once, and the command completes when no access under it remains in flight. -/
def execNetMrDereg (r : RingId) (k : Pkt) (s : State) : Host.Outcome State Fault Refusal :=
  inRun s (fun s =>
    let key := wd k.w 0
    let n := fld key 23 0
    fwRun s r 0x63 k [] (fun s =>
      let m : Mr := tabGet {} s.eth.mrs n
      errsOf [ (!(m.live && decide (m.part = netP r) && decide (m.rkey = key)), stBadParam) ])
      (fun s =>
        let s : State := { s with eth := { s.eth with mrs := tabSet {} s.eth.mrs n {} } }
        if keyInUse s key then .wait s (.mrGone key) [] else .done s stOk []))

end Sys2Proof.Machine
end

