-- ==== Sys2Proof/Machine/LinkCore.lean ====
section
/-! DEFINITION. What a chip link carries: messages and their channels, credits (R252), the replay buffer (R253) and the nonces and
keys of flits (R263, R400). -/

namespace Sys2Proof.Machine

open Sys2Proof

/-- The virtual channel of a message (R252). -/
def msgVc : Msg → Nat
  | .request _ => 0
  | .response _ _ => 1
  | .noticeAck _ _ => 1
  | .notice _ _ _ => 2
  | .marker _ => 2
  | .twin _ _ _ => 2
  | .freeze _ _ _ => 2
  | .retrain _ _ => 2

/-- The bytes of data that a message carries. -/
def msgBytes : Msg → Nat
  | .request q => q.data.length
  | .response _ r => r.data.length
  | _ => 0

/-- The credits of 256 bytes that a message of n bytes takes (R252, log entry 97). -/
def creditsOf (n : Nat) : Nat := Nat.max 1 (ceilDiv n 256)

/-- Credits in use beyond the sixteen that each channel keeps (R252). -/
def sharedUse (t : Tab Nat) : Nat := (tabGet 0 t 0 - 16) + (tabGet 0 t 1 - 16) + (tabGet 0 t 2 - 16)

/-- A buffer of 512 credits, sixteen of them kept for each channel, has room for n more on a channel (R252). -/
def hasCredit (t : Tab Nat) (vc n : Nat) : Bool := decide (sharedUse (tabMod 0 t vc (fun x => x + n)) ≤ 464)

/-- The nonce of a flit: the direction bit, 31 zeros and the flit counter; the leader sends in direction 0 (R263, log entry 97). -/
def flitNonce (k : Link) : BitVec 96 := BitVec.ofNat 96 (2 ^ 95 * b2n (!k.leader) + k.txCtr % 2 ^ 64)

/-- The key under which a link sends, and the keys that its receiver keeps (R263, R400). -/
def sendKey (k : Link) : Option (BitVec 256) := k.prk.map (fun r => Config.linkKey r (!k.leader) k.txEpoch)
def receiveKeys (k : Link) : List (BitVec 256) := match k.prk with
  | some r => [Config.linkKey r k.leader k.rxEpoch, Config.linkKey r k.leader (k.rxEpoch + 1)]
  | none => []

/-- A message may leave on a link: it is up and has a key, its flit counter stays below 2^48, and the partner has granted the credits
(R252, R257, R263). -/
def mayFlit (k : Link) (m : Msg) : Bool :=
  decide (k.st = 3) && k.prk.isSome && decide (k.txCtr + 1 < 2 ^ 48) && hasCredit k.txUsed (msgVc m) (creditsOf (msgBytes m))

/-- The flit in which a link sends a message now. -/
def flitOf (k : Link) (m : Msg) : TxFlit :=
  { seq := k.txSeq, credits := creditsOf (msgBytes m), nonce := flitNonce k, phase := decide (k.txEpoch % 2 = 1), msg := m }

/-- Send a message as a flit, and hold it in the replay buffer (R252, R253). -/
def putFlit (s : State) (l : Nat) (m : Msg) : State :=
  let f := flitOf (getLink s l) m
  emit (modLink s l (fun k => { k with
    txSeq := k.txSeq + 1, txCtr := k.txCtr + 1, replay := k.replay ++ [f]
    txUsed := tabMod 0 k.txUsed (msgVc m) (fun x => x + f.credits) })) (.flit l f)

/-- Send what waits on a link, each channel in its order (R252). -/
def pumpMsgs (l : Nat) : List Msg → List Nat → State → State
  | [], _, s => s
  | m :: r, held, s =>
    if held.contains (msgVc m) || !mayFlit (getLink s l) m then
      pumpMsgs l r (msgVc m :: held) (modLink s l (fun k => { k with txq := k.txq ++ [m] }))
    else pumpMsgs l r held (putFlit s l m)

/-- Send what may leave on a link now. -/
def pumpLink (s : State) (l : Nat) : State := pumpMsgs l (getLink s l).txq [] (modLink s l (fun k => { k with txq := [] }))

/-- Send a message on a path: 24 is this chip itself, which takes it at once; without a path it goes nowhere. -/
def sendOn (s : State) (path : Nat) (m : Msg) : State :=
  if path = 24 then emit s (.deliver m)
  else if 24 < path then s
  else pumpLink (modLink s path (fun k => { k with txq := k.txq ++ [m] })) path

/-- A message leaves the receive buffer of the link on which it came: its credits are granted again (R252). -/
def freeRx (s : State) (link vc bytes : Nat) : State :=
  let n := Nat.min (creditsOf bytes) (tabGet 0 (getLink s link).rxUsed vc)
  if n = 0 then s
  else emit (modLink s link (fun k => { k with rxUsed := tabMod 0 k.rxUsed vc (fun x => x - n) })) (.credit link vc n)

/-- The partner has received every flit below n (R253). -/
def flitsAcked (k : Link) (n : Nat) : Link := { k with replay := k.replay.filter (fun f => decide (n ≤ f.seq)) }

/-- The partner grants credits again (R252). -/
def creditsFreed (k : Link) (l : List Nat) : Link :=
  { k with txUsed := (List.range 3).foldl (fun t v => tabMod 0 t v (fun x => x - l.getD v 0)) k.txUsed }

/-- A link that goes down in a state: no lane is in use, its keys go, and what waited on it or for an acknowledgement is dropped
(R257, R263, R285). -/
def linkDown (k : Link) (st : Nat) : Link :=
  { k with
    st := st, width := 0, lanesUp := 0, locked := 0xF, ownReq := false, charged := 0, badTags := 0, prk := none
    rxUsed := [], txUsed := [], replay := [], txq := [], widthNow := false, partnerW := none }

/-- Array cycles in one second. -/
abbrev secondCycles : Nat := 2000000000

/-- Flits replayed in the last second (R287). -/
def recentReplays (s : State) (k : Link) : List (Nat × Nat) := k.replayed.filter (fun x => decide (s.time.now < x.1 + secondCycles))

/-- Send every flit from number n on again, and count them (R253, R287, R423). -/
def replayFrom (s : State) (l n : Nat) : State :=
  let fs := (getLink s l).replay.filter (fun f => decide (n ≤ f.seq))
  if fs.isEmpty then s else
  let s := modLink s l (fun k => { k with replayed := recentReplays s k ++ [(s.time.now, fs.length)] })
  let s := { s with health := { s.health with replays := satInc 32 s.health.replays fs.length } }
  fs.foldl (fun s f => emit s (.flit l f)) s

/-- LINK_CNT.REPLAYS (R287). -/
def replayCount (s : State) (k : Link) : Nat := Nat.min 65535 ((recentReplays s k).foldl (fun n x => n + x.2) 0)

end Sys2Proof.Machine
end

