-- ==== Sys2Proof/Machine/MemCore.lean ====
section
/-! DEFINITION. Memory errors (R407-R412), disturbances of a run (R238), twin signatures (R244), global addresses and the
issue of fabric requests (R265-R275, R285). -/

namespace Sys2Proof.Machine

open Sys2Proof

/-! ### Disturbances and signatures -/

/-- Record a disturbance of the run of a partition (R238). -/
def disturb (s : State) (p bitNo : Nat) : State :=
  let P := getPart s p
  match P.launch with
  | none => s
  | some L =>
    if !L.running || L.ended then s else
    let s1 := modPart s p (fun P => { P with
      disturb := P.disturb ||| BitVec.ofNat 6 (2 ^ bitNo)
      launch := some { L with distNow := true } })
    if P.disturb = 0 then evPart s1 p 0x0402 [(1, bitNo), (8, s.time.clove)] else s1

/-- Record a disturbance of every run that uses a chip link (R238). -/
def disturbLink (s : State) (link bitNo : Nat) : State :=
  (liveParts s).foldl (fun s p =>
    match (getPart s p).launch with
    | some L => if L.links.contains link then disturb s p bitNo else s
    | none => s) s

/-- A granule written for a run enters the sum of its cluster (R244), and the run's last write so far is now (R242). The tag's
space is 0 virtual, 1 cluster SRAM, 2 fabric. -/
def sigAdd (s : State) (p c : Nat) (w : Writer) (space addr : Nat) (data : GranuleBits) (psn : Bool) : State :=
  if !writesForRun (getPart s p) c w then s else
  let h := crc64 (leBytes 8 (2 ^ 62 * space + addr) ++ leBytes 64 data.toNat ++ [BitVec.ofNat 8 (b2n psn)])
  modPart (runWrote s p c w) p (fun P => { P with launch := P.launch.map (fun L => { L with sums := tabMod 0 L.sums c (fun x => x + h) }) })

/-! ### Memory errors -/

/-- The pseudo-channel of a physical page (R418, log entry 25). -/
def pcOfPage (page : Nat) : Nat := page / 384

/-- A memory event on a pseudo-channel disturbs the runs that use it (R238). -/
def disturbPc (s : State) (pc : Nat) : State :=
  (liveParts s).foldl (fun s p =>
    let P := getPart s p
    if P.pcs.any (fun x => decide (x.1 ≤ pc) && decide (pc < x.1 + x.2)) || P.pages.any (fun g => decide (pcOfPage g = pc)) then
      disturb s p 5 else s) s

/-- The partition that owns a physical page. -/
def pageOwner (s : State) (page : Nat) : Option Nat :=
  match tabGet 0 s.hbm.owner page with
  | 0 => none
  | n + 1 => some n

/-- A page leaves the pool until the next power-on reset (R409). -/
def retirePage (s : State) (page : Nat) : State :=
  if tabGet false s.hbm.pageRetired page then s else
  let h : Hbm := { s.hbm with
    pageRetired := tabSet false s.hbm.pageRetired page true
    pageMarked := tabSet false s.hbm.pageMarked page false }
  evPool { s with hbm := h } 0x0706 [(2, pcOfPage page), (4, page)]

/-- An uncorrectable granule of HBM: its poison bit is written, its data stay, and its page is marked or retired (R409, R410). -/
def hbmUe (s : State) (addr : Nat) : State :=
  let page := addr / pageBytes
  let s := disturbPc { s with hbm := { s.hbm with m := setGranPsn s.hbm.m (addr / 64) true } } (pcOfPage page)
  match pageOwner s page with
  | none => retirePage s page
  | some p =>
    let idx := (getPart s p).pages.findIdx (fun x => decide (x = page))
    let items := [(1, p), (4, idx), (4, addr % pageBytes / 64 * 64)]
    let s := { s with hbm := { s.hbm with pageMarked := tabSet false s.hbm.pageMarked page true } }
    evPool (evPart s p 0x0704 items) 0x0704 items

/-- Array cycles in one hour. -/
abbrev hourCycles : Nat := 7200000000000

/-- A corrected read of HBM (R407): the pseudo-channel's count within the last hour, which begins anew once it is reported (log entry
99). It is read again and written back, which may change a run's timing (R238, log entry 96). -/
def hbmCe (s : State) (addr : Nat) : State :=
  let pc := pcOfPage (addr / pageBytes)
  let s := disturbPc s pc
  let s := { s with health := { s.health with hbmCe := satInc 32 s.health.hbmCe 1 } }
  let l : List Nat := (tabGet [] s.hbm.ceAt pc).filter (fun t => decide (s.time.now ≤ t + hourCycles)) ++ [s.time.now]
  let s := { s with hbm := { s.hbm with ceAt := tabSet [] s.hbm.ceAt pc (if 1024 ≤ l.length then [] else l) } }
  if 1024 ≤ l.length then evPool s 0x0703 [(2, pc), (4, l.length)] else s

/-- The partition that holds a byte of a cluster's SRAM. -/
def sramHolder (s : State) (c off : Nat) : Option Nat :=
  (liveParts s).find? (fun p =>
    let h := getHold s p c
    h.sram.getLsbD (off / 2 ^ 18) || (decide (48 ≤ off / 2 ^ 18) && h.lss.getLsbD (off / 2 ^ 18 - 48)))

/-- An uncorrectable word of cluster SRAM poisons its granule (R412). -/
def sramUe (s : State) (c off : Nat) : State :=
  let s1 := modClu s c (fun cl => { cl with sram := setGranPsn cl.sram (off / 64) true })
  match sramHolder s c off with
  | some p => evPart s1 p 0x0705 [(1, c), (4, off / 64 * 64)]
  | none => s1

/-- An uncorrectable word of a weight buffer poisons its granule (R412); its offset is counted within the buffer. -/
def wbUe (s : State) (c a off : Nat) : State :=
  let l := if a = 16 then (getClu s c).spareFor.toNat else a
  let s1 := modPa s c a (fun pa => { pa with wb := setGranPsn pa.wb (off / 64) true })
  match (getLa s c l).part with
  | some p => evPart s1 p 0x0705 [(1, c), (4, off / 64 * 64)]
  | none => s1

/-! ### Global addresses and paths (R265, R266, R271) -/

/-- The node of a global address. -/
def fabNode (ga : Nat) : Nat := ga / 2 ^ 44

/-- The offset of a global address within its node. -/
def fabOff (ga : Nat) : Nat := ga % 2 ^ 44

/-- A global address that no node exposes (R265, R266). -/
def fabBad (ga : Nat) : Bool := decide (64 ≤ fabNode ga) || decide (2 ^ 40 ≤ fabOff ga)

/-- This chip's fabric node. -/
def ownNode (s : State) : Nat := s.fab.node.toNat

/-- A link that is up, or that is in a fast retrain and holds its traffic (R257). -/
def linkAlive (s : State) (l : Nat) : Bool := decide ((getLink s l).st = 3) || decide ((getLink s l).st = 4)

/-- The direct links to a tray mate that are up (R251, R271). -/
def directLinks (s : State) (node : Nat) : List Nat :=
  if node / 4 = ownNode s / 4 then
    (List.range 6).filter (fun l => linkAlive s l && !(getLink s l).isSwitch && decide ((getLink s l).node = node))
  else []

/-- The links of the switch planes that reach a node (R251, R271, R285). -/
def planeLinks (s : State) (node : Nat) : List Nat :=
  ((List.range 18).filter (fun i => linkAlive s (6 + i) && !s.fab.pathDown.contains (64 * i + node))).map (fun i => 6 + i)

/-- The paths to a node, as links; 24 stands for this chip itself. -/
def pathsTo (s : State) (node : Nat) : List Nat :=
  if node = ownNode s then [24]
  else if (directLinks s node).isEmpty then planeLinks s node else directLinks s node

/-- The path of a line: the one with the highest hash, the first of equals; 25 where there is none (R271, log entry 18). -/
def bestPath (line : Nat) : List Nat → Nat
  | [] => 25
  | [a] => a
  | a :: b :: t =>
    let r := bestPath line (b :: t)
    if Config.pathHash line r ≤ Config.pathHash line a then a else r

/-- The path of a message to a chip: a direct link whose partner it is, else a switch plane (R243). DESIGN CHOICE: of several, that of
line 0 (log entry 97). -/
def chipPath (s : State) (chip : BitVec 16) : Nat :=
  let ds := (List.range 24).filter (fun l => linkAlive s l && !(getLink s l).isSwitch && decide ((getLink s l).partner = chip))
  bestPath 0 (if ds.isEmpty then (List.range 24).filter (fun l => linkAlive s l && (getLink s l).isSwitch) else ds)

/-- The path of a global address now. -/
def pathOf (s : State) (ga : Nat) : Nat := bestPath (ga / 64) (pathsTo s (fabNode ga))

/-! ### The cache (R274-R276) -/

/-- The cached line of a partition, if there is one. -/
def cacheHit (s : State) (p line : Nat) : Option CacheLine :=
  if s.fab.cacheEn then s.fab.cache.find? (fun x => decide (x.part = p) && decide (x.addr = line)) else none

/-- Lines the cache holds at most. -/
abbrev cacheLines : Nat := 262144

/-- Keep a line; the oldest goes where the cache is full (log entry 26). -/
def cacheKeep (s : State) (x : CacheLine) : State :=
  if !s.fab.cacheEn then s else
  let l := s.fab.cache.filter (fun y => !(decide (y.part = x.part) && decide (y.addr = x.addr))) ++ [x]
  { s with fab := { s.fab with cache := l.drop (l.length - cacheLines) } }

/-- Remove a partition's cached lines that a test picks. -/
def cacheDrop (s : State) (p : Nat) (pick : Nat → Bool) : State :=
  { s with fab := { s.fab with cache := s.fab.cache.filter (fun x => !(decide (x.part = p) && pick x.addr)) } }

/-! ### Issue (R273) -/

/-- The room that a request with n bytes of data takes in the retransmit store: at least one line (log entry 98). -/
def storeSize (n : Nat) : Nat := Nat.max 64 n

/-- The room that the retransmit store has given out. -/
def storeUse (s : State) : Nat := s.fab.outst.foldl (fun n o => n + storeSize o.req.data.length) 0

/-- Is there room for a request with n bytes of data in the retransmit store of 4 MiB? -/
def storeRoom (s : State) (n : Nat) : Bool := decide (storeUse s + storeSize n ≤ 4194304)

/-- Is there room for k requests of at most one line each? -/
def storeRoomFor (s : State) (k : Nat) : Bool := decide (k = 0) || storeRoom s (64 * k)

/-- Traffic of partition p passes on a link: it is foreign to every run of another partition that uses the link (R238). Traffic of
another chip's partition of the same number counts as the run's own (log entry 96). -/
def linkTraffic (s : State) (p link : Nat) : State :=
  (liveParts s).foldl (fun s q =>
    if q = p then s else match (getPart s q).launch with
      | some L => if L.links.contains link then disturb s q 4 else s
      | none => s) s

/-- A run of p of this chip uses a link. -/
def useLink (s : State) (p link : Nat) : State :=
  linkTraffic (modPart s p (fun P => { P with
    launch := P.launch.map (fun L => if L.running && !L.links.contains link then { L with links := L.links ++ [link] } else L) })) p link

/-- A request on its way: it takes the next sequence number to its node, stays in the retransmit store, goes to the router
and, where it writes, removes its source's cached copy of the line (R271, R272, R273, R275). -/
def issueFab (s : State) (o : FabOut) : State :=
  let ga := o.req.addr.toNat
  let node := fabNode ga
  let key := 64 * o.req.part.val + node
  let q : FabReq := { o.req with seq := BitVec.ofNat 32 (tabGet 0 s.fab.seqTx node), writes := tabGet 0 s.fab.wrTx key }
  let path := pathOf s ga
  let o1 : FabOut := { o with req := q, dst := node, issued := s.time.now, path := path, noPathAt := s.time.now }
  let s := { s with fab := { s.fab with
    seqTx := tabMod 0 s.fab.seqTx node (fun n => (n + 1) % 2 ^ 32)
    wrTx := if q.op = 0 then s.fab.wrTx else tabMod 0 s.fab.wrTx key (fun n => n + 1)
    outst := s.fab.outst ++ [o1] } }
  let s := if q.op = 0 then s else cacheDrop s q.part.val (fun a => decide (a = ga / 64))
  let s := if q.op = 1 ∨ q.op = 2 then
      cacheDrop s q.part.val (fun a => decide (ga / 64 ≤ a) && decide (a ≤ (ga + q.len - 1) / 64)) else s
  if path = 25 then s else useLink (emit s (.fabric node q)) q.part.val path

/-- A number as a member of Fin 64. -/
def fin64 (n : Nat) : Fin 64 := ⟨n % 64, Nat.mod_lt _ (by decide)⟩

/-- A request of a partition of this chip, before it is issued. -/
def mkReq (s : State) (p op typ : Nat) (fetch : Bool) (ga len : Nat) (data : List Byte) (psn : Bool) : FabReq :=
  { node := fin64 (ownNode s), part := fin64 p, gen := (getPart s p).gen, seq := 0, op := ⟨op % 7, Nat.mod_lt _ (by decide)⟩
    typ := ⟨typ % 8, Nat.mod_lt _ (by decide)⟩, fetch := fetch, len := len, addr := BitVec.ofNat 52 ga, data := data, psn := psn, members := []
    writes := 0, stage := none }

/-- An outstanding request, before it is issued. -/
def mkOut (q : FabReq) (c localVa kind off take : Nat) (cacheable : Bool) : FabOut :=
  { req := q, dst := 0, cluster := c, localVa := localVa, issued := 0, path := 25, cacheable := cacheable, kind := kind
    off := off, take := take }

/-- The granule of a fabric store of n bytes at offset off in it, as it enters a signature (R244, log entry 24). -/
def storeGranule (off : Nat) (bs : List Byte) : GranuleBits :=
  if off = 0 ∧ bs.length = 64 then BitVec.ofNat 512 (ofLe bs) else Config.partialGranule off bs

/-- The granules that a fabric store enters into the signature of its cluster. -/
def sigStore (s : State) (p c : Nat) (w : Writer) (ga : Nat) (bs : List Byte) (psn : Bool) : State :=
  (granSpan ga bs.length).foldl (fun s g =>
    let lo := Nat.max ga (64 * g)
    let hi := Nat.min (ga + bs.length) (64 * g + 64)
    sigAdd s p c w 2 (64 * g) (storeGranule (lo - 64 * g) ((bs.drop (lo - ga)).take (hi - lo))) psn) s

end Sys2Proof.Machine
end

