-- ==== Sys2Proof/Machine/CspCore.lean ====
section
/-! DEFINITION. CSP contexts: who runs, bundles, waits, stops and faults (R143-R154, R158-R168), and lanes (R149). -/

namespace Sys2Proof.Machine

open Sys2Proof

/-! ### Lanes (R149) -/

/-- Lane i of w bits. -/
def lane (w : Nat) (v : GranuleBits) (i : Nat) : Nat := v.toNat / 2 ^ (w * i) % 2 ^ w

/-- The number that lanes of w bits spell, lane 0 lowest. -/
def packNat (w : Nat) : List Nat → Nat
  | [] => 0
  | a :: t => a % 2 ^ w + 2 ^ w * packNat w t

/-- A data register of lanes. -/
def packD (w : Nat) (l : List Nat) : GranuleBits := BitVec.ofNat 512 (packNat w l)

/-- Bits of a lane. -/
def ltBits : Lt → Nat
  | .h => 16
  | .w => 32
  | .l => 64
  | .c => 16
  | .f => 32
  | .d => 64

/-- Apply a function to each lane pair. -/
def mapLanes2 (w : Nat) (f : Nat → Nat → Nat) (a b : GranuleBits) : GranuleBits :=
  packD w ((List.range (512 / w)).map (fun i => f (lane w a i) (lane w b i)))

/-- Apply a function to each lane. -/
def mapLanes (w : Nat) (f : Nat → Nat) (a : GranuleBits) : GranuleBits :=
  packD w ((List.range (512 / w)).map (fun i => f (lane w a i)))

/-- ACC lane i, signed 40 bits. -/
def accLane (v : BitVec 1280) (i : Nat) : Int := toSigned 40 (v.toNat / 2 ^ (40 * i))

/-- An ACC register of 32 lanes. -/
def packAcc (l : List Int) : BitVec 1280 := BitVec.ofNat 1280 (packNat 40 (l.map (ofSigned 40)))

/-! ### Contexts -/

/-- A twin freeze holds the partition's run: its contexts have stopped where they are (R248). -/
def twinHeld (s : State) (p : Nat) : Bool := decide ((getPart s p).twinState = 3)

/-- The partition's engines and contexts run: the cloves do (R213), it is not frozen or being reset, and no twin freeze holds its
run (R248, R346). -/
def partRuns (s : State) (p : Nat) : Bool :=
  s.time.cloveRun && (getPart s p).live && (decide ((getPart s p).st = .running) || decide ((getPart s p).st = .freezing)) && !twinHeld s p

/-- A context is ready (R144): one of a frozen partition is not (R346). -/
def cspReady (s : State) (x : CspCtx) : Bool :=
  decide (x.st = 1) && decide (x.wait = .none) && !x.startsAtBoundary && partRuns s x.part

/-- A bundle or REP of the context is under way (R144, R159). -/
def cspBusy (s : State) (x : CspCtx) : Bool :=
  decide (x.st = 1) && (x.mid || decide (0 < x.repLeft) || decide (0 < x.repArm)) && !twinHeld s x.part

/-- A REP runs on the cluster's CSP (R159). -/
def inRep (s : State) (c : Nat) : Bool :=
  (List.range 4).any (fun x => cspBusy s (getCsp s c x) && decide (0 < (getCsp s c x).repLeft))

/-- The first ready context after one, in turn; a radio context 0 takes no turn (R144). -/
def nextReady (s : State) (c cur : Nat) : Option Nat :=
  ((List.range 4).map (fun i => (cur + 1 + i) % 4)).find? (fun x => !(getCsp s c x).radio && cspReady s (getCsp s c x))

/-- Context n runs. -/
def runCsp (s : State) (c n : Nat) : State := modClu s c (fun cl => { cl with cspRun := ⟨n % 4, Nat.mod_lt _ (by decide)⟩ })

/-- Context n takes its turn, and its run time begins (R144). -/
def turnCsp (s : State) (c n : Nat) : State :=
  runCsp (modClu s c (fun cl => { cl with cspTurn := ⟨n % 4, Nat.mod_lt _ (by decide)⟩, cspTime := 0 })) c n

/-- Who runs next (R144): a bundle or REP goes on; a ready radio context 0 comes first and leaves the turn of the others as it
is; else the context whose turn it is goes on until it yields, waits or halts, and then the next ready one. -/
def pickCsp (s : State) (c : Nat) : State :=
  let cl := getClu s c
  let x := getCsp s c cl.cspRun.val
  let zero := getCsp s c 0
  let turn := getCsp s c cl.cspTurn.val
  if cspBusy s x then s
  else if zero.radio && cspReady s zero then runCsp s c 0
  else if !turn.radio && cspReady s turn && decide (cl.cspTime < 4096) then runCsp s c cl.cspTurn.val
  else match nextReady s c cl.cspTurn.val with
    | some n => turnCsp s c n
    | none => s

/-- Open the fences that a context has set (R148, R168). -/
def openFences (s : State) (c x : Nat) : State :=
  modClu s c (fun cl => { cl with fence := tabMap cl.fence (fun f => if f.ctx.val = x then { f with closed := false } else f) })
where
  tabMap (t : Tab Fence) (f : Fence → Fence) : Tab Fence := (t.map (fun e => (e.1, f e.2))).filter (fun e => decide (e.2 ≠ {}))

/-- An event to the owner of a context; one whose partition has been destroyed has none. -/
def cspEvent (s : State) (o : CspCtx) (code : Nat) (items : List (Nat × Nat)) : State :=
  if o.en then evPart s o.part code items else s

/-- A context stops at a boundary or a reset and keeps no state (R148); its window of R147, a held owner and a held load are its
next program's. One that has halted, or that a fault has stopped already (R168), loses its state without an event (log entry
88). -/
def stopCsp (s : State) (c x : Nat) : State :=
  let o := getCsp s c x
  let s := openFences s c x
  let s := modCsp s c x (fun o => { ({} : CspCtx) with
    en := o.en, radio := o.radio, part := o.part, issueFrom := o.issueFrom, nextOwner := o.nextOwner, load := o.load })
  pickCsp (if o.st = 0 ∨ o.st = 3 then s else cspEvent s o 0x0103 [(1, c), (1, x)]) c

/-- No slot of the bundle at a context's pc holds an instruction. -/
def emptyBundle (o : CspCtx) : Bool :=
  decide (4 * o.pc + 4 ≤ o.prog.length) && (List.range 4).all (fun i => match Config.cspDecode i (wd o.prog (4 * o.pc + i)) with
    | some none => true
    | _ => false)

/-- A context passes the empty bundles at its pc, which do nothing, repeated or not (log entry 86). -/
def passEmpty : Nat → CspCtx → CspCtx
  | 0, o => o
  | n + 1, o => if emptyBundle o then passEmpty n { o with pc := o.pc + 1, repLeft := 0 } else o

/-- The partition that owns a context, or will once a REP has ended (R159). -/
def cspOwner (o : CspCtx) : Option Nat :=
  match o.nextOwner with
  | some w => some w.1
  | none => if o.en then some o.part else none

/-- A new owner has a context: it is clear (R328), has its owner (R169), and issues only after the window of the next boundary
(R147). -/
def ownCsp (s : State) (c x : Nat) (w : Nat × Bool) : State :=
  modCsp s c x (fun o => { ({} : CspCtx) with en := true, radio := w.2, part := w.1, issueFrom := 200000, load := o.load })

/-- Put an image into a context, with its longest REP; its program starts at the next boundary (R160, R167). -/
def startCsp (s : State) (c x longest : Nat) (im : List Word) : State :=
  let s := modPart s (getCsp s c x).part (fun P => { P with everRun := true })
  modCsp s c x (fun o => passEmpty (im.length / 4) { ({} : CspCtx) with
    en := o.en, radio := o.radio, part := o.part, sat := o.sat, stPsn := o.stPsn, cause := o.cause, issueFrom := o.issueFrom
    st := 1, longRep := longest, prog := im.drop 16, startsAtBoundary := true })

/-- The events of a clove boundary for the contexts of a CSP: releases and program starts (R147, R157, R159). -/
def cspRelease (s : State) (c : Nat) : State :=
  let s := (List.range 4).foldl (fun s x => modCsp s c x (fun o =>
    if o.st = 1 ∧ o.startsAtBoundary then { o with startsAtBoundary := false }
    else if o.st = 2 ∧ (o.wait = .boundary ∨ o.wait = .repHeld) then { o with st := 1, wait := .none } else o)) s
  pickCsp (modClu s c (fun cl => { cl with cspHeld := false })) c

/-- What a context of a CSP in which no REP runs any more does with the stop and the owner that the REP held (R148, R159). -/
def settleCsp (c : Nat) (s : State) (x : Nat) : State :=
  if cspBusy s (getCsp s c x) then s else
  let s := if (getCsp s c x).stopPending then stopCsp s c x else s
  match (getCsp s c x).nextOwner with
  | some w => ownCsp s c x w
  | none => s

/-- A held CSP_LOAD is carried out (R159, R167). -/
def settleLoad (c : Nat) (s : State) (x : Nat) : State :=
  match (getCsp s c x).load with
  | none => s
  | some l => if cspBusy s (getCsp s c x) then s else completeWait (startCsp s c x l.1 l.2) (.cspLoad c x) stOk

/-- Stops, owners, boundary events and loads that waited for a REP or bundle to end (R148, R159). -/
def cspPendings (s : State) (c : Nat) : State :=
  if inRep s c then s else
  let s := (List.range 4).foldl (settleCsp c) s
  let s := if (getClu s c).cspHeld then cspRelease s c else s
  (List.range 4).foldl (settleLoad c) s

/-- A context stops on a fault (R168): the stores of the faulting bundle are suppressed (R152). -/
def faultCsp (s : State) (c x cause : Nat) : State :=
  let o := getCsp s c x
  let s := openFences s c x
  let s := modCsp s c x (fun o => { o with
    st := 3, cause := cause, stores := [], mid := false, repLeft := 0, repArm := 0, branch := none, wait := .none
    regs := o.old })
  pickCsp (cspPendings (cspEvent s o 0x0105 [(1, c), (1, x), (2, o.pc), (1, cause)]) c) c

/-- A clove boundary reaches the CSP of a cluster (R146, R159). -/
def cspBoundary (s : State) (c : Nat) : State :=
  let s := modClu s c (fun cl => { cl with cspDelayed := false, cspHeld := true })
  cspPendings s c

/-- A context is to stop: now, or once its bundle and every REP has ended (R148). -/
def askStop (s : State) (c x : Nat) : State := cspPendings (modCsp s c x (fun o => { o with stopPending := true })) c

/-- The count that WAITC names (R162, R163). -/
def waitCount (s : State) (c src : Nat) : Word := if src < 8 then (getEng s c src).wcnt else (getLa s c (src - 16)).drnCnt

/-- (s32)(count - target) >= 0 (R163). -/
def countReached (count target : Word) : Bool := decide (0 ≤ s32Diff count.toNat target.toNat)

/-- A counter has moved: contexts that waited for it are ready (R163). A radio context 0 that becomes ready under a REP of
another context is a delay (R146). -/
def cspWake (s : State) (c : Nat) : State :=
  let woke (x : Nat) : Bool := match (getCsp s c x).wait with
    | .count src target => decide ((getCsp s c x).st = 2) && countReached (waitCount s c src) target
    | _ => false
  let rep := inRep s c
  let zero := woke 0 && (getCsp s c 0).radio && rep
  let s := (List.range 4).foldl (fun s x => if woke x then modCsp s c x (fun o => { o with st := 1, wait := .none }) else s) s
  pickCsp (if zero then modClu s c (fun cl => { cl with cspDelayed := true }) else s) c

/-- CSP cycle of the clove at the nominal clocks (R143). -/
def cspCycle (s : State) : Nat := s.time.cycle * 3 / 4

/-- The context runs and may issue a slot now (R144, R147): under a freeze only the rest of a bundle or REP (R346), under a twin
freeze nothing (R248). -/
def cspOk (s : State) (c x : Nat) : Bool :=
  let o := getCsp s c x
  decide (o.st = 1) && !o.startsAtBoundary && decide ((getClu s c).cspRun.val = x) && decide ((getPc s c).point < 4) &&
    decide (o.issueFrom ≤ cspCycle s) && (partRuns s o.part || cspBusy s o)

/-- Write one 64-byte store to cluster SRAM with its poison (R150, R244). -/
def cspStore (s : State) (c p x a : Nat) (d : GranuleBits) (psn : Bool) : State :=
  let s := modClu s c (fun cl => { cl with
    sram := putGran cl.sram (a / 64) d psn
    lssPsn := tabKeep (fun k => decide (k / 64 ≠ a / 64)) cl.lssPsn })
  sigAdd s p c (.context x) 1 a d psn

/-- The stores of a context's bundle are made; one of a poisoned register sets CSP_STAT.PSN (R150, R169). -/
def makeStores (s : State) (c x : Nat) : State :=
  let o := getCsp s c x
  let s := o.stores.foldl (fun s w => cspStore s c o.part x w.1 w.2.1 w.2.2) s
  let psn := o.stores.any (fun w => w.2.2)
  let s := modCsp s c x (fun o => { o with stores := [], stPsn := o.stPsn || psn })
  if psn then noteFlag s (.cspPsn c x) else s

/-- The bundle of a context ends: its stores are made, its results become readable, and control goes on (R154, R158). -/
def endBundle (s : State) (c x : Nat) : State :=
  let o := getCsp s c x
  if o.st ≠ 1 then pickCsp s c else
  let s := modCsp (makeStores s c x) c x (fun o =>
    let o1 : CspCtx := { o with old := o.regs, mid := false, branch := none }
    passEmpty (o.prog.length / 4) (if 0 < o.repLeft then
      (if o.repLeft = 1 then { o1 with repLeft := 0, pc := o.pc + 1 } else { o1 with repLeft := o.repLeft - 1 })
    else if 0 < o.repArm then { o1 with repArm := 0, repLeft := o.repArm, pc := o.pc + 1 }
    else { o1 with pc := o.branch.getD (o.pc + 1), st := if o.wait = .none then 1 else 2 }))
  pickCsp (cspPendings s c) c

/-- The bundle at a context's pc holds a REP. -/
def holdsRep (o : CspCtx) : Bool :=
  match Config.cspDecode 3 (wd o.prog (4 * o.pc + 3)) with
  | some (some (.rep _ _)) => true
  | _ => false

/-- A REP has delayed the radio in this clove, and the context is not the radio's (R146). -/
def repBarred (s : State) (c x : Nat) : Bool := (getClu s c).cspDelayed && !(getCsp s c x).radio

/-- The next bundle of a context does not issue: it holds a REP, which has no place after a delay of the radio (R146). -/
def repWaits (s : State) (c x : Nat) : Bool :=
  let o := getCsp s c x
  repBarred s c x && !o.mid && decide (o.repLeft = 0) && holdsRep o

/-- A context waits at a bundle that holds a REP: none of the bundle has an effect (R146). -/
def waitRep (s : State) (c x : Nat) : State :=
  pickCsp (modCsp s c x (fun o => { o with
    st := 2, wait := .repHeld, mid := false, stores := [], regs := o.old, branch := none })) c

/-- One slot of a bundle: its effect, if the context may issue, and the end of the bundle after its last slot. -/
def cspSlot (k : Slot) (s : State) (f : State → State) : Host.Outcome State Fault Refusal :=
  inRun s (fun s =>
    if !cspOk s k.c.val k.x.val then s
    else if repWaits s k.c.val k.x.val then waitRep s k.c.val k.x.val else
    let s := f (modCsp s k.c.val k.x.val (fun o => { o with mid := true }))
    if k.eob then endBundle s k.c.val k.x.val else s)

/-! ### Registers -/

/-- The registers that the slots of a bundle read (R154). -/
def oldRegs (s : State) (k : Slot) : CspRegs := (getCsp s k.c.val k.x.val).old

/-- Change the registers that a bundle writes. -/
def modRegs (s : State) (k : Slot) (f : CspRegs → CspRegs) : State :=
  modCsp s k.c.val k.x.val (fun o => { o with regs := f o.regs })

def rdD (r : CspRegs) (i : Nat) : GranuleBits := tabGet 0 r.d i
def rdDPsn (r : CspRegs) (i : Nat) : Bool := tabGet false r.dPsn i
def rdAcc (r : CspRegs) (i : Nat) : BitVec 1280 := tabGet 0 r.acc i
def rdAccPsn (r : CspRegs) (i : Nat) : Bool := tabGet false r.accPsn i

/-- Write a data register with its poison (R150). -/
def wrD (s : State) (k : Slot) (i : Nat) (v : GranuleBits) (psn : Bool) : State :=
  modRegs s k (fun r => { r with d := tabSet 0 r.d i v, dPsn := tabSet false r.dPsn i psn })

/-- Write an ACC register with its poison (R150). -/
def wrAcc (s : State) (k : Slot) (i : Nat) (v : BitVec 1280) (psn : Bool) : State :=
  modRegs s k (fun r => { r with acc := tabSet 0 r.acc i v, accPsn := tabSet false r.accPsn i psn })

/-- A clamp of R155 sets CSP_STAT.SAT. -/
def setSat (s : State) (k : Slot) (b : Bool) : State :=
  if b then noteFlag (modCsp s k.c.val k.x.val (fun o => { o with sat := true })) (.cspSat k.c.val k.x.val) else s

/-- A two-source vector operation (R150, R154). -/
def vec2 (k : Slot) (d u v : Fin 32) (f : GranuleBits → GranuleBits → GranuleBits) (s : State) :
    Host.Outcome State Fault Refusal :=
  cspSlot k s (fun s =>
    let r := oldRegs s k
    wrD s k d.val (f (rdD r u.val) (rdD r v.val)) (rdDPsn r u.val || rdDPsn r v.val))

/-- A one-source vector operation. -/
def vec1 (k : Slot) (d u : Fin 32) (f : GranuleBits → GranuleBits) (s : State) : Host.Outcome State Fault Refusal :=
  cspSlot k s (fun s =>
    let r := oldRegs s k
    wrD s k d.val (f (rdD r u.val)) (rdDPsn r u.val))

/-- The value of a scalar operand. -/
def scalarVal (r : CspRegs) : Scalar → Word
  | .imm v => v
  | .m i => tabGet 0 r.m i.val

/-- A scalar operation. -/
def scalar (k : Slot) (f : CspRegs → CspRegs → CspRegs) (s : State) : Host.Outcome State Fault Refusal :=
  cspSlot k s (fun s => modRegs s k (f (oldRegs s k)))

/-! ### Addresses (R151, R152) -/

/-- The post-modified pointer of R151. -/
def postModify (p m : Word) (circ : Bool) (b l : Word) : Word :=
  let q := p + m
  if circ then
    (if (b + l).toNat ≤ q.toNat then q - l else if q.toNat < b.toNat then q + l else q)
  else q

/-- A byte of cluster SRAM belongs to the partition there, in its units or its part of the LSS window (R152). -/
def sramMine (s : State) (p c a : Nat) : Bool :=
  let h := getHold s p c
  let u := a / 2 ^ 18
  decide (u < 64) && (h.sram.getLsbD u || (decide (48 ≤ u) && h.lss.getLsbD (u - 48)))

/-- The cause that stops an access of n bytes, 0 where it may go on (R152). -/
def accessCause (s : State) (p c a n : Nat) : Nat :=
  if !sramMine s p c a || !sramMine s p c (a + n - 1) then 1 else if a % n ≠ 0 then 2 else 0

/-- A memory slot: the access check, the access, and the post-modification of Pn (R151, R152). -/
def cspAccess (k : Slot) (p m : Fin 16) (circ : Bool) (n : Nat) (f : State → Nat → State) (s : State) :
    Host.Outcome State Fault Refusal :=
  cspSlot k s (fun s =>
    let r := oldRegs s k
    let o := getCsp s k.c.val k.x.val
    let pv := tabGet 0 r.p p.val
    let cause := accessCause s o.part k.c.val pv.toNat n
    if cause ≠ 0 then faultCsp s k.c.val k.x.val cause else
    let q := postModify pv (tabGet 0 r.m m.val) (circ && decide (p.val < 8)) (tabGet 0 r.b p.val) (tabGet 0 r.l p.val)
    modRegs (f s pv.toNat) k (fun r => { r with p := tabSet 0 r.p p.val q }))

/-- An ECC check of the granule that a load reads (R412). -/
def cspEcc (s : State) (c a : Nat) : Ecc → State
  | .clean => s
  | .corrected => s
  | .uncorrectable => sramUe s c a

/-- Poison of the granule that a load reads: its own, or that of an LSS entry in it (R98, R150). -/
def cspPsn (s : State) (c a : Nat) : Bool :=
  let cl := getClu s c
  granPsn cl.sram (a / 64) || cl.lssPsn.any (fun e => e.2 && decide (e.1 / 64 = a / 64))

end Sys2Proof.Machine
end

