-- ==== Sys2Proof/Machine/PageTab.lean ====
section
/-! DEFINITION. Where page tables lie (R325, R411): the pool's pages, the two copies of a partition's tables, and the walk that meets a
damaged granule. What the entries hold is the partition's map pt (log entry 9). -/

namespace Sys2Proof.Machine

open Sys2Proof

/-- A pseudo-channel lies in a list of first and count. -/
def inPcs (l : List (Nat × Nat)) (pc : Nat) : Bool := l.any (fun x => decide (x.1 ≤ pc) && decide (pc < x.1 + x.2))

/-- Pseudo-channels that some sealed partition holds. -/
def heldPc (s : State) (pc : Nat) : Bool := (liveParts s).any (fun p => inPcs (getPart s p).pcs pc)

/-- A page of the pool that nothing uses and no retirement keeps out (R409, R418). -/
def poolPage (s : State) (g : Nat) : Bool :=
  decide (tabGet 0 s.hbm.owner g = 0) && decide (tabGet 0 s.hbm.tables g = 0) && !tabGet false s.hbm.pageRetired g &&
  !tabGet false s.hbm.pcRetired (pcOfPage g) && decide (s.hbm.retiring ≠ some (pcOfPage g))

/-- The compute tile whose HBM stacks hold a page: two stacks of 24,576 pages each (R21). -/
def pageTile (g : Nat) : Nat := g / 49152

/-- The highest number below n that a test picks. -/
def topBelow (ok : Nat → Bool) : Nat → Option Nat
  | 0 => none
  | n + 1 => if ok n then some n else topBelow ok n

/-- A page for a copy of page tables: the highest free one on no sealed partition's pseudo-channel, and on another tile than the other
copy's page (R237, R411, log entry 9). -/
def tablePage (s : State) (other : Option Nat) : Option Nat :=
  topBelow (fun g => poolPage s g && !heldPc s (pcOfPage g) && decide (other.map pageTile ≠ some (pageTile g))) 196608

/-- A page begins to hold page tables of a partition, or ceases to. -/
def setTable (s : State) (g v : Nat) : State :=
  { s with hbm := { s.hbm with
    tables := tabSet 0 s.hbm.tables g v, m := clearPMem s.hbm.m (pageBytes * g) (pageBytes * (g + 1)) } }

/-- One more page for each copy, where the pool has both. -/
def addTablePages (s : State) (p : Nat) : State :=
  match tablePage s none with
  | none => s
  | some a => match tablePage s (some a) with
    | none => s
    | some b => modPart (setTable (setTable s a (p + 1)) b (p + 1)) p (fun P => { P with tabA := P.tabA ++ [a], tabB := P.tabB ++ [b] })

/-- Firmware lays out the nodes of page tables that a map needs and the tables lack (R325, R411). -/
def growTables (s : State) (p : Nat) (keys : List Nat) : State :=
  let s := modPart s p (fun P => { P with tabNodes := keys.foldl (fun l k => if l.contains k then l else l ++ [k]) P.tabNodes })
  let P := getPart s p
  (List.range ((P.tabNodes.length + 511) / 512 - P.tabA.length)).foldl (fun s _ => addTablePages s p) s

/-- The nodes that a walk of a virtual address reads, with the entry of each: root, middle and leaf (R325). -/
def walkSteps (va : Nat) : List (Nat × Nat) :=
  [(0, va / 2 ^ 39 % 512), (2 ^ 20 + va / 2 ^ 39, va / 2 ^ 30 % 512), (2 ^ 40 + va / 2 ^ 30, va / 2 ^ 21 % 512)]

/-- The nodes of n pages from a virtual address on. -/
def rangeNodes (va n : Nat) : List Nat :=
  let g0 := va / 2 ^ 30
  let g1 := (va + pageBytes * n - 1) / 2 ^ 30
  0 :: (List.range (g1 - g0 + 1)).flatMap (fun i => [2 ^ 20 + (g0 + i) / 512, 2 ^ 40 + g0 + i])

/-- The granule of a copy's page in which entry i of its node n lies: a node has 4 KiB. -/
def nodeGran (page n i : Nat) : Nat := 32768 * page + 64 * (n % 512) + i / 8

/-- A page of a copy is written anew on another page, beside the other copy's page. -/
def replaceTable (s : State) (p old new : Nat) : State :=
  let f (l : List Nat) : List Nat := l.map (fun g => if g = old then new else g)
  modPart (setTable (setTable s old 0) new (p + 1)) p (fun P => { P with tabA := f P.tabA, tabB := f P.tabB })

/-- The damaged page of a copy: its tables go to another pool page, from the other copy, and it is retired (R409, R411). -/
def repairTable (s : State) (p bad good : Nat) : State :=
  match tablePage s (some good) with
  | none => s
  | some n => retirePage (replaceTable s p bad n) bad

/-- A walk for a virtual address (R325, R411): where it meets an uncorrectable granule it reads the other copy, and the damaged one is
rewritten. -/
def walkVa (s : State) (p va : Nat) : State :=
  (walkSteps va).foldl (fun s x =>
    let P := getPart s p
    let n := P.tabNodes.idxOf x.1
    match P.tabA[n / 512]?, P.tabB[n / 512]? with
    | some a, some b =>
      if decide (n < P.tabNodes.length) && granPsn s.hbm.m (nodeGran a n x.2) && !granPsn s.hbm.m (nodeGran b n x.2) then repairTable s p a b
      else s
    | _, _ => s) s

/-- The walks of an access to some virtual addresses, one for each page. -/
def walkAll (s : State) (p : Nat) (vas : List Nat) : State :=
  ((vas.map (fun a => a / pageBytes)).dedup).foldl (fun s g => walkVa s p (pageBytes * g)) s

/-- From this number on, an ECC operand names a granule of HBM that a walk of page tables read, counted from here. -/
abbrev walkKey : Nat := 2 ^ 42

/-- What the ECC found in granules of page tables: an uncorrectable one gets its poison bit in place (R410, R411). -/
def tableEcc (s : State) (ecc : List (Nat × Ecc)) : State :=
  ecc.foldl (fun s x =>
    if walkKey ≤ x.1 ∧ tabGet 0 s.hbm.tables ((x.1 - walkKey) / 32768) ≠ 0 then
      (match x.2 with
       | .clean => s
       | .corrected => hbmCe s (64 * (x.1 - walkKey))
       | .uncorrectable => { s with hbm := { s.hbm with m := setGranPsn s.hbm.m (x.1 - walkKey) true } })
    else s) s

/-- A partition's page tables go with it (R324). -/
def dropTables (s : State) (p : Nat) : State :=
  ((getPart s p).tabA ++ (getPart s p).tabB).foldl (fun s g => setTable s g 0) s

end Sys2Proof.Machine
end

