-- ==== Sys2Proof/Machine/CardCore.lean ====
section
/-! DEFINITION. Tensors and cardamom engines: addresses and layouts (R113-R124, R127), what a read instruction reads and a
write instruction writes (R136, R137), the engine's control (R126, R128-R130). -/

namespace Sys2Proof.Machine

open Sys2Proof

/-! ### TENSOR_DESC (R113) -/

def tFmt (t : List Word) : Nat := fld (wd t 0) 4 0
def tLayout (t : List Word) : Nat := fld (wd t 0) 7 5
def tNdim (t : List Word) : Nat := fld (wd t 0) 10 8
def tClamp (t : List Word) : Nat := fld (wd t 0) 12 11
def tSpace (t : List Word) : Nat := fld (wd t 0) 14 13
def tCluster (t : List Word) : Nat := fld (wd t 0) 23 16
def tArray (t : List Word) : Nat := fld (wd t 0) 29 24
def tBase (t : List Word) : Nat := fld48 t 1
def tAllocBase (t : List Word) : Nat := fld48 t 3
def tAllocLen (t : List Word) : Nat := fld48 t 5
def tScaleOff (t : List Word) : Nat := (wd t 7).toNat
def tSize (t : List Word) (d : Nat) : Nat := (wd t (8 + d)).toNat
def tStride (t : List Word) (d : Nat) : Int := toSigned 32 (wd t (14 + d)).toNat

/-- INT4 elements of a tensor are nibbles. -/
def tNibble (t : List Word) : Bool := decide (tFmt t = 0x18)

/-- Element size in bytes. -/
def tElt (t : List Word) : Nat := fmtBytes (tFmt t)

/-- Bytes of one W-tile, 2,048 for each stored bit (R117). -/
def tTileBytes (t : List Word) : Nat := 2048 * fmtBits (tFmt t)

/-- A coordinate. -/
def xAt (xs : List Int) (d : Nat) : Int := xs.getD d 0

/-- The coordinates lie in the logical shape. -/
def inShape (t : List Word) (xs : List Int) : Bool :=
  (List.range (tNdim t)).all (fun d => decide (0 ≤ xAt xs d) && decide (xAt xs d < tSize t d))

/-- The shape with its padding, by layout (R124). -/
def padSize (t : List Word) (d : Nat) : Nat :=
  if tLayout t = 1 then (if d = 0 then ceilDiv (tSize t 0) 32 * 32 else ceilDiv (tSize t 1) 128 * 128)
  else if tLayout t = 3 ∧ d = 0 then ceilDiv (tSize t 0) 16 * 16
  else tSize t d

/-- The coordinates lie in the shape with its padding. -/
def inPadded (t : List Word) (xs : List Int) : Bool :=
  (List.range (tNdim t)).all (fun d => decide (0 ≤ xAt xs d) && decide (xAt xs d < padSize t d))

/-- Each coordinate clamped to its nearest edge (R123). -/
def clampX (t : List Word) (xs : List Int) : List Int :=
  (List.range (tNdim t)).map (fun d => clampInt 0 ((tSize t d : Int) - 1) (xAt xs d))

/-- The address of the element at coordinates in the shape, and its nibble (R118). -/
def eltAddr (t : List Word) (xs : List Int) : Nat × Nat :=
  let e := tElt t
  let x (d : Nat) : Nat := (xAt xs d).toNat
  if tLayout t = 0 then
    let off := (List.range (tNdim t)).foldl (fun (n : Int) d => n + xAt xs d * tStride t d) 0
    if tNibble t then (((tBase t : Int) + Int.fdiv off 2).toNat, (Int.fmod off 2).toNat)
    else (((tBase t : Int) + off * e).toNat, 0)
  else if tLayout t = 1 then
    let k := x 0
    let m := x 1
    (tBase t + ((((k / 32) * ceilDiv (tSize t 1) 128 + m / 128) * 128 + m % 128) * 32 + k % 32) * e, 0)
  else if tLayout t = 3 then (tBase t + ((x 2 * tSize t 1 + x 1) * (ceilDiv (tSize t 0) 16 * 16) + x 0) * 4, 0)
  else (tBase t + (16384 * x 2 + x 1 * tSize t 0 + x 0) * e, 0)

/-- Where a read at coordinates reads: none for a zero (R123, R124). -/
def readAt (t : List Word) (xs : List Int) : Option (Nat × Nat) :=
  if inShape t xs then some (eltAddr t xs)
  else if inPadded t xs then none
  else if tClamp t = 0 then some (eltAddr t (clampX t xs)) else none

/-- Add n to a digit of base b: its new value and the carry; a digit out of range does not carry (R127). -/
def stepDigit (b : Nat) (v : Int) (n : Int) : Int × Int :=
  let r := v + n
  if r < 0 ∨ (b : Int) ≤ v then (r, 0) else (Int.fmod r b, Int.fdiv r b)

/-- The coordinates of element i of a run that starts at xs (R127). -/
def runAt (t : List Word) (xs : List Int) (i : Nat) : List Int :=
  if tLayout t = 0 then (List.range (tNdim t)).map (fun d => if d = 0 then xAt xs 0 + i else xAt xs d)
  else if tLayout t = 1 then
    let k := stepDigit 32 (Int.fmod (xAt xs 0) 32) i
    let m := stepDigit 128 (Int.fmod (xAt xs 1) 128) k.2
    let g := stepDigit (ceilDiv (tSize t 1) 128) (Int.fdiv (xAt xs 1) 128) m.2
    [(Int.fdiv (xAt xs 0) 32 + g.2) * 32 + k.1, g.1 * 128 + m.1]
  else
    let a := stepDigit (padSize t 0) (xAt xs 0) i
    let b := stepDigit (tSize t 1) (xAt xs 1) a.2
    [a.1, b.1, xAt xs 2 + b.2]

/-! ### Recipes: the bits of memory that make up a byte -/

/-- Bits [lo + w - 1 : lo] of the byte at an address, placed at bit at_ of the result. -/
structure Piece where
  addr : Nat
  lo : Nat
  w : Nat
  at_ : Nat
deriving DecidableEq, Repr

/-- The bytes of one element. -/
def eltPieces (t : List Word) (loc : Option (Nat × Nat)) : List (List Piece) :=
  match loc with
  | none => List.replicate (tElt t) []
  | some (a, _) => (List.range (tElt t)).map (fun i => [{ addr := a + i, lo := 0, w := 8, at_ := 0 }])

/-- Pair nibbles into bytes, the first low. -/
def pairNibbles : List (Option (Nat × Nat)) → List (List Piece)
  | [] => []
  | [a] => [nib a 0]
  | a :: b :: r => (nib a 0 ++ nib b 4) :: pairNibbles r
where
  nib (x : Option (Nat × Nat)) (at_ : Nat) : List Piece :=
    match x with
    | none => []
    | some (a, n) => [{ addr := a, lo := 4 * n, w := 4, at_ := at_ }]

/-- The bytes of a run of elements. -/
def runPieces (t : List Word) (locs : List (Option (Nat × Nat))) : List (List Piece) :=
  if tNibble t then pairNibbles locs else locs.flatMap (eltPieces t)

/-- RD reads len elements from coordinates on. -/
def rdRun (t : List Word) (xs : List Int) (len : Nat) : List (List Piece) :=
  runPieces t ((List.range len).map (fun i => readAt t (runAt t xs i)))

/-- RDS reads len scales from row or column m on, of block j (R121, R123). -/
def rdsRun (t : List Word) (m j : Int) (len : Nat) : List (List Piece) :=
  let n := if tLayout t = 1 then tSize t 1 else tSize t 0
  let nb := if tLayout t = 1 then ceilDiv (tSize t 0) 32 else ceilDiv (tSize t 1) 32
  (List.range len).map (fun (i : Nat) =>
    let a := m + (i : Int)
    let ok := decide (0 ≤ a) && decide (a < n) && decide (0 ≤ j) && decide (j < nb)
    if !ok && decide (tClamp t ≠ 0) then []
    else
      let a' := (clampInt 0 ((n : Int) - 1) a).toNat
      let j' := (clampInt 0 ((nb : Int) - 1) j).toNat
      [{ addr := tBase t + tScaleOff t + j' * n + a', lo := 0, w := 8, at_ := 0 }])

/-- The low bits of byte i of a tile that hold elements of the shape, where nl columns and kl rows of the tile do (R118,
R124). -/
def tileMask (t : List Word) (nl kl i : Nat) : Nat :=
  if fmtApart (tFmt t) then
    let j := i % 2048
    if j / 16 < kl then Nat.min 8 (nl - j % 16 * 8) else 0
  else if tNibble t then
    let j := 2 * i
    if j / 128 < kl then 4 * Nat.min 2 (nl - j % 128) else 0
  else
    let j := i / tElt t
    if j / 128 < kl ∧ j % 128 < nl then 8 else 0

/-- Tiles of a W-tile tensor along n and along k. -/
def tilesN (t : List Word) : Nat := ceilDiv (tSize t 0) 128
def tilesK (t : List Word) : Nat := ceilDiv (tSize t 1) 128

/-- The tile coordinates lie in the tensor. -/
def tileIn (t : List Word) (n k : Int) : Bool :=
  decide (0 ≤ n) && decide (n < tilesN t) && decide (0 ≤ k) && decide (k < tilesK t)

/-- Bytes lo to hi - 1 of the tile at tile coordinates in the tensor. -/
def tilePieces (t : List Word) (n k lo hi : Nat) : List (List Piece) :=
  let base := tBase t + (n * tilesK t + k) * tTileBytes t
  (List.range (hi - lo)).map (fun i =>
    let w := tileMask t (tSize t 0 - n * 128) (tSize t 1 - k * 128) (lo + i)
    if w = 0 then [] else [{ addr := base + lo + i, lo := 0, w := w, at_ := 0 }])

/-- RDW reads the named planes of a tile, or all of it (R119, R123, R126). -/
def rdwRun (t : List Word) (n k : Int) (first count : Nat) : List (List Piece) :=
  let p := fmtPlanes (tFmt t)
  let lo := if fmtApart (tFmt t) then 2048 * Nat.min first p else 0
  let hi := if fmtApart (tFmt t) then 2048 * Nat.min (first + count) p else tTileBytes t
  if tileIn t n k then tilePieces t n.toNat k.toNat lo hi
  else if tClamp t = 0 then
    tilePieces t (clampInt 0 ((tilesN t : Int) - 1) n).toNat (clampInt 0 ((tilesK t : Int) - 1) k).toNat lo hi
  else List.replicate (hi - lo) []

/-- RDT reads 128 runs of a transposed block (R139). -/
def rdtRuns (t : List Word) (xs : List Int) : List (List (List Piece)) :=
  (List.range 128).map (fun (i : Nat) => runPieces t ((List.range 128).map (fun (j : Nat) =>
    readAt t ((List.range (tNdim t)).map (fun d =>
      if d = 0 then xAt xs 0 + i else if d = 1 then xAt xs 1 + j else xAt xs d)))))

/-- Cut runs into entries of 512 bytes, each run starting a new one (R127). -/
def cutEntries (runs : List (List (List Piece))) : List (List (List Piece)) :=
  runs.flatMap (fun r => piecesOf 512 (r.length + 1) r)

/-! ### Reading the bytes of a tensor's space -/

/-- The global address of a virtual address that lies in a fabric window (R267). -/
def fabTarget (s : State) (p va : Nat) : Option Nat :=
  let e := pteOf s p va
  if e.v && decide (e.kind = 1) then some (pteAddr e va) else none

/-- A byte of a tensor's space: its value, its poison, and its kind: 0 read here, 1 to come over the fabric, 2 host memory. -/
def spaceByte (s : State) (p : Nat) (t : List Word) (a : Nat) : Nat × Bool × Nat :=
  if tSpace t = 1 then
    let cl := getClu s (tCluster t)
    ((rdByte cl.sram.mem a).toNat,
     granPsn cl.sram (a / 64) || (decide (tLayout t = 4) && tabGet false cl.lssPsn (a / tElt t * tElt t)), 0)
  else if tSpace t = 2 then
    let cl := getClu s (tCluster t)
    let wb := (tabGet {} cl.pa (physOf cl (tArray t))).wb
    ((rdByte wb.mem a).toNat, granPsn wb (a / 64), 0)
  else
    let e := pteOf s p a
    let pa := pteAddr e a
    if e.kind = 0 then ((rdByte s.hbm.m.mem pa).toNat, granPsn s.hbm.m (pa / 64), 0)
    else if e.kind = 2 then
      (match hostRead s (getPart s p).host.val pa 1 with
       | some bs => ((bs.getD 0 0).toNat, false, 2)
       | none => (0, true, 2))
    else
      (match (if e.c then cacheHit s p (pa / 64) else none) with
       | some x => ((x.data.getD (pa % 64) 0).toNat, x.psn, 0)
       | none => (0, false, 1))

/-- A byte that pieces make up. -/
def pieceByte (s : State) (p : Nat) (t : List Word) (ps : List Piece) : Nat × Bool × Nat :=
  ps.foldl (fun acc x =>
    let b := spaceByte s p t x.addr
    (acc.1 + b.1 / 2 ^ x.lo % 2 ^ x.w * 2 ^ x.at_, acc.2.1 || b.2.1, Nat.max acc.2.2 b.2.2)) (0, false, 0)

/-- The granules of a space that pieces touch. -/
def pieceGrans (rs : List (List Piece)) : List Nat := (rs.flatMap (fun ps => ps.map (fun x => x.addr / 64))).dedup

/-- An ECC check of a granule of a tensor's space found something (R407, R410, R412). -/
def eccAt (s : State) (p : Nat) (t : List Word) (g : Nat) : Ecc → State
  | .clean => s
  | .corrected =>
    let e := pteOf s p (64 * g)
    if tSpace t = 0 ∧ e.kind = 0 then hbmCe s (pteAddr e (64 * g)) else s
  | .uncorrectable =>
    if tSpace t = 1 then sramUe s (tCluster t) (64 * g)
    else if tSpace t = 2 then wbUe s (tCluster t) (physOf (getClu s (tCluster t)) (tArray t)) (64 * g)
    else
      let e := pteOf s p (64 * g)
      if e.kind = 0 then hbmUe s (pteAddr e (64 * g)) else s

/-! ### Engines -/

/-- The tensor in slot ts of an engine. -/
def slotTensor (s : State) (E : Engine) (ts : Nat) : List Word := (tabGet {} (getPart s E.part).descs (tabGet 0 E.tslot ts)).img

/-- The queue in slot qs of an engine. -/
def slotQueue (E : Engine) (qs : Nat) : Nat := fld (tabGet 0 E.qslot qs) 5 0

/-- A coordinate register. -/
def engX (E : Engine) (i : Nat) : Int := toSigned 32 (tabGet 0 E.x i).toNat

/-- Write a coordinate register. DESIGN CHOICE: R126 does not say what an ADDX or ADDR leaves whose sum lies outside the signed
32-bit range; the model keeps the low 32 bits (log entry 89). -/
def setX (E : Engine) (i : Nat) (v : Int) : Engine := { E with x := tabSet 0 E.x i (BitVec.ofInt 32 v) }

/-- The instruction at an engine's position. -/
def engInsn (E : Engine) : Word := wd E.prog E.pc

/-- The opcode of an instruction. -/
def cardOp (w : Word) : Nat := fld w 31 26

/-- The immediate of an instruction. -/
def cardImm (w : Word) : Int := toSigned 20 (fld w 19 0)

/-- An engine's partition runs and its cluster has a clock. -/
def engClocked (s : State) (c e : Nat) : Bool := partRuns s (getEng s c e).part && decide ((getPc s c).point < 4)

/-- The engine stands at an instruction with this opcode and may go on. -/
def engAt (s : State) (c e op : Nat) : Bool :=
  let E := getEng s c e
  E.run && !E.waitB && engClocked s c e && decide (cardOp (engInsn E) = op)

/-- Where control goes after index i, and the loops that stay open (R128). -/
def loopNext (i : Nat) : List LoopFr → Nat × List LoopFr
  | [] => (i + 1, [])
  | f :: r =>
    if i = f.stop then
      if 1 < f.left then (f.start, { f with left := f.left - 1 } :: r) else loopNext i r
    else (i + 1, f :: r)

/-- The program ends (R125): its scalar unit is free, the data instruction that holds the port goes on, and what is in flight
still completes. -/
def engEnd (E : Engine) : Engine := { E with run := false, waitB := false, loops := [] }

/-- An engine runs a program as long as its scalar unit does or a data instruction holds its port (R125, R129, R131). -/
def engBusy (E : Engine) : Bool := E.run || E.port.isSome

/-- Empty a queue of entries, indices and late counts. -/
def emptyQ (s : State) (c q : Nat) : State :=
  modEq s c q (fun Q => { Q with entries := [], taken := 0, side := [], skip := 0, waitFrom := none })

/-- Flush some queues. -/
def flushQs (s : State) (c : Nat) (qs : List Nat) : State := qs.foldl (fun s q => emptyQ s c q) s

/-- Stop an engine and free it (R141). -/
def haltEngine (s : State) (c e : Nat) : State := modEng s c e (fun E => { ({} : Engine) with wcnt := E.wcnt })

/-- The queues that an engine binds. -/
def boundQueues (E : Engine) : List Nat := (E.qslot.filter (fun w => bit w.2 31)).map (fun w => fld w.2 5 0)

/-- Stop an engine and flush every queue that it binds. -/
def dropEngine (s : State) (c e : Nat) : State := flushQs (haltEngine s c e) c (boundQueues (getEng s c e))

/-- A program that consumes an aborted slice's output has written all it was to write: it stops, and the slice's queues that it
binds are flushed (R141). -/
def stopTaker (s : State) (c e : Nat) : State := flushQs (haltEngine s c e) c (getEng s c e).stopQs

/-- A program that has ended and was to be stopped at its next SLM has nothing left to do. -/
def settleEngine (s : State) (c e : Nat) : State :=
  let E := getEng s c e
  if E.stopSlm && !engBusy E then stopTaker s c e else s

/-- Go on after index i; control that passes 63 ends the program (R125). -/
def engGo (E : Engine) (i : Nat) : Engine :=
  let r := loopNext i E.loops
  if 63 < r.1 then engEnd E else { E with pc := r.1, loops := r.2 }

/-- A scalar instruction: its effect, then the next index (R129). -/
def engScalar (s : State) (c e op : Nat) (f : Engine → Word → Engine) : State :=
  if engAt s c e op then settleEngine (modEng s c e (fun E => engGo (f E (engInsn E)) E.pc)) c e else s

/-- Begin a loop whose body ends at an index and runs n times (R128). -/
def beginLoop (E : Engine) (stop : Nat) (n : Int) : Engine :=
  if n ≤ 0 then engGo E stop
  else { E with loops := { start := E.pc + 1, stop := stop, left := n.toNat } :: E.loops, pc := E.pc + 1 }

/-- Add cycles to a deadline register, carrying at 250,000 and saturating at offset 3, cycle 249,999 (R126). -/
def addDl (E : Engine) (n : Nat) : Engine :=
  let t := E.dlCycle + n
  let off := E.dlOff + t / 250000
  if 3 < off then { E with dlOff := 3, dlCycle := 249999 } else { E with dlOff := off, dlCycle := t % 250000 }

/-- A byte of cluster c's SRAM lies in a closed window (R164). -/
def fenced (s : State) (c a : Nat) : Bool :=
  (getClu s c).fence.any (fun x => x.2.closed && decide (4096 * x.2.base ≤ a) && decide (a < 4096 * (x.2.base + x.2.len)))

/-- Pieces of a tensor touch a closed window. -/
def piecesFenced (s : State) (t : List Word) (rs : List (List Piece)) : Bool :=
  decide (tSpace t = 1) && rs.any (fun ps => ps.any (fun x => fenced s (tCluster t) x.addr))

/-- The deadline that an entry issued now carries: what DL held when its data instruction took the port (R138, R140). DESIGN
CHOICE: R138 takes it relative to the clove of issue, which is that in which the entry itself is issued (log entry 89). -/
def entryDl (s : State) (P : EngPort) : Nat × Nat :=
  match P.replay with
  | some n => (n, 249999)
  | none => (s.time.clove + P.dlOff, P.dlCycle)

/-- The lines that an entry needs from the fabric and the cache does not hold, each with its window's C (R130, R274). -/
def fabLines (s : State) (p : Nat) (t : List Word) (rs : List (List Piece)) : List (Nat × Bool) :=
  if tSpace t ≠ 0 then [] else
  let lines := (rs.flatMap (fun ps => ps.filterMap (fun x => (fabTarget s p x.addr).map (fun ga => (ga / 64, (pteOf s p x.addr).c))))).dedup
  lines.filter (fun x => !(fabBad (64 * x.1) || (x.2 && (cacheHit s p x.1).isSome)))

/-- Issue the fabric loads of an entry, one for each line (R130, R274). -/
def loadLines (s : State) (c p : Nat) (t : List Word) (rs : List (List Piece)) : State :=
  (fabLines s p t rs).foldl (fun s x => issueFab s (mkOut (mkReq s p 0 0 false (64 * x.1) 64 [] false) c 0 1 0 0 x.2)) s

/-! ### The issue port (R129) -/

/-- A data instruction takes the port: it reads its registers, and the scalar unit goes on behind it. -/
def takePort (E : Engine) : Engine :=
  let w := engInsn E
  let q := slotQueue E (fld w 22 21)
  let push := decide (cardOp w ≠ 7) && decide (cardOp w ≠ 10)
  let P : EngPort :=
    { w := w, xs := (List.range (16 - fld w 20 17)).map (fun i => engX E (fld w 20 17 + i)), plFirst := E.plFirst
      plCount := E.plCount, dlOff := E.dlOff, dlCycle := E.dlCycle, replay := E.replay
      mark := push && E.markNext.contains q, done := 0, posted := false, part := [] }
  { engGo E E.pc with
    port := some P, markNext := if push then E.markNext.filter (fun x => decide (x ≠ q)) else E.markNext }

/-- The data instruction with this opcode that holds the port, or takes it now; none where the engine has no such work (R129). -/
def portAt (s : State) (c e op : Nat) : Option (EngPort × State) :=
  match (getEng s c e).port with
  | some P => if decide (cardOp P.w = op) && engClocked s c e then some (P, s) else none
  | none =>
    if engAt s c e op then
      let s := modEng s c e takePort
      (getEng s c e).port.map (fun P => (P, s))
    else none

/-- The tensor and the queue of the data instruction that holds a port. -/
def portTensor (s : State) (E : Engine) (P : EngPort) : List Word := slotTensor s E (fld P.w 25 23)
def portQueue (E : Engine) (P : EngPort) : Nat := slotQueue E (fld P.w 22 21)

/-- Change what holds the port of an engine. -/
def modEngPort (s : State) (c e : Nat) (f : EngPort → EngPort) : State := modEng s c e (fun E => { E with port := E.port.map f })

/-- A data instruction gives up the port. A slice mark that no entry of it has carried waits for the next one. -/
def freePort (s : State) (c e : Nat) : State :=
  settleEngine (modEng s c e (fun E => { E with
    port := none, saves := E.saves.map (fun v => { v with early := false })
    markNext := match E.port with
      | some P => if P.mark && decide (P.done = 0) then E.markNext ++ [portQueue E P] else E.markNext
      | none => E.markNext })) c e

/-- Issue one entry of a read instruction. -/
def issueEntry (s : State) (c e : Nat) (P : EngPort) (t : List Word) (rs : List (List Piece)) (ecc : List (Nat × Ecc)) : State :=
  let E := getEng s c e
  let gs := pieceGrans rs
  let s := if tSpace t = 0 then walkAll (tableEcc s ecc) E.part (rs.flatMap (fun ps => ps.map (fun x => x.addr))) else s
  let s := ecc.foldl (fun s x => if gs.contains x.1 then eccAt s E.part t x.1 x.2 else s) s
  let bytes := rs.map (pieceByte s E.part t)
  let kindAt (k : Nat) : List Nat :=
    (List.range 8).filter (fun g => ((bytes.drop (64 * g)).take 64).any (fun b => decide (b.2.2 = k)))
  let dl := entryDl s P
  let fl : Flight :=
    { q := portQueue E P
      entry := padEntry (gransOf 9 (bytes.map (fun b => (BitVec.ofNat 8 b.1, b.2.1)))) (P.mark && decide (P.done = 0))
      dlClove := dl.1, dlCycle := dl.2, far := kindAt 1, hst := kindAt 2 }
  let s := loadLines s c E.part t rs
  modEngPort (modEng s c e (fun E => { E with flight := E.flight ++ [fl] })) c e (fun P => { P with done := P.done + 1 })

/-- The pieces need the fabric, and the partition's reset notice is still open or the retransmit store has no room (R273, R351). -/
def piecesHeld (s : State) (p : Nat) (t : List Word) (rs : List (List Piece)) : Bool :=
  let ls := fabLines s p t rs
  !ls.isEmpty && ((getPart s p).noticeOpen || !storeRoomFor s ls.length)

/-- Issue the entries that are left, as far as 64 in flight and the fences allow (R130, R164). -/
def issueAll (s : State) (c e : Nat) (P : EngPort) (t : List Word) (ecc : List (Nat × Ecc)) : List (List (List Piece)) → State
  | [] => freePort s c e
  | r :: rest =>
    if 64 ≤ (getEng s c e).flight.length || piecesFenced s t r || piecesHeld s (getEng s c e).part t r then s
    else issueAll (issueEntry s c e P t r ecc) c e { P with done := P.done + 1 } t ecc rest

/-- A read instruction takes the port or goes on there: runs gives the runs of bytes it reads. -/
def engRead (s : State) (c e op : Nat) (ecc : List (Nat × Ecc)) (runs : List Word → EngPort → List (List (List Piece))) : State :=
  match portAt s c e op with
  | none => s
  | some (P, s) =>
    let t := portTensor s (getEng s c e) P
    issueAll s c e P t ecc ((cutEntries (runs t P)).drop P.done)

/-- The coordinates of a data instruction. -/
def portXs (t : List Word) (P : EngPort) : List Int := P.xs.take (tNdim t)

/-! ### Writing -/

/-- One field of w bits written at a bit of a byte. -/
structure WrItem where
  addr : Nat
  lo : Nat
  w : Nat
  val : Nat
  psn : Bool
deriving DecidableEq, Repr

/-- Gather items by granule, later ones over earlier ones. -/
def gatherWr (items : List WrItem) : Tab GranWr :=
  items.foldl (fun t x => tabMod {} t (x.addr / 64) (fun g =>
    let sh := x.addr % 64 * 8 + x.lo
    let m : GranuleBits := BitVec.ofNat 512 ((2 ^ x.w - 1) * 2 ^ sh)
    { mask := g.mask ||| m, data := (g.data &&& ~~~m) ||| BitVec.ofNat 512 (x.val % 2 ^ x.w * 2 ^ sh), psn := g.psn || x.psn })) []

/-- What a write instruction has written of a granule so far, with what it writes now. -/
def joinWr (a b : GranWr) : GranWr :=
  { mask := a.mask ||| b.mask, data := (a.data &&& ~~~b.mask) ||| b.data, psn := a.psn || b.psn }

/-- The instruction has written the granule wholly with clean elements (R137). -/
def cleanWhole (w : GranWr) : Bool := decide (w.mask = BitVec.allOnes 512) && !w.psn

/-- The granule after a write, and its poison bit; all holds what the instruction has written of it, this write included (R137). -/
def granAfter (old : GranuleBits) (oldPsn : Bool) (w all : GranWr) : GranuleBits × Bool :=
  ((old &&& ~~~w.mask) ||| w.data, w.psn || (oldPsn && !cleanWhole all))

/-- Stores of a granule that lies in a fabric window: the whole granule, or each 8-byte word written. A byte that the write
does not name goes out with a free value (log entry 28). -/
def fabGranule (s : State) (c p : Nat) (wr : Writer) (ga : Nat) (c' : Bool) (g : GranWr) : State :=
  if g.mask = BitVec.allOnes 512 then
    let bs := leBytes 64 g.data.toNat
    sigStore (issueFab s (mkOut (mkReq s p 1 0 false ga 64 bs g.psn) c 0 1 0 0 c')) p c wr ga bs g.psn
  else
    (List.range 8).foldl (fun s i =>
      let m := g.mask.toNat / 2 ^ (64 * i) % 2 ^ 64
      if m = 0 then s else
      let fill := (Config.freeValue 64 s.fresh).toNat
      let v := (g.data.toNat / 2 ^ (64 * i) % 2 ^ 64) ||| (fill &&& (2 ^ 64 - 1 - m))
      let s := if m = 2 ^ 64 - 1 then s else { s with fresh := s.fresh + 1 }
      let bs := leBytes 8 v
      sigStore (issueFab s (mkOut (mkReq s p 1 0 false (ga + 8 * i) 8 bs g.psn) c 0 1 0 0 c')) p c wr (ga + 8 * i) bs g.psn) s

/-- The poison bits of the LSS entries in granule g of a cluster's SRAM are cleared: it has been written wholly with clean elements
(R98, R137). -/
def clearLssPsn (g : Nat) (t : Tab Bool) : Tab Bool := tabKeep (fun a => decide (a < 64 * g) || decide (64 * g + 64 ≤ a)) t

/-- A store of an engine of cluster c failed at its destination: the partition's work there ends with its status (log entry 98). -/
def noteStore (s : State) (p c st : Nat) : State :=
  if !isOutcome st then s else
  modPart s p (fun P => { P with
    tasks := P.tasks.map (fun t => if t.held.any (fun g => decide (g / 4 = c)) then { t with status := worse t.status st } else t)
    launch := P.launch.map (fun L => if L.running then { L with status := worse L.status st } else L) })

/-- Write one granule of a tensor's space, with its part in the signature (R137, R244); a write to a host whose link is down ends with
TIMEOUT (R371). DESIGN CHOICE: host memory has no poison, so that of elements written to a host page is dropped (log entry 89). -/
def writeGranule (s : State) (c p : Nat) (wr : Writer) (t : List Word) (g : Nat) (w all : GranWr) : State :=
  if tSpace t = 1 then
    let sr := (getClu s (tCluster t)).sram
    let n := granAfter (granData sr g) (granPsn sr g) w all
    let s := modClu s (tCluster t) (fun cl => { cl with
      sram := putGran cl.sram g n.1 n.2, lssPsn := if cleanWhole all then clearLssPsn g cl.lssPsn else cl.lssPsn })
    sigAdd s p c wr 1 (64 * g) n.1 n.2
  else if tSpace t = 2 then
    let cl := getClu s (tCluster t)
    let ph := physOf cl (tArray t)
    let wb := (tabGet {} cl.pa ph).wb
    let n := granAfter (granData wb g) (granPsn wb g) w all
    sigAdd (modPa s (tCluster t) ph (fun pa => { pa with wb := putGran pa.wb g n.1 n.2 })) p c wr 0
      (Config.wbTag (tArray t) (64 * g)) n.1 n.2
  else
    let e := pteOf s p (64 * g)
    let pa := pteAddr e (64 * g)
    if e.kind = 0 then
      let n := granAfter (granData s.hbm.m (pa / 64)) (granPsn s.hbm.m (pa / 64)) w all
      sigAdd { s with hbm := { s.hbm with m := putGran s.hbm.m (pa / 64) n.1 n.2 } } p c wr 0 (64 * g) n.1 n.2
    else if e.kind = 2 then
      let port := (getPart s p).host.val
      let old : GranuleBits := BitVec.ofNat 512 (ofLe (rdBytes (tabGet [] s.host port) pa 64))
      let n := granAfter old false w all
      let bs := leBytes 64 n.1.toNat
      let touched := (List.range 64).filter (fun i => decide (w.mask.toNat / 2 ^ (8 * i) % 256 ≠ 0))
      let s := if hostLinkUp s port then touched.foldl (fun s i => hostWriteFor s p (pa + i) [bs.getD i 0]) s else noteStore s p c stTimeout
      sigAdd s p c wr 0 (64 * g) n.1 n.2
    else if fabBad pa then s else fabGranule s c p wr pa e.c w

/-- The items of the elements of a run that granules lo on of its data hold: what each writes, and how many lie outside the shape
(R124, R127). -/
def wrItems (t : List Word) (xs : List Int) (len lo : Nat) (gs : List Gran) : List WrItem × Nat :=
  let e := tElt t
  let per := if tNibble t then 128 else 64 / e
  let go (j : Nat) : List WrItem × Nat :=
    let x := runAt t xs (per * lo + j)
    if inShape t x then
      let a := eltAddr t x
      if tNibble t then
        let b := granByte gs (j / 2)
        ([{ addr := a.1, lo := 4 * a.2, w := 4, val := b / 16 ^ (j % 2), psn := granBad gs (j / 2) }], 0)
      else ((List.range e).map (fun i =>
        { addr := a.1 + i, lo := 0, w := 8, val := granByte gs (j * e + i), psn := granBad gs (j * e + i) }), 0)
    else if inPadded t x then ([], 0) else ([], 1)
  let rs := (List.range (Nat.min (len - per * lo) (per * gs.length))).map go
  (rs.flatMap (fun r => r.1), rs.foldl (fun n r => n + r.2) 0)

/-- The items of granules lo on of a W-tile (R124). -/
def wrwItems (t : List Word) (n k : Int) (lo : Nat) (gs : List Gran) : List WrItem × Nat :=
  if !tileIn t n k then ([], if lo = 0 then 16384 else 0) else
  ((List.range (64 * gs.length)).flatMap (fun i =>
    (tilePieces t n.toNat k.toNat (64 * lo + i) (64 * lo + i + 1)).flatMap (fun ps => ps.map (fun x =>
      { addr := x.addr, lo := 0, w := x.w, val := granByte gs i, psn := granBad gs i }))), 0)

/-- The row-major linear index of coordinates in the logical shape (R134). -/
def linearIndex (t : List Word) (xs : List Int) : Nat :=
  ofSigned 64 ((List.range (tNdim t)).foldl (fun (acc : Int × Int) d =>
    (acc.1 + xAt xs d * acc.2, acc.2 * tSize t d)) (0, 1)).1

/-- Elements of a run, and the granules that a write instruction takes for them. -/
def portLen (P : EngPort) : Nat := fld P.w 11 0 + 1
def portNeed (t : List Word) (P : EngPort) : Nat :=
  if cardOp P.w = 10 then tTileBytes t / 64
  else ceilDiv (if tNibble t then ceilDiv (portLen P) 2 else portLen P * tElt t) 64

/-- What granules lo on of its data write. -/
def portItems (t : List Word) (P : EngPort) (lo : Nat) (gs : List Gran) : List WrItem × Nat :=
  if cardOp P.w = 10 then wrwItems t (P.xs.getD 0 0) (P.xs.getD 1 0) lo gs
  else wrItems t (portXs t P) (portLen P) lo gs

/-- A granule of a tensor lies in a fabric window: its stores go out together at the end of the instruction (log entry 28). -/
def farGranule (s : State) (p : Nat) (t : List Word) (g : Nat) : Bool :=
  decide (tSpace t = 0) && (fabTarget s p (64 * g)).isSome

/-- One entry of a write instruction has its data: its granules are written, its out-of-range elements counted, and its poison is
reported once for an instruction (R124, R137). all gives what the instruction has written of each granule, this entry included. -/
def writeItems (s : State) (c p : Nat) (wr : Writer) (q : Nat) (t : List Word) (gs : Tab GranWr) (all : Nat → GranWr) (told : Bool) (oob : Nat) : State :=
  let s := if tSpace t = 0 then walkAll s p (gs.map (fun x => 64 * x.1)) else s
  let s := gs.foldl (fun s x => if farGranule s p t x.1 then s else writeGranule s c p wr t x.1 x.2 (all x.1)) s
  let s := modPart s p (fun P => { P with oobWr := satInc 32 P.oobWr oob })
  if !told && gs.any (fun x => x.2.psn) then evPart s p 0x0101 [(1, c), (1, q)] else s

/-- The granules of the queue's head entry that a write instruction takes next. -/
def headGrans (Q : Eq) (need done : Nat) : List Gran :=
  match Q.entries with
  | [] => []
  | e :: _ => ((e.gr.drop Q.taken).filter (fun g => !g.pad)).take (need - done)

/-- A write instruction may take the next entry: no byte of it lies in a closed window (R164), and where it is the last and stores
go to the fabric, the retransmit store has room and no reset notice is open (R273, R351). -/
def mayWrite (s : State) (p : Nat) (t : List Word) (P : EngPort) (items : List WrItem) (last : Bool) : Bool :=
  !(decide (tSpace t = 1) && items.any (fun x => fenced s (tCluster t) x.addr)) &&
  !(last && (items.any (fun x => farGranule s p t (x.addr / 64)) || P.part.any (fun x => farGranule s p t x.1)) &&
    ((getPart s p).noticeOpen ||
      !storeRoomFor s (8 * (P.part.map (fun (x : Nat × GranWr) => x.1) ++ items.map (fun (x : WrItem) => x.addr / 64)).dedup.length)))

/-- A write instruction has written everything: the stores to fabric windows go out, and it gives up the port. -/
def endWrite (s : State) (c e : Nat) (t : List Word) : State :=
  match (getEng s c e).port with
  | none => s
  | some P =>
    let p := (getEng s c e).part
    freePort (P.part.foldl (fun s x => if farGranule s p t x.1 then writeGranule s c p (.engine e) t x.1 x.2 x.2 else s) s) c e

/-- A write instruction takes the entries of its queue one after another, and writes each (R132, R133, R137, R162). -/
def popEntries (c e : Nat) (t : List Word) : Nat → State → State
  | 0, s => s
  | n + 1, s =>
    let E := getEng s c e
    match E.port with
    | none => s
    | some P =>
      let q := portQueue E P
      let Q := getEq (getClu s c) q
      let gs := headGrans Q (portNeed t P) P.done
      if gs.isEmpty then s else
      let it := portItems t P P.done gs
      let last := decide (portNeed t P ≤ P.done + gs.length)
      if !mayWrite s E.part t P it.1 last then s else
      match takeGrans gs.length Q.entries Q.taken with
      | none => s
      | some (_, es, k, _) =>
        let got := Q.entries.length - es.length
        let new := gatherWr it.1
        let all (g : Nat) : GranWr := joinWr (tabGet {} P.part g) (tabGet {} new g)
        let s := modEq s c q (fun Q => { Q with entries := es, taken := k })
        let s := writeItems s c E.part (.engine e) q t new all (P.part.any (fun x => x.2.psn)) it.2
        let s := modEng s c e (fun E => { E with
          wcnt := E.wcnt + BitVec.ofNat 32 got, pops := E.pops + got
          saves := E.saves.map (fun v => if v.early then { v with pops := v.pops + got } else v)
          port := some { P with done := P.done + gs.length, part := new.foldl (fun t x => tabSet {} t x.1 (all x.1)) P.part } })
        let s := cspWake s c
        if last then endWrite s c e t else popEntries c e t n s

/-- A write instruction takes the port or goes on there. post is the index that it posts first (R134); it waits while the sideband
is full. -/
def engPop (s : State) (c e op : Nat) (post : List Word → EngPort → Option Nat) : State :=
  match portAt s c e op with
  | none => s
  | some (P, s) =>
    let E := getEng s c e
    let t := portTensor s E P
    let q := portQueue E P
    let Q := getEq (getClu s c) q
    let posting := Q.idx && (post t P).isSome && !P.posted
    if posting && decide (64 ≤ Q.side.length) then s else
    let s := if posting then
        modEngPort (modEq s c q (fun Q => { Q with side := Q.side ++ [(post t P).getD 0] })) c e (fun P => { P with posted := true })
      else s
    popEntries c e t (Q.entries.length + 1) s

/-- The queue whose next granule the write instruction that holds an engine's port needs (R138). -/
def portWants (s : State) (c e : Nat) : Option Nat :=
  let E := getEng s c e
  match E.port with
  | none => none
  | some P => if (decide (cardOp P.w = 7) || decide (cardOp P.w = 10)) && engClocked s c e then some (portQueue E P) else none

/-! ### Where a program would still write -/

/-- What a scalar instruction leaves, or a data instruction skipped; none at END and at SLM. -/
def skimStep (E : Engine) : Option Engine :=
  let w := engInsn E
  let op := cardOp w
  if !E.run || decide (op = 0) || decide (op = 15) then none
  else if op = 1 then some (engGo (setX E (fld w 25 22) (cardImm w)) E.pc)
  else if op = 2 then some (engGo (setX E (fld w 25 22) (engX E (fld w 25 22) + cardImm w)) E.pc)
  else if op = 3 then some (engGo (setX E (fld w 25 22) (engX E (fld w 25 22) + engX E (fld w 21 18))) E.pc)
  else if op = 4 then some (beginLoop E (fld w 5 0) (fld w 21 6 + 1))
  else if op = 5 then some (beginLoop E (fld w 5 0) (engX E (fld w 25 22)))
  else if op = 12 then some (engGo { E with plFirst := fld w 5 3, plCount := fld w 2 0 + 1 } E.pc)
  else some (engGo E E.pc)

/-- Mark one granule of a tensor's space poisoned. -/
def poisonGranule (s : State) (p : Nat) (t : List Word) (g : Nat) : State :=
  if tSpace t = 1 then modClu s (tCluster t) (fun cl => { cl with sram := setGranPsn cl.sram g true })
  else if tSpace t = 2 then
    modPa s (tCluster t) (physOf (getClu s (tCluster t)) (tArray t)) (fun pa => { pa with wb := setGranPsn pa.wb g true })
  else
    let e := pteOf s p (64 * g)
    if e.v && decide (e.kind = 0) then
      { s with hbm := { s.hbm with m := setGranPsn s.hbm.m (pteAddr e (64 * g) / 64) true } }
    else s

/-- The granules that a write instruction has not written yet are poisoned. -/
def poisonRest (s : State) (E : Engine) (P : EngPort) : State :=
  let t := portTensor s E P
  let n := portNeed t P - P.done
  let it := (portItems t P P.done (List.replicate n {})).1
  ((it.map (fun x => x.addr / 64)).dedup).foldl (fun s g => poisonGranule s E.part t g) s

/-- The write instructions that an engine would still carry out on some queues, up to its next SLM or END: what they would write is
poisoned (R37, R341, R420). -/
def poisonAhead (qs : List Nat) : Nat → State → Engine → State
  | 0, s, _ => s
  | n + 1, s, E =>
    let w := engInsn E
    let wr := E.run && (decide (cardOp w = 7) || decide (cardOp w = 10)) && qs.contains (slotQueue E (fld w 22 21))
    let s := if wr then (match (takePort E).port with
      | some P => poisonRest s E P
      | none => s) else s
    match skimStep E with
    | none => s
    | some E' => poisonAhead qs n s E'

/-- What an engine has not written yet of some queues is poisoned. -/
def poisonOutputs (s : State) (c e : Nat) (qs : List Nat) : State :=
  let E := getEng s c e
  let s := match E.port with
    | some P => if (decide (cardOp P.w = 7) || decide (cardOp P.w = 10)) && qs.contains (portQueue E P) then poisonRest s E P else s
    | none => s
  poisonAhead qs 65536 s E

/-- An access of a partition is in flight: a fabric request, or an entry of one of its engines (R326). -/
def accessOpen (s : State) (p : Nat) : Bool :=
  s.fab.outst.any (fun o => decide (o.req.part.val = p)) ||
  s.clusters.any (fun c => c.2.eng.any (fun e => decide (e.2.part = p) && !e.2.flight.isEmpty))

/-- MEM_UNMAP completes once no access of its partition is in flight (R326). -/
def checkUnmap (s : State) (p : Nat) : State := if accessOpen s p then s else completeWait s (.unmap p) stOk

end Sys2Proof.Machine
end

