-- ==== Sys2Proof/Machine/CodingCore.lean ====
section
/-! DEFINITION. The codes of the coding engines (R196-R205): soft bits, CRCs, LDPC rate matching and syndromes, the polar transform,
Viterbi and convolutional coding, and the turbo code. What R198, R201 and R205 leave open of a decoder's arithmetic is in Config
(log entry 11). -/

namespace Sys2Proof.Machine

open Sys2Proof

/-! ### Bits and soft bits (R196) -/

/-- A soft bit as its engine reads it: -128 reads as -127. -/
def llrOf (b : Byte) : Int := max (-127) (toSigned 8 b.toNat)

/-- A soft bit as a byte. -/
def llrByte (x : Int) : Byte := BitVec.ofNat 8 (ofSigned 8 x)

/-- Saturation to 127 on both sides. -/
def sat127 (x : Int) : Int := clampInt (-127) 127 x

/-- Exactly n bytes of a list. -/
def fitBytes (n : Nat) (bs : List Byte) : List Byte := (bs ++ List.replicate n 0).take n

/-- Bits as bytes, the first in the least significant place. -/
def packBits : Nat → List Bool → List Byte
  | 0, _ => []
  | n + 1, bs =>
    BitVec.ofNat 8 ((bs.take 8).mapIdx (fun i b => b2n b * 2 ^ i)).sum :: packBits n (bs.drop 8)

/-- Bit i of bytes. -/
def bitOf (bs : List Byte) (i : Nat) : Bool := (bs.getD (i / 8) 0).getLsbD (i % 8)

/-- The first n bits of bytes. -/
def bitList (n : Nat) (bs : List Byte) : List Bool := (List.range n).map (bitOf bs)

/-! ### CRCs (TS 38.212, which R198 and R205 name) -/

/-- The remainder of bits under a generator of degree n. -/
def crcRem (n poly : Nat) (bs : List Bool) : Nat :=
  bs.foldl (fun r b =>
    let top := r / 2 ^ (n - 1) % 2
    let r := r * 2 % 2 ^ n
    if (top + b2n b) % 2 = 1 then r ^^^ poly else r) 0

/-- The bits end in their CRC. -/
def crcOk (n poly : Nat) (bs : List Bool) : Bool := decide (crcRem n poly bs = 0)

/-- The code-block CRC of an LDPC job passes: 1 CRC24B, 2 CRC16, 3 CRC24A; 0 is none (R198). -/
def ldpcCrc (sel : Nat) (bs : List Bool) : Bool :=
  if sel = 1 then crcOk 24 0x800063 bs else if sel = 2 then crcOk 16 0x1021 bs else if sel = 3 then crcOk 24 0x864CFB bs
  else Config.noCrcOk

/-- The CRC of a turbo job passes: 1 CRC24A, 2 CRC24B. -/
def turboCrc (sel : Nat) (bs : List Bool) : Bool :=
  if sel = 1 then crcOk 24 0x864CFB bs else if sel = 2 then crcOk 24 0x800063 bs else false

/-! ### LDPC (R198, R200) -/

def lEnc (w : List Word) : Bool := bit (wd w 0) 0
def lBg2 (w : List Word) : Bool := bit (wd w 0) 1
def lZc (w : List Word) : Nat := fld (wd w 0) 10 2
def lRows (w : List Word) : Nat := fld (wd w 0) 16 11
def lIter (w : List Word) : Nat := fld (wd w 0) 22 17
def lEt (w : List Word) : Bool := bit (wd w 0) 23
def lHarq (w : List Word) : Bool := bit (wd w 0) 24
def lCrc (w : List Word) : Nat := fld (wd w 0) 26 25
def lKprime (w : List Word) : Nat := fld (wd w 1) 13 0
def lFiller (w : List Word) : Nat := fld (wd w 1) 27 14
def lE (w : List Word) : Nat := fld (wd w 2) 17 0
def lRv (w : List Word) : Nat := fld (wd w 2) 19 18
def lQm (w : List Word) : Nat := fld (wd w 2) 23 20
def lNcb (w : List Word) : Nat := fld (wd w 3) 16 0

/-- Systematic columns of the base graph. -/
def lKb (w : List Word) : Nat := if lBg2 w then 10 else 22

/-- The set of lifting sizes that a size belongs to: by its odd part, the sets being 2, 3, 5, 7, 9, 11, 13, 15 times powers of two. -/
def zcSet (z : Nat) : Nat :=
  (([2, 3, 5, 7, 9, 11, 13, 15] : List Nat).findIdx? (fun a => (List.range 8).any (fun j => decide (a * 2 ^ j = z)))).getD 0

/-- The start position k0 of a redundancy version (TS 38.212 table 5.4.2.1-2). -/
def lK0 (w : List Word) : Nat :=
  let a := if lRv w = 0 then 0 else if lRv w = 1 then (if lBg2 w then 13 else 17)
    else if lRv w = 2 then (if lBg2 w then 25 else 33) else (if lBg2 w then 43 else 56)
  a * lNcb w / ((if lBg2 w then 50 else 66) * lZc w) * lZc w

/-- A position of the circular buffer holds filler: the buffer begins after the first 2 Z systematic bits. -/
def lIsFiller (w : List Word) (i : Nat) : Bool :=
  decide (lKprime w ≤ i + 2 * lZc w) && decide (i + 2 * lZc w < lKprime w + lFiller w)

/-- The positions that the rate-matched bits take in turn: from k0 round the buffer, without filler. -/
def lOrder (w : List Word) : List Nat :=
  ((List.range (lNcb w)).map (fun i => (lK0 w + i) % lNcb w)).filter (fun i => !lIsFiller w i)

/-- The place among the rate-matched bits before interleaving of bit y of the E bits sent (TS 38.212 5.4.2.2). -/
def lInter (w : List Word) (y : Nat) : Nat :=
  let n := lE w / lQm w
  if y < n * lQm w then y % lQm w * n + y / lQm w else y

/-- The rate-matched soft bits before interleaving, of the E received. -/
def lDeint (w : List Word) (llr : List Int) : List Int :=
  let n := lE w / lQm w
  (List.range (lE w)).map (fun x => llr.getD (if x < n * lQm w then x / n + x % n * lQm w else x) 0)

/-- The circular buffer that E soft bits give: filler +127, positions without a soft bit 0. -/
def ldpcDematch (w : List Word) (llr : List Int) : List Int :=
  let e := lDeint w llr
  let ord := lOrder w
  (List.range (lNcb w)).map (fun i =>
    if lIsFiller w i then 127
    else match ord.idxOf? i with
      | none => 0
      | some k => match ((List.range (ceilDiv (lE w) (Nat.max 1 ord.length))).map (fun t => k + t * ord.length)).filter (fun x => decide (x < lE w)) with
        | [] => 0
        | a :: r => r.foldl (fun acc x => Config.llrRepeat acc (e.getD x 0)) (e.getD a 0))

/-- The rows of the parity-check matrix that a job uses all hold for the bits of a code word. -/
def ldpcSynd (w : List Word) (c : Nat → Bool) : Bool :=
  let z := lZc w
  (List.range (lRows w)).all (fun r => (List.range z).all (fun t =>
    !((List.range (lKb w + lRows w)).foldl (fun acc j =>
      match Config.ldpcShift (lBg2 w) (zcSet z) r j with
      | none => acc
      | some v => xor acc (c (j * z + (t + v) % z))) false)))

/-- The iterations that a decode runs: with ET up to the first whose syndrome is zero. -/
def ldpcIters (w : List Word) (soft : List Int) : Nat :=
  if lEt w then (((List.range (lIter w)).map (fun i => i + 1)).find? (fun i => ldpcSynd w (Config.ldpcHard w soft i))).getD (lIter w)
  else lIter w

/-- A decode of a circular buffer: the hard bits without filler, the iterations run, SYND_OK and CRC_OK. -/
def ldpcDecode (w : List Word) (soft : List Int) : List Bool × Nat × Bool × Bool :=
  let n := ldpcIters w soft
  let hard := Config.ldpcHard w soft n
  let bits := (List.range (lKprime w)).map hard
  (bits, n, ldpcSynd w hard, ldpcCrc (lCrc w) bits)

/-- The E rate-matched bits of an encode. -/
def ldpcEncode (w : List Word) (info : List Bool) : List Bool :=
  let ord := lOrder w
  let c (i : Nat) : Bool :=
    if i < lKprime w then info.getD i false
    else if i < lKprime w + lFiller w then false else Config.ldpcParity w info i
  (List.range (lE w)).map (fun y => c (ord.getD (lInter w y % Nat.max 1 ord.length) 0 + 2 * lZc w))

/-! ### Polar (R201) -/

/-- The polar transform: one stage for each power of two. -/
def polarStage (h : Nat) (x : List Bool) : List Bool :=
  x.mapIdx (fun i b => if i / h % 2 = 0 then xor b (x.getD (i + h) false) else b)

/-- The coded bits of an input vector of 2^m bits. -/
def polarXform : Nat → Nat → List Bool → List Bool
  | 0, _, x => x
  | m + 1, h, x => polarXform m (2 * h) (polarStage h x)

/-- The information bits in the places of the mask that are not frozen; frozen places hold 0. -/
def polarFill : List Bool → List Bool → List Bool
  | [], _ => []
  | true :: t, bs => false :: polarFill t bs
  | false :: t, bs => bs.headD false :: polarFill t (bs.drop 1)

/-- Information bits of a polar job. -/
def polarInfo (j : Polar) : Nat := (j.frozen.filter (fun b => !b)).length

/-- The coded bits of an encode. -/
def polarEncode (j : Polar) (info : List Bool) : List Bool := polarXform (Nat.log2 j.n) 1 (polarFill j.frozen info)

/-- Put a path among paths in order of metric, best (least) first, after those of equal metric. -/
def pathInsert (x : List Bool × BitVec 32) : List (List Bool × BitVec 32) → List (List Bool × BitVec 32)
  | [] => [x]
  | y :: t => if x.2.toNat < y.2.toNat then x :: y :: t else y :: pathInsert x t

/-- Bytes of one candidate in the output of a decode: its vector, and a word with its metric (log entry 11). -/
def polarRec (j : Polar) : Nat := ceilDiv (polarInfo j) 8 + 4

/-- The eight candidates of a decode, best first, equal metrics by lower path index. -/
def polarDecode (j : Polar) (llr : List Int) : List Byte :=
  let ps := (List.range 8).foldl (fun l i => pathInsert (Config.polarPath j llr i) l) []
  ps.flatMap (fun x => packBits (ceilDiv (polarInfo j) 8) x.1 ++ leBytes 4 x.2.toNat)

/-! ### Trellis: job words -/

/-- Stored outputs per step of a trellis job. -/
def tNout (w : List Word) : Nat := fld (wd w 0) 8 7 + 1
def tMode (w : List Word) : Nat := fld (wd w 0) 2 0
def tNu (w : List Word) : Nat := fld (wd w 0) 6 3
def tCrc (w : List Word) : Nat := fld (wd w 0) 10 9
def tIter (w : List Word) : Nat := fld (wd w 0) 14 11
def tExt (w : List Word) : Nat := fld (wd w 0) 18 15
def tK (w : List Word) : Nat := fld (wd w 1) 12 0
def tPre (w : List Word) : Nat := fld (wd w 1) 20 13
def tPost (w : List Word) : Nat := fld (wd w 1) 28 21
/-- Generator i, and the feedback polynomial. -/
def tGen (w : List Word) (i : Nat) : Nat := if i < 3 then fld (wd w 2) (9 * i + 8) (9 * i) else fld (wd w 3) 8 0
def tFb (w : List Word) : Nat := fld (wd w 3) 17 9

/-! ### Viterbi and convolutional coding (R202-R204) -/

/-- Saturation to 18 bits. -/
def sat18 (x : Int) : Int := clampInt (-131072) 131071 x

/-- Branch metric of a transition r. -/
def branchMetric (w : List Word) (r : Nat) (l : List Int) : Int :=
  (l.mapIdx (fun i x => if parity 9 (r &&& tGen w i) then -x else x)).foldl (fun a b => a + b) 0

/-- One trellis step: new metrics and the picks. -/
def trellisStep (w : List Word) (m : List Int) (l : List Int) : List (Int × Nat) :=
  let nu := tNu w
  let S := 2 ^ nu
  (List.range S).map (fun sn =>
    let u := sn / 2 ^ (nu - 1)
    let cand (b : Nat) : Int :=
      let p := sn * 2 % S + b
      sat18 (m.getD p 0 + branchMetric w (u * 2 ^ nu + p) l)
    if cand 0 < cand 1 then (cand 1, 1) else (cand 0, 0))

/-- Normalisation after a radix-4 step, and after a final odd step. -/
def normMetrics (w : List Word) (m : List Int) : List Int :=
  let thr : Int := fld (wd w 5) 17 0
  let top := m.foldl max (m.headD 0)
  if thr ≤ top then m.map (fun x => sat18 (x - thr)) else m

/-- The forward recursion: metrics and picks, the last step's first; i counts steps of n. -/
def forward (w : List Word) (n : Nat) : Nat → List (List Int) → List Int → List (List Nat) → List Int × List (List Nat)
  | _, [], m, d => (m, d)
  | i, l :: t, m, d =>
    let r := trellisStep w m l
    let m1 := r.map (fun x => x.1)
    let m2 := if i % 2 = 1 ∨ i + 1 = n then normMetrics w m1 else m1
    forward w n (i + 1) t m2 (r.map (fun x => x.2) :: d)

/-- The traceback: input bits, the last step's first. -/
def traceback (nu : Nat) : List (List Nat) → Nat → List Bool
  | [], _ => []
  | d :: t, sn => decide (sn / 2 ^ (nu - 1) = 1) :: traceback nu t (sn * 2 % 2 ^ nu + d.getD sn 0)

/-- The first state with the largest metric. -/
def bestState (m : List Int) : Nat :=
  ((m.mapIdx (fun i x => (i, x))).foldl (fun (b : Nat × Int) x => if b.2 < x.2 then x else b) (0, m.headD 0)).1

/-- Viterbi decoding of modes 0 and 1 (R204): K bits in order. -/
def viterbi (w : List Word) (llr : List Byte) : List Bool :=
  let no := tNout w
  let K := tK w
  let nu := tNu w
  let at_ (i : Nat) : List Int := (List.range no).map (fun j => llrOf (llr.getD (i * no + j) 0))
  if tMode w = 0 then
    let pos := (List.range (tPre w)).map (fun (i : Nat) => (((K : Int) - tPre w + i) % (K : Int)).toNat) ++ List.range K ++
      (List.range (tPost w)).map (fun i => i % K)
    let r := forward w pos.length 0 (pos.map at_) (List.replicate (2 ^ nu) 0) []
    (((traceback nu r.2 (bestState r.1)).drop (tPost w)).take K).reverse
  else
    let r := forward w (K + nu) 0 ((List.range (K + nu)).map at_)
      ((List.range (2 ^ nu)).map (fun i => if i = 0 then 0 else -65536)) []
    ((traceback nu r.2 0).drop nu).take K |>.reverse

/-- Tail-biting convolutional encoding (R203): the state starts from the last nu inputs, the block repeating where it is shorter. -/
def convEncode (w : List Word) (info : List Byte) : List Bool :=
  let nu := tNu w
  let K := tK w
  let u (i : Nat) : Nat := b2n (bitOf info i)
  let start := (List.range nu).foldl (fun (st i : Nat) => st / 2 + u (((i : Int) - nu) % (K : Int)).toNat * 2 ^ (nu - 1)) 0
  ((List.range K).foldl (fun (acc : List Bool × Nat) i =>
    let r := u i * 2 ^ nu + acc.2
    (acc.1 ++ (List.range (tNout w)).map (fun j => parity 9 (r &&& tGen w j)), acc.2 / 2 + u i * 2 ^ (nu - 1))) ([], start)).1

/-! ### The turbo code (R202, R204, R205; TS 36.212 5.1.3.2) -/

/-- The QPP interleaver: place i of the second constituent takes this place of the block. -/
def qpp (w : List Word) (i : Nat) : Nat := (fld (wd w 4) 8 0 * i + fld (wd w 4) 24 16 * (i * i)) % Nat.max 1 (tK w)

/-- One step of a constituent encoder from a state: the parity bit and the next state. The state holds the last nu values after
the feedback. -/
def rscStep (w : List Word) (st : Nat) (u : Bool) : Bool × Nat :=
  let nu := tNu w
  let a := xor u (parity 9 (tFb w % 2 ^ nu &&& st))
  let r := b2n a * 2 ^ nu + st
  (parity 9 (r &&& tGen w 0), r / 2)

/-- A constituent's parity bits over a block, and the state it ends in. -/
def rscRun (w : List Word) : List Bool → Nat → List Bool × Nat
  | [], st => ([], st)
  | u :: t, st =>
    let x := rscStep w st u
    let r := rscRun w t x.2
    (x.1 :: r.1, r.2)

/-- The tail that brings a constituent to state 0: systematic and parity bits in turn. -/
def rscTail (w : List Word) : Nat → Nat → List Bool
  | 0, _ => []
  | n + 1, st =>
    let u := parity 9 (tFb w % 2 ^ tNu w &&& st)
    let x := rscStep w st u
    u :: x.1 :: rscTail w n x.2

/-- Turbo encoding: d(0), d(1) and d(2) in turn per step, then the 12 tail bits of both constituents. -/
def turboEncode (w : List Word) (info : List Byte) : List Bool :=
  let K := tK w
  let u := bitList K info
  let v := (List.range K).map (fun i => u.getD (qpp w i) false)
  let a := rscRun w u 0
  let b := rscRun w v 0
  (List.range K).flatMap (fun i => [u.getD i false, a.1.getD i false, b.1.getD i false]) ++
    rscTail w 3 a.2 ++ rscTail w 3 b.2

/-- The metrics that the windows of a constituent left at their ends and starts. -/
structure Edges where
  fwd : List (List Int)
  bwd : List (List Int)
deriving DecidableEq, Repr

/-- A constituent pass over its 8 windows: each boundary starts from a training run of PRE steps in the first iteration, and from
the metrics its neighbour left in the iteration before afterwards. -/
def turboPass (w : List Word) (steps : List (Int × Int × Int)) (tail : List (Int × Int)) (prev : Option Edges) :
    List Int × List Bool × Edges :=
  let n := tK w / 8
  let win (m : Nat) : List (Int × Int × Int) := (steps.drop (m * n)).take n
  let fwd (m : Nat) : List Int :=
    if m = 0 then Config.turboEdge w false tail
    else match prev with
      | some e => e.fwd.getD (m - 1) []
      | none => Config.turboTrain w false ((steps.take (m * n)).drop (m * n - tPre w))
  let bwd (m : Nat) : List Int :=
    if m = 7 then Config.turboEdge w true tail
    else match prev with
      | some e => e.bwd.getD (m + 1) []
      | none => Config.turboTrain w true ((steps.drop ((m + 1) * n)).take (tPre w)).reverse
  let r := (List.range 8).map (fun m => Config.turboWindow w (win m) (fwd m) (bwd m))
  (r.flatMap (fun x => x.1), r.flatMap (fun x => x.2.1), { fwd := r.map (fun x => x.2.2.1), bwd := r.map (fun x => x.2.2.2) })

/-- An extrinsic value as the other constituent takes it: scaled, truncated toward zero, saturated. -/
def extScale (w : List Word) (x : Int) : Int := sat127 (Int.tdiv (x * tExt w) 16)

/-- What the decoder of a turbo block carries from one iteration to the next: the a priori values and both constituents' edges. -/
structure TurboSt where
  apr : List Int
  e1 : Option Edges
  e2 : Option Edges
deriving DecidableEq, Repr

/-- One iteration: both constituent passes, and the hard decisions in the block's order. -/
def turboIter (w : List Word) (l : List Int) (t : TurboSt) : TurboSt × List Bool :=
  let K := tK w
  let get (o i : Nat) : Int := l.getD (3 * i + o) 0
  let tail (o : Nat) : List (Int × Int) := (List.range 3).map (fun i => (l.getD (3 * K + o + 2 * i) 0, l.getD (3 * K + o + 2 * i + 1) 0))
  let p1 := turboPass w ((List.range K).map (fun i => (get 0 i, get 1 i, t.apr.getD i 0))) (tail 0) t.e1
  let x1 := p1.1.map (extScale w)
  let p2 := turboPass w ((List.range K).map (fun i => (get 0 (qpp w i), get 2 i, x1.getD (qpp w i) 0))) (tail 6) t.e2
  let inv := (List.range K).map (fun i => ((List.range K).map (qpp w)).idxOf i)
  ({ apr := inv.map (fun k => extScale w (p2.1.getD k 0)), e1 := some p1.2.2, e2 := some p2.2.2 },
   inv.map (fun k => p2.2.1.getD k false))

/-- Iterations up to the first whose CRC passes: the bits, how many ran, and whether the CRC passed. -/
def turboRun (w : List Word) (l : List Int) : Nat → Nat → TurboSt → List Bool → List Bool × Nat × Bool
  | 0, n, _, bits => (bits, n, false)
  | k + 1, n, t, _ =>
    let r := turboIter w l t
    if turboCrc (tCrc w) r.2 then (r.2, n + 1, true) else turboRun w l k (n + 1) r.1 r.2

/-- A turbo decode: its bits, iterations and CRC_OK. -/
def turboDecode (w : List Word) (l : List Int) : List Bool × Nat × Bool :=
  turboRun w l (tIter w) 0 { apr := [], e1 := none, e2 := none } []

end Sys2Proof.Machine
end

