-- ==== Sys2Proof/Machine/Coding.lean ====
section
/-! DEFINITION. The channel coding engines (R195-R206): jobs, deadlines, LDPC, polar and trellis units, and an instance that fails
(R208, R417). Pools are numbered 0 LDPC decoders, 1 LDPC encoders, 2 polar, 3 trellis. -/

namespace Sys2Proof.Machine

open Sys2Proof

/-! ### Pools (R195, R207, R208) -/

/-- Instances of a pool. -/
def poolSize (pool : Nat) : Nat := if pool = 0 then 16 else if pool = 1 then 8 else if pool = 2 then 4 else 8

/-- The key of an instance. -/
def instKey (pool n : Nat) : Nat := 16 * pool + n

/-- Instances of a pool in service, by number. -/
def inService (s : State) (pool : Nat) : List Nat :=
  (List.range (poolSize pool)).filter (fun n => !(getInst s (instKey pool n)).bypass)

/-- Admitted load of a pool per clove. -/
def poolLoad (s : State) (pool : Nat) : Nat :=
  s.radio.cells.foldl (fun n c => if c.2.live then n + cBudget c.2.ctx (2 + pool) else n) 0

/-- Limit of a pool per clove with n instances (R207). -/
def poolLimit (pool n : Nat) : Nat := (n - 1) * (if pool = 3 then 220000 else 110000)

/-- RAD_CAPACITY (R208): a pool has fallen below its admitted load. -/
def capacityCheck (s : State) (pool : Nat) : State :=
  let lim := poolLimit pool (inService s pool).length
  if poolLoad s pool ≤ lim then s else
  let items := [(1, pool), (4, poolLoad s pool - lim)]
  evPool ((radioParts s).foldl (fun s p => evPart s p 0x0202 items) s) 0x0202 items

/-! ### Soft bits (R196) -/

/-- Soft input: bytes of poisoned granules read as zeros; the flag says one was met (R196). Each byte is asked for its own
granule's poison. -/
def readLlr (s : State) (p va n : Nat) : List Byte × Bool :=
  match rdVaP s p va n with
  | none => ([], true)
  | some (bs, false) => (bs.map (fun b => llrByte (llrOf b)), false)
  | some (bs, true) =>
    (bs.mapIdx (fun i b => match rdVaP s p (va + i) 1 with
      | some (_, false) => llrByte (llrOf b)
      | _ => 0), true)

/-- The soft input of a job as numbers. -/
def softIn (s : State) (p va n : Nat) : List Int × Bool :=
  let x := readLlr s p va n
  (x.1.map llrOf, x.2)

/-- The information bytes of an encode: bytes of poisoned granules read as zeros (R196). -/
def readBits (s : State) (p va n : Nat) : List Byte × Bool :=
  match rdVaP s p va n with
  | none => (List.replicate n 0, true)
  | some (bs, false) => (bs, false)
  | some (bs, true) =>
    (bs.mapIdx (fun i b => match rdVaP s p (va + i) 1 with
      | some (_, false) => b
      | _ => 0), true)

/-! ### Job words (R198, R201 and the table of TRL_JOB) -/

def jIn (o : Nat) (w : List Word) : Nat := fld48 w o

/-- Lifting sizes of TS 38.212. -/
def zcOk (z : Nat) : Bool :=
  [2, 3, 5, 7, 9, 11, 13, 15].any (fun a => (List.range 8).any (fun j => decide (a * 2 ^ j = z))) && decide (z ≤ 384)

/-- LDPC_JOB keeps to its table (R198). -/
def ldpcOk (w : List Word) : Bool :=
  let enc := bit (wd w 0) 0
  let bg2 := bit (wd w 0) 1
  let z := fld (wd w 0) 10 2
  let rows := fld (wd w 0) 16 11
  let it := fld (wd w 0) 22 17
  decide (fld (wd w 0) 31 27 = 0) && decide (fld (wd w 1) 31 28 = 0) && decide (fld (wd w 2) 31 24 = 0) &&
  decide (fld (wd w 3) 31 17 = 0) && decide (fld (wd w 5) 31 16 = 0) && decide (fld (wd w 7) 31 16 = 0) &&
  decide (fld (wd w 9) 31 16 = 0) && decide (fld (wd w 11) 31 18 = 0) && decide (fld (wd w 12) 31 24 = 0) &&
  (w.drop 13).all (fun x => decide (x = 0)) && zcOk z && decide (4 ≤ rows) && decide (rows ≤ (if bg2 then 42 else 46)) &&
  (enc || (decide (1 ≤ it) && decide (it ≤ 32))) &&
  decide (fld (wd w 1) 13 0 + fld (wd w 1) 27 14 = (if bg2 then 10 else 22) * z) && decide (1 ≤ fld (wd w 2) 17 0) &&
  [1, 2, 4, 6, 8, 10].contains (fld (wd w 2) 23 20) && decide (fld (wd w 3) 16 0 ≤ (if bg2 then 50 else 66) * z) &&
  decide (fld (wd w 11) 17 0 ≤ 249999)

/-- TRL_JOB keeps to its table and the limits of the section (R202, R204). -/
def trlOk (w : List Word) : Bool :=
  let m := tMode w
  let turbo := decide (m = 2) || decide (m = 4)
  let nu := tNu w
  let k := tK w
  decide (m ≤ 4) && decide (fld (wd w 0) 31 19 = 0) && decide (fld (wd w 1) 31 29 = 0) && decide (fld (wd w 2) 31 27 = 0) &&
  decide (fld (wd w 3) 31 18 = 0) && decide (fld (wd w 4) 15 9 = 0) && decide (fld (wd w 4) 31 25 = 0) &&
  decide (fld (wd w 5) 31 18 = 0) && decide (fld (wd w 7) 31 16 = 0) && decide (fld (wd w 9) 31 16 = 0) &&
  decide (fld (wd w 11) 31 18 = 0) && decide (fld (wd w 12) 31 24 = 0) && (w.drop 13).all (fun x => decide (x = 0)) &&
  decide (2 ≤ nu) && decide (nu ≤ 8) && (!turbo || decide (nu = 3)) && decide (2 ≤ tNout w) && decide (fld (wd w 0) 10 9 ≠ 3) &&
  (decide (m ≠ 2) || (decide (1 ≤ fld (wd w 0) 14 11) && decide (fld (wd w 0) 14 11 ≤ 8))) &&
  (if turbo then decide (40 ≤ k) && decide (k ≤ 6144) && decide (k % 8 = 0) else decide (1 ≤ k) && decide (k ≤ 4096)) &&
  (decide (m ≠ 0) || decide (tPre w + k + tPost w ≤ 4096)) &&
  (decide (m = 3) || decide (m = 4) || (decide (2 ^ 10 ≤ fld (wd w 5) 17 0) && decide (fld (wd w 5) 17 0 ≤ 2 ^ 16))) &&
  (List.range 4).all (fun i => if i < tNout w then decide (tGen w i < 2 ^ (nu + 1)) else decide (tGen w i = 0)) &&
  decide (fld (wd w 11) 17 0 ≤ 249999)

/-- A polar job keeps to R201. -/
def polarOk (j : Polar) : Bool :=
  [32, 64, 128, 256, 512, 1024].contains j.n && decide (j.frozen.length = j.n) && decide (j.dlCycle ≤ 249999)

/-- Soft bits that a trellis decode reads. -/
def trlIn (w : List Word) : Nat :=
  if tMode w = 0 then tK w * tNout w else if tMode w = 1 then (tK w + tNu w) * tNout w
  else if tMode w = 2 then tK w * 3 + 12 else ceilDiv (tK w) 8

/-! ### Jobs (R197) -/

/-- Where a job reads and writes: input address and bytes, output address and bytes. -/
def jobSpans (k : JobKind) : Nat × Nat × Nat × Nat :=
  match k with
  | .ldpc w =>
    if bit (wd w 0) 0 then (jIn 4 w, ceilDiv (fld (wd w 1) 13 0) 8, jIn 6 w, ceilDiv (fld (wd w 2) 17 0) 8)
    else (jIn 4 w, fld (wd w 2) 17 0, jIn 6 w, ceilDiv (fld (wd w 1) 13 0) 8)
  | .polar j =>
    if j.encode then (j.inAddr.toNat, ceilDiv (polarInfo j) 8, j.outAddr.toNat, j.n / 8)
    else (j.inAddr.toNat, j.n, j.outAddr.toNat, 8 * polarRec j)
  | .trl w =>
    (jIn 6 w, trlIn w, jIn 8 w,
     if tMode w = 3 then ceilDiv (tK w * tNout w) 8 else if tMode w = 4 then ceilDiv (tK w * 3 + 12) 8 else ceilDiv (tK w) 8)

/-- The soft buffer of a HARQ job: address and bytes. -/
def harqSpan (k : JobKind) : Option (Nat × Nat) :=
  match k with
  | .ldpc w => if !bit (wd w 0) 0 && bit (wd w 0) 24 then some (jIn 8 w, fld (wd w 3) 16 0) else none
  | _ => none

/-- A job's addresses can be read and written. -/
def jobMapped (s : State) (p : Nat) (k : JobKind) : Bool :=
  let x := jobSpans k
  (rdVa s p x.1 x.2.1).isSome && canWrVa s p x.2.2.1 x.2.2.2 &&
  (match harqSpan k with
   | none => true
   | some (a, n) => (rdVa s p a n).isSome && canWrVa s p a n)

/-- A job ends: its completion goes to its control core. -/
def jobOut (s : State) (pool n status : Nat) (info : List Nat) : State := emit s (.job pool n status info)

/-- A job that has not started completes with DEADLINE and poisoned output (R197). -/
def jobExpire (s : State) (pool : Nat) (j : Job) : State :=
  let x := jobSpans j.kind
  jobOut (wrVaP s j.part x.2.2.1 (List.replicate x.2.2.2 0) true) pool 255 stDeadline []

/-- A soft buffer of a partition is in use (R198, R349). -/
def noteSoft (s : State) (p a len : Nat) : State :=
  if s.radio.soft.contains (p, a, len) then s else { s with radio := { s.radio with soft := s.radio.soft ++ [(p, a, len)] } }

/-- A job starts on an instance. A HARQ job adds the soft bits it finds in the buffer to its new ones, position by position, and
writes the sum back (R198); granules of its inputs that were poisoned have counted as zeros, so what it writes is clean, and that
it met one is kept for its status (R197). -/
def jobStart (s : State) (pool n : Nat) (j : Job) : State :=
  match j.kind, harqSpan j.kind with
  | .ldpc w, some (a, len) =>
    if j.harqDone then modInst s (instKey pool n) (fun I => { I with job := some j }) else
    let old := softIn s j.part a len
    let src := softIn s j.part (jIn 4 w) (lE w)
    let new := ldpcDematch w src.1
    let bs := (List.range len).map (fun i => llrByte (sat127 (old.1.getD i 0 + new.getD i 0)))
    modInst (noteSoft (wrVa s j.part a bs) j.part a len) (instKey pool n) (fun I => { I with job := some { j with harqDone := true, psn := old.2 || src.2 } })
  | _, _ => modInst s (instKey pool n) (fun I => { I with job := some j })

/-- The free instance of a pool with the lowest index (R195). -/
def freeInst (s : State) (pool : Nat) : Option Nat :=
  (inService s pool).find? (fun n => decide ((getInst s (instKey pool n)).job = none) && !(getInst s (instKey pool n)).faulty)

/-- Give waiting jobs of a pool to free instances, oldest first; one whose deadline has come does not run. -/
def jobFeed (s : State) (pool : Nat) : Nat → State
  | 0 => s
  | f + 1 =>
    match s.radio.waiting.find? (fun x => decide (x.1 = pool)) with
    | none => s
    | some x =>
      let drop (s : State) : State := { s with radio := { s.radio with waiting := s.radio.waiting.erase x } }
      if dlDone s (x.2.dlClove, x.2.dlCycle) then jobFeed (jobExpire (drop s) pool x.2) pool f
      else match freeInst s pool with
        | none => s
        | some n => if !s.time.cloveRun then s else jobFeed (jobStart (drop s) pool n x.2) pool f

/-- Jobs of a pool that wait are given to its free instances. -/
def feedPool (s : State) (pool : Nat) : State := jobFeed s pool s.radio.waiting.length

/-- A job comes to a pool. -/
def jobPut (s : State) (pool : Nat) (j : Job) : State :=
  let s := { s with radio := { s.radio with waiting := s.radio.waiting ++ [(pool, j)] } }
  feedPool s pool

/-- The clove that a deadline field names, past ones counting as the clove before now (R222). -/
def jobClove (s : State) (f : Nat) : Nat := ((s.time.clove : Int) + s32Diff f s.time.clove).toNat

/-- A job with its partition and generation is checked and taken (R20, R195, R197). -/
def jobTake (s : State) (pool : Nat) (k : JobKind) (ok : Bool) (part gen dlClove dlCycle : Nat) : State :=
  let P := getPart s part
  let e := errsOf [ (!ok || decide (64 ≤ part), stBadParam), (!P.live || decide (P.typ ≠ 0), stDenied),
    (P.live && decide (P.gen.toNat ≠ gen), stStale), (ok && P.live && !jobMapped s part k, stBounds) ]
  if !e.isEmpty then jobOut s pool 255 (lowest e) []
  else jobPut s pool { kind := k, part := part, dlClove := jobClove s dlClove, dlCycle := dlCycle, harqDone := false, psn := false }

/-- LDPC_JOB (R195-R198). -/
def execLdpcJob (w : List Word) (s : State) : Host.Outcome State Fault Refusal :=
  inRun s (fun s => jobTake s (b2n (bit (wd w 0) 0)) (.ldpc w) (ldpcOk w) (fld (wd w 12) 23 16) (fld (wd w 12) 15 0)
    (wd w 10).toNat (fld (wd w 11) 17 0))

/-- POLAR_JOB (R195-R197, R201). -/
def execPolarJob (j : Polar) (s : State) : Host.Outcome State Fault Refusal :=
  inRun s (fun s => jobTake s 2 (.polar j) (polarOk j) j.part.val j.gen.toNat j.dlClove.toNat j.dlCycle)

/-- TRL_JOB (R195-R197, R203-R205). -/
def execTrlJob (w : List Word) (s : State) : Host.Outcome State Fault Refusal :=
  inRun s (fun s => jobTake s 3 (.trl w) (trlOk w) (fld (wd w 12) 23 16) (fld (wd w 12) 15 0) (wd w 10).toNat (fld (wd w 11) 17 0))

/-- JOB_DEADLINE (R197). -/
def execJobDeadline (pool : Fin 4) (s : State) : Host.Outcome State Fault Refusal :=
  inRun s (fun s =>
    let gone := s.radio.waiting.filter (fun x => decide (x.1 = pool.val) && dlDone s (x.2.dlClove, x.2.dlCycle))
    let s := { s with radio := { s.radio with waiting := s.radio.waiting.filter (fun x => !gone.contains x) } }
    gone.foldl (fun s x => jobExpire s pool.val x.2) s)

/-- What a job puts out: its bytes, what its completion carries beside the status, whether its input was poisoned, and whether its
CRC passes (R197, R200, R201, R204). -/
def jobResult (s : State) (j : Job) : List Byte × List Nat × Bool × Bool :=
  let x := jobSpans j.kind
  match j.kind with
  | .ldpc w =>
    if lEnc w then
      let d := readBits s j.part x.1 x.2.1
      (packBits x.2.2.2 (ldpcEncode w (bitList (lKprime w) d.1)), [], d.2, false)
    else
      let soft : List Int × Bool := match harqSpan j.kind with
        | some (a, n) =>
          let b := softIn s j.part a n
          (b.1.mapIdx (fun i v => if lIsFiller w i then 127 else v), j.psn || b.2)
        | none =>
          let src := softIn s j.part x.1 x.2.1
          (ldpcDematch w src.1, src.2)
      let r := ldpcDecode w soft.1
      (packBits x.2.2.2 r.1, [r.2.1, b2n r.2.2.1, b2n r.2.2.2], soft.2, r.2.2.2 && decide (lCrc w ≠ 0))
  | .polar p =>
    if p.encode then
      let d := readBits s j.part x.1 x.2.1
      (packBits x.2.2.2 (polarEncode p (bitList (polarInfo p) d.1)), [], d.2, false)
    else
      let src := softIn s j.part x.1 x.2.1
      (polarDecode p src.1, [], src.2, false)
  | .trl w =>
    if tMode w = 3 ∨ tMode w = 4 then
      let d := readBits s j.part x.1 x.2.1
      (packBits x.2.2.2 (if tMode w = 3 then convEncode w d.1 else turboEncode w d.1), [], d.2, false)
    else if tMode w = 2 then
      let src := softIn s j.part x.1 x.2.1
      let r := turboDecode w src.1
      (packBits x.2.2.2 r.1, [r.2.1, b2n r.2.2], src.2, r.2.2)
    else
      let src := readLlr s j.part x.1 x.2.1
      (packBits x.2.2.2 (viterbi w src.1), [], src.2, false)

/-- CODING_JOB_END (R197, R200): the output is written and the completion posted; the instance takes the next job. -/
def execCodingJobEnd (pool : Fin 4) (n : Fin 16) (s : State) : Host.Outcome State Fault Refusal :=
  inRun s (fun s =>
    let k := instKey pool.val n.val
    match (getInst s k).job with
    | none => s
    | some j =>
      let r := jobResult s j
      let x := jobSpans j.kind
      let bs := fitBytes x.2.2.2 r.1
      let late := decide (j.dlClove < s.time.clove) || (decide (j.dlClove = s.time.clove) && decide (j.dlCycle < s.time.cycle))
      let e := errsOf [ (r.2.2.1 && !r.2.2.2, stPoisoned), (late, stDeadline), (writeLost s j.part x.2.2.1 bs.length, stTimeout) ]
      let s := modInst (wrVa s j.part x.2.2.1 bs) k (fun I => { I with job := none })
      jobFeed (jobOut s pool.val n.val (lowest e) r.2.1) pool.val s.radio.waiting.length)

/-- ENGINE_FAULT (R208, R417): the instance is bypassed, and its job runs again elsewhere before every waiting one. -/
def execEngineFault (pool : Fin 4) (n : Fin 16) (s : State) : Host.Outcome State Fault Refusal :=
  inRun s (fun s =>
    if poolSize pool.val ≤ n.val ∨ (getInst s (instKey pool.val n.val)).bypass then s else
    let j := (getInst s (instKey pool.val n.val)).job
    let s := modInst s (instKey pool.val n.val) (fun I => { I with bypass := true, faulty := true, job := none })
    let items := [(1, pool.val), (1, n.val)]
    let s := evPool ((radioParts s).foldl (fun s p => evPart s p 0x0709 items) s) 0x0709 items
    let s := match j with
      | none => s
      | some j => { s with radio := { s.radio with waiting := (pool.val, j) :: s.radio.waiting } }
    jobFeed (capacityCheck s pool.val) pool.val (s.radio.waiting.length + 1))

/-- A stop of a partition takes its jobs with it: none of them writes (R341). -/
def dropJobs (s : State) (p : Nat) : State :=
  { s with radio := { s.radio with
      waiting := s.radio.waiting.filter (fun x => decide (x.2.part ≠ p))
      soft := s.radio.soft.filter (fun x => decide (x.1 ≠ p))
      inst := (s.radio.inst.map (fun e => (e.1, match e.2.job with
        | some j => if j.part = p then { e.2 with job := none } else e.2
        | none => e.2))).filter (fun e => decide (e.2 ≠ {})) } }

end Sys2Proof.Machine
end

