-- ==== Sys2Proof/Machine/Fabric.lean ====
section
/-! DEFINITION. Fabric operations at their source (R269-R281), in the router (R277-R279) and at their destination (R267, R272,
R273, R352), and reset notices (R351). -/

namespace Sys2Proof.Machine

open Sys2Proof

/-! ### FAB_OP entries (R280) -/

def foOp (e : List Word) : Nat := fld (wd e 0) 2 0
def foTyp (e : List Word) : Nat := fld (wd e 0) 5 3
def foFetch (e : List Word) : Bool := bit (wd e 0) 6
def foNc (e : List Word) : Bool := bit (wd e 0) 7
def foRemote (e : List Word) : Nat := fld48 e 1
def foLocal (e : List Word) : Nat := fld48 e 3

/-- The entry is an atomic or a compare-and-swap. -/
def foAtomic (e : List Word) : Bool := decide (3 ≤ foOp e) && decide (foOp e ≤ 6)

/-- Bytes that an atomic of a type acts on (R269). -/
def typBytes (t : Nat) : Nat := if t = 2 ∨ t = 3 then 8 else 4

/-- Bytes that the operation moves or acts on. -/
def foLen (e : List Word) : Nat := if foAtomic e then typBytes (foTyp e) else fld (wd e 0) 17 8 + 1

/-- The next power of two at or above n. -/
def pow2Up (n : Nat) : Nat := if n ≤ 1 then 1 else 2 ^ ((n - 1).log2 + 1)

/-- The type suits the operation (R269). -/
def typOk (op t : Nat) : Bool :=
  if op = 3 then decide (t = 0) || decide (t = 2) || decide (t = 4) || decide (t = 5)
  else if op = 4 ∨ op = 5 ∨ op = 6 then decide (t ≤ 3) else true

/-- The global address that a FAB_OP entry names. -/
def foTarget (s : State) (p : Nat) (e : List Word) : Option Nat := fabTarget s p (foRemote e)

/-- The local bytes that the operation reads or writes can be reached (log entry 33). -/
def foLocalOk (s : State) (p : Nat) (e : List Word) : Bool :=
  let n := foLen e
  let a := foLocal e
  let o := foOp e
  if o = 1 ∨ o = 2 then (rdVa s p a n).isSome
  else if o = 6 then (rdVa s p a n).isSome && canWrVa s p a n
  else if o = 0 ∨ foFetch e then canWrVa s p a n else true

/-- The statuses of R281 that the source itself finds. -/
def foErrs (s : State) (p : Nat) (e : List Word) : List Nat :=
  let n := foLen e
  let lenF := fld (wd e 0) 17 8
  errsOf
    [ (decide (fld (wd e 0) 31 18 ≠ 0) || decide (fld (wd e 2) 31 16 ≠ 0) || decide (fld (wd e 4) 31 16 ≠ 0), stBadParam),
      (foAtomic e && (decide (lenF ≠ 0) || !typOk (foOp e) (foTyp e)), stBadParam),
      (foAtomic e && decide (n = 4) && decide (wd e 7 ≠ 0), stBadParam),
      (decide (foOp e < 3) && (decide (n < 8) || decide (512 < n) || decide (n % 8 ≠ 0)), stBadParam),
      (decide (foOp e < 7) && decide (foRemote e % pow2Up n ≠ 0), stBadParam),
      (decide (foOp e < 7) && (match foTarget s p e with
        | none => true
        | some ga => fabBad ga), stBounds),
      (decide (foOp e < 7) && !foLocalOk s p e, stBounds),
      (decide (foOp e = 3) && decide (4 ≤ foTyp e) && (getPart s p).det, stRefusedMode) ]

/-- The open slice of a context of an array that a partition holds: array and slice number (R281). -/
def issuer (s : State) (c l : Nat) (ctx : Bool) (p : Nat) : Option (Nat × Nat) :=
  let x := sliceOf (getLa s c l) ctx
  if x.live && decide (x.part = p) then some (l, x.id) else none

/-- A slice of an array is still open or closing. -/
def sliceLives (s : State) (c l id : Nat) : Bool :=
  let la := getLa s c l
  (la.sl0.live && decide (la.sl0.id = id)) || (la.sl1.live && decide (la.sl1.id = id)) || la.closing.any (fun x => decide (x.id = id))

/-- A fabric operation did not complete with OK: the slice that issued it completes with the status R20 selects; where it has ended,
the work that holds its array (R281, log entry 98). -/
def noteOp (s : State) (p c : Nat) (sl : Option (Nat × Nat)) (st : Nat) : State :=
  if st = stOk then s else
  match sl with
  | none => s
  | some (l, id) =>
    if sliceLives s c l id then modSlice s c l id (fun x => { x with status := worse x.status st }) else noteSlice s p c l st

/-- A FAB_OP entry completes: 8 bytes go to the completion queue of its control core, the status in bits [7:0] (R281, log entry 98). -/
def foDone (s : State) (p c : Nat) (sl : Option (Nat × Nat)) (st : Nat) : State :=
  let f := takeFree s 56
  let s := { f.2 with fab := { f.2.fab with cq := tabMod [] f.2.fab.cq c (fun l => l ++ [f.1 ++ BitVec.ofNat 8 st]) } }
  noteOp (emit s (.fabOp c st)) p c sl st

/-- Bytes that a fabric operation brings reach LOCAL_VA, where no twin freeze holds the partition's memory (R242, R248). -/
def wrLocal (s : State) (p c va : Nat) (bs : List Byte) (psn : Bool) : State :=
  if twinHeld s p then s else wrVaP (runWrote s p c .core) p va bs psn

/-- Lines first to last of n bytes at a global address. -/
def linesOf (ga n : Nat) : List Nat := (List.range ((ga + n - 1) / 64 - ga / 64 + 1)).map (fun i => ga / 64 + i)

/-- The parts of n bytes at a global address that lie in one line each: where they start in the range, and their length (R271). -/
def lineParts (ga n : Nat) : List (Nat × Nat) :=
  (linesOf ga n).map (fun l =>
    let lo := Nat.max ga (64 * l)
    (lo - ga, Nat.min (ga + n) (64 * l + 64) - lo))

/-- Load data from the cache, where every line of it is there (R274). -/
def cacheRead (s : State) (p ga n : Nat) : Option (List Byte × Bool) :=
  let ls := (linesOf ga n).map (cacheHit s p)
  if ls.all (fun x => x.isSome) then
    let bs := ls.flatMap (fun x => match x with
      | some y => y.data
      | none => [])
    some ((bs.drop (ga % 64)).take n, ls.any (fun x => match x with
      | some y => y.psn
      | none => false))
  else none

/-- May the control core of a cluster issue a fabric operation of n bytes for the partition now? It runs, its reset notice has been
answered (R346, R351), and the retransmit store has room for its requests (R273). -/
def mayIssue (s : State) (p n : Nat) : Bool := partRuns s p && !(getPart s p).noticeOpen && storeRoom s n

/-- The data that a FAB_OP entry sends, with its poison: store data from LOCAL_VA; an atomic's operand; for a compare-and-swap
the compare value at LOCAL_VA and the new value (R280). -/
def foData (s : State) (p : Nat) (e : List Word) : List Byte × Bool :=
  let n := foLen e
  let opnd := leBytes n (fld64 e 6)
  if foOp e = 0 then ([], false)
  else if foOp e = 6 then
    match rdVaP s p (foLocal e) n with
    | some (bs, q) => (bs ++ opnd, q)
    | none => (opnd ++ opnd, true)
  else if foAtomic e then (opnd, false)
  else (rdVaP s p (foLocal e) n).getD ([], true)

/-- The part of an operation in the signature of its cluster (R244). -/
def foSig (s : State) (p c : Nat) (e : List Word) (ga : Nat) (d : List Byte × Bool) : State :=
  if foOp e = 0 then s
  else if foAtomic e then sigAdd s p c .core 2 (ga / 64 * 64) (BitVec.ofNat 512 (fld64 e 6 % 2 ^ (8 * foLen e))) d.2
  else sigStore s p c .core ga d.1 d.2

/-- Issue the requests of an operation of n bytes at a global address, one for each line of it (R271, log entry 98). -/
def issueLines (s : State) (op ga n : Nat) (d : List Byte × Bool) (o : FabOut) : State :=
  (lineParts ga n).foldl (fun s x =>
    let q : FabReq := { o.req with
      addr := BitVec.ofNat 52 (ga + x.1), len := x.2, data := if op = 0 then [] else (d.1.drop x.1).take x.2 }
    issueFab s { o with req := q, localVa := o.localVa + x.1, off := 0, take := x.2 }) s

/-- A cacheable load fetches whole lines: each of its requests is a line, of which the operation takes its part (R274). -/
def issueLoads (s : State) (ga n : Nat) (o : FabOut) : State :=
  (lineParts ga n).foldl (fun s x =>
    let first := (ga + x.1) / 64 * 64
    let q : FabReq := { o.req with addr := BitVec.ofNat 52 first, len := 64, data := [] }
    issueFab s { o with req := q, localVa := o.localVa + x.1, off := ga + x.1 - first, take := x.2 }) s

/-- The requests of a FAB_OP entry that has passed its checks (R269-R275, R280). -/
def issueOpReqs (s : State) (c p op ga : Nat) (sl : Option (Nat × Nat)) (e : List Word) : State :=
  let n := foLen e
  let d := foData s p e
  let keep := decide (op = 0) && !foNc e && s.fab.cacheEn
  let grp := s.fab.nextOp
  let s := { s with fab := { s.fab with ops := tabSet 0 s.fab.ops grp stOk, nextOp := grp + 1 } }
  let s := foSig s p c e ga d
  let o : FabOut := { mkOut (mkReq s p op (foTyp e) (foFetch e || decide (op = 6)) ga n d.1 d.2) c (foLocal e) 0 0 n keep with
    slice := sl, grp := grp }
  if keep then issueLoads s ga n o else if foAtomic e then issueFab s o else issueLines s op ga n d o

/-- Issue a FAB_OP entry of the row whose OP is op, for the slice of context x of array a (R269-R275, R280, R281). -/
def issueFo (s : State) (c a : Nat) (x : Bool) (p op : Nat) (e : List Word) : State :=
  if foOp e ≠ op || !partRuns s p then s else
  let s := walkAll s p [foRemote e, foLocal e]
  let sl := issuer s c a x p
  let errs := foErrs s p e
  if !errs.isEmpty then
    let st := lowest errs
    let s := foDone s p c sl st
    if st = stRefusedMode then
      evPart (modPart s p (fun P => { P with refused := satInc 16 P.refused 1 })) p 0x0401 [(1, c), (1, a)]
    else s
  else
    let ga := (foTarget s p e).getD 0
    match (if op = 0 ∧ !foNc e then cacheRead s p ga (foLen e) else none) with
    | some (bs, q) =>
      foDone (wrLocal s p c (foLocal e) bs q) p c sl
        (worse (if q then stPoisoned else stOk) (if writeLost s p (foLocal e) bs.length then stTimeout else stOk))
    | none => if mayIssue s p (64 * (linesOf ga (foLen e)).length) then issueOpReqs s c p op ga sl e else s

/-- LOAD (R269, R271, R274, R281). -/
def execLoad (c : FabSource) (p : Fin 64) (e : List Word) (s : State) : Host.Outcome State Fault Refusal :=
  inRun s (fun s => issueFo s c.cluster.val c.array.val c.ctx p.val 0 e)

/-- STORE (R269, R271, R273, R275). -/
def execStore (c : FabSource) (p : Fin 64) (e : List Word) (s : State) : Host.Outcome State Fault Refusal :=
  inRun s (fun s => issueFo s c.cluster.val c.array.val c.ctx p.val 1 e)

/-- STORE_WITH_ORDERED_FLAG (R269, R272). -/
def execStoreWithOrderedFlag (c : FabSource) (p : Fin 64) (e : List Word) (s : State) : Host.Outcome State Fault Refusal :=
  inRun s (fun s => issueFo s c.cluster.val c.array.val c.ctx p.val 2 e)

/-- ATOMIC_ADD (R229, R269, R270). -/
def execAtomicAdd (c : FabSource) (p : Fin 64) (e : List Word) (s : State) : Host.Outcome State Fault Refusal :=
  inRun s (fun s => issueFo s c.cluster.val c.array.val c.ctx p.val 3 e)

/-- ATOMIC_MIN (R269). -/
def execAtomicMin (c : FabSource) (p : Fin 64) (e : List Word) (s : State) : Host.Outcome State Fault Refusal :=
  inRun s (fun s => issueFo s c.cluster.val c.array.val c.ctx p.val 4 e)

/-- ATOMIC_MAX (R269). -/
def execAtomicMax (c : FabSource) (p : Fin 64) (e : List Word) (s : State) : Host.Outcome State Fault Refusal :=
  inRun s (fun s => issueFo s c.cluster.val c.array.val c.ctx p.val 5 e)

/-- COMPARE_AND_SWAP (R269, R280). -/
def execCompareAndSwap (c : FabSource) (p : Fin 64) (e : List Word) (s : State) : Host.Outcome State Fault Refusal :=
  inRun s (fun s => issueFo s c.cluster.val c.array.val c.ctx p.val 6 e)

/-- Remove a partition's cached lines for a range of virtual addresses; 256 MiB or more removes all (R276). -/
def invalRange (s : State) (p va n : Nat) : State :=
  if 268435456 ≤ n then cacheDrop s p (fun _ => true)
  else (runsOf va n).foldl (fun s r =>
    match fabTarget s p r.1 with
    | none => s
    | some ga => cacheDrop s p (fun a => decide (ga / 64 ≤ a) && decide (a ≤ (ga + r.2 - 1) / 64))) s

/-- FAB_OP_INVAL (R276, R280). -/
def execFabOpInval (c : FabSource) (p : Fin 64) (e : List Word) (s : State) : Host.Outcome State Fault Refusal :=
  inRun s (fun s =>
    if foOp e ≠ 7 ∨ !(getPart s p.val).live then s else
    let sl := issuer s c.cluster.val c.array.val c.ctx p.val
    let errs := foErrs s p.val e
    if !errs.isEmpty then foDone s p.val c.cluster.val sl (lowest errs)
    else foDone (invalRange s p.val (foRemote e) (wd e 5).toNat) p.val c.cluster.val sl stOk)

/-! ### The router (R277-R279) -/

/-- The arithmetic of an atomic on a word: old value and operand, as numbers of typBytes (R269, R270, log entry 32). -/
def atomicVal (op typ old opnd : Nat) : Nat :=
  let w := 8 * typBytes typ
  let sgn := decide (typ = 0) || decide (typ = 2)
  let lt (a b : Nat) : Bool := if sgn then decide (toSigned w a < toSigned w b) else decide (a < b)
  if op = 3 then
    (if typ = 4 then fAdd fmtFP32 old opnd
     else if typ = 5 then
       let half (i : Nat) : Nat := fCvt fmtFP32 fmtBF16 .rne
         (fAdd fmtFP32 (2 ^ 16 * (old / 2 ^ (16 * i) % 2 ^ 16)) (2 ^ 16 * (opnd / 2 ^ (16 * i) % 2 ^ 16)))
       half 0 + 2 ^ 16 * half 1
     else (old + opnd) % 2 ^ w)
  else if op = 4 then (if lt opnd old then opnd else old)
  else (if lt old opnd then opnd else old)

/-- An atomic that the router may combine (R278). -/
def combinable (q : FabReq) : Bool := decide (3 ≤ q.op.val) && decide (q.op.val ≤ 5) && !q.fetch

/-- The request that an entry forwards: merged operands, and every member (R278). -/
def combined (x : Comb) : FabReq :=
  let n := typBytes x.req.typ.val
  match x.members with
  | [] => x.req
  | [q] => q
  | q :: r =>
    { q with
      data := leBytes n (r.foldl (fun v y => atomicVal q.op.val q.typ.val v (ofLe y.data)) (ofLe q.data))
      psn := (q :: r).any (fun y => y.psn)
      members := (q :: r).map (fun y => (y.node, y.part, y.seq)) }

/-- The path on which this chip's router sends a request: to this chip itself, on the path that its source's retransmit store
names, or on its line's path (R271). -/
def routePath (s : State) (q : FabReq) : Nat :=
  let dst := fabNode q.addr.toNat
  if dst = ownNode s then 24
  else match s.fab.outst.find? (fun o => decide (q.node.val = ownNode s) && decide (o.dst = dst) && decide (o.req.seq = q.seq)) with
    | some o => o.path
    | none => pathOf s q.addr.toNat

/-- The router sends a request on its way (R277). -/
def forwardReq (s : State) (q : FabReq) : State := sendOn s (routePath s q) (.request q)

/-- Forward an entry: an atomic goes on; a load has gone already and stays until its response. -/
def flushComb (s : State) (x : Comb) : State :=
  if x.req.op.val = 0 then s
  else forwardReq { s with fab := { s.fab with comb := s.fab.comb.filter (fun y => decide (y ≠ x)) } } (combined x)

/-- The line of a request. -/
def reqLine (q : FabReq) : Nat := q.addr.toNat / 64

/-- The entry still takes members (R277, R278): 64 ns are 128 array cycles. -/
def combOpen (s : State) (x : Comb) : Bool := decide (s.time.now ≤ x.opened + 128)

/-- The request joins an open entry (R277, R278). -/
def joins (s : State) (q : FabReq) (x : Comb) : Bool :=
  combOpen s x && decide (x.req.op = q.op) &&
  (if q.op.val = 0 then
    decide (x.req.addr = q.addr) && decide (x.req.len = q.len) && !x.writers.contains (q.node.val, q.part.val)
   else combinable q && combinable x.req && decide (x.req.addr = q.addr) && decide (x.req.typ = q.typ) &&
    decide (x.members.length < 16))

/-- The request flushes an open atomic entry (R279). -/
def flushes (q : FabReq) (x : Comb) : Bool :=
  decide (x.req.op.val ≠ 0) &&
  (decide (reqLine x.req = reqLine q) ||
   (decide (q.op.val = 2) && decide (fabNode x.req.addr.toNat = fabNode q.addr.toNat) &&
    x.members.any (fun y => decide (y.node = q.node) && decide (y.part = q.part))))

/-- The source of a request is bound by the direct link on which it came; a switch stamps its ingress port, and this chip's own
requests come by path 24 (R267). -/
def bindSource (s : State) (via : Nat) (q : FabReq) : FabReq :=
  if via < 24 ∧ !(getLink s via).isSwitch then
    { q with node := fin64 (getLink s via).node, members := q.members.map (fun m => (fin64 (getLink s via).node, m.2)) }
  else q

/-- A message that came on a link passes on: its credits are granted again, and its traffic is noted (R238, R252). -/
def arrived (s : State) (via vc bytes p : Nat) : State := if via < 24 then linkTraffic (freeRx s via vc bytes) p via else s

/-- A request takes its place in the router: it joins an open entry, opens one, or goes on (R277, R278). -/
def routeReq (s : State) (q : FabReq) : State :=
  match s.fab.comb.find? (joins s q) with
  | some x =>
    let y : Comb := { x with members := x.members ++ [q] }
    let s := { s with fab := { s.fab with comb := s.fab.comb.map (fun z => if z = x then y else z) } }
    if q.op.val ≠ 0 ∧ 16 ≤ y.members.length then flushComb s y else s
  | none =>
    let x : Comb := { req := q, members := [q], opened := s.time.now, writers := [] }
    if q.op.val = 0 then forwardReq { s with fab := { s.fab with comb := s.fab.comb ++ [x] } } q
    else if combinable q then { s with fab := { s.fab with comb := s.fab.comb ++ [x] } }
    else forwardReq s q

/-- FABRIC_ROUTER_RX (R277-R279): a request that does not join an open atomic entry of its line sends that on first, and a store or
atomic is noted at the loads of its line. -/
def execFabricRouterRx (q : Rx FabReq) (s : State) : Host.Outcome State Fault Refusal :=
  inRun s (fun s =>
    let via := q.via.val
    let q := bindSource s via q.msg
    let s := arrived s via 0 q.data.length q.part.val
    let combine := s.fab.combineEn && q.stage.isNone && q.members.isEmpty
    let s := if q.op.val = 0 then s else { s with fab := { s.fab with comb := s.fab.comb.map (fun x =>
      if x.req.op.val = 0 ∧ reqLine x.req = reqLine q then { x with writers := x.writers ++ [(q.node.val, q.part.val)] } else x) } }
    let s := (s.fab.comb.filter (fun x => flushes q x && !(combine && joins s q x))).foldl flushComb s
    if combine then routeReq s q else forwardReq s q)

/-- COMBINE_TIMEOUT (R278): atomic entries that have been held for 64 ns are forwarded. -/
def execCombineTimeout (s : State) : Host.Outcome State Fault Refusal :=
  inRun s (fun s => (s.fab.comb.filter (fun x => decide (x.req.op.val ≠ 0) && decide (x.opened + 128 ≤ s.time.now))).foldl
    flushComb s)

/-! ### The destination -/

/-- Size of a node's HBM window, and so the offset of its exported host memory (R266). -/
abbrev hbmSpan : Nat := 0x6000000000

/-- Where an offset of this node lies: an HBM address, following a page that R418 moved, or a host port and address. -/
inductive Place where
  | hbm (addr : Nat)
  | host (port addr : Nat)
deriving DecidableEq, Repr

/-- The place of an offset of this node (R266, R268). -/
def placeOf (s : State) (off : Nat) : Place :=
  if off < hbmSpan then
    let page := off / pageBytes
    let dest := tabGet 0 s.hbm.moved page
    .hbm (pageBytes * (if dest = 0 then page else dest - 1) + off % pageBytes)
  else
    let w := tabGet (0, 0) s.fab.windows ((off - hbmSpan) / pageBytes)
    .host w.1 (w.2 + off % pageBytes)

/-- The export entries that cover a global address, with their partition (R267, R268). -/
def exportsOf (s : State) (ga : Nat) : List (Nat × ExportEnt) :=
  (liveParts s).flatMap (fun p => ((getPart s p).exps.filter (fun x =>
    x.2.used && !x.2.closing && x.2.pages.contains (ga - ga % pageBytes))).map (fun x => (p, x.2)))

/-- An entry permits an operation (R268). -/
def permits (x : ExportEnt) (q : FabReq) : Bool :=
  let o := q.op.val
  if o = 0 then x.rd else if o = 1 ∨ o = 2 then x.wr else if o = 6 then x.cas
  else if o = 3 ∧ 4 ≤ q.typ.val then x.afp else x.aint

/-- An entry allows a source (R268). -/
def allowsSrc (x : ExportEnt) (node part : Nat) : Bool :=
  (decide (x.srcNode = 255) || decide (x.srcNode = node)) && (decide (x.srcPart = 255) || decide (x.srcPart = part))

/-- The sources of a request with their sequence numbers: its own, or every member's (R278). -/
def sourcesOf (q : FabReq) : List (Nat × Nat × BitVec 32) :=
  if q.members.isEmpty then [(q.node.val, q.part.val, q.seq)] else q.members.map (fun m => (m.1.val, m.2.1.val, m.2.2))

/-- An entry allows every source of a request (R267, R268, log entry 98). -/
def allows (x : ExportEnt) (q : FabReq) : Bool := (sourcesOf q).all (fun m => allowsSrc x m.1 m.2.1)

/-- The partition that owns a target. -/
def targetOwner (s : State) (ga : Nat) : Option Nat :=
  match exportsOf s ga with
  | x :: _ => some x.1
  | [] => match placeOf s (fabOff ga) with
    | .hbm a => pageOwner s (a / pageBytes)
    | .host _ _ => none

/-- Read n bytes of a target, with poison; a host whose link is down gives poisoned zeros. -/
def readTarget (s : State) (ga n : Nat) : List Byte × Bool :=
  match placeOf s (fabOff ga) with
  | .hbm a => (rdBytes s.hbm.m.mem a n, anyPsn s.hbm.m a n)
  | .host port a => match hostRead s port a n with
    | some bs => (bs, false)
    | none => (List.replicate n 0, true)

/-- A target in host memory whose link is down (R371). -/
def targetLost (s : State) (ga : Nat) : Bool :=
  match placeOf s (fabOff ga) with
  | .hbm _ => false
  | .host port _ => !hostLinkUp s port

/-- Write bytes of a target, with poison (R124, R344, R410). -/
def writeTarget (s : State) (p ga : Nat) (bs : List Byte) (psn : Bool) : State :=
  match placeOf s (fabOff ga) with
  | .hbm a => { s with hbm := { s.hbm with m := putBytes s.hbm.m a bs psn } }
  | .host _ a => hostWriteFor s p a bs

/-- PEER_GEN of a source (R351). -/
def peerGen (s : State) (node part : Nat) : BitVec 16 := tabGet 0 s.fab.peerGen (64 * node + part)

/-- Send a response to a node (R252, R273). -/
def sendResp (s : State) (node line : Nat) (r : FabResp) (p : Nat) : State :=
  let path := bestPath line (pathsTo s node)
  sendOn (if path < 24 then linkTraffic s p path else s) path (.response node r)

/-- The requesters that a response reaches: the members of the router's entry that its request opened, or the requester alone
(R277). -/
def fanOut (s : State) (node : Nat) (a : FabResp) : List FabReq × Option Comb :=
  match s.fab.comb.find? (fun x => decide (x.req.op.val = 0) && decide (x.req.node.val = node) && decide (x.req.seq = a.seq) &&
    decide (fabNode x.req.addr.toNat = a.node.val)) with
  | some x => (x.members, some x)
  | none => ([], none)

/-- The entry of a load leaves the router with its response. -/
def dropComb (s : State) (x : Option Comb) : State :=
  match x with
  | some x => { s with fab := { s.fab with comb := s.fab.comb.filter (fun y => decide (y ≠ x)) } }
  | none => s

/-- A response to a source, kept for repeats; it fans out to every requester that the router attached (R273, R277). A store or atomic
that has been answered holds no later ordered flag of its source back (R272). -/
def respond (s : State) (q : FabReq) (status : Nat) (data : List Byte) (psn : Bool) : State :=
  let mk (seq : BitVec 32) : FabResp :=
    { node := fin64 (ownNode s), seq := seq, status := BitVec.ofNat 8 status, data := data, psn := psn }
  (sourcesOf q).foldl (fun s x =>
    let s := { s with fab := { s.fab with
      done := s.fab.done ++ [{ node := x.1, seq := x.2.2.toNat, resp := mk x.2.2 }]
      wrRx := if q.op.val = 0 then s.fab.wrRx else tabMod 0 s.fab.wrRx (64 * x.1 + x.2.1) (fun n => n + 1) } }
    let f := if x.1 = ownNode s then ([], none) else fanOut s x.1 (mk x.2.2)
    let line := q.addr.toNat / 64
    let s := sendResp (dropComb s f.2) x.1 line (mk x.2.2) x.2.1
    (f.1.drop 1).foldl (fun s m => sendResp s m.node.val line (mk m.seq) m.part.val) s) s

/-- Apply a request that is allowed (R269-R273); one that writes to a host whose link is down completes with TIMEOUT (R371). -/
def applyReq (s : State) (p : Nat) (q : FabReq) : State :=
  let ga := q.addr.toNat
  if decide (q.op.val ≠ 0) && targetLost s ga then respond s q stTimeout [] false else
  if q.op.val = 0 then
    let d := readTarget s ga q.len
    respond s q (if d.2 then stPoisoned else stOk) d.1 d.2
  else if q.op.val = 1 ∨ q.op.val = 2 then respond (writeTarget s p ga q.data q.psn) q stOk [] false
  else
    let n := typBytes q.typ.val
    let old := readTarget s ga n
    let v := ofLe old.1
    let new : Nat := if q.op.val = 6 then (if v = ofLe (q.data.take n) then ofLe (q.data.drop n) else v)
      else atomicVal q.op.val q.typ.val v (ofLe (q.data.take n))
    let s := writeTarget s p ga (leBytes n new) (old.2 || q.psn)
    if q.fetch then respond s q (if old.2 then stPoisoned else stOk) old.1 old.2 else respond s q stOk [] false

/-- Every store and atomic that the source of a flag issued to this node before it has been answered (R272). -/
def allEarlier (s : State) (q : FabReq) : Bool := decide (q.writes ≤ tabGet 0 s.fab.wrRx (64 * q.node.val + q.part.val))

/-- The entry that admits a request: its partition and number (R267, R268). -/
def admitting (s : State) (q : FabReq) : Option (Nat × Nat) :=
  ((liveParts s).flatMap (fun p => ((getPart s p).exps.filter (fun x =>
    x.2.used && !x.2.closing && x.2.pages.contains (q.addr.toNat - q.addr.toNat % pageBytes) && permits x.2 q && allows x.2 q)).map
      (fun x => (p, x.1)))).head?

/-- A request is denied, and counted (R267). -/
def denyReq (s : State) (q : FabReq) : State := respond { s with fab := { s.fab with denied := s.fab.denied + 1 } } q stDenied [] false

/-- The staging buffer holds 32 MiB (R283). -/
abbrev stageBytes : Nat := 33554432

/-- Bytes that the staging buffer holds: what other chips have put here, and what this chip's gets have staged. -/
def stagedUse (s : State) : Nat :=
  s.fab.staged.foldl (fun n g => g.parts.foldl (fun n q => n + q.data.length) n) 0 +
  s.fab.dma.foldl (fun n d => d.segs.foldl (fun n g => g.data.foldl (fun n x => n + x.2.length) n) n) 0

/-- The segment of the staging buffer that a part belongs to. -/
def isStage (node part dma seg : Nat) (g : StagedSeg) : Bool :=
  decide (g.node = node) && decide (g.part = part) && decide (g.dma = dma) && decide (g.seg = seg)

/-- A part of a segment that a chip puts here goes to the staging buffer (R283); one that does not fit stays where it is, in the
receive buffer of its link. -/
def stagePart (s : State) (q : FabReq) (x : Stage) : State :=
  let mine := isStage q.node.val q.part.val x.dma x.seg.val
  if stageBytes < stagedUse s + q.data.length then s
  else if s.fab.staged.any (fun g => mine g && g.dead) then denyReq s q
  else if s.fab.staged.any mine then
    { s with fab := { s.fab with staged := s.fab.staged.map (fun g => if mine g then { g with parts := g.parts ++ [q] } else g) } }
  else
    { s with fab := { s.fab with staged := s.fab.staged ++
      [{ node := q.node.val, part := q.part.val, dma := x.dma, seg := x.seg.val, parts := [q] }] } }

/-- A part of a segment is denied: what has been staged of the segment goes, answered alike (R267, R283). -/
def denyPart (s : State) (q : FabReq) (x : Stage) : State :=
  let mine := isStage q.node.val q.part.val x.dma x.seg.val
  let old := (s.fab.staged.filter mine).flatMap (fun g => g.parts)
  let rest := s.fab.staged.filter (fun g => !mine g)
  let s := { s with fab := { s.fab with staged := rest ++
    [{ node := q.node.val, part := q.part.val, dma := x.dma, seg := x.seg.val, dead := true }] } }
  (old ++ [q]).foldl denyReq s

/-- A repeat: its number was applied, and the response goes again; or it is held or staged, and is discarded (R273). -/
def repeats (s : State) (q : FabReq) : Bool :=
  (sourcesOf q).any (fun m => s.fab.done.any (fun x => decide (x.node = m.1) && decide (x.seq = m.2.2.toNat))) ||
  s.fab.flagsHeld.any (fun h => decide (h.q.node = q.node) && decide (h.q.seq = q.seq)) ||
  s.fab.staged.any (fun g => g.parts.any (fun y => decide (y.node = q.node) && decide (y.seq = q.seq)))

/-- Send the kept responses of a repeated request again (R273). DESIGN CHOICE: a combined request of which a member was applied is
not applied, since its operands cannot be told apart; its other members get no answer (log entry 98). -/
def answerAgain (s : State) (q : FabReq) : State :=
  (sourcesOf q).foldl (fun s m =>
    match s.fab.done.find? (fun x => decide (x.node = m.1) && decide (x.seq = m.2.2.toNat)) with
    | some x => sendResp s m.1 (q.addr.toNat / 64) x.resp m.2.1
    | none => s) s

/-- The ECC of the granule that a request reads (R407, R410). -/
def requestEcc (s : State) (q : FabReq) (ecc : Ecc) : State :=
  if q.op.val = 1 ∨ q.op.val = 2 then s else
  match ecc, placeOf s (fabOff q.addr.toNat) with
  | .uncorrectable, .hbm a => hbmUe s a
  | .corrected, .hbm a => hbmCe s a
  | _, _ => s

/-- A request that its checks admit: it is staged, held as an ordered flag, or applied (R267, R272, R283). -/
def takeReq (s : State) (q : FabReq) (ecc : Ecc) : State :=
  match admitting s q with
  | none => (match q.stage with
    | some x => denyPart s q x
    | none => denyReq s q)
  | some (p, ent) =>
    match q.stage with
    | some x => stagePart s q x
    | none =>
      if q.op.val = 2 ∧ !allEarlier s q then
        { s with fab := { s.fab with flagsHeld := s.fab.flagsHeld ++ [{ q := q, owner := p, ent := ent }] } }
      else applyReq (requestEcc s q ecc) p q

/-- The generation of a source that a destination compares (R352). -/
def genOk (s : State) (q : FabReq) : Bool := decide (peerGen s q.node.val q.part.val = 0) || decide (peerGen s q.node.val q.part.val = q.gen)

/-- FABRIC_REQUEST_RX (R265-R273, R352, R410). -/
def execFabricRequestRx (q : Rx FabReq) (ecc : Ecc) (s : State) : Host.Outcome State Fault Refusal :=
  inRun s (fun s =>
    let via := q.via.val
    let q := bindSource s via q.msg
    let ga := q.addr.toNat
    if fabNode ga ≠ ownNode s then s
    else
      let s := arrived s via 0 q.data.length q.part.val
      if !genOk s q then s
      else if repeats s q then answerAgain s q
      else if fabBad ga then respond s q stBounds [] false
      else if (sourcesOf q).any (fun m => decide (peerGen s m.1 m.2.1 = 0)) then
        (match targetOwner s ga with
         | some p => denyReq (evPart s p 0x0601 [(1, 1), (1, q.node.val), (1, q.part.val), (8, fabOff ga)]) q
         | none => denyReq s q)
      else takeReq s q ecc)

/-- Remove an export entry and release its windows (R268). -/
def dropExport (s : State) (p ent : Nat) : State :=
  let x := tabGet {} (getPart s p).exps ent
  let s := modPart s p (fun P => { P with exps := tabSet {} P.exps ent {} })
  (x.pages.filter (fun g => decide (hbmSpan ≤ fabOff g))).foldl (fun s g =>
    { s with fab := { s.fab with windows := tabSet (0, 0) s.fab.windows ((fabOff g - hbmSpan) / pageBytes) (0, 0) } }) s

/-- Entries that FAB_UNEXPORT has removed go, with their windows, once no request admitted under them is held (R268). -/
def closeExports (s : State) : State :=
  (liveParts s).foldl (fun s p => ((getPart s p).exps.filter (fun x => x.2.closing)).foldl (fun s x =>
    if s.fab.flagsHeld.any (fun h => decide (h.owner = p) && decide (h.ent = x.1)) then s
    else completeWait (dropExport s p x.1) (.unexport p x.1) stOk) s) s

/-- ORDERED_FLAG_APPLY (R272): the oldest held flag of a source whose earlier stores and atomics have all been answered is applied; one
whose export entry has gone with its partition is denied. -/
def execOrderedFlagApply (node part : Fin 64) (s : State) : Host.Outcome State Fault Refusal :=
  inRun s (fun s =>
    match s.fab.flagsHeld.find? (fun h => decide (h.q.node = node) && decide (h.q.part = part) && allEarlier s h.q) with
    | none => s
    | some h =>
      let s := { s with fab := { s.fab with flagsHeld := s.fab.flagsHeld.erase h } }
      closeExports (if (tabGet {} (getPart s h.owner).exps h.ent).used then applyReq s h.owner h.q else denyReq s h.q))

/-! ### Responses and timeouts (R273, R281) -/

/-- No fabric request of a partition is in flight: commands that wait for that complete (R326, R346). -/
def checkQuiet (s : State) (p : Nat) : State :=
  let s := checkUnmap s p
  if s.fab.outst.any (fun o => decide (o.req.part.val = p)) then s
  else if (getPart s p).st = .frozen then completeWait s (.freeze p) stOk else s

/-- Keep the lines that a response brings (R274). -/
def keepLines (s : State) (p ga : Nat) (bs : List Byte) (psn : Bool) : State :=
  (List.range (bs.length / 64)).foldl (fun s i =>
    cacheKeep s { part := p, addr := ga / 64 + i, data := (bs.drop (64 * i)).take 64, psn := psn }) s

/-- Change one segment of a FAB_DMA. -/
def modSeg (s : State) (id seg : Nat) (f : DmaSeg → DmaSeg) : State :=
  { s with fab := { s.fab with dma := s.fab.dma.map (fun d =>
    if d.id = id then { d with segs := d.segs.map (fun g => if g.n = seg then f g else g) } else d) } }

/-- A segment's length. -/
def segLen (g : DmaSeg) : Nat := fld (wd g.e 4) 18 0

/-- A FAB_OP entry whose line has been answered: with its last line it completes (R281). -/
def finishLine (s : State) (o : FabOut) (st : Nat) : State :=
  let now := worse (tabGet 0 s.fab.ops o.grp) st
  if s.fab.outst.any (fun x => decide (x.kind = 0) && decide (x.grp = o.grp)) then
    { s with fab := { s.fab with ops := tabSet 0 s.fab.ops o.grp now } }
  else foDone { s with fab := { s.fab with ops := tabSet 0 s.fab.ops o.grp 0 } } o.req.part.val o.cluster o.slice now

/-- The data that a response or a timeout brings to LOCAL_VA (R281). -/
def finishData (s : State) (o : FabOut) (status : Nat) (data : List Byte) (psn : Bool) : State :=
  let p := o.req.part.val
  if (decide (o.req.op.val = 0) || o.req.fetch) && (decide (status = stOk) || decide (status = stPoisoned)) then
    wrLocal s p o.cluster o.localVa ((data.drop o.off).take o.take) psn
  else if decide (o.req.op.val = 0) && decide (status = stTimeout) then wrLocal s p o.cluster o.localVa (List.replicate o.take 0) true
  else s

/-- The status that the write to LOCAL_VA adds: TIMEOUT where the host's link is down (R371). -/
def localStatus (s : State) (o : FabOut) (status : Nat) : Nat :=
  if (decide (o.req.op.val = 0) || o.req.fetch) && (decide (status = stOk) || decide (status = stPoisoned)) &&
      writeLost s o.req.part.val o.localVa o.take then stTimeout else stOk

/-- The result words of a segment map. -/
def mapWords (m : BitVec 64) : List Word := [m.setWidth 32, (m >>> 32).setWidth 32]

/-- The status of a FAB_DMA whose segments have all ended (R284). -/
def dmaStatus (d : Dma) : Nat :=
  match d.fails with
  | [] => if d.psn then stPoisoned else stOk
  | f :: r => if d.map ≠ 0 then stPartial else (r.foldl (fun a b => if b.1 < a.1 then b else a) f).2

/-- A FAB_DMA takes its new state; with no segment left it completes (R284). -/
def dmaCheck (s : State) (d : Dma) : State :=
  if !d.segs.isEmpty then { s with fab := { s.fab with dma := s.fab.dma.map (fun x => if x.id = d.id then d else x) } }
  else completeWhere { s with fab := { s.fab with dma := s.fab.dma.filter (fun x => decide (x.id ≠ d.id)) } }
    (fun o => decide (o.why = .dma d.id)) (fun _ => (dmaStatus d, mapWords d.map))

/-- The FAB_DMA with a number, and one of its segments. -/
def findSeg (s : State) (id seg : Nat) : Option (Dma × DmaSeg) :=
  match s.fab.dma.find? (fun d => decide (d.id = id)) with
  | none => none
  | some d => (d.segs.find? (fun g => decide (g.n = seg))).map (fun g => (d, g))

/-- A segment fails: nothing of it is committed (R283, R284). -/
def failSeg (s : State) (id seg status : Nat) : State :=
  match findSeg s id seg with
  | none => s
  | some (d, _) => dmaCheck s { d with segs := d.segs.filter (fun g => decide (g.n ≠ seg)), fails := d.fails ++ [(seg, status)] }

/-- A part of a segment has been answered (R283). -/
def segPart (s : State) (o : FabOut) (status : Nat) (data : List Byte) (psn : Bool) : State :=
  if status = stOk ∨ status = stPoisoned then
    modSeg s o.grp o.seg (fun g => { g with
      got := g.got + o.req.len, psn := g.psn || psn || decide (status = stPoisoned)
      data := if o.req.op.val = 0 then g.data ++ [(o.off, data)] else g.data })
  else failSeg s o.grp o.seg status

/-- The partition may issue requests of a FAB_DMA: it is not frozen or in a reset (R341, R346, R351). -/
def dmaRuns (s : State) (p : Nat) : Bool :=
  (getPart s p).live && !(getPart s p).noticeOpen && (decide ((getPart s p).st = .running) || decide ((getPart s p).st = .freezing))

/-- The next part of a segment: its global address and length (R271, R282). -/
def nextPart (s : State) (d : Dma) (g : DmaSeg) : Option (Nat × Nat) :=
  match fabTarget s d.part (fld48 g.e 2 + g.next) with
  | none => none
  | some ga => if fabBad ga then none else some (ga, Nat.min (64 - ga % 64) (segLen g - g.next))

/-- Issue the next part of a segment; it fails where its addresses are no longer mapped (R282, R283). -/
def issuePart (s : State) (d : Dma) (g : DmaSeg) : State :=
  let s := walkAll s d.part [fld48 g.e 2 + g.next, fld48 g.e 0 + g.next]
  match nextPart s d g with
  | none => failSeg s d.id g.n stBounds
  | some (ga, n) =>
    match (if d.get then some ([], false) else rdVaP s d.part (fld48 g.e 0 + g.next) n) with
    | none => failSeg s d.id g.n stBounds
    | some (bs, q) =>
      let r := mkReq s d.part (if d.get then 0 else 1) 0 false ga n bs q
      let r : FabReq := { r with stage := if d.get then none else some { dma := d.id, seg := fin64 g.n, total := segLen g } }
      issueFab (modSeg s d.id g.n (fun g => { g with next := g.next + n, psn := g.psn || q }))
        { mkOut r 0 0 3 g.next n false with grp := d.id, seg := g.n }

/-- The flag store of a segment that has committed (R283, R284). -/
def issueFlag (s : State) (d : Dma) (g : DmaSeg) : State :=
  let s := match fabTarget s d.part (fld48 g.e 6) with
    | some ga => if fabBad ga then s
        else issueFab s (mkOut (mkReq s d.part 2 0 false ga 8 (leBytes 8 (fld64 g.e 8)) false) 0 0 2 0 0 false)
    | none => s
  dmaCheck s { d with segs := d.segs.filter (fun x => decide (x.n ≠ g.n)) }

/-- What a FAB_DMA may do next: a part of a segment, or a flag store that waits. -/
def dmaNext (s : State) : Option (Dma × DmaSeg) :=
  (s.fab.dma.flatMap (fun d => if dmaRuns s d.part then
    (d.segs.filter (fun g => g.flag || decide (g.next < segLen g))).map (fun g => (d, g)) else [])).head?

/-- Issue what the retransmit store has room for (R273, R283). -/
def pumpDma : Nat → State → State
  | 0, s => s
  | n + 1, s =>
    match dmaNext s with
    | none => s
    | some (d, g) => if !storeRoom s 64 then s else pumpDma n (if g.flag then issueFlag s d g else issuePart s d g)

/-- As many steps as the retransmit store has lines, and one for every segment that may end. -/
def dmaSteps (s : State) : Nat := 65536 + s.fab.dma.foldl (fun n d => n + d.segs.length) 0

/-- FAB_DMA goes on. -/
def runDma (s : State) : State := pumpDma (dmaSteps s) s

/-- The result of an outstanding request reaches it; one of a generation that has ended reaches nothing (R341). -/
def finishOut (s : State) (o : FabOut) (status : Nat) (data : List Byte) (psn : Bool) : State :=
  let p := o.req.part.val
  let s := { s with fab := { s.fab with outst := s.fab.outst.filter (fun x => !(decide (x.dst = o.dst) && decide (x.req.seq = o.req.seq))) } }
  let good := decide (status = stOk) || decide (status = stPoisoned)
  let s := if o.cacheable && good && decide (o.req.op.val = 0) && decide (o.req.gen = (getPart s p).gen) then keepLines s p o.req.addr.toNat data psn else s
  let s :=
    if o.req.gen ≠ (getPart s p).gen then s
    else if o.kind = 0 then
      let returns := decide (o.req.op.val = 0) || o.req.fetch
      finishLine (finishData s o status data psn) o
        (worse (if status = stOk ∧ returns ∧ psn then stPoisoned else status) (localStatus s o status))
    else if o.kind = 1 ∧ o.req.op.val ≠ 0 then noteStore s p o.cluster status
    else if o.kind = 3 then segPart s o status data psn
    else s
  runDma (checkQuiet s p)

/-- FABRIC_RESPONSE_RX (R273): the request that the response names completes, and the loads that were attached to it in the router
get it too (R277). -/
def execFabricResponseRx (a : Rx FabResp) (s : State) : Host.Outcome State Fault Refusal :=
  inRun s (fun s =>
    let via := a.via.val
    let a := a.msg
    let own := s.fab.outst.find? (fun o => decide (o.dst = a.node.val) && decide (o.req.seq = a.seq))
    let s := arrived s via 1 a.data.length (match own with
      | some o => o.req.part.val
      | none => 64)
    let f := fanOut s (ownNode s) a
    let s := dropComb s f.2
    let s := match own with
      | some o => finishOut s o a.status.toNat a.data a.psn
      | none => s
    (f.1.drop 1).foldl (fun s m =>
      if m.node.val = ownNode s then
        (match s.fab.outst.find? (fun o => decide (o.dst = a.node.val) && decide (o.req.seq = m.seq)) with
         | some o => finishOut s o a.status.toNat a.data a.psn
         | none => s)
      else sendResp s m.node.val (m.addr.toNat / 64) { a with seq := m.seq } m.part.val) s)

/-- FAB_CFG.TIMEOUT in array cycles (R287). -/
def fabTimeoutCycles (s : State) : Nat := 20000 * Nat.max 4 s.fab.timeout.toNat

/-- A node that has lost its last path is reported once (R286). -/
def checkReach (s : State) (node : Nat) : State :=
  if (pathsTo s node).isEmpty then
    (if s.fab.unreach.contains node then s
     else evPool { s with fab := { s.fab with unreach := s.fab.unreach ++ [node] } } 0x0506 [(1, node)])
  else { s with fab := { s.fab with unreach := s.fab.unreach.filter (fun n => decide (n ≠ node)) } }

/-- An outstanding request has waited too long: a part of a FAB_DMA segment for a path, any other for its response (R281, R284). -/
def overdueReq (s : State) (o : FabOut) : Bool :=
  if o.kind = 3 then decide (o.path = 25) && decide (o.noPathAt + fabTimeoutCycles s ≤ s.time.now)
  else decide (o.issued + fabTimeoutCycles s ≤ s.time.now)

/-- FAB_TIMEOUT (R281, R284, R286). -/
def execFabTimeout (node : Fin 64) (seq : Word) (s : State) : Host.Outcome State Fault Refusal :=
  inRun s (fun s =>
    match s.fab.outst.find? (fun o => decide (o.dst = node.val) && decide (o.req.seq = seq)) with
    | none => s
    | some o =>
      if !overdueReq s o then s else
      let s := { s with
        fab := { s.fab with timeouts := s.fab.timeouts + 1 }
        health := { s.health with timeouts := satInc 32 s.health.timeouts 1 } }
      let s := evPart s o.req.part.val 0x0505 [(1, node.val), (8, o.req.addr.toNat)]
      finishOut (checkReach s node.val) o stTimeout [] false)

/-! ### Links that go and come (R271, R285) -/

/-- Requests whose path is no longer up, or that had none, go out again on their lines' paths now; the resends join no entry of the
router (R285, log entry 98). -/
def repath (s : State) : State :=
  s.fab.outst.foldl (fun s o =>
    let ps := pathsTo s o.dst
    if ps.contains o.path then s else
    let np := bestPath (o.req.addr.toNat / 64) ps
    let s := { s with fab := { s.fab with outst := s.fab.outst.map (fun x =>
      if x.dst = o.dst ∧ x.req.seq = o.req.seq then
        { x with path := np, noPathAt := if np = 25 ∧ x.path ≠ 25 then s.time.now else x.noPathAt } else x) } }
    if np = 25 then s else sendOn (useLink s o.req.part.val np) np (.request o.req)) s

/-! ### Reset notices (R351) -/

/-- The nodes of the rack other than this one. -/
def otherNodes (s : State) : List Nat := (List.range 64).filter (fun n => decide (n ≠ ownNode s))

/-- The command that sent a notice completes once no reachable node has still to acknowledge (R351) and no LSS window has
still to change for it (R93). -/
def noticeCheck (s : State) (p : Nat) (late : Bool) : State :=
  let open_ := s.fab.notices.any (fun n => decide (n.1 = p) && n.2.2.any (fun x => !(pathsTo s x).isEmpty))
  if open_ && !late then s
  else
    let s := modPart s p (fun P => { P with
      noticeOpen := false, st := if P.st = .resetting && !P.wrapWait then .running else P.st })
    if s.lssHold.any (fun x => decide (x.1 = p)) then s else completeWait s (.notice p) stOk

/-- Send a message of channel 2 to a node (R252, R351). DESIGN CHOICE: it takes the path of line 0 (log entry 97). -/
def sendCtl (s : State) (node : Nat) (m : Msg) : State := sendOn s (bestPath 0 (pathsTo s node)) m

/-- A source partition has a new generation: its count of writes begins anew, and what it left held or staged goes (R272, R351,
R352). -/
def peerReset (s : State) (node part : Nat) (gen : BitVec 16) : State :=
  closeExports { s with fab := { s.fab with
    peerGen := tabSet 0 s.fab.peerGen (64 * node + part) gen
    wrRx := tabSet 0 s.fab.wrRx (64 * node + part) 0
    flagsHeld := s.fab.flagsHeld.filter (fun h => !(decide (h.q.node.val = node) && decide (h.q.part.val = part)))
    staged := s.fab.staged.filter (fun g => !(decide (g.node = node) && decide (g.part = part))) } }

/-- Send a reset notice of a partition with its generation (R351); this chip's own PEER_GEN takes it too. -/
def sendNotice (s : State) (p : Nat) (gen : BitVec 16) : State :=
  let nodes := otherNodes s
  let s := if ownNode s < 64 then peerReset s (ownNode s) p gen else s
  let s := { s with fab := { s.fab with
    wrTx := tabKeep (fun k => decide (k / 64 ≠ p)) s.fab.wrTx
    notices := s.fab.notices.filter (fun n => decide (n.1 ≠ p)) ++ [(p, gen, nodes)] } }
  let s := modPart s p (fun P => { P with noticeOpen := true })
  nodes.foldl (fun s n => sendCtl s n (.notice n p gen)) s

/-- RESET_NOTICE_RX (R351). -/
def execResetNoticeRx (node : Rx (Fin 64)) (part : Fin 64) (gen : BitVec 16) (s : State) : Host.Outcome State Fault Refusal :=
  inRun s (fun s =>
    let s := if node.via.val < 24 then freeRx s node.via.val 2 0 else s
    sendCtl (peerReset s node.msg.val part.val gen) node.msg.val (.noticeAck node.msg.val part.val))

/-- RESET_NOTICE_ACK_RX (R351). -/
def execResetNoticeAckRx (node : Rx (Fin 64)) (part : Fin 64) (s : State) : Host.Outcome State Fault Refusal :=
  inRun s (fun s =>
    let s := if node.via.val < 24 then freeRx s node.via.val 1 0 else s
    let ns := s.fab.notices.map (fun n => if n.1 = part.val then (n.1, n.2.1, n.2.2.filter (fun x => decide (x ≠ node.msg.val))) else n)
    noticeCheck { s with fab := { s.fab with notices := ns.filter (fun n => !n.2.2.isEmpty) } } part.val false)

/-- RESET_NOTICE_RESEND (R351): after 1 ms the notice goes again to each node that has not acknowledged, and the command
completes. -/
def execResetNoticeResend (part : Fin 64) (s : State) : Host.Outcome State Fault Refusal :=
  inRun s (fun s =>
    match s.fab.notices.find? (fun n => decide (n.1 = part.val)) with
    | none => s
    | some n =>
      noticeCheck (n.2.2.foldl (fun s x => sendCtl s x (.notice x part.val n.2.1)) s) part.val true)

end Sys2Proof.Machine
end

