-- ==== Sys2Proof/Machine/FabCmd.lean ====
section
/-! DEFINITION. The fabric commands: FAB_DMA and its segments (R282-R284), FAB_INVAL (R276), FAB_EXPORT and FAB_UNEXPORT
(R268). -/

namespace Sys2Proof.Machine

open Sys2Proof

/-- The partition of a ring on which a partition command arrived. -/
def ringP (r : RingId) : Nat := (ringOwner r).getD 0

/-! ### FAB_DMA (R282-R284) -/

/-- The reserved fields of a segment entry are zero and its fields are in range (R282). -/
def segOk (get : Bool) (e : List Word) : Bool :=
  let n := fld (wd e 4) 18 0
  decide (fld (wd e 1) 31 16 = 0) && decide (fld (wd e 3) 31 16 = 0) && decide (fld (wd e 4) 31 20 = 0) &&
  decide (wd e 5 = 0) && decide (fld (wd e 7) 31 16 = 0) && decide (wd e 10 = 0) && decide (wd e 11 = 0) &&
  decide (1 ≤ n) && decide (n ≤ 262144) && !(get && bit (wd e 4) 19) &&
  (!bit (wd e 4) 19 || decide (fld48 e 6 % 8 = 0))

/-- The segments of a command that SEG_MASK runs, with their numbers; none where the list cannot be read. -/
def segList (s : State) (r : RingId) (k : Pkt) : Option (List (Nat × List Word)) :=
  let n := fld (wd k.w 0) 6 0
  match rdA s r (fld48 k.w 1) (48 * n) with
  | none => none
  | some bs =>
    let all := (List.range n).map (fun i => (i, wordsOf 12 ((bs.drop (48 * i)).take 48)))
    some (all.filter (fun x => decide (fld64 k.w 3 / 2 ^ x.1 % 2 = 1)))

/-- FAB_DMA's checks (R282). -/
def fabDmaErrs (r : RingId) (k : Pkt) (s : State) : List Nat :=
  let n := fld (wd k.w 0) 6 0
  errsOf
    [ (decide (n = 0) || decide (64 < n) || decide (2 ^ n ≤ fld64 k.w 3), stBadParam),
      (match segList s r k with
       | none => false
       | some l => l.any (fun x => !segOk (bit (wd k.w 0) 7) x.2), stBadParam),
      ((segList s r k).isNone, stBounds) ]

/-- The runs of a segment's remote range: global addresses and lengths; none where part of it is not in a fabric window or
breaks R266. -/
def segRemote (s : State) (p : Nat) (e : List Word) : Option (List (Nat × Nat)) :=
  let rs := (runsOf (fld48 e 2) (fld (wd e 4) 18 0)).map (fun r => ((fabTarget s p r.1).getD (2 ^ 51), r.2))
  if rs.any (fun x => fabBad x.1) then none else some rs

/-- A segment's addresses are in order at its start: its remote range is in fabric windows, and its local range can be read or written;
otherwise it fails with BOUNDS. -/
def segBad (s : State) (p : Nat) (get : Bool) (e : List Word) : Bool :=
  let n := fld (wd e 4) 18 0
  (segRemote s p e).isNone || (if get then !canWrVa s p (fld48 e 0) n else (rdVaP s p (fld48 e 0) n).isNone)

/-- FAB_DMA (R282-R284, R374). -/
def execFabDma (r : RingId) (k : Pkt) (s : State) : Host.Outcome State Fault Refusal :=
  inRun s (fun s => fwRun s r 0x40 k [] (fabDmaErrs r k) (fun s =>
    let p := ringP r
    let get := bit (wd k.w 0) 7
    let id := s.fab.nextDma
    let segs := (segList s r k).getD []
    let fails := (segs.filter (fun x => segBad s p get x.2)).map (fun x => (x.1, stBounds))
    let runs := (segs.filter (fun x => !segBad s p get x.2)).map (fun x => ({ n := x.1, e := x.2 } : DmaSeg))
    let d : Dma := { id := id, part := p, get := get, segs := runs, map := 0, psn := false, fails := fails, ring := r }
    if d.segs.isEmpty then .done s (dmaStatus d) (mapWords 0)
    else .wait (runDma { s with fab := { s.fab with dma := s.fab.dma ++ [d], nextDma := id + 1 } }) (.dma id) []))

/-- What a get has staged of a segment, laid out from its first byte. -/
def stagedData (g : DmaSeg) : List Byte :=
  (List.range (segLen g)).map (fun i =>
    match g.data.find? (fun x => decide (x.1 ≤ i) && decide (i < x.1 + x.2.length)) with
    | some x => x.2.getD (i - x.1) 0
    | none => 0)

/-- A segment of this chip's own command has fully arrived (R283, R284): a get is committed to memory from the staging buffer, a put has
been committed at its destination; a put with FLAG then sends its flag store, as soon as the retransmit store has room. -/
def ownSeg (s : State) (d : Dma) (g : DmaSeg) : State :=
  let la := fld48 g.e 0
  if g.flag || decide (g.got < segLen g) then s
  else if d.get && !canWrVa s d.part la (segLen g) then failSeg s d.id g.n stBounds
  else if d.get && writeLost s d.part la (segLen g) then failSeg s d.id g.n stTimeout
  else
    let s := if d.get then wrVaP s d.part la (stagedData g) g.psn else s
    let flag := !d.get && bit (wd g.e 4) 19
    let segs := if flag then d.segs.map (fun x => if x.n = g.n then { x with flag := true } else x)
      else d.segs.filter (fun x => decide (x.n ≠ g.n))
    runDma (dmaCheck s { d with segs := segs, map := d.map ||| BitVec.ofNat 64 (2 ^ g.n), psn := d.psn || g.psn })

/-- A segment that a chip puts here is committed to memory once every byte of it has arrived, and each part is answered (R273, R283);
where an export entry has gone meanwhile, all of it is denied. -/
def incomingSeg (s : State) (g : StagedSeg) : State :=
  let total := match g.parts with
    | q :: _ => (match q.stage with
      | some x => x.total
      | none => 0)
    | [] => 0
  let have_ := g.parts.foldl (fun (n : Nat) q => n + q.data.length) 0
  if g.dead || decide (total = 0) || decide (have_ < total) then s
  else
    let s := { s with fab := { s.fab with staged := s.fab.staged.erase g } }
    if g.parts.any (fun q => (admitting s q).isNone) then g.parts.foldl denyReq s
    else g.parts.foldl (fun s q => applyReq s ((admitting s q).getD (0, 0)).1 q) s

/-- DMA_SEGMENT_COMMIT (R283, R284). -/
def execDmaSegmentCommit (a : DmaArrive) (s : State) : Host.Outcome State Fault Refusal :=
  inRun s (fun s =>
    match a with
    | .own p dma seg =>
      (match findSeg s dma seg.val with
       | none => s
       | some (d, g) => if d.part = p.val then ownSeg s d g else s)
    | .incoming node part dma seg =>
      (match s.fab.staged.find? (isStage node.val part.val dma seg.val) with
       | none => s
       | some g => incomingSeg s g))

/-! ### FAB_INVAL (R276) -/

/-- FAB_INVAL (R276, R374). -/
def execFabInval (r : RingId) (k : Pkt) (s : State) : Host.Outcome State Fault Refusal :=
  inRun s (fun s => fwRun s r 0x41 k [] (fun _ => []) (fun s =>
    .done (invalRange s (ringP r) (fld48 k.w 0) (wd k.w 2).toNat) stOk []))

/-! ### FAB_EXPORT and FAB_UNEXPORT (R268) -/

/-- The page-table entries of n pages from a virtual address on. -/
def ptesOf (s : State) (p va n : Nat) : List Pte := (List.range n).map (fun i => pteOf s p (va + pageBytes * i))

/-- Host-memory windows of this node that export entries hold (R266, R268). -/
def usedWindows (s : State) : List Nat :=
  (liveParts s).flatMap (fun p => (getPart s p).exps.flatMap (fun x =>
    if x.2.used then (x.2.pages.filter (fun g => decide (hbmSpan ≤ fabOff g))).map (fun g => (fabOff g - hbmSpan) / pageBytes) else []))

/-- Windows of a node. -/
abbrev windowCount : Nat := 327680

/-- The lowest n free windows (log entry 14). -/
def freeWindows (s : State) (n : Nat) : List Nat :=
  let used := usedWindows s
  ((List.range (Nat.min windowCount (used.length + n))).filter (fun i => !used.contains i)).take n

/-- FAB_EXPORT's checks (R268). -/
def fabExportErrs (r : RingId) (k : Pkt) (s : State) : List Nat :=
  let p := ringP r
  let P := getPart s p
  let ent := fld (wd k.w 0) 11 0
  let node := fld (wd k.w 0) 23 16
  let part := fld (wd k.w 0) 31 24
  let va := fld48 k.w 2
  let n := fld (wd k.w 4) 17 0
  let ps := if n ≤ 196608 then ptesOf s p va n else []
  let hosts := (ps.filter (fun e => e.v && decide (e.kind = 2))).length
  errsOf
    [ (decide (P.nexport ≤ ent) || (decide (64 ≤ node) && decide (node ≠ 255)) || (decide (64 ≤ part) && decide (part ≠ 255)), stBadParam),
      (decide (n = 0) || decide (196608 < n) || decide (va % pageBytes ≠ 0), stBadParam),
      (decide (fld (wd k.w 1) 4 1 ≠ 0) && ps.any (fun e => e.v && !e.w), stBadParam),
      (decide ((freeWindows s hosts).length < hosts), stNoResource),
      (ps.any (fun e => !e.v || decide (e.kind = 1)) || !canWrA s r (fld48 k.w 5) (8 * n), stBounds),
      ((tabGet {} P.exps ent).used, stBusy) ]

/-- The global addresses of pages, host pages taking windows in order (R268). -/
def exportPages (s : State) (port : Nat) : List Pte → List Nat → List (Nat × Option (Nat × Nat × Nat))
  | [], _ => []
  | e :: t, ws =>
    let own := 2 ^ 44 * ownNode s
    if e.kind = 2 then
      match ws with
      | [] => (own, none) :: exportPages s port t []
      | w :: rest => (own + hbmSpan + pageBytes * w, some (w, port, e.target)) :: exportPages s port t rest
    else (own + e.target, none) :: exportPages s port t ws

/-- FAB_EXPORT (R268, R374). -/
def execFabExport (r : RingId) (k : Pkt) (s : State) : Host.Outcome State Fault Refusal :=
  inRun s (fun s => fwRun s r 0x42 k [0] (fabExportErrs r k) (fun s =>
    let p := ringP r
    let n := fld (wd k.w 4) 17 0
    let ps := ptesOf s p (fld48 k.w 2) n
    let hosts := (ps.filter (fun e => decide (e.kind = 2))).length
    let xs := exportPages s (getPart s p).host.val ps (freeWindows s hosts)
    let pages := xs.map (fun x => x.1)
    let f := wd k.w 1
    let ent : ExportEnt :=
      { used := true, srcNode := fld (wd k.w 0) 23 16, srcPart := fld (wd k.w 0) 31 24, rd := bit f 0, wr := bit f 1
        aint := bit f 2, afp := bit f 3, cas := bit f 4, va := fld48 k.w 2, pages := pages }
    let s := modPart s p (fun P => { P with exps := tabSet {} P.exps (fld (wd k.w 0) 11 0) ent })
    let s := (xs.filterMap (fun x => x.2)).foldl (fun s w =>
      { s with fab := { s.fab with windows := tabSet (0, 0) s.fab.windows w.1 (w.2.1, w.2.2) } }) s
    writeDone s r (fld48 k.w 5) (pages.flatMap (leBytes 8)) stOk [BitVec.ofNat 32 n]))

/-- FAB_UNEXPORT (R268, R374): the entry admits nothing more; the command completes, and the windows are released, once no request
admitted under it is held. -/
def execFabUnexport (r : RingId) (k : Pkt) (s : State) : Host.Outcome State Fault Refusal :=
  inRun s (fun s => fwRun s r 0x43 k []
    (fun s => errsOf [ (decide ((getPart s (ringP r)).nexport ≤ fld (wd k.w 0) 11 0), stBadParam) ])
    (fun s =>
      let p := ringP r
      let ent := fld (wd k.w 0) 11 0
      if s.fab.flagsHeld.any (fun h => decide (h.owner = p) && decide (h.ent = ent)) then
        .wait (modPart s p (fun P => { P with exps := tabMod {} P.exps ent (fun x => { x with closing := true }) })) (.unexport p ent) []
      else .done (dropExport s p ent) stOk []))

end Sys2Proof.Machine
end

