-- ==== Sys2Proof/Machine/RadioCells.lean ====
section
/-! DEFINITION. Radio-unit endpoints (R172, R173, R176), cells (R178-R181), their export and import (R349, R350), admission (R207)
and what a clove boundary does to them. -/

namespace Sys2Proof.Machine

open Sys2Proof

/-! ### Endpoints -/

/-- An RU_EP image keeps to R172 and R173. -/
def epOk (w : List Word) : Bool :=
  let v := fld (wd w 0) 16 5
  let x := wd w 3
  decide (fld (wd w 0) 31 17 = 0) && decide (fld (wd w 2) 31 16 = 0) && decide (fld x 31 16 = 0) && decide (wd w 10 = 0) &&
  decide (wd w 11 = 0) && decide (1 ≤ v) && decide (v ≤ 4094) && decide (fld x 3 0 + fld x 7 4 + fld x 11 8 + fld x 15 12 = 16) &&
  decide ((wd w 4).toNat ≤ (wd w 5).toNat) && decide ((wd w 6).toNat ≤ (wd w 7).toNat) && decide ((wd w 8).toNat ≤ (wd w 9).toNat)

/-- The first endpoint that is free. -/
def freeEp (s : State) : Option Nat := (List.range 1024).find? (fun n => !(getEp s n).live)

/-- RU_ADD's checks (R172, R173). -/
def ruAddErrs (r : RingId) (k : Pkt) (s : State) : List Nat :=
  let img := rdA s r (fld48 k.w 0) 48
  errsOf [ (match img with
      | none => false
      | some b => !epOk (wordsOf 12 b), stBadParam),
    ((freeEp s).isNone, stNoResource), (img.isNone, stBounds),
    (decide ((getPart s ((ringOwner r).getD 0)).typ ≠ 0), stRefusedMode) ]

/-- A command that needs the radio engine domain completes once that is usable (R436). -/
def needRadio (s : State) (res : List Word) : Fw :=
  if domUsable s s.pwr.radioOn 5 then .done s stOk res else .wait (requestOn s 5) (.powerOn 5) res

/-- RU_ADD (R172, R173). -/
def execRuAdd (r : RingId) (k : Pkt) (s : State) : Host.Outcome State Fault Refusal :=
  inRun s (fun s => fwRun s r 0x30 k [] (ruAddErrs r k) (fun s =>
    let n := (freeEp s).getD 0
    let w := wordsOf 12 ((rdA s r (fld48 k.w 0) 48).getD [])
    needRadio (modEp s n (fun _ => { ({} : Endpoint) with live := true, part := (ringOwner r).getD 0, img := w })) [BitVec.ofNat 32 n]))

/-- The partition has the endpoint. -/
def epMine (s : State) (r : RingId) (n : Nat) : Bool := (getEp s n).live && decide ((getEp s n).part = (ringOwner r).getD 0)

/-- RU_REMOVE (R172). -/
def execRuRemove (r : RingId) (k : Pkt) (s : State) : Host.Outcome State Fault Refusal :=
  inRun s (fun s =>
    let n := fld (wd k.w 0) 9 0
    fwRun s r 0x31 k [] (fun s => errsOf [ (!epMine s r n, stBadParam),
        (s.radio.cells.any (fun c => c.2.live && c.2.flows.any (fun f => decide (f.ep = n))), stBusy) ])
      (fun s => .done (modEp s n (fun _ => {})) stOk []))

/-- RU_STATS (R176). -/
def execRuStats (r : RingId) (k : Pkt) (s : State) : Host.Outcome State Fault Refusal :=
  inRun s (fun s =>
    let n := fld (wd k.w 0) 9 0
    let a := fld48 k.w 1
    fwRun s r 0x32 k [] (fun s => errsOf [ (!epMine s r n, stBadParam), (!canWrA s r a 28, stBounds) ])
      (fun s =>
        let e := getEp s n
        let bs := [e.ontime, e.early, e.late, e.dup, e.seqgap, e.unsup, e.txLate].flatMap (leBytes 4)
        writeDone s r a bs stOk []))

/-! ### Checks of a cell -/

/-- A search configuration keeps to R185. -/
def srOk (w : List Word) (i : Nat) : Bool :=
  let a := wd w (9 + 3 * i)
  let f := srFormat w i
  let root := fld a 15 6
  decide (fld a 31 27 = 0) &&
  (!srEn w i || (decide (f ≤ 0x12) && (if f ≤ 8 then decide (root ≤ 837) else if f ≤ 0x0F then decide (root ≤ 137) else true) &&
    decide (srPeriod w i ≠ 0) && decide (61440 % srPeriod w i = 0) && decide (srOffset w i < srPeriod w i) &&
    decide (1 ≤ srLen w i) && decide (srLen w i ≤ srPeriod w i)))

/-- Slots of a frame. -/
def frameSlots (w : List Word) : Nat := 10 * 2 ^ cMu w

/-- CELL_CTX keeps to its table (R178, R194). -/
def ctxOk (w : List Word) : Bool :=
  let n := cNprb w
  let dir (i : Nat) : Nat := fld (wd w (4 + i / 16)) (2 * (i % 16) + 1) (2 * (i % 16))
  decide (fld (wd w 0) 31 22 = 0) && decide (cRat w ≠ 3) && (decide (cRat w = 1) || decide (cMu w = 0)) &&
  (if cRat w = 1 then decide (1 ≤ n) && decide (n ≤ 275) else if cRat w = 0 then decide (6 ≤ n) && decide (n ≤ 100) else decide (n = 1)) &&
  decide (1 ≤ cNstream w) && decide (cNstream w ≤ 64) && decide (1 ≤ cLayersDl w) && decide (cLayersDl w ≤ 16) &&
  decide (1 ≤ cLayersUl w) && decide (cLayersUl w ≤ 16) && decide (cCompUl w ≤ 4) && decide (cCompDl w ≤ 5) &&
  decide (fld (wd w 1) 31 16 = 0) && decide (cCluster w ≤ 15) && decide (fld (wd w 2) 31 9 = 0) && decide (fld (wd w 3) 31 20 = 0) &&
  (List.range 80).all (fun i => if i < frameSlots w then decide (dir i ≠ 3) else decide (dir i = 0)) &&
  (List.range 3).all (srOk w) && decide (cRptAddr w % 4096 = 0) && decide (fld (wd w 28) 31 16 = 0) &&
  decide (fld (wd w 29) 15 4 = 0) && decide (wd w 30 = 0) && decide (wd w 31 = 0) &&
  !(decide (cCompDl w = 5) && decide (1 < cLayersDl w) && decide (cCat w = 0))

/-- The flows that a flow list gives, with the reserved bits that are set in it. -/
def flowsOf (ws : List Word) (n : Nat) : List (Flow × Bool) :=
  (List.range n).map (fun i =>
    let a := wd ws (2 * i)
    let b := wd ws (2 * i + 1)
    ({ eaxc := fld a 15 0, ep := fld a 25 16, down := bit a 26, prach := bit a 27, idx := fld b 5 0, lastSeq := none, queue := 0 },
     decide (fld a 31 28 ≠ 0) || decide (fld b 31 6 ≠ 0)))

/-- Two flows repeat an endpoint, eAxC ID and direction (R179). -/
def flowsRepeat : List Flow → Bool
  | [] => false
  | f :: t => t.any (fun g => decide (g.ep = f.ep) && decide (g.eaxc = f.eaxc) && (g.down == f.down)) || flowsRepeat t

/-- The first run of n free streams. -/
def freeStreams (s : State) (n : Nat) : Option Nat :=
  (List.range (2049 - n)).find? (fun i => (List.range n).all (fun j => !(getStream s (i + j)).en))

/-- The first n egress queues that are free. -/
def freeQueues (s : State) (n : Nat) : List Nat := ((List.range 4096).filter (fun q => !(getQ s q).en)).take n

/-- The live cells' contexts and flows. -/
def liveCells (s : State) : List Cell := (s.radio.cells.filter (fun c => c.2.live)).map (fun c => c.2)

/-- Sum of a budget over cells that a test picks. -/
def budgetSum (cs : List Cell) (r : Nat) (pick : List Word → Bool) : Nat :=
  cs.foldl (fun n c => if pick c.ctx then n + cBudget c.ctx r else n) 0

/-- A cell's fronthaul bytes of a direction that count on subport `j` of port `k` (R207): its whole budget where one of its flows
passes there (DESIGN CHOICE, log entry 100). -/
def fhBytes (s : State) (c : Cell) (down : Bool) (k j : Nat) : Nat :=
  if c.flows.any (fun f => (f.down == down) && decide (epPort (getEp s f.ep) = k) && decide (epSub (getEp s f.ep) = j))
  then cBudget c.ctx (if down then 7 else 6) else 0

/-- Fronthaul bits per clove that a subport may carry: 90 % of its rate (R207, R305), none on a subport that the mode lacks
(DEDUCED, log entry 100). -/
def fhLimit (P : EthPort) (j : Nat) : Nat := if j < subCount P.modeAct then 11250 * subRate P else 0

/-- Lanes busy in clove x for a search configuration (R186). -/
def laneUse (w : List Word) (i x : Nat) : Nat :=
  let p := srPeriod w i
  let d := (x + p - srOffset w i) % p
  (if d ≤ srLen w i then 1 else 0) + (if d + p ≤ srLen w i then 1 else 0)

/-- The lanes suffice over one cycle of 61,440 cloves from a start (R207). -/
def lanesFit (cs : List Cell) (start : Nat) : Bool :=
  let cf := cs.flatMap (fun c => ((List.range 3).filter (srEn c.ctx)).map (fun i => (c.ctx, i)))
  decide (2 * cf.length ≤ 64) ||
  (List.range 61440).all (fun x => decide ((cf.foldl (fun n e => n + laneUse e.1 e.2 (start + x)) 0) ≤ 64))

/-- The limits of R207 but the last hold with the cell added. -/
def admits (s : State) (c : Cell) : Bool :=
  let cs := liveCells s ++ [c]
  let w := c.ctx
  decide (budgetSum cs 0 (fun x => decide (cCluster x = cCluster w) && decide (cSaf x = cSaf w)) ≤ 122880) &&
  decide (budgetSum cs 1 (fun x => decide (cCluster x = cCluster w)) ≤ 135000) &&
  (List.range 4).all (fun p => decide (budgetSum cs (2 + p) (fun _ => true) ≤ poolLimit p (inService s p).length)) &&
  (List.range 8).all (fun k => (List.range 4).all (fun j => [false, true].all (fun d =>
    decide ((cs.foldl (fun n x => n + fhBytes s x d k j) 0) * 8 ≤ fhLimit (getPort s k) j)))) &&
  decide (budgetSum cs 8 (fun _ => true) ≤ 2000000) && lanesFit cs c.start

/-- A non-radio program with a long REP is loaded on the cell's cluster (R161, R207). -/
def longRepThere (s : State) (c : Nat) : Bool :=
  (List.range 4).any (fun x =>
    let o := getCsp s c x
    (decide (o.st = 1) || decide (o.st = 2)) && !o.radio && decide (6000 < o.longRep))

/-- The first cell that is free. -/
def freeCell (s : State) : Option Nat := (List.range 512).find? (fun n => !(getCell s n).live)

/-- Flows in use. -/
def flowCount (s : State) : Nat := (liveCells s).foldl (fun n c => n + c.flows.length) 0

/-- The cell that a command asks for, without its streams and queues. -/
def newCell (p : Nat) (w : List Word) (fl : List Flow) (frame : Nat) : Cell :=
  { ({} : Cell) with live := true, part := p, ctx := w, flows := fl, start := frame, nstream := cNstream w }

/-- What CELL_ADD and CELL_IMPORT check, given the context and the flow list if they can be read (R172, R178, R179, R189, R207). -/
def cellErrs (s : State) (p : Nat) (ctx : Option (List Word)) (fl : Option (List (Flow × Bool))) (n frame : Nat) : List Nat :=
  let w := ctx.getD []
  let fs := (fl.getD []).map (fun x => x.1)
  let readable := ctx.isSome && fl.isSome
  let c := newCell p w fs frame
  let down := (fs.filter (fun f => f.down)).length
  errsOf
    [ (decide (frame % 80 ≠ 0) || decide (n = 0) || decide (4096 < n), stBadParam),
      (readable && (!ctxOk w || (fl.getD []).any (fun x => x.2) || flowsRepeat fs ||
        fs.any (fun f => !((getEp s f.ep).live && decide ((getEp s f.ep).part = p)) || (!f.down && decide (cNstream w ≤ f.idx)))), stBadParam),
      (readable && ((freeCell s).isNone || decide (4096 < flowCount s + n) || (freeStreams s (cNstream w)).isNone ||
        decide ((freeQueues s down).length < down) || !admits s c), stNoResource),
      (!readable || (runsOf (cRptAddr w) (cRptSize w * 32)).any (fun x =>
        let e := pteOf s p x.1
        !(e.v && e.w && decide (e.kind = 0))), stBounds),
      (decide ((getPart s p).typ ≠ 0), stRefusedMode),
      (decide (frame < s.time.clove + 80), stDeadline),
      (readable && !(getHold s p (cCluster w)).saf, stDenied),
      (readable && longRepThere s (cCluster w), stBusy) ]

/-- Put a list of queue numbers onto the downlink flows, in order. -/
def giveQueues : List Flow → List Nat → List Flow
  | [], _ => []
  | f :: t, [] => f :: giveQueues t []
  | f :: t, q :: qs => if f.down then { f with queue := q } :: giveQueues t qs else f :: giveQueues t (q :: qs)

/-- Reserve what an admitted cell needs: its streams, and one RADIO queue for each downlink flow with its share of B_FH_DL. -/
def reserveCell (s : State) (n : Nat) (c : Cell) : State :=
  let first := (freeStreams s c.nstream).getD 0
  let down := c.flows.filter (fun f => f.down)
  let fl := giveQueues c.flows (freeQueues s down.length)
  let share := cBudget c.ctx 7 / Nat.max 1 down.length / 64
  let s := modCell s n (fun _ => { c with flows := fl, streamFirst := first })
  let s := (List.range c.nstream).foldl (fun s i => modStream s (first + i) (fun _ => { ({} : Stream) with en := true, cell := n })) s
  (fl.filter (fun f => f.down)).foldl (fun s f =>
    let e := getEp s f.ep
    modQ s f.queue (fun _ => { ({} : TmQ) with
      en := true, radio := true, port := BitVec.ofNat 3 (epPort e), sub := BitVec.ofNat 2 (epSub e), part := BitVec.ofNat 8 c.part
      allow := Nat.min (2 ^ 24 - 1) share, left := Nat.min (2 ^ 24 - 1) share * 64, cell := n })) s

/-- The flow list of a command. -/
def readFlows (s : State) (r : RingId) (k : Pkt) : Option (List (Flow × Bool)) :=
  let n := fld (wd k.w 4) 12 0
  (rdA s r (fld48 k.w 2) (8 * n)).map (fun b => flowsOf (wordsOf (2 * n) b) n)

/-- The context at the start of a command's image. -/
def readCtx (s : State) (r : RingId) (k : Pkt) : Option (List Word) := (rdA s r (fld48 k.w 0) 128).map (wordsOf 32)

/-- The partition of a command. -/
def cellP (r : RingId) : Nat := (ringOwner r).getD 0

/-- Admit the cell of a command: its number, first stream, and the state with it reserved. -/
def admitCell (s : State) (r : RingId) (k : Pkt) (from_ : Nat) : Nat × Nat × State :=
  let n := (freeCell s).getD 0
  let c := newCell (cellP r) ((readCtx s r k).getD []) (((readFlows s r k).getD []).map (fun x => x.1)) (fld64 k.w 5)
  let s := reserveCell s n { c with importFrom := from_ }
  (n, (getCell s n).streamFirst, s)

/-- CELL_ADD (R178, R179). -/
def execCellAdd (r : RingId) (k : Pkt) (s : State) : Host.Outcome State Fault Refusal :=
  inRun s (fun s => fwRun s r 0x33 k []
    (fun s => cellErrs s (cellP r) (readCtx s r k) (readFlows s r k) (fld (wd k.w 4) 12 0) (fld64 k.w 5))
    (fun s =>
      let x := admitCell s r k 0
      needRadio x.2.2 [BitVec.ofNat 32 x.1, BitVec.ofNat 32 x.2.1]))

/-- The partition has the cell. -/
def cellMine (s : State) (r : RingId) (n : Nat) : Bool := (getCell s n).live && decide ((getCell s n).part = cellP r)

/-- The frame boundary that a field names, if it is still to come. -/
def futureFrame (s : State) (f : Nat) : Option Nat :=
  match cloveOfField s f with
  | none => none
  | some x => if s.time.clove < x then some x else none

/-- The checks of a command that ends a cell at a frame boundary (R180, R349). -/
def cellEndErrs (s : State) (r : RingId) (n f : Nat) : List Nat :=
  errsOf
    [ (!cellMine s r n, stBadParam),
      (match futureFrame s f with
       | none => false
       | some x => decide (x % 80 ≠ 0), stBadParam),
      ((futureFrame s f).isNone, stDeadline), (decide ((getCell s n).removeAt ≠ 0), stBusy) ]

/-- CELL_REMOVE (R180): it completes when the cell's resources are released. -/
def execCellRemove (r : RingId) (k : Pkt) (s : State) : Host.Outcome State Fault Refusal :=
  inRun s (fun s =>
    let n := fld (wd k.w 0) 8 0
    let f := (wd k.w 1).toNat
    fwRun s r 0x34 k [] (fun s => cellEndErrs s r n f)
      (fun s => .wait (modCell s n (fun C => { C with removeAt := (futureFrame s f).getD 0 })) (.cellRemove n) []))

/-! ### Export and import (R349, R350; layout: log entry 37) -/

/-- The soft buffers of a cell: those of its partition, since no job names a cell. -/
def softBuffers (s : State) (c : Cell) : List (Nat × Nat) := (s.radio.soft.filter (fun x => decide (x.1 = c.part))).map (fun x => x.2)

/-- Bytes of a cell's image. -/
def imageLen (s : State) (c : Cell) : Nat :=
  128 + 8 + 8 * c.nstream + 8 + (softBuffers s c).foldl (fun n x => n + 16 + x.2) 0 + 8

/-- The image of a cell, its validity word last. -/
def cellImage (s : State) (c : Cell) : List Byte :=
  bytesOfWords (c.ctx.take 32) ++ leBytes 2 c.rptTail.toNat ++ leBytes 2 c.rptHead.toNat ++ leBytes 4 (b2n c.rptOvf) ++
  (List.range c.nstream).flatMap (fun i =>
    let S := getStream s (c.streamFirst + i)
    leBytes 4 S.gain ++ leBytes 4 S.base.toNat) ++
  leBytes 8 (softBuffers s c).length ++
  (softBuffers s c).flatMap (fun x =>
    leBytes 8 x.1 ++ leBytes 8 x.2 ++ (rdVa s c.part x.1 x.2).getD (List.replicate x.2 0)) ++ leBytes 8 Config.validityWord.toNat

/-- CELL_EXPORT (R349). -/
def execCellExport (r : RingId) (k : Pkt) (s : State) : Host.Outcome State Fault Refusal :=
  inRun s (fun s =>
    let n := fld (wd k.w 0) 8 0
    let f := (wd k.w 1).toNat
    let a := fld48 k.w 2
    let len := (wd k.w 4).toNat
    fwRun s r 0x35 k [] (fun s => cellEndErrs s r n f ++ errsOf [
        (cellMine s r n && decide (len < imageLen s (getCell s n)), stNoResource), (!canWrA s r a len, stBounds) ])
      (fun s => .wait (modCell s n (fun C => { C with
        removeAt := (futureFrame s f).getD 0, exportTo := a, exportLen := len })) (.cellExport n) []))

/-- CELL_IMPORT (R350): admitted like CELL_ADD; it completes in clove F' - 1. -/
def execCellImport (r : RingId) (k : Pkt) (s : State) : Host.Outcome State Fault Refusal :=
  inRun s (fun s => fwRun s r 0x36 k []
    (fun s => cellErrs s (cellP r) (readCtx s r k) (readFlows s r k) (fld (wd k.w 4) 12 0) (fld64 k.w 5))
    (fun s =>
      let x := admitCell s r k (fld48 k.w 0)
      .wait x.2.2 (.cellImport x.1) [BitVec.ofNat 32 x.1, BitVec.ofNat 32 x.2.1]))

/-! ### At a boundary -/

/-- CELL_RELEASE (R180): budget, streams, flows, lanes and egress queues of a cell are free again. -/
def releaseCell (s : State) (n : Nat) : State :=
  let c := getCell s n
  let s := (c.flows.filter (fun f => f.down)).foldl (fun s f => modQ (flushQ s f.queue) f.queue (fun _ => {})) s
  let s := (List.range c.nstream).foldl (fun s i => modStream s (c.streamFirst + i) (fun _ => {})) s
  let s := (s.radio.lanes.filter (fun l => l.2.busy && decide (l.2.cell = n))).foldl (fun s l => modLane s l.1 (fun L => { L with busy := false })) s
  let s := modCell s n (fun _ => {})
  { s with radio := { s.radio with
      sects := s.radio.sects.filter (fun u => decide (u.cell ≠ n)), closed := s.radio.closed.filter (fun u => decide (u.cell ≠ n))
      txDone := s.radio.txDone.filter (fun u => decide (u.cell ≠ n)) } }

/-- What the export of a cell comes to: soft buffers that came into use after the command may make the image too long. -/
def exportStatus (s : State) (c : Cell) : Nat :=
  if c.exportLen < imageLen s c then stNoResource
  else if !canWrVa s c.part c.exportTo (imageLen s c) then stBounds
  else if writeLost s c.part c.exportTo (imageLen s c) then stTimeout else stOk

/-- A cell whose removal boundary has passed: its image is written if it was exported (R349), and it is released. -/
def endCell (s : State) (n : Nat) : State :=
  let c := getCell s n
  let st := exportStatus s c
  let s := if c.exportLen = 0 ∨ st ≠ stOk then s else wrVa s c.part c.exportTo (cellImage s c)
  let s := releaseCell s n
  completeWait (completeWait s (.cellRemove n) stOk) (.cellExport n) st

/-- Read up to k soft buffers of an image from address a on: address and bytes of each, and where they end; none where they cannot be
read. -/
def imageSoft (s : State) (p : Nat) : Nat → Nat → Option (List (Nat × List Byte) × Nat)
  | 0, a => some ([], a)
  | k + 1, a =>
    match rdVa s p a 16 with
    | none => none
    | some h =>
      match rdVa s p (a + 16) (ofLe ((h.drop 8).take 8)) with
      | none => none
      | some bs => (imageSoft s p k (a + 16 + bs.length)).map (fun x => ((ofLe (h.take 8), bs) :: x.1, x.2))

/-- The cell, the streams and the soft buffers that an image brings (R350); CELL_IMPORT sets both indices of the report ring to 0
(R189). -/
def takeImage (s : State) (n : Nat) (bs : List Byte) (soft : List (Nat × List Byte)) : State :=
  let c := getCell s n
  let s := (List.range c.nstream).foldl (fun s i => modStream s (c.streamFirst + i) (fun S => { S with
    gain := ofLe ((bs.drop (136 + 8 * i)).take 1), base := BitVec.ofNat 24 (ofLe ((bs.drop (140 + 8 * i)).take 3)) })) s
  let s := soft.foldl (fun s x => noteSoft (wrVa s c.part x.1 x.2) c.part x.1 x.2.length) s
  modCell s n (fun C => { C with importFrom := 0, rptOvf := decide (ofLe ((bs.drop 132).take 1) % 2 = 1) })

/-- Firmware reads the image of an imported cell in clove F' - 1 (R350). -/
def readImage (s : State) (n : Nat) : State :=
  let c := getCell s n
  let head := 144 + 8 * c.nstream
  match rdVa s c.part c.importFrom head with
  | none => completeWait (releaseCell s n) (.cellImport n) stBounds
  | some bs =>
    match imageSoft s c.part (Nat.min 65536 (ofLe ((bs.drop (136 + 8 * c.nstream)).take 8))) (c.importFrom + head) with
    | none => completeWait (releaseCell s n) (.cellImport n) stTimeout
    | some x =>
      if (rdVa s c.part x.2 8).map ofLe ≠ some Config.validityWord.toNat then
        completeWait (releaseCell s n) (.cellImport n) stTimeout
      else completeWait (takeImage s n bs x.1) (.cellImport n) stOk

/-- The cells at a clove boundary: releases, images to read, starts, and the ends and starts of search occasions. -/
def radioBoundary (s : State) : State :=
  let n := s.time.clove
  let pick (s : State) (t : Cell → Bool) : List Nat := (s.radio.cells.filter (fun c => c.2.live && t c.2)).map (fun c => c.1)
  let s := (pick s (fun c => decide (c.removeAt ≠ 0) && decide (c.removeAt < n))).foldl endCell s
  let s := (pick s (fun c => decide (c.importFrom ≠ 0) && decide (c.start ≤ n + 1))).foldl readImage s
  let s := (pick s (fun c => decide (c.start ≤ n) && !c.started)).foldl (fun s c => modCell s c (fun C => { C with started := true })) s
  startOccasions (endOccasions s)

/-- RAD_OVERRUN (R181): cell, resource, and amount used in the clove that has ended. -/
def overruns (s : State) (ended : Nat) (use : List (Nat × Nat × Nat)) : State :=
  use.foldl (fun s u =>
    let c := getCell s u.1
    if c.live && decide (u.2.1 < 9) && decide (cBudget c.ctx u.2.1 < u.2.2) then evPart s c.part 0x0201 [(2, u.1), (1, u.2.1), (8, ended)]
    else s) s

/-- RADIO_ALLOWANCE_RESET (R305). -/
def resetAllowances (s : State) : State :=
  let qs := (s.eth.qs.filter (fun e => e.2.en && e.2.radio)).map (fun e => e.1)
  qs.foldl (fun s q => modQ s q (fun Q => { Q with left := Q.allow * 64 })) s

/-- A stop of a partition removes its cells now, for every slot; their budgets go at the next boundary (R341). -/
def dropCells (s : State) (p : Nat) : State :=
  let cs := (s.radio.cells.filter (fun c => c.2.live && decide (c.2.part = p))).map (fun c => c.1)
  cs.foldl (fun s c => modCell s c (fun C => { C with
    removeAt := 1, exportTo := 0, exportLen := 0
    importFrom := 0 })) s

end Sys2Proof.Machine
end

