-- ==== Sys2Proof/Machine/Stop.lean ====
section
/-! DEFINITION. How a partition's work stops, how its generation advances and how a reset of it goes on (R69, R141, R148, R242,
R248, R295, R341-R343, R351), and the stop after a fault that cannot be absorbed (R37, R73, R420). -/

namespace Sys2Proof.Machine

open Sys2Proof

/-- The clusters that are not in their reset state, ascending. -/
def liveClusters (s : State) : List Nat := s.clusters.map (fun e => e.1)

/-- A slice of a partition on an array. -/
def sliceMine (p : Nat) (x : Slice) : Bool := x.live && decide (x.part = p)

/-! ### Queues of engines -/

/-- Queues that an engine pushes to, or pops. -/
def engPushes (E : Engine) : List Nat := (E.qslot.filter (fun w => bit w.2 31 && !bit w.2 6)).map (fun w => fld w.2 5 0)
def engPops (E : Engine) : List Nat := (E.qslot.filter (fun w => bit w.2 31 && bit w.2 6)).map (fun w => fld w.2 5 0)

/-- An engine of a partition touches one of some queues. -/
def engTouches (p : Nat) (qs : List Nat) (f : Engine → List Nat) (E : Engine) : Bool :=
  decide (E.part = p) && (f E).any (fun q => qs.contains q)

/-- The numbers of a cluster's engines that a test picks. -/
def enginesWhere (s : State) (c : Nat) (pick : Engine → Bool) : List Nat :=
  (List.range 8).filter (fun e => pick (getEng s c e))

/-- The operations of a partition's slices on an array that are not complete, and its drains. -/
def openOps (la : LArray) (p : Nat) : List (List Word) :=
  (([la.sl0, la.sl1] ++ la.closing ++ la.replays).filter (sliceMine p)).flatMap (fun x => x.ops) ++
    (la.drains.filter (fun d => decide (d.part = p))).map (fun d => d.d)

/-- The outputs that a partition's slices on an array have not completed are poisoned where its programs would have written them
(R37, R341, R420, log entry 92). -/
def poisonArray (p c : Nat) (s : State) (l : Nat) : State :=
  let qs := ((openOps (getLa s c l) p).flatMap outQueues).dedup
  (enginesWhere s c (fun E => engBusy E && engTouches p qs engPops E)).foldl (fun s e => poisonOutputs s c e qs) s

/-- Stop a partition's work on one array: its slices end with ABORTED, its operations and drains go, its accumulations end. With
abort its waiting descriptors complete with ABORTED (R73); otherwise they stay in their queue (R69). -/
def stopArray (p c : Nat) (abort : Bool) (s : State) (l : Nat) : State :=
  let s := poisonArray p c s l
  let la := getLa s c l
  let s := (([la.sl0, la.sl1] ++ la.closing).filter (sliceMine p)).foldl (fun s x => emit s (.slice c l (b2n x.ctx) stAborted)) s
  let s := if abort then (la.descQ.filter (fun x => decide (x.1 = p))).foldl (fun s x => emit s (.op c l (b2n (dCtx x.2)) stAborted)) s
    else s
  let s := if la.part = some p then modPa s c (physOf (getClu s c) l) (fun pa =>
      { pa with accs := tabMapV {} pa.accs (fun a => { a with openBy := 0 }) }) else s
  modLa s c l (fun la => { la with
    sl0 := if sliceMine p la.sl0 then {} else la.sl0
    sl1 := if sliceMine p la.sl1 then {} else la.sl1
    closing := la.closing.filter (fun x => !sliceMine p x)
    replays := la.replays.filter (fun x => !sliceMine p x)
    run := la.run.filter (fun r => decide (r.part ≠ p))
    drains := la.drains.filter (fun d => decide (d.part ≠ p))
    descQ := if abort then la.descQ.filter (fun x => decide (x.1 ≠ p)) else la.descQ })

/-- Stop and free a partition's engines, and flush and disable its queues, in one cluster (R141, R142). -/
def stopStreams (p : Nat) (cl : Cluster) : Cluster :=
  { cl with
    eng := tabMapV {} cl.eng (fun E => if E.part = p then { wcnt := E.wcnt } else E)
    eq := tabMapV {} cl.eq (fun Q => if Q.en && decide (Q.part = p) then { miss := Q.miss, late := Q.late } else Q) }

/-- Stop a partition's contexts of one cluster (R148). -/
def stopContexts (p c : Nat) (s : State) : State :=
  (List.range 4).foldl (fun s x =>
    if decide (cspOwner (getCsp s c x) = some p) then askStop (modCsp s c x (fun o => { o with load := none })) c x else s) s

/-- Stop a partition's work in one cluster. -/
def stopCluster (p : Nat) (abort : Bool) (s : State) (c : Nat) : State :=
  stopContexts p c (modClu ((List.range 16).foldl (stopArray p c abort) s) c (stopStreams p))

/-- DET_END_CLOVE and DET_END_CYCLE of a run that stops (R242). -/
def noteRunEnd (P : Part) : Part :=
  match P.launch with
  | some L => if L.running then { P with endClove := BitVec.ofNat 32 L.endClove, endCycle := L.endCycle } else P
  | none => P

/-- A partition's claims, by number. -/
def claimIds (s : State) (p : Nat) : List Nat := (s.claims.filter (fun c => decide (c.part = p))).map (fun c => c.id)

/-- A request of a partition of this chip. -/
def ownReqOf (s : State) (p : Nat) (q : FabReq) : Bool := decide (q.node.val = ownNode s) && decide (q.part.val = p)

/-- Requests of a partition that wait at a link or in an atomic entry of the router have not been sent (R341). -/
def unsentReqs (s : State) (p : Nat) : List FabReq :=
  s.fab.links.flatMap (fun k => k.2.txq.filterMap (fun m => match m with
    | .request q => if ownReqOf s p q then some q else none
    | _ => none)) ++
  (s.fab.comb.filter (fun x => decide (x.req.op.val ≠ 0))).flatMap (fun x => x.members.filter (ownReqOf s p))

/-- The router's entries and the links' queues without a partition's unsent requests. -/
def dropUnsent (s : State) (p : Nat) : State :=
  { s with fab := { s.fab with
    links := tabMapV {} s.fab.links (fun k => { k with txq := k.txq.filter (fun m => match m with
      | .request q => !ownReqOf s p q
      | _ => true) })
    comb := (s.fab.comb.map (fun x =>
      if x.req.op.val = 0 then x else { x with members := x.members.filter (fun q => !ownReqOf s p q) })).filter (fun x => !x.members.isEmpty) } }

/-- A partition's unsent requests, its FAB_DMA segments, claims and grants go (R341). -/
def dropRequests (s : State) (p : Nat) : State :=
  let un := unsentReqs s p
  let s := dropUnsent s p
  { s with
    fab := { s.fab with
      outst := s.fab.outst.filter (fun o => !(decide (o.req.part.val = p) && (decide (o.path = 25) ||
        un.any (fun q => decide (q.seq = o.req.seq) && decide (fabNode q.addr.toNat = o.dst)))))
      dma := s.fab.dma.filter (fun d => decide (d.part ≠ p)) }
    claims := s.claims.filter (fun c => decide (c.part ≠ p))
    grants := s.grants.filter (fun g => decide (g.2.1 ≠ p)) }

/-- Its queue pairs are destroyed (R295). -/
def dropQps (s : State) (p : Nat) : State :=
  ((s.eth.qps.filter (fun q => q.2.live && decide (q.2.part = p))).map (fun q => q.1)).foldl dropQp s

/-- Its jobs end, and other jobs take their instances. -/
def dropPartJobs (s : State) (p : Nat) : State :=
  (List.range 4).foldl (fun s k => jobFeed s k (s.radio.waiting.length + 1)) (dropJobs s p)

/-- The groups whose arrays a partition holds in this clove. -/
def heldNow (s : State) (p : Nat) : List Nat :=
  (s.clusters.flatMap (fun c => (c.2.la.filter (fun l => decide (l.2.part = some p) && !isSaffron c.1 l.1)).map (fun l =>
    4 * c.1 + l.1 / 4))).dedup

/-- Step 1 of R341: a partition's work stops at once; its groups are free from the next boundary that can be committed (R25). -/
def stopWork (s : State) (p : Nat) (abort : Bool) : State :=
  let s := { s with freed := s.freed ++ (heldNow s p).map (fun k => (k, nextCommit s)) }
  let s := (liveClusters s).foldl (stopCluster p abort) s
  let s := modPart s p (fun P => { noteRunEnd P with
    descs := tabMapV {} P.descs (fun _ => { stale := true })
    progs := tabMapV {} P.progs (fun _ => { stale := true })
    tasks := [], launch := none, twinState := 0, stepAt := none, st := .resetting
    frozenAt := 0, thawAt := 0 })
  dropQps (dropPartJobs (dropCells (dropRequests s p) p) p) p

/-- An open command that a stop of partition p completes with ABORTED (R341, R343); ids are the partition's claims. -/
def abortsCmd (p : Nat) (ids : List Nat) (o : Outst) : Bool :=
  match o.why with
  | .resetWait _ => false
  | .freeze q => decide (q = p)
  | .thaw q => decide (q = p)
  | .swap q => decide (q = p)
  | .claim i => ids.contains i
  | _ => decide (ringOwner o.ring = some p)

/-- The result words of an open command that is aborted: LAUNCH_AT names the run's last write (R374). -/
def abortRes (s : State) (o : Outst) : List Word :=
  match o.why with
  | .run p => [(getPart s p).endClove, BitVec.ofNat 32 (getPart s p).endCycle]
  | _ => o.res

/-- Steps 1 and 2 of R341. -/
def stopPart (s : State) (p : Nat) (abort : Bool) : State :=
  let ids := claimIds s p
  let s := stopWork s p abort
  completeWhere s (abortsCmd p ids) (fun o => (stAborted, abortRes s o))

/-- Steps 3 and 4 of R341: the generation advances and the notice goes out. -/
def advanceGen (s : State) (p : Nat) (g : BitVec 16) : State :=
  let s := modPart s p (fun P => { P with gen := g, wrapWait := false })
  noticeCheck (sendNotice { s with lastGen := tabSet 0 s.lastGen p g } p g) p false

/-- A reset of a partition (R341, R342). -/
def resetPart (s : State) (p : Nat) (abort : Bool) : State :=
  let s := stopPart s p abort
  if (getPart s p).gen = 0xFFFF then modPart s p (fun P => { P with wrapWait := true })
  else advanceGen s p ((getPart s p).gen + 1)

/-- A fault that cannot be absorbed stops a partition and resets it (R37, R420). -/
def faultStop (s : State) (p cause c a : Nat) : State :=
  let items := [(1, p), (1, cause), (1, c), (1, a)]
  let s := evPool (evPart s p 0x0707 items) 0x0707 items
  resetPart s p true

end Sys2Proof.Machine
end

