-- ==== Sys2Proof/Machine/Link.lean ====
section
/-! DEFINITION. Chip links: training (R254-R256), fast retrains, widths and lane retirement (R257-R262), flits (R253), link
security (R263, R264, R400) and the loss of links (R285, R286). -/

namespace Sys2Proof.Machine

open Sys2Proof

/-- Array cycles of a number of milliseconds. -/
def msCycles (n : Nat) : Nat := 2000000 * n

/-- The group of a link has power (R436). -/
def linkPowered (s : State) (l : Nat) : Bool := domUsable s (s.pwr.linkOn.getLsbD (l / 8)) (l / 8)

/-- The lanes of a link that are neither excluded, retired nor disabled (R259). -/
def lanesFree (k : Link) : List Nat :=
  (List.range 4).filter (fun j => k.locked.getLsbD j && !k.lanesRet.getLsbD j && !k.disAct.getLsbD j)

/-- The lane set of the widest width that the request allows and the lanes give: its width code and lanes (R259, R260). -/
def laneSet (k : Link) : Option (Nat × List Nat) :=
  let f := lanesFree k
  let has (l : List Nat) : Bool := l.all (fun j => f.contains j)
  let req := if k.widthAct.toNat = 3 then 0 else k.widthAct.toNat
  if req = 0 ∧ has [0, 1, 2, 3] then some (0, [0, 1, 2, 3])
  else if req ≤ 1 ∧ has [0, 1] then some (1, [0, 1])
  else if req ≤ 1 ∧ has [2, 3] then some (1, [2, 3])
  else match f with
    | [] => none
    | j :: _ => some (2, [j])

/-- Bits of a list of lanes. -/
def laneMask (l : List Nat) : BitVec 4 := BitVec.ofNat 4 (l.foldl (fun n j => n ||| 2 ^ j) 0)

/-- Nodes that lost their last path between two states are reported; nodes with a path are reachable (R286). -/
def reachAll (s : State) : State :=
  (otherNodes s).foldl (fun s n =>
    if (pathsTo s n).isEmpty then
      (if s.fab.outst.any (fun o => decide (o.dst = n)) then checkReach s n else s)
    else { s with fab := { s.fab with unreach := s.fab.unreach.filter (fun x => decide (x ≠ n)) } }) s

/-- The nodes of the rack that no path leads to. -/
def cutNodes (s : State) : List Nat := (otherNodes s).filter (fun n => (pathsTo s n).isEmpty)

/-- LINK_DOWN (R285, R286): the link leaves every path set, its requests go out on other paths, and nodes with no path left are
reported. -/
def linkLost (s : State) (l st : Nat) : State :=
  let was := linkAlive s l
  let before := cutNodes s
  let s := modLink s l (fun k => linkDown k st)
  if !was then s else
  let s := disturbLink s l 1
  let s := { s with health := { s.health with downs := satInc 32 s.health.downs 1 } }
  let s := repath s
  ((cutNodes s).filter (fun n => !before.contains n)).foldl checkReach s

/-- The partitions with a request to a node that has no answer yet, ascending. -/
def waitingParts (s : State) (node : Nat) : List Nat :=
  (liveParts s).filter (fun p => s.fab.outst.any (fun o => decide (o.dst = node) && decide (o.req.part.val = p)))

/-- A fault has cut the last path to a node: the partitions that wait for an answer from it are stopped and reset. The cause and the
site that PART_STOPPED then carries are free (R420, log entry 99). -/
def stopCut (s : State) (node : Nat) : State :=
  (waitingParts s node).foldl (fun s p =>
    let f := takeFree s 24
    faultStop f.2 p (f.1.toNat % 256) (f.1.toNat / 256 % 256) (f.1.toNat / 65536)) s

/-- A fault takes a link down (R285, R286, R420). -/
def linkFailed (s : State) (l st : Nat) : State :=
  let t := linkLost s l st
  ((cutNodes t).filter (fun n => !(cutNodes s).contains n)).foldl stopCut t

/-! ### Training (R254-R256) -/

/-- The wait before the next attempt, after n failed ones (R255). -/
def backoff (n : Nat) : Nat :=
  if n ≤ 1 then msCycles 1 else if n = 2 then msCycles 2 else if n = 3 then msCycles 4 else if n = 4 then msCycles 8
  else msCycles 1000

/-- An attempt fails: the link is down and waits, and the pool manager hears of the first failure and then once a second
(R255). -/
def trainFail (s : State) (l : Nat) : State :=
  let k := getLink s l
  let n := k.failures + 1
  let tell := match k.lastFailEvent with
    | none => true
    | some t => decide (t + msCycles 1000 ≤ s.time.now)
  let s := modLink s l (fun k => { k with
    st := 2, failures := n, nextTry := s.time.now + backoff n
    lastFailEvent := if tell then some s.time.now else k.lastFailEvent })
  if tell then evPool s 0x0501 [(1, l), (1, k.stage)] else s

/-- The limit of a training stage, in array cycles (R254). -/
def stageLimit (stage : Nat) : Nat :=
  if stage = 0 then msCycles 20 else if stage = 1 then msCycles 5 else if stage ≤ 4 then msCycles 1 else msCycles 15

/-- The stage or the whole attempt exceeds its limit (R254). -/
def overdue (s : State) (k : Link) : Bool :=
  decide (k.stageAt + stageLimit k.stage < s.time.now) || decide (k.attemptAt + msCycles 50 < s.time.now)

/-- The attempt comes to its next stage. -/
def enterStage (s : State) (l n : Nat) : State := modLink s l (fun k => { k with stage := n, stageAt := s.time.now })

/-- A link's attempt stands in a stage. -/
def inStage (s : State) (l n : Nat) : Bool := decide ((getLink s l).st = 1) && decide ((getLink s l).stage = n)

/-- LOCK: lanes that do not lock are excluded; with no lane left the stage does not end (R254, R259). -/
def trainLock (s : State) (l : Nat) (o : Training) : State :=
  match o.locked with
  | none => s
  | some m =>
    let s := modLink s l (fun k => { k with locked := m })
    if (laneSet (getLink s l)).isNone then s else enterStage s l 3

/-- IDENT (R256): the partner is recorded; two chips of one chip ID, or a node outside the rack, end the attempt. A switch port sends
its own identity, which is no chip ID. -/
def trainIdent (s : State) (l : Nat) (o : Training) : State :=
  match o.ident with
  | none => s
  | some i =>
    let s := modLink s l (fun k => { k with partner := i.partner, node := i.node.toNat, isSwitch := i.isSwitch, met := true })
    if 64 ≤ ownNode s ∨ (!i.isSwitch ∧ (i.partner = s.fab.chipId ∨ 64 ≤ i.node.toNat)) then
      trainFail (evPool s 0x0502 [(1, l)]) l
    else enterStage (modLink s l (fun k => { k with leader := decide (s.fab.chipId.toNat < i.partner.toNat) })) l 4

/-- MEASURE (R225, R254). -/
def trainMeasure (s : State) (l : Nat) (o : Training) : State :=
  match o.delayPs with
  | none => s
  | some d => enterStage (modLink s l (fun k => { k with delayPs := d })) l 5

/-- SECURE (R263, R264, R400): with the partner authenticated the two ends agree on the pseudorandom key, which is free here: it comes from
secrets of the two security cores. A partner that fails leaves the link down until SERVICE. -/
def trainSecure (s : State) (l : Nat) (o : Training) : State :=
  match o.auth with
  | none => s
  | some ok =>
    if ok && s.sec.identKey then
      let f := takeFree s 384
      modLink f.2 l (fun k => { k with prk := some f.1, txEpoch := 0, rxEpoch := 0, keyAt := s.time.now })
    else evPool (modLink s l (fun k => { k with st := 0, authFail := true })) 0x0504 [(1, l)]

/-- The attempt goes on through the stages whose work is done, each from the one before. -/
def train (s : State) (l : Nat) (o : Training) : State :=
  let s := if inStage s l 0 && o.answered then enterStage s l 1 else s
  let s := if inStage s l 1 && o.equalised then enterStage s l 2 else s
  let s := if inStage s l 2 then trainLock s l o else s
  let s := if inStage s l 3 then trainIdent s l o else s
  let s := if inStage s l 4 then trainMeasure s l o else s
  if inStage s l 5 && (getLink s l).prk.isNone then trainSecure s l o else s

/-- A link may start an attempt: it is enabled, has power, is down and not in backoff (R254, R255, R264, R436). -/
def mayTrain (s : State) (l : Nat) : Bool :=
  let k := getLink s l
  k.en && linkPowered s l && !k.authFail && (decide (k.st = 0) || (decide (k.st = 2) && decide (k.nextTry ≤ s.time.now)))

/-- The attempt hears its partner, where the row says that training sequences arrive. -/
def hear (s : State) (l : Nat) (o : Training) : State :=
  if o.answered then modLink s l (fun k => { k with heardAt := s.time.now }) else s

/-- LINK_TRAIN_ATTEMPT (R254-R256, R263, R264): an enabled link that is down starts an attempt; one whose attempt stands in a stage goes on
with what the stages have met since. The end of SECURE is LINK_UP. -/
def execLinkTrainAttempt (link : Fin 24) (o : Training) (s : State) : Host.Outcome State Fault Refusal :=
  inRun s (fun s =>
    let l := link.val
    let k := getLink s l
    if k.st = 1 then (if overdue s k then trainFail s l else train (hear s l o) l o)
    else if mayTrain s l then
      train (hear (modLink s l (fun k => { k with
        st := 1, stage := 0, attemptAt := s.time.now, stageAt := s.time.now, heardAt := s.time.now, prk := none
        disAct := k.laneDis, widthAct := k.widthReq, widthAt := 0, widthNow := false, partnerW := none })) l o) l o
    else s)

/-- LINK_UP (R252-R255, R263): the attempt ends its SECURE stage; every counter of the link begins anew, and the partner has granted its
whole buffer (log entry 97). -/
def execLinkUp (link : Fin 24) (s : State) : Host.Outcome State Fault Refusal :=
  inRun s (fun s =>
    let l := link.val
    let k := getLink s l
    if k.st ≠ 1 ∨ k.stage ≠ 5 ∨ k.prk.isNone then s
    else if overdue s k then trainFail s l
    else match laneSet k with
    | none => s
    | some (w, ls) =>
      let s := modLink s l (fun k => { k with
        st := 3, stage := 6, width := w, lanesUp := laneMask ls, failures := 0, lastFailEvent := none
        txCtr := 0, rxSeq := 0, txSeq := 0, badTags := 0, ownReq := false, charged := 0
        rxUsed := [], txUsed := [], replay := [], txq := [] })
      reachAll (repath s))

/-- TRAIN_STAGE_TIMEOUT (R254, R255). -/
def execTrainStageTimeout (link : Fin 24) (s : State) : Host.Outcome State Fault Refusal :=
  inRun s (fun s =>
    let k := getLink s link.val
    if k.st = 1 ∧ overdue s k then trainFail s link.val else s)

/-- PARTNER_SILENCE (R255): in any stage after DETECT, after 1 ms without a training sequence. -/
def execPartnerSilence (link : Fin 24) (s : State) : Host.Outcome State Fault Refusal :=
  inRun s (fun s =>
    let k := getLink s link.val
    if k.st = 1 ∧ k.stage ≠ 0 ∧ k.heardAt + msCycles 1 ≤ s.time.now then trainFail s link.val else s)

/-! ### Fast retrains (R253, R257-R261) -/

/-- Array cycles in ten seconds. -/
abbrev tenSeconds : Nat := 20000000000

/-- Charge a lane with a retrain, at most once for each; with a fourth in any 10 s it is retired (R258, R261). -/
def chargeLane (s : State) (l j : Nat) : State :=
  let k := getLink s l
  if k.charged.getLsbD j || 4 ≤ j then s else
  let recent := (k.charges.filter (fun x => decide (s.time.now ≤ x.2 + tenSeconds))) ++ [(j, s.time.now)]
  let s := modLink s l (fun k => { k with charges := recent, charged := k.charged ||| BitVec.ofNat 4 (2 ^ j) })
  if 4 ≤ (recent.filter (fun x => decide (x.1 = j))).length ∧ !k.lanesRet.getLsbD j then
    let s := evPool (modLink s l (fun k => { k with lanesRet := k.lanesRet ||| BitVec.ofNat 4 (2 ^ j) })) 0x0503 [(1, l), (1, j)]
    if (getLink s l).lanesRet = 0xF then linkFailed s l 5 else s
  else s

/-- The width that this end asks for at a retrain that starts now: its request whose boundary has come (R260). -/
def dueWidth (s : State) (k : Link) : Option Nat :=
  if k.widthNow || (decide (k.widthAt ≠ 0) && decide (k.widthAt ≤ s.time.clove)) then some (k.widthReq.toNat % 3) else none

/-- A fast retrain of a link that is up starts; a request that meets one under way merges with it (R257, R258). The request of this
end goes to the partner, with the lane that caused it and the width it asks for. -/
def fastRetrain (s : State) (l : Nat) (own : Bool) (lane : Option Nat) : State :=
  let k := getLink s l
  if k.st ≠ 3 ∧ k.st ≠ 4 then s else
  let s :=
    if k.st = 4 then s else
      let s := if own then sendOn s l (.retrain lane (dueWidth s k)) else s
      let s := modLink s l (fun k => { k with
        st := 4, charged := 0, ownReq := own, retrainAt := s.time.now, retrains := satInc 16 k.retrains 1 })
      disturbLink { s with health := { s.health with retrains := satInc 32 s.health.retrains 1 } } l 0
  match lane with
  | some j => chargeLane s l j
  | none => s

/-- LANE_LOCK_LOSS (R257). -/
def execLaneLockLoss (link : Fin 24) (lane : Fin 4) (s : State) : Host.Outcome State Fault Refusal :=
  inRun s (fun s => fastRetrain s link.val true (some lane.val))

/-- The width that a retrain applies: of the requests of the two ends the narrower, else the one there is, else the width in force
(R260). -/
def retrainWidth (s : State) (k : Link) : Nat :=
  match dueWidth s k, k.partnerW with
  | some a, some b => Nat.max a b
  | some a, none => a
  | none, some b => b
  | none, none => k.widthAct.toNat

/-- A retrain may end: 8 µs have passed, or every lane that is in use again has locked (R257). -/
def retrainOver (s : State) (k : Link) (locked : BitVec 4) : Bool :=
  decide (k.retrainAt + 16000 ≤ s.time.now) || decide (locked ||| k.lanesRet ||| k.laneDis = 0xF)

/-- LANE_LOCK_TIMEOUT (R257, R259, R260): lanes that have not locked are excluded; the link resumes at the width its lanes give,
or goes down. What waited leaves again. -/
def execLaneLockTimeout (link : Fin 24) (locked : BitVec 4) (s : State) : Host.Outcome State Fault Refusal :=
  inRun s (fun s =>
    let l := link.val
    let k := getLink s l
    if k.st ≠ 4 || !retrainOver s k locked then s else
    let s := modLink s l (fun k => { k with
      locked := locked, disAct := k.laneDis, widthAct := BitVec.ofNat 2 (retrainWidth s k)
      widthAt := if (dueWidth s k).isSome then 0 else k.widthAt, widthNow := false, partnerW := none, ownReq := false, charged := 0 })
    match laneSet (getLink s l) with
    | none => linkFailed s l 0
    | some (w, ls) => pumpLink (modLink s l (fun k => { k with st := 3, width := w, lanesUp := laneMask ls })) l)

/-- RETRAIN (R257). -/
def execRetrain (link : Fin 24) (s : State) : Host.Outcome State Fault Refusal :=
  inRun s (fun s => fastRetrain s link.val true none)

/-- RETRAIN_REQUEST_RX (R257, R258, R260): the partner's request starts a retrain, or merges with the one under way, which is then paced
by the leader; the lane that is the cause at the partner's end is charged. -/
def execRetrainRequestRx (m : RetrainMsg) (s : State) : Host.Outcome State Fault Refusal :=
  inRun s (fun s =>
    let l := m.link.val
    let k := getLink s l
    if k.st ≠ 3 ∧ k.st ≠ 4 then s else
    let s := freeRx s l 2 0
    let s := if k.st = 4 ∧ k.ownReq ∧ !k.leader then modLink s l (fun k => { k with retrainAt := s.time.now }) else s
    let s := modLink s l (fun k => { k with partnerW := match m.width with
      | some w => some w.val
      | none => k.partnerW })
    fastRetrain s l false (m.lane.map (fun j => j.val)))

/-- SERVICE (R261, R262, R264): retired lanes and history go, and the link trains anew. -/
def execService (link : Fin 24) (s : State) : Host.Outcome State Fault Refusal :=
  inRun s (fun s =>
    let s := linkLost s link.val 0
    modLink s link.val (fun k => { k with
      lanesRet := 0, charges := [], retrains := 0, authFail := false, failures := 0, lastFailEvent := none, nextTry := 0 }))

/-! ### Flits (R253, R264, R400) -/

/-- Add the FEC corrections of a flit to each lane's count; a lane that comes above the threshold within the clove starts a retrain
(R253). -/
def fecCount (s : State) (l : Nat) : List (Nat × Nat) → State
  | [] => s
  | (j, n) :: r =>
    let old := tabGet 0 (getLink s l).fec j
    let s := modLink s l (fun k => { k with fec := tabMod 0 k.fec j (fun x => x + n) })
    let k := getLink s l
    fecCount (if old ≤ k.errThr.toNat ∧ k.errThr.toNat < old + n ∧ k.st = 3 then fastRetrain s l true (some j) else s) l r

/-- The link control of a flit that has been taken: acknowledgements, credits and a request for a replay; what the credits let go then
leaves (R252, R253). -/
def linkControl (s : State) (l : Nat) (f : Flit) : State :=
  let s := modLink s l (fun k => creditsFreed (match f.ack with
    | some n => flitsAcked k n
    | none => k) f.freed)
  let s := match f.nak with
    | some n => replayFrom s l n
    | none => s
  pumpLink s l

/-- A flit that the FEC gave and whose tag verifies, in sequence: it takes its credits of the receive buffer and is acknowledged; the first
one under the next epoch's key discards the old key (R252, R253, R400). -/
def takeFlit (s : State) (l : Nat) (f : Flit) : State :=
  let s := modLink s l (fun k => { k with
    rxSeq := k.rxSeq + 1, rxEpoch := if f.keyPhase = decide (k.rxEpoch % 2 = 1) then k.rxEpoch else k.rxEpoch + 1
    rxUsed := if f.bytes = 0 then k.rxUsed else tabMod 0 k.rxUsed f.vc.val (fun x => x + creditsOf f.bytes) })
  linkControl (emit s (.flitAck l f.seq)) l f

/-- The receive buffer has the credits for a flit (R252). -/
def flitFits (k : Link) (f : Flit) : Bool := decide (f.bytes = 0) || hasCredit k.rxUsed f.vc.val (creditsOf f.bytes)

/-- FLIT_RX (R252, R253, R264, R400): a good flit in sequence is taken and acknowledged, one that was taken before is acknowledged
again, and any other is discarded and asked for again, as is one that came without credit. Sixteen bad tags in a row take the link
down. -/
def execFlitRx (link : Fin 24) (f : Flit) (s : State) : Host.Outcome State Fault Refusal :=
  inRun s (fun s =>
    let l := link.val
    let k := getLink s l
    if k.st ≠ 3 then s else
    let s :=
      if f.fecOk && f.tagOk && k.prk.isSome then
        (let s := modLink s l (fun k => { k with badTags := 0 })
         if f.seq = k.rxSeq ∧ flitFits k f then takeFlit s l f
         else if f.seq < k.rxSeq then emit s (.flitAck l f.seq) else emit s (.flitNak l k.rxSeq))
      else
        (let s := modLink s l (fun k => { k with badTags := if f.fecOk then k.badTags + 1 else k.badTags })
         if 16 ≤ (getLink s l).badTags then evPool (linkFailed s l 0) 0x0504 [(1, l)] else emit s (.flitNak l k.rxSeq))
    fecCount s l ((List.range f.corrected.length).map (fun j => (j, f.corrected.getD j 0))))

/-- The sender's epoch is at its end: its flit counter comes to 2^48, or an hour has passed (R263). -/
def rekeyDue (s : State) (k : Link) : Bool := decide (2 ^ 48 ≤ k.txCtr + 1) || decide (k.keyAt + hourCycles ≤ s.time.now)

/-- LINK_REKEY (R263, R400): the sender moves to the next epoch, without a retrain, and its flit counter restarts. -/
def execLinkRekey (link : Fin 24) (s : State) : Host.Outcome State Fault Refusal :=
  inRun s (fun s =>
    let l := link.val
    let k := getLink s l
    if (k.st ≠ 3 ∧ k.st ≠ 4) || k.prk.isNone || !rekeyDue s k then s
    else pumpLink (emit (modLink s l (fun k => { k with txEpoch := k.txEpoch + 1, txCtr := 0, keyAt := s.time.now }))
      (.rekey l (k.txEpoch + 1))) l)

/-- PATH_DOWN (R285, R286, R420): the plane is removed for the node, with resends. -/
def execPathDown (plane : Fin 18) (node : Fin 64) (s : State) : Host.Outcome State Fault Refusal :=
  inRun s (fun s =>
    let key := 64 * plane.val + node.val
    let s := freeRx s (6 + plane.val) 2 0
    if s.fab.pathDown.contains key then s else
    let used := linkAlive s (6 + plane.val)
    let s := { s with fab := { s.fab with pathDown := s.fab.pathDown ++ [key] } }
    let s := repath (if used then disturbLink s (6 + plane.val) 1 else s)
    if (pathsTo s node.val).isEmpty then (if used then stopCut (checkReach s node.val) node.val else checkReach s node.val) else s)

end Sys2Proof.Machine
end

