-- ==== Sys2Proof/Machine/TimeUnit.lean ====
section
/-! DEFINITION. The time unit: its clock and the start of the cloves (R211-R213), its two PTP domains, the switch and holdover
(R214-R218), the snapshot (R221), clove markers (R225-R227), the time commands (R377), the pulses (R438) and the step marks of
a partition (R424). -/

namespace Sys2Proof.Machine

open Sys2Proof

def modTime (s : State) (f : TimeUnit → TimeUnit) : State := { s with time := f s.time }

/-- A PTP domain by its number. -/
def domOf (t : TimeUnit) (d : Bool) : PtpDom := if d then t.dom1 else t.dom0

def modDom (s : State) (d : Bool) (f : PtpDom → PtpDom) : State :=
  modTime s (fun t => if d then { t with dom1 := f t.dom1 } else { t with dom0 := f t.dom0 })

/-- The clock index of the clock's reading (R212). -/
def clockIndex (t : TimeUnit) : Nat := 8000 * t.sec.toNat + t.ns / 125000

/-- A domain number that the profile allows; any other keeps the domain unlocked (R215). -/
def domNumOk (d : PtpDom) : Bool :=
  if d.profile then decide (44 ≤ d.num.toNat) && decide (d.num.toNat ≤ 63) else decide (24 ≤ d.num.toNat) && decide (d.num.toNat ≤ 43)

/-- Holdover holds exactly while the cloves run and no domain is locked (R217). -/
def setHoldover (s : State) : State :=
  modTime s (fun t => { t with holdover := t.cloveRun && !t.dom0.locked && !t.dom1.locked })

/-- The clock's reading in whole ns. -/
def clockNs (t : TimeUnit) : Nat := 1000000000 * t.sec.toNat + t.ns

/-- A domain as the one step of the clock leaves it: the offset that its servo has estimated is that of its master from the clock
that was stepped (R213, R215). -/
def stepDom (d : Int) (m : PtpDom) : PtpDom := if m.estAt.isNone then m else { m with ofs := m.ofs - d, heldFrom := none }

/-- The one step of the clock, which starts the cloves (R212, R213). -/
def startCloves (s : State) (sec : BitVec 48) (ns : Nat) (frac : BitVec 16) : State :=
  setHoldover (modTime s (fun t =>
    let t1 : TimeUnit := { t with sec := sec, ns := ns, frac := frac, cloveRun := true }
    let d : Int := (clockNs t1 : Int) - clockNs t
    { t1 with
      clove := clockIndex t1, cycle := ns % 125000 * 2 + frac.toNat / 32768, dom0 := stepDom d t.dom0, dom1 := stepDom d t.dom1 }))

/-- TIME_OFFSET (R214): the active domain's offset exceeds 1 µs, and a second has passed since the last such event. -/
def offsetCheck (s : State) : State :=
  let t := s.time
  let o := (domOf t t.active).ofs
  let due := match t.offsetEventAt with
    | none => true
    | some a => decide (a + msCycles 1000 ≤ t.now)
  if t.cloveRun && decide (1000 < o.natAbs) && due then
    let items := [(4, ofSigned 32 o)]
    let s := modTime s (fun t => { t with offsetEventAt := some t.now })
    evPool ((radioParts s).foldl (fun s p => evPart s p 0x0301 items) s) 0x0301 items
  else s

/-- DOMAIN_SWITCH (R216): the output slews to the new domain's estimate, unless the clock follows markers, when the servos only
monitor (R226). A request for another domain still waits. -/
def switchDomain (s : State) (d : Bool) : State :=
  offsetCheck (modTime s (fun t => { t with
    active := d, reqWaits := t.reqWaits && decide (t.activeReq ≠ d)
    slewing := if t.markSrc then t.slewing else decide ((domOf t d).ofs ≠ 0)
    slewLeft := if t.markSrc then t.slewLeft else (domOf t d).ofs * 8000 }))

/-- A request for a domain that switched to it in the very cycle in which that domain loses lock: the loss wins, so the domain
before it stays active and the request waits (R216). -/
def undoRequest (s : State) (d : Bool) : State :=
  match s.time.reqAt with
  | none => s
  | some (a, was) =>
    if a = s.time.now ∧ s.time.active = d ∧ s.time.activeReq = d then
      modTime (switchDomain s was) (fun t => { t with reqWaits := true, reqAt := none })
    else s

/-- A domain loses lock: the switch of R216, or holdover with any slew stopped (R217). -/
def loseLock (s : State) (d : Bool) : State :=
  let was := (domOf s.time d).locked
  let s := modDom s d (fun m => { m with locked := false, heldFrom := none })
  if !was then s else
  let s := undoRequest s d
  let t := s.time
  let s := if t.auto && decide (t.active = d) && (domOf t (!d)).locked then switchDomain s (!d) else s
  let s := setHoldover s
  if s.time.holdover then modTime s (fun t => { t with slewing := false, slewLeft := if t.markSrc then t.slewLeft else 0 }) else s

/-- A domain locks while the cloves run (R215): the first to lock ends holdover and becomes active (R217), and a request that
waits for it takes effect (R216). -/
def gainLock (s : State) (d : Bool) : State :=
  let held := s.time.holdover
  let s := setHoldover (modDom s d (fun m => { m with locked := true }))
  if held || (s.time.reqWaits && decide (s.time.activeReq = d)) then
    switchDomain s d else s

/-- The time for which an estimate must have held for a domain to lock (R213, R215). -/
def lockTime : Nat := msCycles 16000

/-- A new estimate holds: within ±50 ns while the cloves run (R215); before that, with a frequency within ±10 ppb and within ±50 ns
of the offset that this frequency predicts (R213). -/
def estimateHolds (run : Bool) (now : Nat) (m : PtpDom) (o f : Int) : Bool :=
  if run then decide (o.natAbs ≤ 50)
  else decide (f.natAbs ≤ 10) && (match m.estAt with
    | none => true
    | some a => decide ((2000000000 * (o - m.ofs) - f * ((now - a : Nat) : Int)).natAbs ≤ 50 * 2000000000))

/-- A domain's servo has a new estimate. -/
def noteEstimate (run : Bool) (now : Nat) (o f : Int) (m : PtpDom) : PtpDom :=
  { m with
    ofs := o, freq := f, estAt := some now
    heldFrom := if estimateHolds run now m o f then some (m.heldFrom.getD now) else none }

/-- The servo of a domain has held its estimate for 16 s. -/
def heldLong (s : State) (d : Bool) : Bool := match (domOf s.time d).heldFrom with
  | none => false
  | some a => decide (a + lockTime ≤ s.time.now)

/-- A new estimate of a domain (R214, R215): the active domain's is what the output slews to; one outside ±1 µs loses lock. -/
def newEstimate (s : State) (d : Bool) (o f : Int) : State :=
  let s := modDom s d (noteEstimate s.time.cloveRun s.time.now o f)
  let s := offsetCheck s
  let s := if (s.time.active = d ∧ s.time.cloveRun ∧ !s.time.markSrc ∧ !s.time.holdover) then
      modTime s (fun t => { t with slewLeft := 8000 * o }) else s
  if s.time.cloveRun && decide (1000 < o.natAbs) then loseLock s d else s

/-- The slew limit in ns/s (R214, 07's table of TIME_CTL). -/
def slewLimit (t : TimeUnit) : Nat := Nat.min 1000 (Nat.max 1 t.slew.toNat)

/-- One clove of slewing: at most SLEW, or 1 ns where the clock follows markers; SLEWING ends below 1 ns (R214, R216, R226). -/
def slewClove (t : TimeUnit) : TimeUnit :=
  let lim : Int := if t.markSrc then 8000 else slewLimit t
  let left := if t.holdover && !t.markSrc then t.slewLeft else t.slewLeft - clampInt (-lim) lim t.slewLeft
  { t with slewLeft := left, slewing := t.slewing && decide (8000 ≤ left.natAbs) }

/-- SNAP (R221). -/
def execSnap (s : State) : Host.Outcome State Fault Refusal :=
  inRun s (fun s => modTime s (fun t => { t with
    snapSec := t.sec, snapNs := t.ns, snapFrac := t.frac
    snapClove := BitVec.ofNat 64 (if t.cloveRun then t.clove else clockIndex t) }))

/-- A request for a domain (R216). -/
def requestDomain (s : State) (d : Bool) : State :=
  let s := modTime s (fun t => { t with activeReq := d, reqWaits := false })
  if s.time.active = d then s
  else if (domOf s.time d).locked then
    let was := s.time.active
    modTime (switchDomain s d) (fun t => { t with reqAt := some (t.now, was) })
  else modTime s (fun t => { t with reqWaits := true })

/-- ACTIVE_REQ (R216). -/
def execActiveReq (d : Bool) (s : State) : Host.Outcome State Fault Refusal := inRun s (fun s => requestDomain s d)

/-- A servo may lock: its domain is tracked, its number fits its profile, it has no lock, and its estimate has held (R213, R215). -/
def mayLock (s : State) (d : Bool) : Bool :=
  let m := domOf s.time d
  m.en && domNumOk m && !m.locked && heldLong s d

/-- DOMAIN_ACQUIRE (R213): the clock takes the domain's estimate in one step, with the fraction of a ns that the row carries (log entry
17); the domain is locked and active. -/
def execDomainAcquire (d : Bool) (frac : BitVec 16) (s : State) : Host.Outcome State Fault Refusal :=
  inRun s (fun s =>
    if s.time.cloveRun || !mayLock s d then s else
    let n := (((clockNs s.time : Int) + (domOf s.time d).ofs) % (2 ^ 48 * 1000000000)).toNat
    let s := modDom s d (fun m => { m with locked := true })
    startCloves (modTime s (fun u => { u with active := d, slewing := false, slewLeft := 0, reqWaits := u.reqWaits && decide (u.activeReq ≠ d) }))
      (BitVec.ofNat 48 (n / 1000000000)) (n % 1000000000) frac)

/-- DOMAIN_LOCK (R215-R217). -/
def execDomainLock (d : Bool) (s : State) : Host.Outcome State Fault Refusal :=
  inRun s (fun s => if s.time.cloveRun && mayLock s d then gainLock s d else s)

/-- ANNOUNCE_TIMEOUT (R215-R217): no Announce has come within the profile's announce receipt timeout. -/
def execAnnounceTimeout (d : Bool) (s : State) : Host.Outcome State Fault Refusal :=
  inRun s (fun s =>
    let m := domOf s.time d
    if s.time.now < m.annAt + Config.announceTimeout m.profile then s else loseLock s d)

/-- TIME_MARK_MISMATCH (R226, R227). -/
def markMismatch (s : State) (l : Nat) (m : Marker) : State :=
  evPool s 0x0302 [(1, l), (4, m.index.toNat), (4, s.time.clove % 2 ^ 32)]

/-- A valid marker while no clove runs: with eight in consecutive cloves the clock is set to the boundary that the last one names,
later by its delays (R213, R226). -/
def markStart (s : State) (l : Nat) (m : Marker) : State :=
  let t := s.time
  let i := m.index.toNat
  let n := if t.markGood ≠ 0 ∧ i = t.markIndex then t.markGood
    else if t.markGood ≠ 0 ∧ i = (t.markIndex + 1) % 2 ^ 32 then t.markGood + 1 else 1
  let s := modTime s (fun t => { t with markGood := n, markIndex := i, markHop := m.hop.val })
  if n < 8 then s else
  let ps := (getLink s l).delayPs.toNat + m.res
  let ns := 125000 * i + ps / 1000
  startCloves (modTime s (fun t => { t with markSrc := true, markMiss := 0, markBest := some (m.hop.val, l) }))
    (BitVec.ofNat 48 (ns / 1000000000)) (ns % 1000000000) (BitVec.ofNat 16 (65536 * (ps % 1000) / 1000))

/-- The phase of the chip against the master's boundary that a marker names, in 1/8000 ns (R226). -/
def markPhase (s : State) (l : Nat) (m : Marker) : Int :=
  (((getLink s l).delayPs.toNat + m.res : Nat) : Int) * 8 - 4000 * (s.time.cycle : Int)

/-- CLOVE_MARKER_RX (R213, R225-R227). -/
def execCloveMarkerRx (link : Fin 24) (m : Marker) (s : State) : Host.Outcome State Fault Refusal :=
  inRun s (fun s =>
    let l := link.val
    let s := freeRx s l 2 0
    let t := s.time
    if !linkAlive s l then s
    else if t.cloveRun ∧ m.index.toNat ≠ t.clove % 2 ^ 32 then markMismatch s l m
    else if t.rackMaster then s
    else if (match t.master with
        | none => false
        | some c => decide (c ≠ m.master)) then markMismatch s l m
    else if m.hop.val = 15 then s
    else
      let s := modTime s (fun t => { t with master := some m.master })
      if !t.cloveRun then markStart s l m else
      let better := match t.markBest with
        | none => true
        | some (h, k) => decide (m.hop.val < h) || (decide (m.hop.val = h) && decide (l < k))
      let s := modTime s (fun t => { t with markSrc := true, markMiss := 0, slewing := false })
      if better then modTime s (fun t => { t with
        markBest := some (m.hop.val, l), markHop := m.hop.val, slewLeft := markPhase s l m }) else s)

/-- MARKER_TIMEOUT (R227): the chip follows its own active domain under R214. -/
def execMarkerTimeout (s : State) : Host.Outcome State Fault Refusal :=
  inRun s (fun s =>
    if !s.time.markSrc || decide (s.time.markMiss < 8) then s else
    modTime s (fun t => { t with markSrc := false, slewLeft := if t.holdover then 0 else (domOf t t.active).ofs * 8000 }))

/-- PPS_IN_EDGE (R219, 07's PPS_IN_STAMP). -/
def execPpsInEdge (s : State) : Host.Outcome State Fault Refusal :=
  inRun s (fun s => modTime s (fun t => { t with ppsInStamp := stamp s }))

/-- PPS_OUT_RISE (R438): within ±2 ns of a second of the clock. -/
def execPpsOutRise (s : State) : Host.Outcome State Fault Refusal :=
  inRun s (fun s => if s.time.ppsOutEn && (decide (s.time.ns ≤ 2) || decide (999999998 ≤ s.time.ns)) then
    modTime s (fun t => { t with ppsOut := true }) else s)

/-- PPS_OUT_FALL (R438). -/
def execPpsOutFall (s : State) : Host.Outcome State Fault Refusal :=
  inRun s (fun s => modTime s (fun t => { t with ppsOut := false }))

/-- TIME_CONFIG (R377): the domain's addresses and VLAN; it loses lock at once. -/
def execTimeConfig (r : RingId) (k : Pkt) (s : State) : Host.Outcome State Fault Refusal :=
  inRun s (fun s => fwRun s r 0x03 k [] (fun _ => []) (fun s =>
    let d := bit (wd k.w 0) 0
    let s := modDom s d (fun m => { m with
      ipv6 := bit (wd k.w 0) 1, addrs := (List.range 8).map (fun i => wd k.w (1 + i)), vlan := BitVec.ofNat 12 (fld (wd k.w 9) 11 0) })
    .done (loseLock s d) stOk []))

/-- TIME_FREERUN's checks (R377). -/
def freerunErrs (k : Pkt) (s : State) : List Nat :=
  errsOf [ (s.time.cloveRun, stRefusedMode), (decide (1000000000 ≤ fld (wd k.w 2) 29 0), stBadParam) ]

/-- TIME_FREERUN (R213, R217, R377). -/
def execTimeFreerun (r : RingId) (k : Pkt) (s : State) : Host.Outcome State Fault Refusal :=
  inRun s (fun s => fwRun s r 0x04 k [] (freerunErrs k) (fun s =>
    .done (startCloves s (BitVec.ofNat 48 (fld48 k.w 0)) (fld (wd k.w 2) 29 0) 0) stOk []))

/-- The markers of a clove boundary (R225): what this chip sends on each of its links that are up. A chip that follows no master
names a free one. -/
def sendMarkers (s : State) : State :=
  let t := s.time
  if !t.cloveRun then s else
  let f := takeFree s 16
  let hop : Nat := if t.rackMaster then 0 else if t.markSrc then Nat.min 15 (t.markHop + 1) else 15
  let master := if t.rackMaster then s.fab.chipId else if t.markSrc then t.master.getD f.1 else f.1
  let m : Marker :=
    { index := BitVec.ofNat 32 t.clove, sender := s.fab.chipId, master := master
      hop := ⟨hop % 16, Nat.mod_lt _ (by decide)⟩, res := 0 }
  ((List.range 24).filter (fun l => decide ((getLink s l).st = 3))).foldl (fun s l => sendOn s l (.marker m)) (if t.rackMaster || t.markSrc then s else f.2)

/-- STEP_MARK (R424): the first mark after PART_CREATE or a reset only starts the measure. -/
def execStepMark (p : Fin 64) (_v : Word) (s : State) : Host.Outcome State Fault Refusal :=
  inRun s (fun s =>
    if !(getPart s p.val).live then s else
    modPart s p.val (fun P => match P.stepAt with
      | none => { P with stepAt := some s.time.now }
      | some a =>
        let n := Nat.min (2 ^ 32 - 1) ((s.time.now - a) / 2)
        { P with stepAt := some s.time.now, stepLast := n, stepMax := Nat.max P.stepMax n, stepCnt := P.stepCnt + 1 }))

end Sys2Proof.Machine
end

