-- ==== Sys2Proof/Machine/Ethernet.lean ====
section
/-! DEFINITION. Frames that arrive (R290, R291), the raw rings of a partition (R300, R301), frames that leave, and subports
that go down and return (R289, R294, R304, R305, R308, R314-R316). -/

namespace Sys2Proof.Machine

open Sys2Proof

/-- The group of a port has power (R436). -/
def portPowered (s : State) (n : Nat) : Bool := domUsable s (s.pwr.ethOn.getLsbD (n / 4)) (3 + n / 4)

/-- The SyncE reference is present: SyncE is in use and its port is up (R218). -/
def refreshSynce (s : State) : State :=
  modTime s (fun t => { t with synceOk := t.synceEn && decide ((getPort s t.syncePort.toNat).up ≠ 0) })

/-! ### Raw rings (R300, R301) -/

/-- An eCPRI frame's VLAN is that of an endpoint of the partition on the subport (R312, R173). -/
def epVlanOk (s : State) (p port sub vlan : Nat) : Bool :=
  s.radio.eps.any (fun e => e.2.live && decide (e.2.part = p) && decide (epPort e.2 = port) && decide (epSub e.2 = sub) &&
    decide (epVlan e.2 = vlan))

/-- An egress queue is a SHARED queue of a partition (R300). -/
def rawQOk (s : State) (p q : Nat) : Bool :=
  let Q := getQ s q
  Q.en && !Q.radio && decide (Q.part.toNat = p)

/-- Take the raw transmit entry at the head: check it, send its frame, write its status (R300). -/
def rawTxOne (s : State) (p : Nat) : State :=
  let P := getPart s p
  let ea := P.rawTxAddr + P.rawTxHead.toNat % 2 ^ P.rawTxLog2 * 32
  let s := modPart s p (fun P => { P with rawTxHead := P.rawTxHead + 1 })
  match rdVa s p ea 32 with
  | none => s
  | some eb =>
    let w := wordsOf 8 eb
    let len := fld (wd w 2) 13 0
    let q := fld (wd w 2) 25 14
    let Q := getQ s q
    let fin (s : State) (st : Nat) : State := wrVa s p (ea + 12) (leBytes 4 (st + 256))
    if len < 60 ∨ 9212 < len ∨ !rawQOk s p q then fin s stBadParam
    else match rdVa s p (fld48 w 0) len with
      | none => fin s stBounds
      | some bs =>
        let r := sendChecked s q (epVlanOk s p Q.port.toNat Q.sub.toNat) { bytes := bs, dl := none, radio := none, raw := some ea }
        fin r.1 (if r.2 then stOk else stDenied)

def rawTxRun (s : State) (p : Nat) : Nat → State
  | 0 => s
  | n + 1 => rawTxRun (rawTxOne s p) p n

/-- Take every raw transmit entry that waits. -/
def rawTxGo (s : State) (p : Nat) : State :=
  let P := getPart s p
  let n := (P.rawTxTail - P.rawTxHead).toNat
  if P.rawEn && decide (n ≤ 2 ^ P.rawTxLog2) then rawTxRun s p n else s

/-- A doorbell of a raw ring is in range (R297, R301). -/
def rawDbOk (en : Bool) (size : Nat) (tail head : BitVec 16) : Bool := !en || decide ((tail - head).toNat ≤ size)

/-- NET_RAW_TX_TAIL (R300, R301). -/
def execNetRawTxTail (p : Fin 64) (v : Word) (s : State) : Host.Outcome State Fault Refusal :=
  inRun s (fun s =>
    let P := getPart s p.val
    let t := BitVec.ofNat 16 (fld v 15 0)
    if !P.live then s
    else if !rawDbOk P.rawEn (2 ^ P.rawTxLog2) t P.rawTxHead then dbBad s p.val
    else rawTxGo (modPart s p.val (fun P => { P with rawTxTail := t })) p.val)

/-- NET_RAW_RX_TAIL (R300, R301). -/
def execNetRawRxTail (p : Fin 64) (v : Word) (s : State) : Host.Outcome State Fault Refusal :=
  inRun s (fun s =>
    let P := getPart s p.val
    let t := BitVec.ofNat 16 (fld v 15 0)
    if !P.live then s
    else if !rawDbOk P.rawEn (2 ^ P.rawRxLog2) t P.rawRxHead then dbBad s p.val
    else modPart s p.val (fun P => { P with rawRxTail := t }))

/-- NET_RAW_CFG's checks (R300): the rings of a command with EN = 1. -/
def rawCfgErrs (r : RingId) (k : Pkt) (s : State) : List Nat :=
  let w := wd k.w 0
  let lg (n : Nat) : Bool := decide (4 ≤ n) && decide (n ≤ 12)
  let en := bit w 8
  errsOf [ (en && !(lg (fld w 3 0) && lg (fld w 7 4) && decide (fld48 k.w 1 % 4096 = 0) && decide (fld48 k.w 3 % 4096 = 0)), stBadParam),
    (en && !(mapped s (netP r) (fld48 k.w 1) (2 ^ fld w 3 0 * 32) true && mapped s (netP r) (fld48 k.w 3) (2 ^ fld w 7 4 * 32) true),
      stBounds) ]

/-- NET_RAW_CFG (R300): frames that are queued already still go out and get their stamps. -/
def execNetRawCfg (r : RingId) (k : Pkt) (s : State) : Host.Outcome State Fault Refusal :=
  inRun s (fun s => fwRun s r 0x64 k [] (rawCfgErrs r k) (fun s =>
    let w := wd k.w 0
    let p := netP r
    let s := if bit w 8 then rawTxGo (modPart s p (fun P => { P with
        rawEn := true, rawTxLog2 := fld w 3 0, rawRxLog2 := fld w 7 4, rawTxAddr := fld48 k.w 1, rawRxAddr := fld48 k.w 3 })) p
      else modPart s p (fun P => { P with rawEn := false })
    .done s stOk []))

/-- RAW_FRAME_RX (R300): a frame fills the oldest posted entry or is dropped. -/
def rawFrameRx (s : State) (p port sub : Nat) (bs : List Byte) : State :=
  let P := getPart s p
  let drop (s : State) : State := modPart s p (fun P => { P with rxNobuf := satInc 16 P.rxNobuf 1 })
  if !P.rawEn || decide (P.rawRxTail = P.rawRxHead) then drop s else
  let ea := P.rawRxAddr + P.rawRxHead.toNat % 2 ^ P.rawRxLog2 * 32
  match rdVa s p ea 32 with
  | none => drop s
  | some eb =>
    let w := wordsOf 8 eb
    if fld (wd w 2) 13 0 < bs.length || !canWrVa s p (fld48 w 0) bs.length || !canWrVa s p ea 32 || writeLost s p (fld48 w 0) bs.length || writeLost s p ea 32 then drop s
    else
      let s := wrVa s p (fld48 w 0) bs
      let s := wrVa s p (ea + 12) (leBytes 4 (bs.length + 2 ^ 14 + 2 ^ 15 * port + 2 ^ 18 * sub) ++ leBytes 4 (stamp s).toNat)
      modPart s p (fun P => { P with rawRxHead := P.rawRxHead + 1 })

/-! ### Arrival (R290, R291, R294) -/

def rxErr (s : State) (port : Nat) : State := modPort s port (fun P => { P with rxErr := satInc 32 P.rxErr 1 })
def rxNoMatch (s : State) (port : Nat) : State := modPort s port (fun P => { P with noMatch := satInc 32 P.noMatch 1 })

/-- The PTP message of a frame (R291, order 1). -/
def ptpOf (h : EthHdr) : Option (List Byte) :=
  if h.etype = 0x88F7 then some h.pay
  else match parseUdp h with
    | some (_, d, m) => if d = 319 ∨ d = 320 then some m else none
    | none => none

/-- The frame reaches a domain by its profile (R209, R377): multicast on Layer 2, or unicast from the configured master to the
configured address in the configured VLAN. -/
def ptpCarried (D : PtpDom) (h : EthHdr) : Bool :=
  if !D.profile then decide (h.etype = 0x88F7) && (decide (h.dst = 0x011B19000000) || decide (h.dst = 0x0180C200000E))
  else
    let at_ (v4 v6 : Nat) : List Byte := if D.ipv6 then (h.pay.drop v6).take 16 else (h.pay.drop v4).take 4
    decide (h.etype = if D.ipv6 then 0x86DD else 0x0800) && decide (hdrVlan h = D.vlan.toNat) &&
      decide (at_ 12 8 = ipBytes D.ipv6 D.addrs) && decide (at_ 16 24 = ipBytes D.ipv6 (D.addrs.drop 4))

/-- A Delay_Req of the slave (R209), with nothing but its identity, domain and sequence number. -/
def delayReqMsg (D : PtpDom) (d : Bool) : List Byte :=
  beBytes 1 1 ++ beBytes 1 2 ++ beBytes 2 44 ++ beBytes 1 D.num.toNat ++ beBytes 1 0 ++ beBytes 2 (if D.profile then 0x0400 else 0) ++
    List.replicate 12 0 ++ beBytes 10 (Config.ptpIdentity (b2n d)).toNat ++ beBytes 2 D.seq.toNat ++ beBytes 1 1 ++ beBytes 1 0x7F ++
    List.replicate 10 0

/-- The frame that carries a message of the slave to its master (R209, R377). -/
def ptpFrame (D : PtpDom) (d : Bool) (m : List Byte) : List Byte :=
  let own := beBytes 6 (Config.ptpOwnMac (b2n d)).toNat
  if !D.profile then beBytes 6 0x011B19000000 ++ own ++ beBytes 2 0x88F7 ++ m
  else
    let n := 8 + m.length
    let c : Conn :=
      { ipv6 := D.ipv6, smac := 0, dmac := 0, vlan := 0, pcp := 0, dscp := 0, sip := D.addrs.drop 4, dip := D.addrs, hop := 64, flow := 0 }
    let ip := ipHeader c 0 n
    let pseudo := if D.ipv6 then (ip.drop 8).take 32 ++ beBytes 4 n ++ beBytes 4 17 else (ip.drop 12).take 8 ++ beBytes 2 17 ++ beBytes 2 n
    let udp (sum : Nat) : List Byte := beBytes 2 319 ++ beBytes 2 319 ++ beBytes 2 n ++ beBytes 2 sum ++ m
    beBytes 6 (Config.ptpHopMac (b2n d)).toNat ++ own ++ (if D.vlan = 0 then [] else beBytes 2 0x8100 ++ beBytes 2 D.vlan.toNat) ++
      beBytes 2 (if D.ipv6 then 0x86DD else 0x0800) ++ ip ++ udp (let x := ipSum (pseudo ++ udp 0); if x = 0 then 65535 else x)

/-- The slave asks its master for the path's delay; the clock's reading as the request leaves is kept (R209, R210, log entry 17). -/
def delayAsk (s : State) (d : Bool) : State :=
  let D := domOf s.time d
  modDom (sendCtrl s D.port.toNat D.sub.toNat (ptpFrame D d (delayReqMsg D d))) d (fun D => { D with
    seq := D.seq + 1, sentNs := clockNs s.time })

/-- PTP_MESSAGE_RX (R209, R210, R215) for one domain: an Announce brings the UTC offset, a message that carries time a new estimate
from the clock's reading at its start of frame. -/
def ptpDomRx (s : State) (port sub sofNs : Nat) (h : EthHdr) (m : List Byte) (d : Bool) : State :=
  let D := domOf s.time d
  if !D.en || decide (D.port.toNat ≠ port) || decide (D.sub.toNat ≠ sub) || decide (D.num.toNat ≠ beAt m 4 1) || !ptpCarried D h then s else
  let typ := beAt m 0 1 % 16
  if typ = 11 then modDom s d (fun D => { D with utc := BitVec.ofNat 16 (beAt m 44 2), annAt := s.time.now })
  else if typ = 0 ∨ typ = 8 ∨ typ = 9 then
    let e := Config.ptpEstimate (b2n d) D.ofs D.freq (clockNs s.time - sofNs) D.sentNs m
    let s := newEstimate s d e.1 e.2
    if typ = 0 then delayAsk s d else s
  else s

/-- Array cycles of a pause of some quanta of 512 bit times (R294). -/
def pauseCycles (s : State) (port quanta : Nat) : Nat := ceilDiv (quanta * 10240) (subRate (getPort s port))

/-- A PFC frame (R294). -/
def pfcRx (s : State) (port sub : Nat) (pay : List Byte) : State :=
  let vec := beAt pay 2 2
  let s := (List.range 7).foldl (fun s i =>
    if vec / 2 ^ i % 2 = 1 ∧ (getPort s port).pfcPri.getLsbD i then
      let q := beAt pay (4 + 2 * i) 2
      modPort s port (fun P => { P with
        paused := tabSet 0 P.paused (8 * sub + i) (if q = 0 then 0 else s.time.now + pauseCycles s port q) })
    else s) s
  let s := if vec / 128 % 2 = 1 then rxErr s port else s
  startNext s port sub

/-- The QP that a RoCE frame names, if it and the destination MAC are of one partition (R291, order 6). -/
def roceQp (s : State) (port : Nat) (h : EthHdr) : Option (Nat × List Byte) :=
  match parseUdp h with
  | some (_, 4791, b) =>
    let n := beAt b 5 3
    if 2 ≤ n && decide (n ≤ 65535) && (getQp s n).live && macOk s (getQp s n).part port h.dst then some (n, b) else none
  | _ => none

/-- The partition that a destination MAC and VLAN are registered to (R291, order 7). -/
def rawPart (s : State) (port : Nat) (h : EthHdr) : Option Nat :=
  (liveParts s).find? (fun p => macOk s p port h.dst && vlanOk s p (hdrVlan h))

/-- The rules of R291 in their order. -/
def classify (s : State) (port sub sofNs : Nat) (bs : List Byte) : State :=
  let h := parseEth bs
  match ptpOf h with
  | some m => ptpDomRx (ptpDomRx s port sub sofNs h m false) port sub sofNs h m true
  | none =>
  if h.etype = 0x8809 ∧ beAt h.pay 0 1 = 0x0A then
    (if port = s.time.syncePort.toNat then modTime s (fun t => { t with synceQl := BitVec.ofNat 4 (beAt h.pay 13 1 % 16) }) else s)
  else if h.etype = 0x8808 ∧ beAt h.pay 0 2 = 0x0101 then pfcRx s port sub h.pay
  else if h.etype = 0xAEFE then
    (match epOf s port sub h with
     | some e => fronthaulRx s e h.pay
     | none => rxNoMatch s port)
  else match roceQp s port h with
    | some (n, b) =>
      let r := police s (getQp s n).part port sub false bs
      if r.2.isSome && icrcGood h then rocePacketRx r.1 n b else r.1
    | none =>
      match rawPart s port h with
      | none => rxNoMatch s port
      | some p =>
        let r := police s p port sub true bs
        match r.2 with
        | none => r.1
        | some bs => rawFrameRx r.1 p port sub bs

/-- The pause frames that a port sends for the priorities whose receive buffers fill, never for priority 7 (R294). -/
def pfcTx (s : State) (port sub : Nat) (full : BitVec 8) : State :=
  (List.range 7).foldl (fun s i => if full.getLsbD i && (getPort s port).pfcPri.getLsbD i then emit s (.pause port sub i) else s) s

/-- ETH_RX_FRAME (R290, R291, R294). -/
def execEthRxFrame (f : RxFrame) (s : State) : Host.Outcome State Fault Refusal :=
  inRun s (fun s =>
    if !(getPort s f.port.val).up.getLsbD f.sub.val then s else
    let s := pfcTx s f.port.val f.sub.val f.full
    if 9216 < f.bytes.length + 4 then rxErr s f.port.val
    else settleNet (classify s f.port.val f.sub.val f.sofNs f.bytes))

/-! ### Departure (R294, R304, R305, R308) -/

/-- The frame that a subport sends has been on the wire for its whole length (R308). -/
def frameOver (s : State) (port sub : Nat) : Bool := match curOf s port sub with
  | none => false
  | some (_, f) => decide (tabGet 0 (getPort s port).beganAt sub + frameCycles s port f ≤ s.time.now)

/-- FRAME_TX_DONE (R304). -/
def execFrameTxDone (port : Fin 8) (sub : Fin 4) (s : State) : Host.Outcome State Fault Refusal :=
  inRun s (fun s => if frameOver s port.val sub.val then
    settleNet (startNext (frameLeft s port.val sub.val) port.val sub.val) else s)

/-- RADIO_FRAME_DEADLINE (R305, R315). -/
def execRadioFrameDeadline (q : Fin 4096) (s : State) : Host.Outcome State Fault Refusal := inRun s (fun s => purgeLate s q.val)

/-- PAUSE_EXPIRY (R294): the time of a pause has run out. -/
def execPauseExpiry (port : Fin 8) (sub : Fin 4) (pri : Fin 8) (s : State) : Host.Outcome State Fault Refusal :=
  inRun s (fun s =>
    let k := 8 * sub.val + pri.val
    let t := tabGet 0 (getPort s port.val).paused k
    if t = 0 ∨ s.time.now < t then s else
    startNext (modPort s port.val (fun P => { P with paused := tabSet 0 P.paused k 0 })) port.val sub.val)

/-- SHAPER_CREDIT_ZERO (R308): the credit has come to 0 or above, and an idle subport starts the frame. -/
def execShaperCreditZero (q : Fin 4096) (s : State) : Host.Outcome State Fault Refusal :=
  inRun s (fun s =>
    let Q := getQ s q.val
    if !Q.en || !shaped Q then s else startNext (settleCredit s q.val) Q.port.toNat Q.sub.toNat)

/-! ### Subports (R288, R289, R314-R316) -/

/-- The partitions with a queue on a subport, ascending. -/
def subOwners (s : State) (port sub : Nat) : List Nat :=
  (liveParts s).filter (fun p => (subQueues s port sub).any (fun q => decide ((getQ s q).part.toNat = p)))

/-- ETH_PORT_DOWN or ETH_PORT_UP to the pool manager and every partition with a queue on the subport (R314, R316). -/
def subEvent (s : State) (port sub code : Nat) : State :=
  evPool ((subOwners s port sub).foldl (fun s p => evPart s p code []) s) code []

/-- The shaper credits of a subport's SHARED queues become 0 (R316). -/
def zeroCredits (s : State) (port sub : Nat) : State :=
  ((subQueues s port sub).filter (fun q => !(getQ s q).radio)).foldl (fun s q =>
    modQ s q (fun Q => { Q with credit := 0, creditAt := s.time.now })) s

/-- A subport goes down (R314, R316). -/
def subDown (s : State) (port sub : Nat) : State :=
  if !(getPort s port).up.getLsbD sub then s else
  let m := BitVec.ofNat 4 (2 ^ sub)
  let s := match curOf s port sub with
    | none => s
    | some (q, _) => modQ s q (fun Q => { Q with drop := satInc 16 Q.drop 1 })
  let s := modPort s port (fun P => { P with
    cur := P.cur.filter (fun x => decide (x.1 ≠ sub)), up := P.up &&& ~~~m, held := P.held ||| m, expired := P.expired &&& ~~~m
    downCnt := satInc 16 P.downCnt 1, heldAt := tabSet 0 P.heldAt sub s.time.now })
  settleNet (refreshSynce (subEvent (zeroCredits s port sub) port sub 0x0602))

/-- SUBPORT_DOWN (R314). -/
def execSubportDown (port : Fin 8) (sub : Fin 4) (s : State) : Host.Outcome State Fault Refusal :=
  inRun s (fun s => subDown s port.val sub.val)

/-- SUBPORT_UP (R316): only a subport of the mode in effect, of an enabled port whose domain is usable (R288, R436). -/
def execSubportUp (port : Fin 8) (sub : Fin 4) (s : State) : Host.Outcome State Fault Refusal :=
  inRun s (fun s =>
    let P := getPort s port.val
    if P.up.getLsbD sub.val || !P.en || !portPowered s port.val || decide (subCount P.modeAct ≤ sub.val) then s else
    let m := BitVec.ofNat 4 (2 ^ sub.val)
    let s := modPort s port.val (fun P => { P with up := P.up ||| m, held := P.held &&& ~~~m, expired := P.expired &&& ~~~m })
    let s := refreshSynce (subEvent (zeroCredits s port.val sub.val) port.val sub.val 0x0603)
    startNext s port.val sub.val)

/-- The hold of a subport has lasted HOLD_MS; a return in the very cycle of its end still wins (R316). -/
def holdOver (s : State) (port sub : Nat) : Bool :=
  let P := getPort s port
  P.held.getLsbD sub && decide (tabGet 0 P.heldAt sub + msCycles (Nat.min 100 P.holdMs.toNat) < s.time.now)

/-- HOLD_EXPIRY (R316). -/
def execHoldExpiry (port : Fin 8) (sub : Fin 4) (s : State) : Host.Outcome State Fault Refusal :=
  inRun s (fun s =>
    if !holdOver s port.val sub.val then s else
    let m := BitVec.ofNat 4 (2 ^ sub.val)
    let s := modPort s port.val (fun P => { P with held := P.held &&& ~~~m, expired := P.expired ||| m })
    settleNet (((subQueues s port.val sub.val).filter (fun q => !(getQ s q).radio)).foldl flushQ s))

/-- A port's EN goes from 0 to 1 (R289): its mode takes effect, and queues on subports that the mode lacks are disabled. -/
def portOn (s : State) (n : Nat) : State :=
  let act : BitVec 2 := if (getPort s n).mode = 3 then 0 else (getPort s n).mode
  let s := modPort s n (fun P => { P with en := true, modeAct := act })
  let gone := (s.eth.qs.filter (fun e => e.2.en && decide (e.2.port.toNat = n) && decide (subCount act ≤ e.2.sub.toNat))).map (fun e => e.1)
  settleNet (gone.foldl disableQ s)

/-- A port's EN goes from 1 to 0: its subports lose their links (R314). -/
def portOff (s : State) (n : Nat) : State :=
  (List.range 4).foldl (fun s u => subDown s n u) (modPort s n (fun P => { P with en := false }))

end Sys2Proof.Machine
end

