-- ==== Sys2Proof/Machine/RegRead.lean ====
section
/-! DEFINITION. What a read of a register returns: the global register window (R16) and the partition register pages (R317). -/

namespace Sys2Proof.Machine

open Sys2Proof

/-- A register of fields, each a value at its lowest bit. -/
def packFields (l : List (Nat × Nat)) : Word := BitVec.ofNat 32 (l.foldl (fun n f => n + f.2 * 2 ^ f.1) 0)

/-- A 32-bit register of one number. -/
def word32 (n : Nat) : Word := BitVec.ofNat 32 n

/-- The upper word of a number. -/
def word32Hi (n : Nat) : Word := BitVec.ofNat 32 (n / 2 ^ 32)

/-! ### Boot, security and UART (12, 13) -/

/-- BOOT_STAT.STATE (R358). -/
def bootCode : BootSt → Nat
  | .rom => 0
  | .waitImg => 1
  | .verify => 2
  | .starting => 3
  | .ready => 4
  | .halt => 5

/-- The mask of accepted image types. -/
def acceptedMask (s : State) : Nat := (List.range 5).foldl (fun n i => n + b2n (decide (tabGet 0 s.boot.accepted (i + 1) ≠ 0)) * 2 ^ i) 0

/-- SEC_STAT (R398). -/
def secStat (x : Security) : Word :=
  packFields [(0, x.lifecycle), (2, b2n x.debugDis), (3, b2n x.rootSet), (4, b2n x.tamperLatch), (5, x.tamperCause.toNat),
    (10, b2n x.lockViolation), (11, b2n x.sealKey.isSome), (12, b2n x.dbgAccess)]

/-- The security mailbox block, from 0x010_0000 on. -/
def readBoot (s : State) (o : Nat) : Word :=
  if o = 0 then packFields [(0, bootCode s.boot.st), (8, s.boot.lastStatus), (16, acceptedMask s), (24, s.boot.haltCause)]
  else if o = 0x8 then word32 s.boot.imgAddr
  else if o = 0xC then word32Hi s.boot.imgAddr
  else if o = 0x10 then word32 s.boot.imgLen
  else if o = 0x100 then word32 s.sec.reqAddr
  else if o = 0x104 then word32Hi s.sec.reqAddr
  else if o = 0x10C then word32 s.sec.reqStatus
  else if o = 0x200 then secStat s.sec
  else if 0x210 ≤ o ∧ o < 0x224 then word32 (tabGet 0 s.sec.minSvn ((o - 0x210) / 4 + 1))
  else if 0x240 ≤ o ∧ o < 0x270 then word32 (s.sec.root.toNat / 2 ^ (8 * (o - 0x240)))
  else if o = 0x400 then packFields [(0, s.uart.div.toNat), (16, b2n s.uart.en)]
  else if o = 0x404 then packFields [(0, s.uart.framing), (16, s.uart.overrun)]
  else if o = 0x408 then packFields [(0, s.uart.data.toNat), (8, b2n s.uart.valid)]
  else 0

/-! ### Power (R386, R437) -/

/-- The clusters that have power. -/
def cluOn (s : State) : Nat := (List.range 20).foldl (fun n c => n + b2n (decide ((getPc s c).point < 4)) * 2 ^ c) 0

/-- The power block, from 0x020_0000 on. -/
def readPower (s : State) (o : Nat) : Word :=
  let p := s.pwr
  if o = 0 then packFields [(0, p.pkgIlim.toNat), (16, p.tjTarget.toNat), (24, b2n p.dvfsEn)]
  else if o = 4 then packFields [(0, p.tjMax % 256), (8, Nat.min 255 p.actions.length), (16, b2n p.crit)]
  else if 0x100 ≤ o ∧ o < 0x150 then
    let x := getPc s ((o - 0x100) / 4)
    packFields [(0, x.point), (3, b2n x.radio), (4, b2n x.pinned), (8, x.tj % 256)]
  else if o = 0x200 then packFields [(0, cluOn s), (20, p.hbmOn.toNat), (28, p.linkOn.toNat)]
  else if o = 0x204 then packFields [(0, p.ethOn.toNat), (2, 1), (3, b2n p.radioOn)]
  else if o = 0x210 then packFields [(0, b2n p.causePor), (1, b2n p.causeWake), (2, b2n p.causeDevice), (3, b2n p.causeTherm)]
  else 0

/-! ### Time (07) -/

/-- PTP_DOM. -/
def domWord (d : PtpDom) : Word :=
  packFields [(0, d.num.toNat), (8, b2n d.profile), (9, d.port.toNat), (12, d.sub.toNat), (14, b2n d.en)]

/-- The time-unit block, from 0x040_0000 on. -/
def readTime (t : TimeUnit) (o : Nat) : Word :=
  if o = 0 then packFields [(0, b2n t.activeReq), (1, b2n t.auto), (2, b2n t.synceEn), (3, t.syncePort.toNat), (8, t.slew.toNat),
    (18, b2n t.ppsOutEn), (19, b2n t.rackMaster)]
  else if o = 4 then packFields [(0, b2n t.dom0.locked), (1, b2n t.dom1.locked), (2, b2n t.active), (3, b2n t.slewing),
    (4, b2n t.holdover), (5, b2n t.cloveRun), (6, b2n t.markSrc), (7, b2n t.synceOk), (8, t.synceQl.toNat),
    (16, (domOf t t.active).utc.toNat)]
  else if o = 0x10 then domWord t.dom0
  else if o = 0x14 then word32 (ofSigned 32 t.dom0.ofs)
  else if o = 0x20 then domWord t.dom1
  else if o = 0x24 then word32 (ofSigned 32 t.dom1.ofs)
  else if o = 0x40 then word32 t.snapSec.toNat
  else if o = 0x44 then word32Hi t.snapSec.toNat
  else if o = 0x48 then word32 t.snapNs
  else if o = 0x4C then word32 t.snapFrac.toNat
  else if o = 0x50 then word32 t.snapClove.toNat
  else if o = 0x54 then word32Hi t.snapClove.toNat
  else if o = 0x58 then t.ppsInStamp
  else 0

/-! ### Ethernet and traffic manager (10) -/

/-- A port's registers. -/
def readPort (P : EthPort) (o : Nat) : Word :=
  if o = 0 then packFields [(0, b2n P.en), (1, P.mode.toNat), (4, P.holdMs.toNat), (12, P.pfcPri.toNat)]
  else if o = 4 then packFields [(0, P.up.toNat), (4, P.held.toNat), (8, P.modeAct.toNat), (16, P.downCnt)]
  else if o = 8 then word32 P.noMatch
  else if o = 0xC then word32 P.rxErr
  else 0

/-- An egress queue's registers. -/
def readQueue (q : TmQ) (o : Nat) : Word :=
  if o = 0 then packFields [(0, b2n q.en), (1, b2n q.radio), (2, q.port.toNat), (5, q.sub.toNat), (8, q.part.toNat), (16, q.weight.toNat)]
  else if o = 4 then packFields [(0, q.idleSlope.toNat), (12, q.qlim.toNat), (24, q.hiCredit.toNat)]
  else if o = 8 then packFields [(0, q.drop), (16, q.flush)]
  else packFields [(0, q.allow), (24, Nat.min 255 q.demote)]

/-- A policer's registers. -/
def readPol (p : Pol) (o : Nat) : Word :=
  if o = 0 then packFields [(0, b2n p.en), (1, b2n p.mode), (2, b2n p.aware), (3, b2n p.path), (4, p.port.toNat), (7, p.sub.toNat),
    (16, p.part.toNat)]
  else if o = 4 then word32 p.map.toNat
  else if o = 8 then word32 p.cir.toNat
  else if o = 0xC then word32 p.cbs.toNat
  else if o = 0x10 then word32 p.pir.toNat
  else if o = 0x14 then word32 p.pbs.toNat
  else if o = 0x18 then word32 p.yel
  else word32 p.red

/-- A partition's words in the traffic manager: 0 to 7 addresses, 8 to 11 VLANs, 12 its weight. -/
def readTmPart (x : TmPart) (i : Nat) : Word :=
  if i < 8 then tabGet 0 x.macs i else if i < 12 then tabGet 0 x.vlans (i - 8) else if i = 12 then word32 x.weight.toNat else 0

/-- The Ethernet block, from 0x080_0000 on. -/
def readEth (s : State) (o : Nat) : Word :=
  if o < 0x800 then readPort (getPort s (o / 0x100)) (o % 0x100)
  else if o < 0x10000 then 0
  else if o < 0x20000 then readQueue (getQ s ((o - 0x10000) / 0x10)) (o % 0x10)
  else if o < 0x30000 then readPol (tabGet {} s.eth.pols ((o - 0x20000) / 0x20)) (o % 0x20)
  else if o < 0x31000 then readTmPart (getTmp s ((o - 0x30000) / 0x40)) (o % 0x40 / 4)
  else 0

/-! ### Fabric (R287) -/

/-- A link's registers. -/
def readLink (s : State) (k : Link) (o : Nat) : Word :=
  if o = 0 then packFields [(0, b2n k.en), (1, k.widthReq.toNat), (8, k.laneDis.toNat), (16, k.errThr.toNat)]
  else if o = 4 then packFields [(0, k.st), (3, k.width), (5, k.lanesUp.toNat), (9, k.lanesRet.toNat), (13, k.stage), (16, k.partner.toNat)]
  else if o = 8 then packFields [(0, k.retrains), (16, replayCount s k)]
  else if o = 0xC then k.delayPs
  else 0

/-- The fabric block, from 0x0C0_0000 on. -/
def readFab (s : State) (o : Nat) : Word :=
  if o = 0 then packFields [(0, s.fab.chipId.toNat), (16, s.fab.node.toNat)]
  else if o = 4 then packFields [(0, b2n s.fab.combineEn), (1, b2n s.fab.cacheEn), (8, s.fab.timeout.toNat)]
  else if 0x1000 ≤ o ∧ o < 0x1600 then readLink s (getLink s ((o - 0x1000) / 0x40)) (o % 0x40)
  else 0

/-! ### Radio (R189, R191) -/

/-- A stream's registers. -/
def readStream (x : Stream) (o : Nat) : Word :=
  if o = 0 then packFields [(0, b2n x.en), (1, b2n x.agcEn), (2, b2n x.freezeEn), (16, x.cell)]
  else if o = 4 then packFields [(0, x.gain), (8, x.target), (16, x.maxStep), (20, b2n (!x.frozenBy.isEmpty))]
  else if o = 8 then word32 x.base.toNat
  else if o = 0xC then packFields [(0, x.corr.toNat), (24, x.corrLane), (31, b2n x.corrActive)]
  else if o = 0x10 then word32 x.cal.toNat
  else 0

/-- A search lane's registers. -/
def readLane (x : Lane) (o : Nat) : Word :=
  if o = 0 then packFields [(0, b2n x.busy), (1, x.format), (6, x.stream), (17, x.nstr), (20, x.cell), (29, x.cfg)]
  else if o = 0x10 then packFields [(0, x.power.toNat), (16, x.toff.toNat)]
  else if o = 0x14 then packFields [(0, x.cfo.toNat), (24, x.preamble.toNat), (30, b2n x.ovf), (31, b2n x.valid)]
  else if o = 0x18 then x.clove
  else 0

/-- A cell's registers. -/
def readCell (x : Cell) (o : Nat) : Word :=
  if o = 0 then packFields [(0, b2n x.rptOvf), (1, b2n x.live)]
  else if o = 4 then packFields [(0, x.rptTail.toNat), (16, x.rptHead.toNat)]
  else 0

/-- The radio block, from 0x100_0000 on. -/
def readRadio (s : State) (o : Nat) : Word :=
  if 0x100000 ≤ o ∧ o < 0x120000 then readStream (getStream s ((o - 0x100000) / 0x40)) (o % 0x40)
  else if 0x120000 ≤ o ∧ o < 0x120800 then readLane (getLane s ((o - 0x120000) / 0x20)) (o % 0x20)
  else if 0x140000 ≤ o ∧ o < 0x142000 then readCell (getCell s ((o - 0x140000) / 0x10)) (o % 0x10)
  else 0

/-! ### Clusters (R76, R93, R142, R169) -/

/-- EQ_CFG. -/
def readEqCfg (q : Eq) : Word := packFields [(0, b2n q.en), (1, b2n q.rt), (2, b2n q.idx), (4, q.base), (16, q.part)]

/-- EQ_STAT. -/
def readEqStat (q : Eq) : Word :=
  packFields [(0, q.entries.length), (8, Nat.min 255 q.skip), (16, Nat.min 255 q.miss), (24, Nat.min 255 q.late)]

/-- A cluster's block. -/
def readCluster (cl : Cluster) (o : Nat) : Word :=
  if o = 0x4000 then word32 cl.spareFor.toNat
  else if o = 0x4004 then packFields [(0, cl.failed.toNat), (20, cl.cause)]
  else if o = 0x4008 then word32 cl.wdogLimit.toNat
  else if o = 0x4010 then word32 cl.lssSize
  else if 0x5000 ≤ o ∧ o < 0x5100 then readEqCfg (getEq cl ((o - 0x5000) / 4))
  else if 0x5100 ≤ o ∧ o < 0x5200 then readEqStat (getEq cl ((o - 0x5100) / 4))
  else if 0x6000 ≤ o ∧ o < 0x6010 then
    let x : CspCtx := tabGet {} cl.csp ((o - 0x6000) / 4)
    packFields [(0, b2n x.en), (1, b2n x.radio), (2, x.st), (16, x.part)]
  else if 0x6010 ≤ o ∧ o < 0x6020 then
    let x : CspCtx := tabGet {} cl.csp ((o - 0x6010) / 4)
    packFields [(0, b2n x.sat), (1, b2n x.stPsn), (4, x.cause), (12, Nat.min (2 ^ 20 - 1) x.longRep)]
  else if 0x6020 ≤ o ∧ o < 0x6040 then
    let x : Fence := tabGet {} cl.fence ((o - 0x6020) / 4)
    packFields [(0, x.base), (12, x.len), (24, b2n x.closed), (25, x.ctx.val)]
  else if 0x6040 ≤ o ∧ o < 0x6060 then
    let x : Engine := tabGet {} cl.eng ((o - 0x6040) / 4)
    x.wcnt
  else if 0x6060 ≤ o ∧ o < 0x60A0 then
    let x : LArray := tabGet {} cl.la ((o - 0x6060) / 4)
    x.drnCnt
  else 0

/-! ### Rings (R364) -/

/-- A ring's registers. -/
def readRing (s : State) (k o : Nat) : Word :=
  let r := getRing s k
  let ev := ringIsEvent k
  if o = 0 then packFields [(0, b2n r.en), (1, b2n (ringIdle s k)), (2, b2n r.fault), (4, if ev then 0 else r.cmdLog2.toNat),
    (8, r.cplLog2.toNat), (16, r.msix.toNat)]
  else if o = 0x8 ∧ !ev then word32 r.cmdBase.toNat
  else if o = 0xC ∧ !ev then word32Hi r.cmdBase.toNat
  else if o = 0x10 then word32 r.cplBase.toNat
  else if o = 0x14 then word32Hi r.cplBase.toNat
  else if o = 0x18 ∧ !ev then word32 r.cmdTail.toNat
  else if o = 0x1C ∧ !ev then word32 r.cmdHead.toNat
  else if o = 0x20 then word32 r.cplTail.toNat
  else if o = 0x24 then word32 r.cplHead.toNat
  else if o = 0x28 then word32 r.lost
  else 0

/-! ### Partition pages (R317, R354) -/

/-- PART_INFO.STATE. -/
def partCode : PartSt → Nat
  | .running => 0
  | .freezing => 1
  | .frozen => 2
  | .resetting => 3

/-- A stream, lane or cell belongs to a partition. -/
def streamMine (s : State) (p n : Nat) : Bool :=
  (getStream s n).en && (getCell s (getStream s n).cell).live && decide ((getCell s (getStream s n).cell).part = p)
def laneMine (s : State) (p n : Nat) : Bool :=
  (getLane s n).busy && (getCell s (getLane s n).cell).live && decide ((getCell s (getLane s n).cell).part = p)
def pageCell (s : State) (p n : Nat) : Bool := (getCell s n).live && decide ((getCell s n).part = p)

/-- The determinism, twin and step registers of a page. -/
def readDet (P : Part) (o : Nat) : Word :=
  let run := match P.launch with
    | some L => L.running
    | none => false
  if o = 0x220 then packFields [(0, b2n P.det), (1, b2n (P.srEntropy && !P.det))]
  else if o = 0x224 then packFields [(0, b2n run), (1, b2n (P.launch.isSome && !run)), (2, b2n P.isSealed), (8, P.disturb.toNat), (16, P.refused)]
  else if o = 0x228 then P.endClove
  else if o = 0x22C then word32 P.endCycle
  else if o = 0x240 then packFields [(0, P.twinState), (2, b2n P.twinDiv), (3, b2n P.twinTdiv), (4, b2n P.twinLostF), (8, P.twinClusters.toNat)]
  else if o = 0x244 then P.twinDivClove
  else if o = 0x248 then word32 P.twinMismatch
  else if o = 0x250 then word32 P.spoofCnt
  else if o = 0x264 then word32 P.stepLast
  else if o = 0x268 then word32 P.stepMax
  else if o = 0x26C then P.stepCnt
  else 0

/-- The network registers of a page (R301). -/
def readNet (P : Part) (o : Nat) : Word :=
  if o = 0x3010 then word32 P.rawTxTail.toNat
  else if o = 0x3014 then word32 P.rawTxHead.toNat
  else if o = 0x3018 then word32 P.rawRxTail.toNat
  else if o = 0x301C then word32 P.rawRxHead.toNat
  else if o = 0x3020 then packFields [(0, P.rxNobuf), (16, P.dbBad)]
  else 0

/-- A partition's register page, where the partition exists. -/
def readPage (s : State) (p o : Nat) : Word :=
  let P := getPart s p
  if !P.live then 0
  else if o = 0 then packFields [(0, p), (8, P.typ), (10, b2n P.isSealed), (11, partCode P.st), (16, P.gen.toNat)]
  else if o = 0x10 then word32 P.acct.toNat
  else if o = 0x14 then word32Hi P.acct.toNat
  else if o = 0x30 then packFields [(0, b2n P.dirtyEn), (1, b2n P.dirtyActive), (2, b2n P.dirtyOver)]
  else if o = 0x200 then P.seedLo
  else if o = 0x204 then P.seedHi
  else if o = 0x210 then word32 P.oobWr
  else if o < 0x300 then readDet P o
  else if 0x1000 ≤ o ∧ o < 0x1400 then (if (o - 0x1000) / 0x40 < P.nring then readRing s (17 * p + (o - 0x1000) / 0x40) (o % 0x40) else 0)
  else if 0x1400 ≤ o ∧ o < 0x1440 then readRing s (17 * p + 16) (o % 0x40)
  else if 0x3000 ≤ o ∧ o < 0x3100 then readNet P o
  else if 0x8000 ≤ o ∧ o < 0xA000 then
    word32 ((tabGet 0 s.fab.peerGen ((o - 0x8000) / 2)).toNat + 2 ^ 16 * (tabGet 0 s.fab.peerGen ((o - 0x8000) / 2 + 1)).toNat)
  else if 0x20000 ≤ o ∧ o < 0x40000 then
    (if streamMine s p ((o - 0x20000) / 0x40) then readStream (getStream s ((o - 0x20000) / 0x40)) (o % 0x40) else 0)
  else if 0x40000 ≤ o ∧ o < 0x40800 then
    (if laneMine s p ((o - 0x40000) / 0x20) then readLane (getLane s ((o - 0x40000) / 0x20)) (o % 0x20) else 0)
  else if 0x60000 ≤ o ∧ o < 0x62000 then
    (if pageCell s p ((o - 0x60000) / 0x10) then readCell (getCell s ((o - 0x60000) / 0x10)) (o % 0x10) else 0)
  else 0

/-- The pool's block, from 0x3C0_0000 on: its rings, and its view of the step registers of each partition (R364, R424). -/
def readPool (s : State) (o : Nat) : Word :=
  if 0x1000 ≤ o ∧ o < 0x1040 then readRing s 1088 (o % 0x40)
  else if 0x1400 ≤ o ∧ o < 0x1440 then readRing s 1089 (o % 0x40)
  else if 0x10000 ≤ o ∧ o < 0x50000 ∧ 0x260 ≤ o % 0x1000 ∧ o % 0x1000 < 0x270 then readPage s ((o - 0x10000) / 0x1000) (o % 0x1000)
  else 0

/-- A read of the global register window at a multiple of 4; an offset that no block defines reads 0 (R16). Until READY only the
identity block and the security mailbox block answer (R358). -/
def readWindow (s : State) (a : Nat) : Word :=
  if a = 0 then devId
  else if 0x100000 ≤ a ∧ a < 0x200000 then readBoot s (a - 0x100000)
  else if s.boot.st ≠ .ready then 0
  else if 0x200000 ≤ a ∧ a < 0x400000 then readPower s (a - 0x200000)
  else if 0x400000 ≤ a ∧ a < 0x800000 then readTime s.time (a - 0x400000)
  else if 0x800000 ≤ a ∧ a < 0xC00000 then readEth s (a - 0x800000)
  else if 0xC00000 ≤ a ∧ a < 0x1000000 then readFab s (a - 0xC00000)
  else if 0x1000000 ≤ a ∧ a < 0x2000000 then readRadio s (a - 0x1000000)
  else if 0x2000000 ≤ a ∧ a < 0x3400000 then readCluster (getClu s ((a - 0x2000000) / 0x100000)) (a % 0x100000)
  else if 0x3C00000 ≤ a ∧ a < 0x4000000 then readPool s (a - 0x3C00000)
  else 0

end Sys2Proof.Machine
end

