-- ==== Sys2Proof/Machine/CloveProg.lean ====
section
/-! DEFINITION. The clove program (R387-R390): its image, CLOVE_PROG_LOAD, CLOVE_PROG_COMMIT, its timers and detectors, and the
exchange. -/

namespace Sys2Proof.Machine

open Sys2Proof

/-! ### The image (R387) -/

def cpTimers (im : List Word) : Nat := fld (wd im 0) 9 0
def cpEdges (im : List Word) : Nat := fld (wd im 0) 23 16

/-- Bytes of an image whose first word is w. -/
def cpBytes (w : Word) : Nat := 64 + 16 * (fld w 9 0 + fld w 23 16)

/-- Timer entry i; none where the program has no such entry. -/
def cpTimer (im : List Word) (i : Nat) : List Word := if i < cpTimers im then (im.drop (16 + 4 * i)).take 4 else []

/-- Detector entry i; none where the program has no such entry. -/
def cpEdge (im : List Word) (i : Nat) : List Word :=
  if i < cpEdges im then (im.drop (16 + 4 * cpTimers im + 4 * i)).take 4 else []

def tmPeriod (e : List Word) : Nat := fld (wd e 0) 15 0
def tmRepeat (e : List Word) : Bool := bit (wd e 0) 16
def tmEn (e : List Word) : Bool := bit (wd e 0) 17
def tmCycle (e : List Word) : Nat := fld (wd e 1) 17 0
def edSrc (e : List Word) : Nat := fld (wd e 0) 25 0
def edBit (e : List Word) : Nat := fld (wd e 0) 30 26
def edEdge (e : List Word) : Nat := fld (wd e 1) 1 0
def edDebounce (e : List Word) : Nat := Nat.max 1 (fld (wd e 1) 15 8)

/-- A target that is neither a partition number nor 0xFF (R18). -/
def targetBad (t : Nat) : Bool := decide (64 ≤ t) && decide (t ≠ 255)

/-- A header or an entry count out of range (R387). -/
def cpHeadBad (h : List Word) : Bool :=
  decide (fld (wd h 0) 15 10 ≠ 0) || decide (fld (wd h 0) 31 24 ≠ 0) || (List.range 15).any (fun i => decide (wd h (1 + i) ≠ 0)) ||
  decide (512 < cpTimers h) || decide (128 < cpEdges h)

/-- A timer entry with a reserved bit set, or a value out of range where it is in use. -/
def timerBad (e : List Word) : Bool :=
  decide (fld (wd e 0) 31 18 ≠ 0) || decide (fld (wd e 1) 31 18 ≠ 0) || decide (fld (wd e 2) 15 8 ≠ 0) || decide (wd e 3 ≠ 0) ||
  targetBad (fld (wd e 2) 7 0) || (tmEn e && (decide (tmPeriod e = 0) || decide (249999 < tmCycle e)))

/-- A detector entry with a reserved bit set, or a value out of range. -/
def edgeBad (e : List Word) : Bool :=
  bit (wd e 0) 31 || decide (fld (wd e 1) 7 2 ≠ 0) || decide (fld (wd e 2) 31 8 ≠ 0) || decide (wd e 3 ≠ 0) ||
  decide (edSrc e % 4 ≠ 0) || targetBad (fld (wd e 2) 7 0)

/-- The header at an A, and the whole image. -/
def cpHeader (s : State) (r : RingId) (a : Nat) : Option (List Word) := (rdA s r a 64).map (wordsOf 16)
def cpImage (s : State) (r : RingId) (a : Nat) : Option (List Word) :=
  match cpHeader s r a with
  | none => none
  | some h => let n := cpBytes (wd h 0); (rdA s r a n).map (wordsOf (n / 4))

/-- A commit is pending (R389). -/
def commitPending (s : State) : Bool := s.cprog.commitAt.isSome

/-- CLOVE_PROG_LOAD's checks. -/
def cpLoadErrs (r : RingId) (a : Nat) (s : State) : List Nat :=
  errsOf [(commitPending s, stBusy)] ++
  (match cpHeader s r a with
   | none => [stBounds]
   | some h =>
     if cpHeadBad h then [stBadParam] else
     match cpImage s r a with
     | none => [stBounds]
     | some im => errsOf
       [((List.range (cpTimers im)).any (fun i => timerBad (cpTimer im i)) || (List.range (cpEdges im)).any (fun i => edgeBad (cpEdge im i)),
         stBadParam)])

/-- CLOVE_PROG_LOAD (R387, R389). -/
def execCloveProgLoad (r : RingId) (k : Pkt) (s : State) : Host.Outcome State Fault Refusal :=
  inRun s (fun s => fwRun s r 0x05 k [] (cpLoadErrs r (fld48 k.w 0)) (fun s =>
    let im := (cpImage s r (fld48 k.w 0)).getD []
    .done { s with cprog := { s.cprog with inact := some im } } stOk [BitVec.ofNat 32 (cpTimers im + 2 ^ 16 * cpEdges im)]))

/-- CLOVE_PROG_COMMIT's checks (R223, R389). -/
def cpCommitErrs (k : Pkt) (s : State) : List Nat :=
  errsOf [ (s.cprog.inact.isNone, stBadParam),
    (match cloveOfField s (wd k.w 0).toNat with
     | none => true
     | some c => !canCommit s c, stDeadline),
    (commitPending s, stBusy) ]

/-- CLOVE_PROG_COMMIT (R389). -/
def execCloveProgCommit (r : RingId) (k : Pkt) (s : State) : Host.Outcome State Fault Refusal :=
  inRun s (fun s => fwRun s r 0x06 k [] (cpCommitErrs k) (fun s =>
    let c := (cloveOfField s (wd k.w 0).toNat).getD 0
    .wait { s with cprog := { s.cprog with commitAt := some c } } (.progCommit c) []))

/-! ### Timers (R388, R390) -/

/-- An event of an entry goes to its target, a partition or the pool. -/
def evTarget (s : State) (t code : Nat) (items : List (Nat × Nat)) : State :=
  if t = 255 then evPool s code items else evPart s t code items

/-- CLOVE_TIMER (R388): timer i fires in its cycle. -/
def execCloveTimer (i : Fin 512) (s : State) : Host.Outcome State Fault Refusal :=
  inRun s (fun s =>
    let t := tabGet {} s.cprog.timers i.val
    if s.time.cloveRun && decide (t.armed ≠ 0) && !t.fired && decide (s.time.clove + 2 = t.armed + tmPeriod t.entry) &&
        decide (s.time.cycle = tmCycle t.entry) then
      evTarget { s with cprog := { s.cprog with timers := tabSet {} s.cprog.timers i.val { t with fired := true } } }
        (fld (wd t.entry 2) 7 0) 0x0005 [(2, i.val), (2, fld (wd t.entry 2) 31 16)]
    else s)

/-- A timer armed at boundary b under an entry, or stopped where the entry is not in use. -/
def armTimer (b : Nat) (e : List Word) : Timer := if tmEn e then { armed := b + 1, entry := e } else {}

/-- A timer at boundary b; swap says the program was exchanged at this boundary. -/
def timerStep (im : List Word) (swap : Bool) (b i : Nat) (t : Timer) : Timer :=
  let due := decide (t.armed ≠ 0) && decide (t.armed + tmPeriod t.entry ≤ b + 1)
  if swap then (if t.armed = 0 || due then armTimer b (cpTimer im i) else { t with swapped := true })
  else if due then (if t.swapped || tmRepeat t.entry then armTimer b (cpTimer im i) else {})
  else t

/-- All timers at boundary b. -/
def timersStep (s : State) (swap : Bool) (b : Nat) : State :=
  (List.range 512).foldl (fun s i =>
    let t := tabGet {} s.cprog.timers i
    let n := timerStep s.cprog.act swap b i t
    if n = t then s else { s with cprog := { s.cprog with timers := tabSet {} s.cprog.timers i n } }) s

/-! ### Detectors (R388, R390) -/

/-- A detector that is not in flight takes its entry of the active program; one whose SRC or BIT changes has no level yet. -/
def edgeEntry (im : List Word) (i : Nat) (d : Detector) : Detector :=
  let e := cpEdge im i
  if d.k ≠ 0 ∨ d.entry = e then d
  else { d with entry := e, known := d.known && !d.entry.isEmpty && decide (edSrc d.entry = edSrc e) && decide (edBit d.entry = edBit e) }

/-- One sample of a detector: its new standing, and whether it posts an event. -/
def edgeSample (d : Detector) (x : Bool) : Detector × Bool :=
  if !d.known then ({ d with lvl := x, known := true }, false)
  else if x = d.lvl then ({ d with k := 0 }, false)
  else if d.k + 1 < edDebounce d.entry then ({ d with k := d.k + 1 }, false)
  else ({ d with lvl := x, k := 0 }, if x then decide (edEdge d.entry % 2 = 1) else decide (2 ≤ edEdge d.entry))

/-- Detector i at a boundary. -/
def edgeStep (s : State) (i : Nat) : State :=
  let d0 := tabGet {} s.cprog.dets i
  let d := edgeEntry s.cprog.act i d0
  let put (s : State) (d : Detector) : State :=
    if d = d0 then s else { s with cprog := { s.cprog with dets := tabSet {} s.cprog.dets i d } }
  if edEdge d.entry = 0 then put s d else
  let r := edgeSample d (bit (readWindow s (edSrc d.entry)) (edBit d.entry))
  let s := put s r.1
  if r.2 then evTarget s (fld (wd d.entry 2) 7 0) 0x0006 [(2, i), (2, fld (wd d.entry 1) 31 16), (1, b2n r.1.lvl)] else s

/-- All detectors at a boundary. -/
def edgesStep (s : State) : State := (List.range 128).foldl edgeStep s

/-! ### The exchange (R27, R362, R389, R390) -/

/-- The committed image becomes active at its boundary, is measured, and its command completes. -/
def exchange (s : State) : State × Bool :=
  match s.cprog.commitAt, s.cprog.inact with
  | some c, some im =>
    if s.time.clove < c then (s, false) else
    let s := measure s 6 6 0 (Config.sha384 (bytesOfWords im))
    let s := { s with cprog := { s.cprog with act := im, inact := none, commitAt := none } }
    (completeWait s (.progCommit c) stOk, true)
  | _, _ => (s, false)

/-- Step 2 of R27. -/
def programStep (s : State) : State :=
  let x := exchange s
  edgesStep (timersStep x.1 x.2 s.time.clove)

end Sys2Proof.Machine
end

