-- ==== Sys2Proof/WellFormed.lean ====
section
/-! DEFINITION. Well-formed commands: the operands that a row's rule allows. The meanings are
total: on operands that no row allows they read a missing word as 0 (log entry 1); no such command exists. -/

namespace Sys2Proof

/-- A packet carries its twelve parameter words (R366). -/
def pktWf (k : Pkt) : Bool := decide (k.w.length = 12)

/-- Readings of the 20 clusters (R383), and uses of the nine resources of R179 (R181). -/
def envWf (e : BoundaryEnv) : Bool :=
  decide (e.tj.length = 20) && decide (e.amps.length = 20) && e.use.all (fun u => decide (u.2.1 < 9))

/-- Granules of an entry are numbered 0 to 7 (R132). -/
def arrivalWf : Arrival → Bool
  | .ok => true
  | .remote gs bad => gs.all (fun g => decide (g.1 < 8)) && bad.all (fun g => decide (g.1 < 8))

/-- Integer lane types of one lane each (R149, R157). -/
def ltInt : Lt → Bool
  | .h => true
  | .w => true
  | .l => true
  | .c => false
  | .f => false
  | .d => false

/-- The lane types of the saturating instructions (R157). -/
def ltHw : Lt → Bool
  | .h => true
  | .w => true
  | .l => false
  | .c => false
  | .f => false
  | .d => false

/-- Floating lane types (R149, R157). -/
def ltFloat : Lt → Bool
  | .h => false
  | .w => false
  | .l => false
  | .c => false
  | .f => true
  | .d => true

/-- Bits of a lane (R149). -/
def ltWidth : Lt → Nat
  | .h => 16
  | .w => 32
  | .l => 64
  | .c => 32
  | .f => 32
  | .d => 64

/-- Conversions whose lane counts differ, which name a half (R157). -/
def cvtHalves : Cvt → Bool
  | .ld => false
  | .fd => true
  | .df => true
  | .hf => true
  | .wf => false
  | .fw => false

/-- The circular flag stands with P0 to P7 only (R151). -/
def circWf (p : Fin 16) (circ : Bool) : Bool := !circ || decide (p.val < 8)

/-- The operands of a command are ones that its row's rule allows. -/
def Instr.wf (i : Instr) : Bool :=
  match i with
  | .cloveBoundary env => envWf env
  | .mma _ _ d => decide (d.length = 16)
  | .accPreload _ _ d => decide (d.length = 16)
  | .accDrain _ _ d => decide (d.length = 16)
  | .drainRowPush _ _ _ => true
  | .arrayWatchdog _ _ => true
  | .registerParityError _ _ => true
  | .spareStart _ => true
  | .endInsn _ _ => true
  | .setx _ _ => true
  | .addx _ _ => true
  | .addr _ _ => true
  | .loop _ _ => true
  | .loopx _ _ => true
  | .rd _ _ _ => true
  | .wr _ _ => true
  | .rds _ _ _ => true
  | .rdw _ _ _ => true
  | .wrw _ _ => true
  | .rdt _ _ _ => true
  | .pls _ _ => true
  | .dls _ _ => true
  | .dla _ _ => true
  | .slm _ _ => true
  | .waitb _ _ => true
  | .cardEntryComplete _ _ _ res => arrivalWf res
  | .rtSubstitute _ _ => true
  | .vld _ _ p _ c _ => circWf p c
  | .vldb _ t _ p _ c _ => decide (t ≠ .c) && circWf p c
  | .vst _ _ p _ c => circWf p c
  | .vadd _ t _ _ _ => ltInt t
  | .vsub _ t _ _ _ => ltInt t
  | .vadds _ t _ _ _ => ltHw t
  | .vsubs _ t _ _ _ => ltHw t
  | .vmax _ t _ _ _ => decide (t ≠ .c)
  | .vmin _ t _ _ _ => decide (t ≠ .c)
  | .vand _ _ _ _ => true
  | .vor _ _ _ _ => true
  | .vxor _ _ _ _ => true
  | .vsel _ _ _ _ _ => true
  | .vshl _ t _ _ n => ltInt t && decide (n.val < ltWidth t)
  | .vshr _ t _ _ n => ltInt t && decide (n.val < ltWidth t)
  | .vperm _ _ _ _ => true
  | .vmac _ t _ _ _ => decide (t = .h) || decide (t = .c)
  | .vmacj _ _ _ _ => true
  | .vclr _ _ => true
  | .vbias _ _ n => decide (1 ≤ n) && decide (n ≤ 39)
  | .vshrn _ t _ _ n h => (decide (t = .h) || decide (t = .w)) && decide (n ≤ 39) && (decide (t = .w) || !h)
  | .vfadd _ t _ _ _ => ltFloat t
  | .vfmul _ t _ _ _ => ltFloat t
  | .vfma _ t _ _ _ => ltFloat t
  | .vcvt _ t _ _ h => cvtHalves t || !h
  | .vfunc _ _ _ _ => true
  | .vrmax _ t _ _ => ltInt t || decide (t = .f)
  | .vrsum _ t _ _ => decide (t ≠ .h) && decide (t ≠ .c)
  | .movp _ _ _ => true
  | .addp _ _ _ => true
  | .movm _ _ _ => true
  | .setb _ _ _ => true
  | .setl _ _ _ => true
  | .vmovs _ _ _ _ => true
  | .dbnz _ _ _ => true
  | .rep _ n => decide (1 ≤ n) && decide (n ≤ 65536)
  | .cspWaitb _ => true
  | .waitc _ src _ => decide (src.val < 8) || decide (16 ≤ src.val)
  | .fset _ _ _ _ => true
  | .fclose _ _ => true
  | .fopen _ _ => true
  | .halt _ _ => true
  | .cspTimeslice _ => true
  | .cspParityError _ _ => true
  | .getVersion _ k => pktWf k
  | .poolAuth _ k => pktWf k
  | .spdm _ k => pktWf k
  | .spdmDoeRequest _ _ => true
  | .timeConfig _ k => pktWf k
  | .timeFreerun _ k => pktWf k
  | .cloveProgLoad _ k => pktWf k
  | .cloveProgCommit _ k => pktWf k
  | .partCreate _ k => pktWf k
  | .partDestroy _ k => pktWf k
  | .partReset _ k => pktWf k
  | .partFreeze _ k => pktWf k
  | .partThaw _ k => pktWf k
  | .partSave _ k => pktWf k
  | .partRestore _ k => pktWf k
  | .dirtySwap _ k => pktWf k
  | .memMap _ k => pktWf k
  | .memUnmap _ k => pktWf k
  | .descCreate _ k => pktWf k
  | .descDestroy _ k => pktWf k
  | .cardLoad _ k => pktWf k
  | .cspLoad _ k => pktWf k
  | .progLoad _ k => pktWf k
  | .progUnload _ k => pktWf k
  | .taskSubmit _ k => pktWf k
  | .taskEnd _ _ => true
  | .launchAt _ k => pktWf k
  | .runEnd _ => true
  | .ruAdd _ k => pktWf k
  | .ruRemove _ k => pktWf k
  | .ruStats _ k => pktWf k
  | .cellAdd _ k => pktWf k
  | .cellRemove _ k => pktWf k
  | .cellExport _ k => pktWf k
  | .cellImport _ k => pktWf k
  | .radClaim _ k => pktWf k
  | .fabDma _ k => pktWf k
  | .dmaSegmentCommit _ => true
  | .fabInval _ k => pktWf k
  | .fabExport _ k => pktWf k
  | .fabUnexport _ k => pktWf k
  | .netQpCreate _ k => pktWf k
  | .netQpDestroy _ k => pktWf k
  | .netMrReg _ k => pktWf k
  | .netMrDereg _ k => pktWf k
  | .netRawCfg _ k => pktWf k
  | .svcClusterTest _ k => pktWf k
  | .clusterTestStart _ => true
  | .clusterTestEnd _ _ => true
  | .clusterTestTimeout _ => true
  | .svcEngineBypass _ k => pktWf k
  | .svcPcRetire _ k => pktWf k
  | .nonce => true
  | .tamperClear => true
  | .svnRaise => true
  | .lifeAdvance => true
  | .debugDisable => true
  | .rootSet => true
  | .sealKey => true
  | .push => true
  | .imageVerified => true
  | .start => true
  | .bootReady => true
  | .startTimeout => true
  | .reset _ => true
  | .functionLevelReset _ => true
  | .perstNLow _ => true
  | .perstNRise _ => true
  | .powerOnReset => true
  | .porNRise _ => true
  | .pwrOkFall => true
  | .pwrOkRise => true
  | .tamperAlarm _ => true
  | .debugAccess => true
  | .thermalTrip => true
  | .clusterIdleOff _ => true
  | .domainIdleOff _ => true
  | .cmdDoorbell _ _ => true
  | .cplHeadWrite _ _ => true
  | .ringEnable _ _ => true
  | .ringEnableDeferred _ => true
  | .generationWrap _ => true
  | .authLockoutExpiry => true
  | .hostLinkDown _ => true
  | .hostLinkUp _ => true
  | .stepMark _ _ => true
  | .snap => true
  | .activeReq _ => true
  | .domainAcquire _ _ => true
  | .domainLock _ => true
  | .announceTimeout _ => true
  | .cloveMarkerRx _ _ => true
  | .markerTimeout => true
  | .ppsInEdge => true
  | .flitRx _ f => decide (f.corrected.length ≤ 4) && decide (f.freed.length ≤ 3)
  | .linkTrainAttempt _ _ => true
  | .trainStageTimeout _ => true
  | .partnerSilence _ => true
  | .laneLockLoss _ _ => true
  | .laneLockTimeout _ _ => true
  | .retrain _ => true
  | .service _ => true
  | .retrainRequestRx _ => true
  | .pathDown _ _ => true
  | .linkRekey _ => true
  | .load _ _ e => decide (e.length = 8)
  | .store _ _ e => decide (e.length = 8)
  | .storeWithOrderedFlag _ _ e => decide (e.length = 8)
  | .atomicAdd _ _ e => decide (e.length = 8)
  | .atomicMin _ _ e => decide (e.length = 8)
  | .atomicMax _ _ e => decide (e.length = 8)
  | .compareAndSwap _ _ e => decide (e.length = 8)
  | .fabOpInval _ _ e => decide (e.length = 8)
  | .fabricRouterRx _ => true
  | .combineTimeout => true
  | .fabricRequestRx _ _ => true
  | .orderedFlagApply _ _ => true
  | .fabricResponseRx _ => true
  | .fabTimeout _ _ => true
  | .resetNoticeRx _ _ _ => true
  | .resetNoticeAckRx _ _ => true
  | .resetNoticeResend _ => true
  | .twinSignatureRx _ _ => true
  | .twinLost _ => true
  | .freezeNoticeRx _ _ => true
  | .ethRxFrame _ => true
  | .rateIncrease _ => true
  | .ackTimeout _ => true
  | .netSqDb _ _ => true
  | .netRqDb _ _ => true
  | .netCqDb _ _ => true
  | .netRawTxTail _ _ => true
  | .netRawRxTail _ _ => true
  | .frameTxDone _ _ => true
  | .radioFrameDeadline _ => true
  | .subportDown _ _ => true
  | .subportUp _ _ => true
  | .holdExpiry _ _ => true
  | .rxWindowClose _ _ _ _ => true
  | .dlCplaneSend _ _ _ => true
  | .dlUplaneSend _ _ _ _ => true
  | .txLate _ _ _ _ => true
  | .agcUpdate _ _ => true
  | .searchDetection _ _ => true
  | .ldpcJob w => decide (w.length = 16)
  | .polarJob _ => true
  | .trlJob w => decide (w.length = 16)
  | .jobDeadline _ => true
  | .codingJobEnd _ _ => true
  | .engineFault _ _ => true
  | .cloveTimer _ => true
  | .scrubRead _ _ => true
  | .uartFrameRx _ => true
  | .uartRxRead => true
  | .registerWrite _ _ _ => true
  | .linkUp _ => true
  | .pauseExpiry _ _ _ => true
  | .shaperCreditZero _ => true
  | .ppsOutRise => true
  | .ppsOutFall => true

end Sys2Proof
end

