-- ==== Sys2Proof/Machine/Objects.lean ====
section
/-! DEFINITION. Memory maps (R325, R326), tensor descriptors (R113-R122), cardamom images (R125, R131) and CSP images (R154, R157,
R158, R160, R167): their checks and their loading. -/

namespace Sys2Proof.Machine

open Sys2Proof

/-! ### MEM_MAP and MEM_UNMAP (R326) -/

/-- Pages of a partition's mapping that n pages from a virtual address cover. -/
def pageRange (va n : Nat) : List Nat := (List.range n).map (fun i => va / pageBytes + i)

/-- The address and count that MEM_MAP and MEM_UNMAP share break R326. -/
def vaRangeBad (k : Pkt) : Bool :=
  let va := fld64 k.w 0
  let n := fld (wd k.w 2) 17 0
  decide (va % pageBytes ≠ 0) || decide (n = 0) || decide (196608 < n) || decide (2 ^ 48 < va % 2 ^ 48 + pageBytes * n)

/-- MEM_MAP's checks (R326). -/
def memMapErrs (p : Nat) (k : Pkt) (s : State) : List Nat :=
  let P := getPart s p
  let va := fld48 k.w 0
  let n := fld (wd k.w 2) 17 0
  let kind := fld (wd k.w 3) 3 2
  let tgt := (wd k.w 4).toNat + 2 ^ 32 * fld (wd k.w 5) 19 0
  let bad := vaRangeBad k
  errsOf
    [ (bad || decide (kind = 3) || (bit (wd k.w 3) 1 && decide (kind ≠ 1)), stBadParam),
      (decide (kind = 0) && (decide (2 ^ 18 ≤ (wd k.w 4).toNat) || decide (wd k.w 5 ≠ 0)), stBadParam),
      ((decide (kind = 1) || decide (kind = 2)) && decide (tgt % pageBytes ≠ 0), stBadParam),
      (!bad && P.pt.any (fun e => decide (va / pageBytes ≤ e.1) && decide (e.1 < va / pageBytes + n) && e.2.v), stBadParam),
      (decide (kind = 0) && decide (P.pages.length < fld (wd k.w 4) 17 0 + n), stBounds),
      (decide (kind = 1) && !bad && (fabBad tgt || fabBad (tgt + pageBytes * (n - 1))), stBounds) ]

/-- MEM_MAP (R325, R326). -/
def execMemMap (r : RingId) (k : Pkt) (s : State) : Host.Outcome State Fault Refusal :=
  inRun s (fun s => fwRun s r 0x18 k [] (memMapErrs (ringP r) k) (fun s =>
    let p := ringP r
    let P := getPart s p
    let va := fld48 k.w 0
    let kind := fld (wd k.w 3) 3 2
    let tgt := (wd k.w 4).toNat + 2 ^ 32 * fld (wd k.w 5) 19 0
    let idx := fld (wd k.w 4) 17 0
    let pt := (List.range (fld (wd k.w 2) 17 0)).foldl (fun t i =>
      tabSet {} t (va / pageBytes + i)
        { v := true, w := bit (wd k.w 3) 0, c := bit (wd k.w 3) 1, kind := kind
          target := if kind = 0 then pageBytes * P.pages.getD (idx + i) 0 else tgt + pageBytes * i }) P.pt
    .done (growTables (modPart s p (fun P => { P with pt := pt })) p (rangeNodes va (fld (wd k.w 2) 17 0))) stOk []))

/-- Two byte ranges overlap. -/
def overlaps (a n b m : Nat) : Bool := decide (a < b + m) && decide (b < a + n) && decide (0 < n) && decide (0 < m)

/-- Bytes of a placement image of n shards (R235). -/
def placeBytes (n : Nat) : Nat := 16 + 8 * n

/-- MEM_UNMAP's checks (R268, R326). -/
def memUnmapErrs (p : Nat) (k : Pkt) (s : State) : List Nat :=
  let P := getPart s p
  let va := fld48 k.w 0
  let n := pageBytes * fld (wd k.w 2) 17 0
  errsOf
    [ (vaRangeBad k, stBadParam),
      (P.descs.any (fun d => d.2.live && decide (tSpace d.2.img = 0) && overlaps va n (tAllocBase d.2.img) (tAllocLen d.2.img)) ||
        (match P.launch with
         | none => false
         | some L => overlaps va n L.placeAddr (placeBytes (tabGet {} P.progs L.prog).nshard)) ||
        P.exps.any (fun e => e.2.used && overlaps va n e.2.va (pageBytes * e.2.pages.length)), stBusy) ]

/-- MEM_UNMAP (R326): it completes once no access of the partition is in flight (log entry 99). -/
def execMemUnmap (r : RingId) (k : Pkt) (s : State) : Host.Outcome State Fault Refusal :=
  inRun s (fun s => fwRun s r 0x19 k [] (memUnmapErrs (ringP r) k) (fun s =>
    let p := ringP r
    let lo := fld48 k.w 0 / pageBytes
    let n := fld (wd k.w 2) 17 0
    let s1 := modPart s p (fun P => { P with pt := tabKeep (fun g => decide (g < lo) || decide (lo + n ≤ g)) P.pt })
    if accessOpen s1 p then .wait s1 (.unmap p) [] else .done s1 stOk []))

/-! ### Descriptors (R113-R122) -/

/-- The first number from n on that a test picks, among f numbers. -/
def firstFrom (pick : Nat → Bool) : Nat → Nat → Option Nat
  | 0, _ => none
  | f + 1, n => if pick n then some n else firstFrom pick f (n + 1)

/-- A tensor's reserved fields and field values (R113). -/
def tensorFieldsBad (t : List Word) : Bool :=
  let n := tNdim t
  let sp := tSpace t
  bit (wd t 0) 15 || decide (fld (wd t 0) 31 30 ≠ 0) || decide (fld (wd t 2) 31 16 ≠ 0) || decide (fld (wd t 4) 31 16 ≠ 0) ||
  decide (fld (wd t 6) 31 16 ≠ 0) || (List.range 12).any (fun i => decide (wd t (20 + i) ≠ 0)) ||
  decide (4 < tLayout t) || decide (1 < tClamp t) || decide (sp = 3) || (decide (tFmt t ≠ 0) && !fmtKnown (tFmt t)) ||
  (if sp = 0 then decide (tCluster t ≠ 0) else decide (19 < tCluster t)) ||
  (if sp = 2 then decide (15 < tArray t) else decide (tArray t ≠ 0)) ||
  (!fmtMx (tFmt t) && decide (tScaleOff t ≠ 0)) ||
  decide (n = 0) || decide (6 < n) ||
  (List.range 6).any (fun d =>
    if d < n then decide (tSize t d = 0) || decide (0x7FFFFFFF < tSize t d)
    else decide (tSize t d ≠ 0) || decide (tStride t d ≠ 0)) ||
  (decide (tLayout t ≠ 0) && (List.range 6).any (fun d => decide (tStride t d ≠ 0)))

/-- Layout, format, dimension count, space and base alignment (R117). -/
def tensorLayoutBad (t : List Word) : Bool :=
  let f := tFmt t
  let sp := tSpace t
  let b := tBase t
  !(if tLayout t = 0 then
      !(decide (f = 4) || decide (f = 5) || (fmtApart f)) && decide (sp ≤ 1) && decide (b % (Nat.max 1 (tElt t)) = 0)
    else if tLayout t = 1 then
      decide (tNdim t = 2) && decide (1 ≤ f) && decide (f ≤ 7) && decide (sp ≤ 1) && decide (b % 64 = 0)
    else if tLayout t = 2 then
      decide (tNdim t = 2) && ((decide (1 ≤ f) && decide (f ≤ 8)) || (decide (0x10 ≤ f) && decide (f ≤ 0x1B))) && decide (b % 512 = 0)
    else if tLayout t = 3 then decide (tNdim t = 3) && decide (f = 8) && decide (sp ≤ 1) && decide (b % 64 = 0)
    else decide (tNdim t = 3) && (decide (f = 0) || decide (f = 9)) && decide (sp = 1) && decide (b % 64 = 0))

/-- Bytes of a layout's footprint, which starts at BASE; 0 for row-major (R117). -/
def tensorFootprint (t : List Word) : Nat :=
  if tLayout t = 0 then 0
  else if tLayout t = 1 then 4096 * tElt t * ceilDiv (tSize t 0) 32 * ceilDiv (tSize t 1) 128
  else if tLayout t = 2 then tTileBytes t * ceilDiv (tSize t 0) 128 * ceilDiv (tSize t 1) 128
  else if tLayout t = 3 then 4 * (ceilDiv (tSize t 0) 16 * 16) * tSize t 1 * tSize t 2
  else 16384 * tElt t * tSize t 2

/-- Bytes of a tensor's MX block scales (R121). -/
def tensorScales (t : List Word) : Nat :=
  if !fmtMx (tFmt t) then 0
  else if tLayout t = 1 then ceilDiv (tSize t 0) 32 * tSize t 1
  else ceilDiv (tSize t 1) 32 * tSize t 0

/-- The bytes that a tensor reaches: first, and one past the last (R116). -/
def tensorReach (t : List Word) : Int × Int :=
  let b : Int := tBase t
  if tLayout t = 0 then
    let st (d : Nat) : Int := ((tSize t d : Int) - 1) * tStride t d
    let ds := List.range (tNdim t)
    let lo := ds.foldl (fun n d => n + (if st d < 0 then st d else 0)) 0
    let hi := ds.foldl (fun n d => n + (if 0 < st d then st d else 0)) 0
    if tNibble t then (b + Int.fdiv lo 2, b + Int.fdiv hi 2 + 1) else (b + lo * tElt t, b + (hi + 1) * tElt t)
  else
    let elts : Nat := if tLayout t = 4 then
        tElt t * (16384 * (tSize t 2 - 1) + (tSize t 1 - 1) * tSize t 0 + tSize t 0) else 0
    let sc := if tensorScales t = 0 then 0 else tScaleOff t + tensorScales t
    (b, b + (Nat.max (tensorFootprint t) (Nat.max elts sc) : Nat))

/-- The BAD_PARAM conditions of R122 that the image alone decides. -/
def tensorBad (t : List Word) : Bool :=
  tensorFieldsBad t || tensorLayoutBad t || (decide (0 < tensorScales t) && decide (tScaleOff t < tensorFootprint t))

/-- A reachable byte lies outside the allocation (R116). -/
def tensorReachBad (t : List Word) : Bool :=
  let r := tensorReach t
  decide (r.1 < (tAllocBase t : Int)) || decide (((tAllocBase t + tAllocLen t : Nat) : Int) < r.2)

/-- The allocation lies outside the partition's memory of its space (R115). -/
def tensorAllocBad (s : State) (p : Nat) (t : List Word) : Bool :=
  let a := tAllocBase t
  let n := tAllocLen t
  let h := getHold s p (tCluster t)
  if tSpace t = 0 then decide (2 ^ 48 < a + n) || (runsOf a n).any (fun r => !(pteOf s p r.1).v)
  else if tSpace t = 1 then
    decide (2 ^ 24 < a + n) ||
    (List.range ((a + n + 2 ^ 18 - 1) / 2 ^ 18 - a / 2 ^ 18)).any (fun i =>
      let u := a / 2 ^ 18 + i
      if tLayout t = 4 then !(decide (48 ≤ u) && h.lss.getLsbD (u - 48)) else !h.sram.getLsbD u)
  else decide (1572864 < a + n) || !allotted h (tCluster t) (tArray t)

/-- Live descriptors of a partition. -/
def liveDescs (s : State) (p : Nat) : Nat := (getPart s p).descs.countP (fun d => d.2.live)

/-- The statuses of R122 for an image. -/
def descErrs (s : State) (p : Nat) (img : Option (List Word)) : List Nat :=
  errsOf [(decide (4096 ≤ liveDescs s p), stNoResource)] ++
  (match img with
   | none => [stBounds]
   | some t =>
     if tensorBad t then [stBadParam]
     else errsOf [(tensorAllocBad s p t || tensorReachBad t, stBounds)])

/-- The words of an image in a partition's memory. -/
def imageAt (s : State) (p a n : Nat) : Option (List Word) := (rdVa s p a (4 * n)).map (wordsOf n)

/-- The lowest handle that is neither live nor of an earlier generation, else the lowest that is not live (log entry 14). -/
def newDesc (s : State) (p : Nat) : Nat :=
  let d := (getPart s p).descs
  match firstFrom (fun h => !(tabGet {} d h).live && !(tabGet {} d h).stale) 65535 1 with
  | some h => h
  | none => (firstFrom (fun h => !(tabGet {} d h).live) 65535 1).getD 1

/-- Enter a descriptor, with its handle. -/
def addDesc (s : State) (p : Nat) (t : List Word) : Nat × State :=
  let h := newDesc s p
  (h, modPart s p (fun P => { P with descs := tabSet {} P.descs h { live := true, img := t } }))

/-- What a handle's standing does to a command: unknown is BAD_PARAM, of an earlier generation is STALE_GENERATION (R114). -/
def descHandleErrs (s : State) (p h : Nat) : List Nat :=
  let d := tabGet {} (getPart s p).descs h
  if d.live then [] else if d.stale then [stStale] else [stBadParam]

/-- DESC_CREATE (R113-R122). -/
def execDescCreate (r : RingId) (k : Pkt) (s : State) : Host.Outcome State Fault Refusal :=
  inRun s (fun s => fwRun s r 0x20 k [0] (fun s => descErrs s (ringP r) (imageAt s (ringP r) (fld48 k.w 0) 32)) (fun s =>
    let x := addDesc s (ringP r) ((imageAt s (ringP r) (fld48 k.w 0) 32).getD [])
    .done x.2 stOk [BitVec.ofNat 32 x.1]))

/-- A running engine of the partition binds a handle (R114). -/
def descBound (s : State) (p h : Nat) : Bool :=
  s.clusters.any (fun c => c.2.eng.any (fun e => engBusy e.2 && decide (e.2.part = p) && e.2.tslot.any (fun t => decide (t.2 = h))))

/-- DESC_DESTROY (R114). -/
def execDescDestroy (r : RingId) (k : Pkt) (s : State) : Host.Outcome State Fault Refusal :=
  let h := fld (wd k.w 0) 15 0
  inRun s (fun s => fwRun s r 0x21 k []
    (fun s => descHandleErrs s (ringP r) h ++ errsOf [(descBound s (ringP r) h, stBusy)])
    (fun s => .done (modPart s (ringP r) (fun P => { P with descs := tabSet {} P.descs h {} })) stOk []))

/-! ### CARD_IMAGE (R125, R126, R131) -/

/-- Bits of an instruction that R126 reserves; none for an unknown opcode. -/
def cardReserved (op : Nat) : Option Nat :=
  match op with
  | 0x00 => some 0x3FFFFFF
  | 0x01 => some 0x0300000
  | 0x02 => some 0x0300000
  | 0x03 => some 0x003FFFF
  | 0x04 => some 0x3C00000
  | 0x05 => some 0x03FFFC0
  | 0x06 => some 0x001F000
  | 0x07 => some 0x001F000
  | 0x08 => some 0x001F000
  | 0x09 => some 0x001FFFF
  | 0x0A => some 0x001FFFF
  | 0x0B => some 0x001FFFF
  | 0x0C => some 0x3FFFFC0
  | 0x0D => some 0x3F00000
  | 0x0E => some 0x3FC0000
  | 0x0F => some 0x3FFFFFF
  | 0x10 => some 0x3FFFFFF
  | _ => none

/-- Slots of a CARD_IMAGE. -/
def imTslot (im : List Word) (i : Nat) : Word := wd im (64 + i)
def imQslot (im : List Word) (i : Nat) : Word := wd im (72 + i)

/-- A data instruction breaks R131 or R139; tens gives the tensor of each bound slot, which has no words where its handle is
not live. -/
def cardDataBad (im : List Word) (tens : Nat → List Word) (op : Nat) (w : Word) : Bool :=
  let ts := fld w 25 23
  let q := imQslot im (fld w 22 21)
  let t := tens ts
  let lay := tLayout t
  !bit (imTslot im ts) 16 || !bit q 31 || (bit q 6 != (decide (op = 0x07) || decide (op = 0x0A))) ||
  (!t.isEmpty && (decide (16 < fld w 20 17 + tNdim t) ||
    (decide (op = 0x06 ∨ op = 0x07) && decide (lay = 2)) ||
    (decide (op = 0x09 ∨ op = 0x0A) && decide (lay ≠ 2)) ||
    (decide (op = 0x08) && (!fmtMx (tFmt t) || !(decide (lay = 1) || decide (lay = 2)))) ||
    (decide (op = 0x0B) && !(decide (lay = 0) && decide (tSpace t = 1) && decide (tElt t = 1 ∨ tElt t = 2 ∨ tElt t = 4) &&
      decide (2 ≤ tNdim t)))))

/-- Loops from index i on: each end lies after its own index and inside the bodies that are open, at most six of them (R128,
R131). -/
def cardLoopsBad : Nat → List Nat → List Word → Bool
  | _, _, [] => false
  | i, ends, w :: ws =>
    let ends1 := ends.dropWhile (fun e => decide (e < i))
    let op := fld w 31 26
    if op = 0x04 ∨ op = 0x05 then
      let e := fld w 5 0
      decide (e ≤ i) || (match ends1 with
        | [] => false
        | f :: _ => decide (f < e)) || decide (6 ≤ ends1.length) || cardLoopsBad (i + 1) (e :: ends1) ws
    else cardLoopsBad (i + 1) ends1 ws

/-- Two bound queue slots name one queue in one direction. -/
def cardQueueTwice (im : List Word) : Bool :=
  (List.range 4).any (fun i => (List.range i).any (fun j =>
    let a := imQslot im i
    let b := imQslot im j
    bit a 31 && bit b 31 && decide (fld a 6 0 = fld b 6 0)))

/-- The BAD_PARAM conditions of R131 that the image and its tensors decide. -/
def cardBad (im : List Word) (tens : Nat → List Word) : Bool :=
  (im.take 64).any (fun w =>
    let op := fld w 31 26
    (match cardReserved op with
     | none => true
     | some m => decide (w.toNat &&& m ≠ 0)) ||
    (decide (6 ≤ op ∧ op ≤ 0x0B) && cardDataBad im tens op w) ||
    (decide (op = 0x0D) && decide (249999 < fld w 17 0))) ||
  (List.range 8).any (fun i => decide (fld (imTslot im i) 31 17 ≠ 0)) ||
  (List.range 4).any (fun i => decide (fld (imQslot im i) 30 18 ≠ 0)) ||
  (List.range 4).any (fun i => decide (wd im (76 + i) ≠ 0)) ||
  cardLoopsBad 0 [] (im.take 64) || cardQueueTwice im || (im.take 64).all (fun w => decide (fld w 31 26 ≠ 0))

/-- Bound tensor slots of an image. -/
def boundT (im : List Word) : List Nat := (List.range 8).filter (fun i => bit (imTslot im i) 16)

/-- Bound queue slots of an image, as words. -/
def boundQ (im : List Word) : List Word := ((List.range 4).map (imQslot im)).filter (fun q => bit q 31)

/-- A WR or WRW names a SPACE 0 tensor whose allocation has a page mapped without W (R131). -/
def cardWriteBad (s : State) (p : Nat) (im : List Word) (tens : Nat → List Word) : Bool :=
  (im.take 64).any (fun w =>
    let op := fld w 31 26
    let t := tens (fld w 25 23)
    decide (op = 0x07 ∨ op = 0x0A) && decide (tSpace t = 0) && bit (imTslot im (fld w 25 23)) 16 &&
      (runsOf (tAllocBase t) (tAllocLen t)).any (fun r => !(pteOf s p r.1).w))

/-- The operations that run, drain or wait on a cluster's arrays. -/
def clusterOps (s : State) (c : Nat) : List (List Word) :=
  (List.range 16).flatMap (fun l =>
    let la := getLa s c l
    (match la.run with
      | some r => [r.d]
      | none => []) ++ la.drains.map (fun x => x.d) ++ la.descQ.map (fun x => x.2))

/-- One of the image's queues has a producer or a consumer of the image's kind already: another engine that runs a program, the
drain of an operation, or the execute engine for one (R131). -/
def cardQueueTaken (s : State) (c e : Nat) (im : List Word) : Bool :=
  (List.range 8).any (fun o => decide (o ≠ e) && engBusy (getEng s c o) &&
    (getEng s c o).qslot.any (fun x => bit x.2 31 && (boundQ im).any (fun q => decide (fld x.2 6 0 = fld q 6 0)))) ||
  (boundQ im).any (fun q => (clusterOps s c).any (fun d =>
    (if bit q 6 then inQueues d else outQueues d).contains (fld q 5 0)))

/-- A queue is another partition's: it is enabled for it, or its resource list names it (R131, R322, log entry 87). -/
def queueForeign (s : State) (p c q : Nat) : Bool :=
  ((getEq (getClu s c) q).en && decide ((getEq (getClu s c) q).part ≠ p)) ||
    (liveParts s).any (fun o => decide (o ≠ p) && (getHold s o c).eq.getLsbD q)

/-- The conditions of R131 that depend on the cluster and the engine. -/
def cardPlaceErrs (s : State) (p c e : Nat) (im : List Word) : List Nat :=
  let h := getHold s p c
  errsOf
    [ (decide (19 < c) || cardQueueTaken s c e im, stBadParam),
      ((boundQ im).any (fun q => !h.sram.getLsbD (fld q 17 9 / 8)), stBounds),
      (!h.engines.getLsbD e || (boundQ im).any (fun q => queueForeign s p c (fld q 5 0)), stDenied),
      (engBusy (getEng s c e), stBusy) ]

/-- The tensors of an image whose slots hold handles; no words where a handle is not live. -/
def handleTensors (s : State) (p : Nat) (im : List Word) (i : Nat) : List Word :=
  let d := tabGet {} (getPart s p).descs (fld (imTslot im i) 15 0)
  if d.live then d.img else []

/-- Load an image onto an engine; it starts at the next boundary (R125, R162). hs are the handles of the bound slots. -/
def loadCard (s : State) (p c e : Nat) (im : List Word) (hs : Tab Nat) : State :=
  let s := modEng s c e (fun E => { ({} : Engine) with
    run := true, part := p, prog := im.take 64, tslot := hs
    qslot := (List.range 4).foldl (fun t i => if bit (imQslot im i) 31 then tabSet 0 t i (imQslot im i) else t) []
    waitB := true, flight := E.flight })
  let s := modPart s p (fun P => { P with everRun := true })
  (boundQ im).foldl (fun s q => modEq s c (fld q 5 0) (fun Q => { Q with
    en := true, rt := bit q 7, idx := bit q 8, base := fld q 17 9, part := p
    miss := if Q.en then Q.miss else 0, late := if Q.en then Q.late else 0 })) s

/-- The handles that an image names. -/
def imHandles (im : List Word) : Tab Nat := (boundT im).foldl (fun t i => tabSet 0 t i (fld (imTslot im i) 15 0)) []

/-- A command other than LAUNCH_AT that starts a program is refused in a Determined partition (R228, R229, log entry 93). -/
def startErrs (s : State) (p : Nat) : List Nat := errsOf [((getPart s p).det, stRefusedMode)]

/-- CARD_LOAD's checks (R131, R229). -/
def cardLoadErrs (p c e a : Nat) (s : State) : List Nat :=
  startErrs s p ++
  match imageAt s p a 80 with
  | none => stBounds :: cardPlaceErrs s p c e []
  | some im =>
    let live := (boundT im).flatMap (fun i => descHandleErrs s p (fld (imTslot im i) 15 0))
    live ++ errsOf [(cardBad im (handleTensors s p im), stBadParam),
      (cardWriteBad s p im (handleTensors s p im), stBounds)] ++ cardPlaceErrs s p c e im

/-- CARD_LOAD (R125, R131). -/
def execCardLoad (r : RingId) (k : Pkt) (s : State) : Host.Outcome State Fault Refusal :=
  let c := fld (wd k.w 0) 7 0
  let e := fld (wd k.w 0) 10 8
  inRun s (fun s => fwRun s r 0x22 k [] (cardLoadErrs (ringP r) c e (fld48 k.w 1)) (fun s =>
    let im := (imageAt s (ringP r) (fld48 k.w 1) 80).getD []
    .done (loadCard s (ringP r) c e im (imHandles im)) stOk []))

/-! ### CSP images (R154, R157, R158, R160, R167) -/

/-- Numbers of CSP registers: D, ACC, P, M, B, L. -/
def rgD (i : Nat) : Nat := i
def rgA (i : Nat) : Nat := 32 + i
def rgP (i : Nat) : Nat := 40 + i
def rgM (i : Nat) : Nat := 56 + i
def rgB (i : Nat) : Nat := 72 + i
def rgL (i : Nat) : Nat := 80 + i

/-- What a slot writes, with the latency of each result, and what it reads (R157). The latency of a VMAC is that of a chain into
the same ACC, the only reader that a repetition can hold. -/
structure CspUse where
  wr : List (Nat × Nat) := []
  rd : List Nat := []

/-- Registers that an address with post-modification reads. -/
def addrReads (p m : Fin 16) (circ : Bool) : List Nat :=
  rgP p.val :: rgM m.val :: (if circ then [rgB p.val, rgL p.val] else [])

/-- What a scalar operand reads. -/
def scalarReads : Scalar → List Nat
  | .imm _ => []
  | .m i => [rgM i.val]

/-- The registers of a slot's instruction (R157). -/
def cspUse (i : Instr) : CspUse :=
  let two (lat d u v : Nat) : CspUse := { wr := [(rgD d, lat)], rd := [rgD u, rgD v] }
  let one (lat d u : Nat) : CspUse := { wr := [(rgD d, lat)], rd := [rgD u] }
  match i with
  | .vld _ d p m c _ => { wr := [(rgD d.val, 6), (rgP p.val, 1)], rd := addrReads p m c }
  | .vldb _ _ d p m c _ => { wr := [(rgD d.val, 6), (rgP p.val, 1)], rd := addrReads p m c }
  | .vst _ d p m c => { wr := [(rgP p.val, 1)], rd := rgD d.val :: addrReads p m c }
  | .vadd _ _ d u v => two 2 d.val u.val v.val
  | .vsub _ _ d u v => two 2 d.val u.val v.val
  | .vadds _ _ d u v => two 2 d.val u.val v.val
  | .vsubs _ _ d u v => two 2 d.val u.val v.val
  | .vmax _ _ d u v => two 2 d.val u.val v.val
  | .vmin _ _ d u v => two 2 d.val u.val v.val
  | .vand _ d u v => two 1 d.val u.val v.val
  | .vor _ d u v => two 1 d.val u.val v.val
  | .vxor _ d u v => two 1 d.val u.val v.val
  | .vsel _ d m u v => { wr := [(rgD d.val, 1)], rd := [rgD m.val, rgD u.val, rgD v.val] }
  | .vshl _ _ d u _ => one 2 d.val u.val
  | .vshr _ _ d u _ => one 2 d.val u.val
  | .vperm _ d u v => two 2 d.val u.val v.val
  | .vmac _ _ a u v => { wr := [(rgA a.val, 1)], rd := [rgA a.val, rgD u.val, rgD v.val] }
  | .vmacj _ a u v => { wr := [(rgA a.val, 1)], rd := [rgA a.val, rgD u.val, rgD v.val] }
  | .vclr _ a => { wr := [(rgA a.val, 1)] }
  | .vbias _ a _ => { wr := [(rgA a.val, 1)], rd := [rgA a.val] }
  | .vshrn _ _ d a _ _ => { wr := [(rgD d.val, 2)], rd := [rgA a.val] }
  | .vfadd _ _ d u v => two 4 d.val u.val v.val
  | .vfmul _ _ d u v => two 4 d.val u.val v.val
  | .vfma _ _ d u v => { wr := [(rgD d.val, 4)], rd := [rgD d.val, rgD u.val, rgD v.val] }
  | .vcvt _ _ d u _ => one 4 d.val u.val
  | .vfunc _ _ d u => one 8 d.val u.val
  | .vrmax _ _ d u => one 6 d.val u.val
  | .vrsum _ _ d u => one 6 d.val u.val
  | .movp _ p v => { wr := [(rgP p.val, 1)], rd := scalarReads v }
  | .addp _ p v => { wr := [(rgP p.val, 1)], rd := rgP p.val :: scalarReads v }
  | .movm _ m v => { wr := [(rgM m.val, 1)], rd := scalarReads v }
  | .setb _ b v => { wr := [(rgB b.val, 1)], rd := scalarReads v }
  | .setl _ l v => { wr := [(rgL l.val, 1)], rd := scalarReads v }
  | .vmovs _ m u _ => { wr := [(rgM m.val, 2)], rd := [rgD u.val] }
  | .dbnz _ m _ => { wr := [(rgM m.val, 1)], rd := [rgM m.val] }
  | .waitc _ _ m => { rd := [rgM m.val] }
  | .fset _ _ p m => { rd := [rgP p.val, rgM m.val] }
  | _ => {}

/-- The slots that an instruction may stand in: 0 A, 1 B, 2 V, 3 S (R157). -/
def cspSlots (i : Instr) : List Nat :=
  match i with
  | .vld _ _ _ _ _ _ => [0, 1]
  | .vldb _ _ _ _ _ _ _ => [0, 1]
  | .vst _ _ _ _ _ => [0]
  | .movp _ _ _ => [3]
  | .addp _ _ _ => [3]
  | .movm _ _ _ => [3]
  | .setb _ _ _ => [3]
  | .setl _ _ _ => [3]
  | .vmovs _ _ _ _ => [3]
  | .dbnz _ _ _ => [3]
  | .rep _ _ => [3]
  | .cspWaitb _ => [3]
  | .waitc _ _ _ => [3]
  | .fset _ _ _ _ => [3]
  | .fclose _ _ => [3]
  | .fopen _ _ => [3]
  | .halt _ _ => [3]
  | i => if (cspUse i).wr.isEmpty then [] else [2]

/-- A repeated bundle may not hold the instruction (R158). -/
def repForbids (i : Instr) : Bool :=
  match i with
  | .rep _ _ => true
  | .dbnz _ _ _ => true
  | .cspWaitb _ => true
  | .waitc _ _ _ => true
  | .fset _ _ _ _ => true
  | .fclose _ _ => true
  | .fopen _ _ => true
  | .halt _ _ => true
  | _ => false

/-- The count of a REP. -/
def repCount : Instr → Option Nat
  | .rep _ n => some n
  | _ => none

/-- The target of a branch. -/
def branchTo : Instr → Option Nat
  | .dbnz _ _ t => some t.val
  | _ => none

/-- The instruction is HALT. -/
def isHalt : Instr → Bool
  | .halt _ _ => true
  | _ => false

/-- A load or store through P8-P15 with the circular flag (R151). -/
def circBad : Instr → Bool
  | .vld _ _ p _ c _ => c && decide (8 ≤ p.val)
  | .vldb _ _ _ p _ c _ => c && decide (8 ≤ p.val)
  | .vst _ _ p _ c => c && decide (8 ≤ p.val)
  | _ => false

/-- The instructions of a bundle's four slots; none where one is unknown, has operands that R157 does not give it, or stands in a
slot that is not its own. -/
def bundleInsns (ws : List Word) : Option (List Instr) :=
  (List.range 4).foldl (fun acc i =>
    match acc, Config.cspDecode i (wd ws i) with
    | some l, some none => some l
    | some l, some (some x) => if (cspSlots x).contains i && x.wf then some (l ++ [x]) else none
    | _, _ => none) (some [])

/-- Two slots of a bundle write the same register (R154). -/
def writesTwice (b : List Instr) : Bool :=
  let ws := b.flatMap (fun i => (cspUse i).wr.map (fun x => x.1))
  decide (ws.dedup.length ≠ ws.length)

/-- The cycles c of one repetition of a bundle (R160). -/
def repCycles (b : List Instr) : Nat :=
  let rd := b.flatMap (fun i => (cspUse i).rd)
  (b.flatMap (fun i => (cspUse i).wr)).foldl (fun n w => if rd.contains w.1 then Nat.max n w.2 else n) 1

/-- The bundles of an image, without its header. -/
def imageBundles (im : List Word) (n : Nat) : List (Option (List Instr)) :=
  (List.range n).map (fun i => bundleInsns ((im.drop (16 + 4 * i)).take 4))

/-- The longest REP of an image in CSP cycles, saturating at 20 bits (R160). -/
def longestRep (im : List Word) : Nat :=
  let n := fld (wd im 0) 10 0
  let bs := (imageBundles im n).map (fun b => b.getD [])
  Nat.min 0xFFFFF ((List.range n).foldl (fun m i =>
    ((bs.getD i []).filterMap repCount).foldl (fun m k => Nat.max m (k * repCycles (bs.getD (i + 1) []))) m) 0)

/-- The header of an image breaks R167. -/
def cspHeadBad (h : List Word) : Bool :=
  let n := fld (wd h 0) 10 0
  decide (n = 0) || decide (1024 < n) || decide (fld (wd h 0) 31 11 ≠ 0) || (List.range 15).any (fun i => decide (wd h (1 + i) ≠ 0))

/-- A bundle of an image of n bundles breaks R151, R154 or R167. -/
def bundleBad (n : Nat) (b : Option (List Instr)) : Bool :=
  match b with
  | none => true
  | some l => writesTwice l || l.any circBad || l.any (fun x => match branchTo x with
    | some t => decide (n ≤ t)
    | none => false)

/-- The BAD_PARAM conditions of R167 for the words of an image. -/
def cspImageBad (im : List Word) : Bool :=
  let n := fld (wd im 0) 10 0
  let bs := imageBundles im n
  let get (i : Nat) : List Instr := (bs.getD i (some [])).getD []
  cspHeadBad im || bs.any (bundleBad n) ||
  (List.range n).any (fun i =>
    (get i).any (fun x => (repCount x).isSome) && (decide (i + 1 = n) || (get (i + 1)).any repForbids)) ||
  !(List.range n).any (fun i => (get i).any isHalt)

/-- Words of an image by its header: its length where the count is in range. -/
def cspImageWords (w0 : Word) : Nat :=
  let n := fld w0 10 0
  if 1024 < n then 16 else 16 + 4 * n

/-- Read a CSP image. -/
def cspImageAt (s : State) (p a : Nat) : Option (List Word) :=
  match imageAt s p a 16 with
  | none => none
  | some h => imageAt s p a (cspImageWords (wd h 0))

/-- The cluster's CSP carries radio work (R32, R161): a cell with CSP work on it is admitted (log entry 88). -/
def radioCsp (s : State) (c : Nat) : Bool := (liveCells s).any (fun x => decide (cCluster x.ctx = c) && decide (cBudget x.ctx 1 ≠ 0))

/-- The conditions of R32, R167 and R415 that depend on the cluster and the context. -/
def cspPlaceErrs (s : State) (p c x : Nat) (im : List Word) : List Nat :=
  let h := getHold s p c
  let o := getCsp s c x
  errsOf
    [ (decide (19 < c), stBadParam),
      (decide ((getPart s p).typ ≠ 0) && radioCsp s c && decide (6000 < longestRep im), stRefusedMode),
      ((decide (x = 0) && decide ((getPart s p).typ ≠ 0)) || decide (h.sram = 0) || decide (cspOwner o ≠ some p) ||
        (getClu s c).cspFailed, stDenied),
      (decide (o.st = 1) || decide (o.st = 2) || o.load.isSome, stBusy) ]

/-- What the mapped words of an image that is not wholly mapped break of R167's BAD_PARAM conditions. -/
def cspPartBad (s : State) (p a : Nat) : Bool :=
  let part (i n : Nat) : Option (List Word) := imageAt s p (a + 4 * i) n
  let n := ((part 0 1).map (fun w => fld (wd w 0) 10 0)).getD 0
  cspHeadBad ((List.range 16).map (fun i => match part i 1 with
    | some w => wd w 0
    | none => if i = 0 then 1 else 0)) ||
  (decide (n ≤ 1024) && (List.range n).any (fun i => match part (16 + 4 * i) 4 with
    | some ws => bundleBad n (bundleInsns ws)
    | none => false))

/-- CSP_LOAD's checks (R167, R229). -/
def cspLoadErrs (p c x a : Nat) (s : State) : List Nat :=
  startErrs s p ++
  match cspImageAt s p a with
  | none => errsOf [(true, stBounds), (cspPartBad s p a, stBadParam)] ++ cspPlaceErrs s p c x []
  | some im => errsOf [(cspImageBad im, stBadParam)] ++ cspPlaceErrs s p c x im

/-- CSP_LOAD (R159, R167): a running REP holds the load. -/
def execCspLoad (r : RingId) (k : Pkt) (s : State) : Host.Outcome State Fault Refusal :=
  let c := fld (wd k.w 0) 7 0
  let x := fld (wd k.w 0) 9 8
  inRun s (fun s => fwRun s r 0x23 k [] (cspLoadErrs (ringP r) c x (fld48 k.w 1)) (fun s =>
    let im := (cspImageAt s (ringP r) (fld48 k.w 1)).getD []
    if inRep s c then .wait (modCsp s c x (fun o => { o with load := some (longestRep im, im) })) (.cspLoad c x) []
    else .done (startCsp s c x (longestRep im) im) stOk []))

end Sys2Proof.Machine
end

