-- ==== Sys2Proof/Machine/Programs.lean ====
section
/-! DEFINITION. Program binaries (R376, R447): PROG_LOAD, PROG_UNLOAD, and the placing of a program's shards. -/

namespace Sys2Proof.Machine

open Sys2Proof

/-- The program of a handle. -/
def getProg (s : State) (p h : Nat) : Prog := tabGet {} (getPart s p).progs h

/-- A section-table entry with its four words. -/
def sectWords (bs : List Byte) (off i : Nat) : List Word := wordsOf 4 ((bs.drop (off + 16 * i)).take 16)

/-- Length that a section of a kind must have (R113, R125, R167, R447). -/
def sectLenBad (kind len : Nat) : Bool :=
  if kind = 1 then decide (len ≠ 128)
  else if kind = 2 then decide (len ≠ 320)
  else if kind = 3 then decide (len < 64) || decide (len % 16 ≠ 0)
  else if kind = 4 then decide (len % 64 ≠ 0)
  else false

/-- A section-table entry is malformed (R376, R447). -/
def sectBad (nshard n : Nat) (w : List Word) : Bool :=
  let kind := fld (wd w 0) 7 0
  let shard := fld (wd w 0) 31 16
  let slot := fld (wd w 1) 15 0
  let len := (wd w 3).toNat
  decide (kind = 0) || decide (5 < kind) || decide (fld (wd w 0) 15 8 ≠ 0) || decide (fld (wd w 1) 31 16 ≠ 0) ||
  decide (nshard ≤ shard) || decide (n < (wd w 2).toNat + len) || sectLenBad kind len ||
  (decide (kind = 1) && decide (4096 ≤ slot)) || (decide (kind = 2) && decide (8 ≤ slot)) ||
  (decide (kind = 3) && decide (4 ≤ slot)) || (decide (kind = 4) && decide (16 ≤ slot)) ||
  (decide (kind = 5) && (decide (shard ≠ 0) || decide (slot ≠ 0)))

/-- The shard count that a header or placement image states, 0 standing for 65,536. -/
def shardCount (n : Nat) : Nat := if n = 0 then 65536 else n

/-- The sections of a binary; none where its header or section table is malformed. -/
def progSections (bs : List Byte) : Option (List Section) :=
  let h := wordsOf 16 (bs.take 64)
  let n := bs.length
  let nsect := fld (wd h 2) 31 16
  let off := (wd h 3).toNat
  let nshard := shardCount (fld (wd h 2) 15 0)
  let tab := (List.range nsect).map (sectWords bs off)
  let mk (w : List Word) : Section :=
    let kind := fld (wd w 0) 7 0
    { kind := kind, shard := fld (wd w 0) 31 16, slot := fld (wd w 1) 15 0
      bytes := if kind = 5 then [] else (bs.drop (wd w 2).toNat).take (wd w 3).toNat }
  let ds := (tab.filter (fun w => decide (fld (wd w 0) 7 0 = 1))).map (fun w => (fld (wd w 0) 31 16, fld (wd w 1) 15 0))
  if decide (n < 64) || decide (wd h 0 ≠ 0x42485645) || decide (wd h 1 ≠ 1) || decide (nsect = 0) || decide (n < off + 16 * nsect) ||
      decide (nsect ≤ (wd h 4).toNat) || decide (fld (wd h 5) 31 18 ≠ 0) || (List.range 10).any (fun i => decide (wd h (6 + i) ≠ 0)) ||
      tab.any (sectBad nshard n) || decide (ds.dedup.length ≠ ds.length) then none
  else some (tab.map mk)

/-- The words of a section. -/
def sectionWords (x : Section) : List Word := wordsOf (x.bytes.length / 4) x.bytes

/-- The tensor of a shard's descriptor section. -/
def shardTensor (ss : List Section) (shard slot : Nat) : Option (List Word) :=
  (ss.find? (fun x => decide (x.kind = 1) && decide (x.shard = shard) && decide (x.slot = slot))).map sectionWords

/-- The tensors of a cardamom section, whose slots name descriptor sections (R447). -/
def sectionTensors (ss : List Section) (shard : Nat) (im : List Word) (i : Nat) : List Word :=
  (shardTensor ss shard (fld (imTslot im i) 15 0)).getD []

/-- The statuses of one section, by the rules that do not depend on placement (R376, R447). -/
def sectionErrs (s : State) (p : Nat) (ss : List Section) (x : Section) : List Nat :=
  let im := sectionWords x
  if x.kind = 1 then
    errsOf [ (tensorBad im || (decide (tSpace im ≠ 0) && decide (tCluster im ≠ 0)), stBadParam),
      ((decide (tSpace im = 0) && tensorAllocBad s p im) || tensorReachBad im, stBounds) ]
  else if x.kind = 2 then
    let named := (boundT im).all (fun i => (shardTensor ss x.shard (fld (imTslot im i) 15 0)).isSome)
    errsOf [ (!named || cardBad im (sectionTensors ss x.shard im), stBadParam),
      (cardWriteBad s p im (sectionTensors ss x.shard im), stBounds) ]
  else if x.kind = 3 then
    errsOf [ (cspImageBad im || decide (im.length ≠ cspImageWords (wd im 0)), stBadParam),
      (decide (x.slot = 0) && decide ((getPart s p).typ ≠ 0), stDenied) ]
  else []

/-- The bytes of a binary. -/
def progBytes (s : State) (p : Nat) (k : Pkt) : Option (List Byte) :=
  if 2 ^ 30 < (wd k.w 2).toNat then none else rdVa s p (fld48 k.w 0) (wd k.w 2).toNat

/-- PROG_LOAD's checks (R376). -/
def progLoadErrs (p : Nat) (k : Pkt) (s : State) : List Nat :=
  errsOf [ (decide (2 ^ 30 < (wd k.w 2).toNat), stBadParam),
    (decide (64 ≤ (getPart s p).progs.countP (fun x => x.2.live)), stNoResource) ] ++
  (match progBytes s p k with
   | none => if 2 ^ 30 < (wd k.w 2).toNat then [] else [stBounds]
   | some bs =>
     match progSections bs with
     | none => [stBadParam]
     | some ss =>
       errsOf [(decide (16777216 < ss.foldl (fun n x => n + x.bytes.length) 0), stNoResource)] ++ ss.flatMap (sectionErrs s p ss))

/-- The lowest program handle that is neither live nor of an earlier generation (log entry 14). -/
def newProg (s : State) (p : Nat) : Nat :=
  let t := (getPart s p).progs
  match firstFrom (fun h => !(tabGet {} t h).live && !(tabGet {} t h).stale) 65535 1 with
  | some h => h
  | none => (firstFrom (fun h => !(tabGet {} t h).live) 65535 1).getD 1

/-- PROG_LOAD (R376, R447). -/
def execProgLoad (r : RingId) (k : Pkt) (s : State) : Host.Outcome State Fault Refusal :=
  inRun s (fun s => fwRun s r 0x24 k [0, 0] (progLoadErrs (ringP r) k) (fun s =>
    let p := ringP r
    let bs := (progBytes s p k).getD []
    let h := wordsOf 16 (bs.take 64)
    let hash := Config.sha384 bs
    let n := newProg s p
    let x : Prog :=
      { live := true, nshard := shardCount (fld (wd h 2) 15 0), hash := hash, resume := (wd h 4).toNat
        maxWcet := fld (wd h 5) 17 0, sections := (progSections bs).getD [] }
    .done (modPart s p (fun P => { P with progs := tabSet {} P.progs n x })) stOk [BitVec.ofNat 32 n, hash.setWidth 32]))

/-- What a program handle's standing does to a command (R340). -/
def progHandleErrs (s : State) (p h : Nat) : List Nat :=
  let x := getProg s p h
  if x.live then [] else if x.stale then [stStale] else [stBadParam]

/-- A task or launch uses a program (R376). -/
def progUsed (P : Part) (h : Nat) : Bool :=
  P.tasks.any (fun t => decide (t.prog = h)) || (match P.launch with
    | some L => decide (L.prog = h)
    | none => false)

/-- PROG_UNLOAD (R376). -/
def execProgUnload (r : RingId) (k : Pkt) (s : State) : Host.Outcome State Fault Refusal :=
  let h := fld (wd k.w 0) 15 0
  inRun s (fun s => fwRun s r 0x25 k []
    (fun s => progHandleErrs s (ringP r) h ++ errsOf [(progUsed (getPart s (ringP r)) h, stBusy)])
    (fun s => .done (modPart s (ringP r) (fun P => { P with progs := tabSet {} P.progs h {} })) stOk []))

/-! ### Placing shards (R447) -/

/-- What placing a program has taken so far: descriptors, engines, contexts, and the statuses that failed. -/
structure Placing where
  s : State
  descs : List Nat := []
  engs : List Nat := []
  ctxs : List Nat := []
  errs : List Nat := []

/-- Replace bits [h:l] of a word. -/
def putFld (w : Word) (h l v : Nat) : Word :=
  BitVec.ofNat 32 (w.toNat - fld w h l * 2 ^ l + v % 2 ^ (h - l + 1) * 2 ^ l)

/-- A descriptor image placed on a cluster from a first array on. -/
def placedTensor (t : List Word) (c first : Nat) : List Word :=
  if tSpace t = 0 then t
  else
    let w := putFld (wd t 0) 23 16 c
    (if tSpace t = 2 then putFld w 29 24 (tArray t + first) else w) :: t.drop 1

/-- An ARY_OPDESC of a stream with ARRAY, PART and GEN filled in. -/
def placedDesc (d : List Word) (p first : Nat) (gen : BitVec 16) : List Word :=
  (List.range 16).map (fun i =>
    if i = 1 then putFld (wd d 1) 29 24 (dArray d + first)
    else if i = 12 then putFld (putFld (wd d 12) 15 0 gen.toNat) 23 16 p
    else wd d i)

/-- Cut the words of a stream into descriptors. -/
def descsOf : Nat → List Word → List (List Word)
  | 0, _ => []
  | n + 1, ws => ws.take 16 :: descsOf n (ws.drop 16)

/-- Create the descriptors of a shard; the table gives the handle of each slot. -/
def placeDescs (x : Placing) (p c first : Nat) (ss : List Section) : Placing × Tab Nat :=
  ss.foldl (fun acc y =>
    let t := placedTensor (sectionWords y) c first
    let e := descErrs acc.1.s p (some t)
    if e.isEmpty then
      let h := addDesc acc.1.s p t
      ({ acc.1 with s := h.2, descs := acc.1.descs ++ [h.1] }, tabSet 0 acc.2 y.slot h.1)
    else ({ acc.1 with errs := acc.1.errs ++ e }, acc.2)) (x, [])

/-- Load the cardamom image of a shard onto its engine. -/
def placeCard (x : Placing) (p c : Nat) (hs : Tab Nat) (y : Section) : Placing :=
  let im0 := sectionWords y
  let im := (List.range 80).map (fun i =>
    if 64 ≤ i ∧ i < 72 then putFld (wd im0 i) 15 0 (if bit (wd im0 i) 16 then tabGet 0 hs (fld (wd im0 i) 15 0) else 0) else wd im0 i)
  let e := errsOf [(cardBad im (handleTensors x.s p im), stBadParam), (cardWriteBad x.s p im (handleTensors x.s p im), stBounds)] ++
    cardPlaceErrs x.s p c y.slot im
  if e.isEmpty then { x with s := loadCard x.s p c y.slot im (imHandles im), engs := x.engs ++ [8 * c + y.slot] }
  else { x with errs := x.errs ++ e }

/-- Load the CSP image of a shard into its context. -/
def placeCsp (x : Placing) (p c : Nat) (y : Section) : Placing :=
  let im := sectionWords y
  let e := cspPlaceErrs x.s p c y.slot im
  if e.isEmpty then { x with s := startCsp x.s c y.slot (longestRep im) im, ctxs := x.ctxs ++ [4 * c + y.slot] }
  else { x with errs := x.errs ++ e }

/-- Queue a stream of ARY_OPDESC on its logical array; a cluster has 16 of them (R38). -/
def placeStream (x : Placing) (p c first : Nat) (y : Section) : Placing :=
  if 16 ≤ first + y.slot then { x with errs := x.errs ++ [stBadParam] } else
  let ds := (descsOf (y.bytes.length / 64) (sectionWords y)).map (fun d => (p, placedDesc d p first (getPart x.s p).gen))
  { x with s := modLa x.s c ((first + y.slot)) (fun la => { la with descQ := la.descQ ++ ds }) }

/-- Place one shard of a program on a cluster from a first logical array on: its descriptors, engines and contexts, and its
streams; a restart issues the streams from the resume section on (R331, R447, log entry 38). -/
def placeShard (x : Placing) (p : Nat) (g : Prog) (again : Bool) (shard c first : Nat) : Placing :=
  let all := (g.sections.zipIdx).filter (fun y => decide (y.1.shard = shard))
  let of (kind : Nat) : List Section := (all.filter (fun y => decide (y.1.kind = kind))).map (fun y => y.1)
  let d := placeDescs x p c first (of 1)
  let x := (of 2).foldl (fun x y => placeCard x p c d.2 y) d.1
  let x := (of 3).foldl (fun x y => placeCsp x p c y) x
  let st := (all.filter (fun y => decide (y.1.kind = 4) && (!again || decide (g.resume ≤ y.2)))).map (fun y => y.1)
  st.foldl (fun x y => placeStream x p c first y) x

/-- Destroy the descriptors of a placement that no running engine binds (log entry 38). -/
def dropPlaced (s : State) (p : Nat) (hs : List Nat) : State :=
  hs.foldl (fun s h => if descBound s p h then s else modPart s p (fun P => { P with descs := tabSet {} P.descs h {} })) s

end Sys2Proof.Machine
end

