-- ==== Sys2Proof/Machine/Partition.lean ====
section
/-! DEFINITION. Partitions: PART_CREATE and PART_DESTROY (R320-R324, R385), PART_RESET and GENERATION_WRAP (R341-R343),
PART_FREEZE, PART_THAW and DIRTY_SWAP (R345, R346). -/

namespace Sys2Proof.Machine

open Sys2Proof

/-! ### The resource list (R320) -/

def rKind (e : List Word) : Nat := fld (wd e 0) 1 0
def rClu (e : List Word) : Nat := fld (wd e 0) 15 8
def rSram (e : List Word) : BitVec 64 := BitVec.ofNat 64 (fld64 e 2)
def rLss (e : List Word) : BitVec 16 := BitVec.ofNat 16 (fld (wd e 7) 15 0)
def rPcs (e : List Word) : Nat × Nat := (fld (wd e 6) 8 0, fld (wd e 6) 24 16 + 1)

/-- What a cluster entry gives. -/
def rHold (e : List Word) : Holding :=
  { saf := bit (wd e 0) 16, groups := BitVec.ofNat 4 (fld (wd e 0) 20 17), engines := BitVec.ofNat 8 (fld (wd e 0) 28 21)
    csp := BitVec.ofNat 4 (fld (wd e 1) 3 0), sram := rSram e, eq := BitVec.ofNat 64 (fld64 e 4), lss := rLss e }

/-- The parameters of PART_CREATE. -/
def pcPart (k : Pkt) : Nat := fld (wd k.w 0) 7 0
def pcTyp (k : Pkt) : Nat := fld (wd k.w 0) 9 8
def pcSealed (k : Pkt) : Bool := bit (wd k.w 0) 13
def pcGen (k : Pkt) : BitVec 16 := BitVec.ofNat 16 (fld (wd k.w 0) 31 16)
def pcPages (k : Pkt) : Nat := fld (wd k.w 5) 17 0

/-- The resource list in the pool manager's memory; none where it cannot be read. -/
def resList (s : State) (k : Pkt) : Option (List (List Word)) :=
  let n := fld (wd k.w 4) 4 0
  (hostRead s 0 (fld48 k.w 2) (32 * n)).map (fun bs => (List.range n).map (fun i => wordsOf 8 ((bs.drop (32 * i)).take 32)))

/-- The cluster entries, and the pseudo-channel entries, of a list. -/
def cluEntries (l : List (List Word)) : List (List Word) := l.filter (fun e => decide (rKind e = 1))
def pcEntries (l : List (List Word)) : List (List Word) := l.filter (fun e => decide (rKind e = 2))

/-- SRAM units 48 to 63 as a mask of 64. -/
def lssUnits (m : BitVec 16) : BitVec 64 := m.setWidth 64 <<< 48

/-- A resource-list entry breaks R320 or R323. -/
def resBad (typ : Nat) (isSealed : Bool) (e : List Word) : Bool :=
  decide (rKind e = 0) || decide (rKind e = 3) || bit (wd e 0) 2 || decide (fld (wd e 0) 7 2 ≠ 0) ||
  decide (fld (wd e 0) 31 29 ≠ 0) || decide (fld (wd e 1) 31 4 ≠ 0) || decide (fld (wd e 6) 15 9 ≠ 0) ||
  decide (fld (wd e 6) 31 25 ≠ 0) || decide (fld (wd e 7) 31 16 ≠ 0) ||
  (decide (rKind e = 1) && (decide (19 < rClu e) || (bit (wd e 0) 16 && (decide (typ ≠ 0) || decide (15 < rClu e))) ||
    (decide (typ = 2) && decide (fld (wd e 0) 20 17 ≠ 0)) || decide (rSram e &&& lssUnits (rLss e) ≠ 0))) ||
  (decide (rKind e = 2) && (!isSealed || decide (512 < (rPcs e).1 + (rPcs e).2)))

/-- The BAD_PARAM conditions of R323 that the packet alone decides. -/
def createBad (s : State) (k : Pkt) : Bool :=
  let p := pcPart k
  decide (63 < p) || decide (pcTyp k = 3) || (bit (wd k.w 0) 12 && decide (pcTyp k ≠ 1)) || decide (pcGen k = 0) ||
  decide (pcGen k = tabGet 0 s.lastGen p) || decide (fld (wd k.w 1) 15 0 = 0) ||
  decide (fld (wd k.w 4) 4 0 = 0) || decide (21 < fld (wd k.w 4) 4 0) ||
  decide (fld (wd k.w 4) 12 8 = 0) || decide (16 < fld (wd k.w 4) 12 8) ||
  decide (pcPages k = 0) || decide (196608 < pcPages k) || decide (4096 < fld (wd k.w 7) 15 0) ||
  decide (fld48 k.w 8 % 4096 ≠ 0) || decide (fld (wd k.w 10) 15 0 = 0)

/-- The lowest unit from 48 on that a mask of units 48 to 63 names; 64 where it names none. -/
def lowestLss (m : BitVec 16) : Nat := ((List.range 16).find? (fun j => m.getLsbD j)).elim 64 (fun j => 48 + j)

/-- The first unit of a cluster's LSS window as its holders set it; 64 where there is no window (R93). -/
def windowFrom (s : State) (c : Nat) : Nat := (liveParts s).foldl (fun n p => Nat.min n (lowestLss (getHold s p c).lss)) 64

/-- A mask of SRAM units reaches unit u or above. -/
def reachesFrom (m : BitVec 64) (u : Nat) : Bool := decide (u < 64) && decide (2 ^ u ≤ m.toNat)

/-- Another partition holds an exclusive resource that an entry names, or one of the two is sealed in this cluster, or the LSS
window does not fit, or the cluster cannot be allotted (R93, R322, R323, R414). -/
def cluTaken (s : State) (isSealed : Bool) (e : List Word) : Bool :=
  let c := rClu e
  let h := rHold e
  let cl := getClu s c
  let w := Nat.min (windowFrom s c) (lowestLss h.lss)
  let mine : BitVec 64 := h.sram ||| lssUnits h.lss
  decide (cl.svc ≠ 0) || decide (mine &&& cl.unitsRetired ≠ 0) || reachesFrom h.sram w ||
  (liveParts s).any (fun q =>
    let g := getHold s q c
    decide (g ≠ {}) &&
    (isSealed || (getPart s q).isSealed || (h.saf && g.saf) || decide (mine &&& (g.sram ||| lssUnits g.lss) ≠ 0) ||
      decide (h.engines &&& g.engines ≠ 0) || decide (h.csp &&& g.csp ≠ 0) || decide (h.eq &&& g.eq ≠ 0) ||
      reachesFrom g.sram w))

/-- A named pseudo-channel is retired, held, or has a page of another partition (R237, R322). -/
def pcsTaken (s : State) (l : List (Nat × Nat)) : Bool :=
  l.any (fun x => (List.range x.2).any (fun i =>
    tabGet false s.hbm.pcRetired (x.1 + i) || decide (s.hbm.retiring = some (x.1 + i)) || heldPc s (x.1 + i))) ||
  s.hbm.owner.any (fun o => inPcs l (pcOfPage o.1)) || s.hbm.tables.any (fun o => inPcs l (pcOfPage o.1))

/-- Some partition has a page, or its page tables, on a pseudo-channel. -/
def usedPc (s : State) (pc : Nat) : Bool :=
  s.hbm.owner.any (fun o => decide (pcOfPage o.1 = pc)) || s.hbm.tables.any (fun o => decide (pcOfPage o.1 = pc))

/-- Page g is free for a partition that holds pseudo-channels l; where it names none, for a sealed one only on a pseudo-channel that
nobody uses (R237). -/
def pageFree (s : State) (own : Bool) (l : List (Nat × Nat)) (g : Nat) : Bool :=
  poolPage s g &&
  (if l.isEmpty then !heldPc s (pcOfPage g) && !(own && usedPc s (pcOfPage g)) else inPcs l (pcOfPage g))

/-- The lowest n free pages from g on, among f. -/
def takePages (free : Nat → Bool) : Nat → Nat → Nat → List Nat
  | 0, _, _ => []
  | _, _, 0 => []
  | f + 1, g, n + 1 => if free g then g :: takePages free f (g + 1) n else takePages free f (g + 1) (n + 1)

/-- Pages that a creation gets; fewer than it asks for where the pool lacks them. -/
def pagesFor (s : State) (k : Pkt) (l : List (Nat × Nat)) : List Nat := takePages (pageFree s (pcSealed k) l) 196608 0 (pcPages k)

/-- Queues that RADIO flows use. -/
def radioQueues (s : State) : Nat := s.eth.qs.countP (fun q => q.2.en && q.2.radio)

/-- The pool lacks egress queues or policers (R302, R309, R323). -/
def poolLacks (s : State) (k : Pkt) : Bool :=
  decide (4096 < radioQueues s + (liveParts s).foldl (fun n p => n + (getPart s p).netq) (fld (wd k.w 6) 11 0)) ||
  decide (2048 < (liveParts s).foldl (fun n p => n + (getPart s p).npol) (fld (wd k.w 6) 22 12))

/-- PART_CREATE's checks (R323). -/
def createErrs (k : Pkt) (s : State) : List Nat :=
  let bad := createBad s k
  let exist : List Nat := errsOf [(bad, stBadParam), (!bad && poolLacks s k, stNoResource),
    (decide (pcPart k < 64) && (getPart s (pcPart k)).live, stBusy)]
  match resList s k with
  | none => stBounds :: exist
  | some l =>
    let cs := cluEntries l
    let pcs := (pcEntries l).map rPcs
    let lb := l.any (resBad (pcTyp k) (pcSealed k)) || decide ((cs.map rClu).dedup.length ≠ cs.length)
    exist ++ errsOf [(lb, stBadParam),
      (!bad && !lb && (cs.any (cluTaken s (pcSealed k)) || pcsTaken s pcs || decide ((pagesFor s k pcs).length ≠ pcPages k)),
        stNoResource)]

/-! ### Giving and taking resources -/

/-- Change the values of a table whose keys a test picks to the default. -/
def tabDrop {α : Type} (t : Tab α) (pick : Nat → Bool) : Tab α := tabKeep (fun k => !pick k) t

/-- Give a context to a partition, once no REP of the CSP holds the change (R159). -/
def giveCsp (c p : Nat) (radio : Bool) (s : State) (x : Nat) : State :=
  if inRep s c || cspBusy s (getCsp s c x) then modCsp s c x (fun o => { o with nextOwner := some (p, radio) })
  else ownCsp (openFences s c x) c x (p, radio)

/-- SRAM, queues, engines and contexts that a partition gets are clear (R328). -/
def giveCluster (s : State) (p : Nat) (typ : Nat) (e : List Word) : State :=
  let h := rHold e
  let units : BitVec 64 := h.sram ||| lssUnits h.lss
  let s := modClu s (rClu e) (fun cl =>
    let us := (List.range 64).filter (fun u => units.getLsbD u)
    { cl with
      sram := us.foldl (fun m u => clearPMem m (2 ^ 18 * u) (2 ^ 18 * (u + 1))) cl.sram
      lssPsn := tabDrop cl.lssPsn (fun a => units.getLsbD (a / 2 ^ 18))
      eq := tabDrop cl.eq (fun q => h.eq.getLsbD q)
      eng := tabDrop cl.eng (fun g => h.engines.getLsbD g) })
  ((List.range 4).filter (fun x => h.csp.getLsbD x)).foldl (giveCsp (rClu e) p (decide (typ = 0))) s

/-- Mark the clusters whose LSS window has to change for a partition, or that are OFF; the latter are switched on at the next
boundary that can be committed and are usable two cloves later (R93, R385). -/
def holdCreation (s : State) (p : Nat) (cs : List Nat) : State :=
  cs.foldl (fun s c =>
    let off := decide ((getPc s c).point = 4)
    let s := if off && decide ((getPc s c).usableAt = 0) then modPc s c (fun x => { x with usableAt := nextCommit s + 2 }) else s
    let s := modPc s c (fun x => { x with idle := 0 })
    if off || decide (64 - windowFrom s c ≠ (getClu s c).lssSize) then { s with lssHold := s.lssHold ++ [(p, c)] } else s) s

/-- A command that sent a notice goes on: it waits while the notice or a cluster holds it. -/
def noticeWait (s : State) (p : Nat) (res : List Word) : Fw :=
  if (getPart s p).noticeOpen || s.lssHold.any (fun x => decide (x.1 = p)) then .wait s (.notice p) res else .done s stOk res

/-- The new partition's record; a sealed one that names no pseudo-channels holds those of its pages (R237). -/
def newPart (k : Pkt) (l : List (List Word)) (pages : List Nat) : Part :=
  let w0 := wd k.w 0
  { live := true, typ := pcTyp k, host := ⟨fld w0 11 10 % 4, Nat.mod_lt _ (by decide)⟩, det := bit w0 12, isSealed := bit w0 13
    preload := bit w0 14, runsum := bit w0 15, gen := pcGen k, weight := fld (wd k.w 1) 15 0
    urgency := if fld (wd k.w 1) 31 16 = 0 then 64 else fld (wd k.w 1) 31 16
    nring := fld (wd k.w 4) 12 8, pages := pages, netq := fld (wd k.w 6) 11 0, npol := fld (wd k.w 6) 22 12
    nexport := fld (wd k.w 7) 15 0, dirtyBase := fld48 k.w 8, dirtySpan := fld (wd k.w 10) 15 0
    hold := (cluEntries l).foldl (fun t e => tabSet {} t (rClu e) (rHold e)) []
    pcs := if bit w0 13 && (pcEntries l).isEmpty then
        ((List.range 512).filter (fun pc => pages.any (fun g => decide (pcOfPage g = pc)))).map (fun pc => (pc, 1))
      else (pcEntries l).map rPcs }

/-- The rings of a partition. -/
def dropRings (s : State) (p : Nat) : State := { s with rings := tabDrop s.rings (fun k => decide (k / 17 = p) && decide (k < 1088)) }

/-- PART_CREATE (R320-R324, R351, R385). -/
def execPartCreate (r : RingId) (k : Pkt) (s : State) : Host.Outcome State Fault Refusal :=
  inRun s (fun s => fwRun s r 0x10 k [] (createErrs k) (fun s =>
    let p := pcPart k
    let l := (resList s k).getD []
    let pages := pagesFor s k ((pcEntries l).map rPcs)
    let key := takeFree s 512
    let s := key.2
    let s := { s with sec := { s.sec with partKeys := tabSet none s.sec.partKeys p (some key.1) } }
    let s := { s with hbm := { s.hbm with
      m := pages.foldl (fun m g => clearPMem m (pageBytes * g) (pageBytes * (g + 1))) s.hbm.m
      owner := pages.foldl (fun t g => tabSet 0 t g (p + 1)) s.hbm.owner } }
    let s := modPart (dropRings s p) p (fun _ => { newPart k l pages with saffFrom := nextCommit s })
    let s := { s with lastGen := tabSet 0 s.lastGen p (pcGen k), spdm := tabSet 0 s.spdm (4 + p) 0 }
    let s := (cluEntries l).foldl (fun s e => giveCluster s p (pcTyp k) e) s
    let s := holdCreation s p ((cluEntries l).map rClu)
    let s := growTables s p [0]
    noticeWait (noticeCheck (sendNotice s p (pcGen k)) p false) p []))

/-- A partition's pages return to the pool: a marked page is retired (R324, R409). -/
def returnPages (s : State) (pages : List Nat) : State :=
  pages.foldl (fun s g =>
    let s := { s with hbm := { s.hbm with owner := tabSet 0 s.hbm.owner g 0 } }
    if tabGet false s.hbm.pageMarked g then retirePage s g else s) s

/-- A partition leaves a cluster: its arrays are unassigned, and whoever gets them next finds them clear (R328). -/
def leaveCluster (p : Nat) (cl : Cluster) : Cluster :=
  { cl with
    la := tabMapV {} cl.la (fun a => { a with
      part := if a.part = some p then none else a.part, prev := if a.prev = p + 1 then 65 else a.prev
      revokeAt := if a.part = some p then 0 else a.revokeAt
      descQ := a.descQ.filter (fun d => decide (d.1 ≠ p)) })
    eng := tabMapV {} cl.eng (fun E => if E.part = p ∧ (engBusy E ∨ E.wcnt ≠ 0) then {} else E)
    csp := tabMapV {} cl.csp (fun o =>
      let o := if (o.nextOwner.map (fun w => w.1)) = some p then { o with nextOwner := none } else o
      if o.en ∧ o.part = p then (if o.stopPending then { o with en := false } else { nextOwner := o.nextOwner }) else o) }

/-- A partition's egress queues are flushed and disabled, and its policers, tags and memory regions go (R302, R309, R324). -/
def leaveEth (s : State) (p : Nat) : State :=
  let qs := (s.eth.qs.filter (fun q => q.2.en && decide (q.2.part.toNat = p))).map (fun q => q.1)
  let s := qs.foldl disableQ s
  { s with eth := { s.eth with
    pols := s.eth.pols.filter (fun x => !(x.2.en && decide (x.2.part.toNat = p)))
    tmp := tabSet {} s.eth.tmp p {}
    mrs := s.eth.mrs.filter (fun x => !(x.2.live && decide (x.2.part = p))) } }

/-- A cell of the partition is still admitted (R324). -/
def hasCell (s : State) (p : Nat) : Bool := s.radio.cells.any (fun c => c.2.live && decide (c.2.part = p))

/-- PART_DESTROY (R324, R351). -/
def execPartDestroy (r : RingId) (k : Pkt) (s : State) : Host.Outcome State Fault Refusal :=
  let p := fld (wd k.w 0) 7 0
  inRun s (fun s => fwRun s r 0x11 k []
    (fun s => partParamErrs s r p ++ errsOf [(decide (p < 64) && hasCell s p, stBusy)])
    (fun s =>
      let P := getPart s p
      let cs := P.hold.map (fun h => h.1)
      let s := stopPart s p false
      let s := (P.exps.map (fun e => e.1)).foldl (fun s e => dropExport s p e) s
      let s := leaveEth (dropTables (returnPages s P.pages) p) p
      let s := { s with
        clusters := tabMapV {} s.clusters (leaveCluster p)
        sec := { s.sec with partKeys := tabSet none s.sec.partKeys p none }
        radio := { s.radio with eps := s.radio.eps.filter (fun e => !(e.2.live && decide (e.2.part = p))) }
        fab := { s.fab with cache := s.fab.cache.filter (fun x => decide (x.part ≠ p)) } }
      let s := dropRings (modPart s p (fun _ => {})) p
      let s := holdCreation s p (cs.filter (fun c => decide ((getPc s c).point ≠ 4)))
      noticeWait (noticeCheck (sendNotice s p 0) p false) p []))

/-! ### PART_RESET (R341-R343) -/

/-- PART_RESET's checks (R18, R319, R342, R343). -/
def resetErrs (r : RingId) (k : Pkt) (s : State) : List Nat :=
  let p := fld (wd k.w 0) 7 0
  let g := BitVec.ofNat 16 (fld (wd k.w 0) 31 16)
  partParamErrs s r p ++ errsOf
    [ ((ringOwner r).isSome && decide (g ≠ 0), stBadParam),
      (decide (p < 64) && (ringOwner r).isNone && decide (g ≠ 0) && decide (g ≠ (getPart s p).gen), stStale),
      (decide (p < 64) && (getPart s p).wrapWait, stBusy) ]

/-- The generation of a partition as a result word. -/
def genWord (s : State) (p : Nat) : Word := (getPart s p).gen.setWidth 32

/-- PART_RESET (R341, R342). -/
def execPartReset (r : RingId) (k : Pkt) (s : State) : Host.Outcome State Fault Refusal :=
  let p := fld (wd k.w 0) 7 0
  inRun s (fun s => fwRun s r 0x12 k [genWord s p] (resetErrs r k) (fun s =>
    let s := resetPart s p false
    if (getPart s p).wrapWait then .wait s (.resetWait p) [] else noticeWait s p [genWord s p]))

/-- The host has consumed every completion of a partition (R342). -/
def allConsumed (s : State) (p : Nat) : Bool :=
  (List.range (getPart s p).nring).all (fun i =>
    let R := getRing s (17 * p + i)
    decide (cplUsed R = 0) && R.held.isEmpty)

/-- GENERATION_WRAP (R342). -/
def execGenerationWrap (p : Fin 64) (s : State) : Host.Outcome State Fault Refusal :=
  inRun s (fun s =>
    if !(getPart s p.val).wrapWait || !allConsumed s p.val then s else
    advanceGen { s with outst := s.outst.map (fun o =>
      if o.why = .resetWait p.val then { o with why := .notice p.val, res := [1] } else o) } p.val 1)

/-! ### PART_FREEZE, PART_THAW, DIRTY_SWAP (R345, R346) -/

/-- The clove that PART_FREEZE or PART_THAW names, or with ASAP the earliest that can be committed; none for a past one. -/
def freezeClove (s : State) (k : Pkt) : Option Nat :=
  if bit (wd k.w 0) 8 then some (nextCommit s + 1) else cloveOfField s (wd k.w 1).toNat

/-- Checks that PART_FREEZE and PART_THAW share: its notice starts at boundary L - 1 (R223, R346). -/
def freezeErrs (r : RingId) (k : Pkt) (s : State) : List Nat :=
  let p := fld (wd k.w 0) 7 0
  partParamErrs s r p ++ errsOf
    [ (bit (wd k.w 0) 8 && decide (wd k.w 1 ≠ 0), stBadParam),
      (match freezeClove s k with
       | none => true
       | some L => decide (L = 0) || !canCommit s (L - 1), stDeadline) ]

/-- A launch with TIMING = 1 is pending or running (R346). -/
def timingRun (P : Part) : Bool := match P.launch with
  | some L => L.timing
  | none => false

/-- PART_FREEZE (R346). -/
def execPartFreeze (r : RingId) (k : Pkt) (s : State) : Host.Outcome State Fault Refusal :=
  let p := fld (wd k.w 0) 7 0
  inRun s (fun s => fwRun s r 0x13 k []
    (fun s =>
      let P := getPart s p
      freezeErrs r k s ++ errsOf [((getPart s p).live && (decide (P.typ = 0) || timingRun P), stRefusedMode),
        (P.live && decide (P.st ≠ .running), stBusy)])
    (fun s => .wait (modPart s p (fun P => { P with st := .freezing, frozenAt := (freezeClove s k).getD 0 })) (.freeze p) []))

/-- PART_THAW (R346). -/
def execPartThaw (r : RingId) (k : Pkt) (s : State) : Host.Outcome State Fault Refusal :=
  let p := fld (wd k.w 0) 7 0
  inRun s (fun s => fwRun s r 0x14 k []
    (fun s =>
      let P := getPart s p
      freezeErrs r k s ++ errsOf [(P.live && (decide (P.st ≠ .frozen) || decide (P.thawAt ≠ 0)), stBusy)])
    (fun s => .wait (modPart s p (fun P => { P with thawAt := (freezeClove s k).getD 0 })) (.thaw p) []))

/-- DIRTY_SWAP (R345): the other bitmap becomes active at the next boundary. -/
def execDirtySwap (r : RingId) (k : Pkt) (s : State) : Host.Outcome State Fault Refusal :=
  let p := fld (wd k.w 0) 7 0
  inRun s (fun s => fwRun s r 0x17 k [BitVec.ofNat 32 (b2n (getPart s p).dirtyActive)] (fun s => partParamErrs s r p)
    (fun s => .wait s (.swap p) []))

end Sys2Proof.Machine
end

