-- ==== Sys2Proof/Machine/Groups.lean ====
section
/-! DEFINITION. Array groups: who holds them for a clove (R239, R321, R322, R330, R338). Group g of cluster c is number
4 c + g. -/

namespace Sys2Proof.Machine

open Sys2Proof

/-- The groups of a partition's masks, ascending in cluster and group (R320, R330). -/
def namedGroups (P : Part) : List Nat :=
  P.hold.flatMap (fun h => ((List.range 4).filter (fun g => h.2.groups.getLsbD g)).map (fun g => 4 * h.1 + g))

/-- A half group: group 0 of clusters 0 to 15 (R321). -/
def halfGroup (k : Nat) : Bool := decide (k % 4 = 0) && decide (k / 4 < 16)

/-- The first general array of a group (R321). -/
def groupFirst (k : Nat) : Nat := if halfGroup k then 2 else 4 * (k % 4)

/-- The shards of a placement that name this chip (R235). -/
def localShards (s : State) (l : List Shard) : List Shard := l.filter (fun x => decide (x.chip = s.fab.chipId.toNat))

/-- The groups of a shard. -/
def shardGroups (x : Shard) : List Nat := (List.range x.ngroup).map (fun i => 4 * x.cluster + x.arrayFirst / 4 + i)

/-- The groups that a placement names on this chip. -/
def placeGroups (s : State) (l : List Shard) : List Nat := (localShards s l).flatMap shardGroups

/-- A run that may still freeze after its end keeps its arrays until it completes (R247, R248, log entry 96). -/
def mayFreeze (L : Launch) : Bool := L.twin && L.freeze

/-- The groups that a partition's running or frozen launch pins (R239, R248). -/
def pinnedGroups (s : State) (P : Part) : List Nat :=
  match P.launch with
  | some L => if L.running && (!L.ended || mayFreeze L) then placeGroups s L.place else []
  | none => []

/-- A partition whose launch pins a group. -/
def pinner (s : State) (k : Nat) : Option Nat := (liveParts s).find? (fun p => (pinnedGroups s (getPart s p)).contains k)

/-- The partition that has a grant on a group for the clove that follows boundary b (R338). -/
def grantee (s : State) (b k : Nat) : Option Nat :=
  (s.grants.find? (fun g => decide (g.1 = k) && decide (g.2.2.1 ≤ b) && decide (b < g.2.2.2))).map (fun g => g.2.1)

/-- The partition whose task holds a group. -/
def taskHolder (s : State) (k : Nat) : Option Nat :=
  (liveParts s).find? (fun p => (getPart s p).tasks.any (fun t => t.held.contains k))

/-- The partition that holds a group for the clove that follows boundary b. -/
def groupHolder (s : State) (b k : Nat) : Option Nat :=
  match pinner s k with
  | some p => some p
  | none =>
    match grantee s b k with
    | some p => some p
    | none => taskHolder s k

/-- The cluster of a group is out of service or about to be tested, or an array of the group has failed with no spare for it, so that
nothing is placed there (R37, R413, R414). -/
def groupOut (s : State) (k : Nat) : Bool :=
  let cl := getClu s (k / 4)
  decide (cl.svc ≠ 0) || cl.lostArrays.any (fun l => decide (l / 4 = k % 4) && !isSaffron (k / 4) l)

/-- The same at boundary b: a cluster that is about to be tested takes tasks up to the boundary that its test was committed for
(R413). -/
def groupOutAt (s : State) (b k : Nat) : Bool :=
  let cl := getClu s (k / 4)
  groupOut { s with clusters := tabSet {} s.clusters (k / 4) (if b < cl.svcFrom then { cl with svc := 0 } else cl) } k

/-- A group is free at boundary b (R330). -/
def groupFree (s : State) (b k : Nat) : Bool :=
  (groupHolder s b k).isNone && !groupOutAt s b k && !s.freed.any (fun x => decide (x.1 = k) && decide (b < x.2))

/-- The partition that holds a logical array for the clove that follows boundary b (R42, R321, R322). -/
def arrayHolder (s : State) (b c l : Nat) : Option Nat :=
  if isSaffron c l then (liveParts s).find? (fun p => (getHold s p c).saf && decide ((getPart s p).saffFrom ≤ b))
  else groupHolder s b (4 * c + l / 4)

/-- The engines, contexts and descriptors that a placement took go (R141, R148, R447). -/
def dropWork (s : State) (p : Nat) (engs ctxs descs : List Nat) : State :=
  let s := engs.foldl (fun s e => dropEngine s (e / 8) (e % 8)) s
  let s := ctxs.foldl (fun s x => askStop s (x / 4) (x % 4)) s
  dropPlaced s p descs

end Sys2Proof.Machine
end

