-- ==== Sys2Proof/Machine/Faults.lean ====
section
/-! DEFINITION. The drain's pushes (R58, R92, R104-R109, R134, R444), array failures and the spare (R36, R37, R71-R74, R140), and
slices that outlast their array (R70, R141). -/

namespace Sys2Proof.Machine

open Sys2Proof

/-! ### Array failures -/

/-- Partitions with work on a logical array, ascending. -/
def workParts (s : State) (c l : Nat) : List Nat :=
  let la := getLa s c l
  (liveParts s).filter (fun p => decide (la.part = some p) || !([la.sl0, la.sl1] ++ la.closing ++ la.replays).all (fun x => !sliceMine p x) ||
    la.descQ.any (fun x => decide (x.1 = p)) || la.drains.any (fun d => decide (d.part = p)))

/-- A fault of an array that cannot be absorbed: the array is lost, and every partition with work on it is stopped and
reported (R37, R74, R420). -/
def arrayLost (s : State) (c l cause : Nat) : State :=
  let ps := workParts s c l
  let s := modClu s c (fun cl => { cl with lostArrays := if cl.lostArrays.contains l then cl.lostArrays else cl.lostArrays ++ [l] })
  let s := modLa s c l (fun la => { la with halted := true })
  ps.foldl (fun s p => faultStop s p cause c l) s

/-- The failed array stops, its weight buffer goes to the spare with its poison, and the spare takes its index at the next
boundary (R36, R72, R73). DESIGN CHOICE: R72 copies the buffer during up to 3,072 cycles; the model copies it at the failure, so a
write to the failed array's buffer after that does not reach the spare (log entry 89). -/
def spareFailed (s : State) (c l cause : Nat) : State :=
  let ps := workParts s c l
  let items := [(1, c), (1, l), (1, cause)]
  let s := modClu s c (fun cl => { cl with subPending := some l, copyEnd := s.time.now + 3072 })
  let s := modPa (modLa s c l (fun la => { la with halted := true })) c 16 (fun pa => { pa with wb := (getPa s c l).wb })
  let s := { s with health := { s.health with spares := s.health.spares + 1 } }
  let s := ps.foldl (fun s p => evPart (disturb s p 2) p 0x0708 items) s
  evPool s 0x0708 items

/-- The spare that was to take index l takes a lower one whose array failed in the same cycle (R74). -/
def spareTakesLower (s : State) (c l l' cause : Nat) : State :=
  let s := modPa s c 16 (fun _ => {})
  arrayLost (spareFailed (modClu s c (fun cl => { cl with subPending := none })) c l' cause) c l cause

/-- The logical index whose work the spare has or is about to take. -/
def spareUse (cl : Cluster) : Option Nat :=
  match cl.subPending with
  | some l => some l
  | none => if cl.spareFor.toNat < 16 then some cl.spareFor.toNat else none

/-- What follows the failure of physical array a, which was in service (R36, R37, R74): the spare takes its index, or its work is
lost. An array whose index the spare serves carries no work (R77). -/
def absorbFailure (s : State) (c a cause : Nat) : State :=
  let cl := getClu s c
  if a = 16 then
    (match spareUse cl with
     | some l => arrayLost s c l cause
     | none => s)
  else match spareUse cl with
    | none => if cl.failed.getLsbD 16 then arrayLost s c a cause else spareFailed s c a cause
    | some l =>
      if a = l then s
      else if cl.subPending = some l ∧ cl.copyEnd = s.time.now + 3072 ∧ a < l then spareTakesLower s c l a cause
      else arrayLost s c a cause

/-- The control core records a failure of physical array a: its cause is the latest, and its bit is set (R71, R74). -/
def recordFailure (s : State) (c a cause : Nat) : State :=
  let old := (getClu s c).failed.getLsbD a
  let t := modClu s c (fun cl => { cl with failed := cl.failed ||| BitVec.ofNat 17 (2 ^ a), cause := cause })
  if old then t else absorbFailure t c a cause

/-- The watchdog limit in effect: values below 0x1000 act as 0x1000 (R76). -/
def watchLimit (cl : Cluster) : Nat := Nat.max 0x1000 cl.wdogLimit.toNat

/-- ARRAY_WATCHDOG (R63, R71, R76): the array's count of stalled cycles has reached the limit. -/
def execArrayWatchdog (c : Fin 20) (a : Fin 17) (s : State) : Host.Outcome State Fault Refusal :=
  inRun s (fun s =>
    if watchLimit (getClu s c.val) ≤ (getPa s c.val a.val).wdog then
      recordFailure (modPa s c.val a.val (fun pa => { pa with wdog := 0 })) c.val a.val 3
    else s)

/-- REGISTER_PARITY_ERROR (R71). -/
def execRegisterParityError (c : Fin 20) (a : Fin 17) (s : State) : Host.Outcome State Fault Refusal :=
  inRun s (fun s => recordFailure s c.val a.val 2)

/-- SPARE_START (R72): the spare starts in cycle 1,024 or after its copy, whichever is later. -/
def execSpareStart (c : Fin 20) (s : State) : Host.Outcome State Fault Refusal :=
  inRun s (fun s =>
    let cl := getClu s c.val
    if decide (cl.spareFor.toNat < 16) && !cl.spareStarted && decide (1024 ≤ s.time.cycle) && decide (cl.copyEnd ≤ s.time.now) then
      modClu s c.val (fun cl => { cl with spareStarted := true })
    else s)

/-! ### The substitution at a boundary -/

/-- An engine goes back to a checkpoint: its entries in flight and what holds its port go, and it runs again from there (R140). -/
def restoreEngine (s : State) (c e : Nat) (sv : EngSave) (saves : List EngSave) : State :=
  modEng s c e (fun E => { E with
    run := true, waitB := false, x := sv.x, loops := sv.loops, pc := sv.pc, plFirst := sv.plFirst, plCount := sv.plCount
    dlOff := sv.dlOff, dlCycle := sv.dlCycle, flight := [], saves := saves, markNext := engPushes E, replay := some s.time.clove
    port := none, pops := sv.pops })

/-- An engine that feeds some queues restores its oldest checkpoint and flushes those queues (R140); one without a checkpoint stays
as it is. -/
def replayEngine (qs : List Nat) (c : Nat) (s : State) (e : Nat) : State :=
  match (getEng s c e).saves with
  | [] => s
  | sv :: _ =>
    let own := (engPushes (getEng s c e)).filter (fun q => qs.contains q)
    restoreEngine (flushQs s c own) c e sv [sv]

/-- Entries that slices to be replayed have pushed to a queue. -/
def pushedTo (sls : List Slice) (q : Nat) : Nat := (sls.map (fun x => tabGet 0 x.pushed q)).foldl (fun n k => n + k) 0

/-- Of these, the entries that the queue's consumer has popped. -/
def poppedOf (s : State) (c q : Nat) (sls : List Slice) : Nat := pushedTo sls q - (getEq (getClu s c) q).entries.length

/-- The entries that slices to be replayed have pushed and that are still in the queue leave it, with the index that waits for a
row (R36). -/
def takeBack (sls : List Slice) (c : Nat) (s : State) (q : Nat) : State :=
  modEq s c q (fun Q =>
    let n := Q.entries.length - pushedTo sls q
    { Q with entries := Q.entries.take n, taken := if n = 0 then 0 else Q.taken, side := [] })

/-- Where a program starts, as a checkpoint (R125). -/
def startSave : EngSave :=
  { x := [], loops := [], pc := 0, plFirst := 0, plCount := 8, dlOff := 0, dlCycle := 249999, pops := 0, early := false }

/-- The checkpoint at which an engine had popped n entries fewer, with those before it; the start of its program counts as one. -/
def saveBack (E : Engine) (n : Nat) : Option (EngSave × List EngSave) :=
  match E.saves.find? (fun v => decide (v.pops + n = E.pops)) with
  | some v => some (v, E.saves.takeWhile (fun x => decide (x ≠ v)) ++ [v])
  | none => if E.pops = n then some (startSave, []) else none

/-- The write instruction that holds a consumer's port begins again with the granules of an entry that was taken back: those it has
taken from that entry are to come again. -/
def portBack (s : State) (c e q : Nat) : State :=
  let E := getEng s c e
  let Q := getEq (getClu s c) q
  let n := (((Q.entries.headD { gr := [], mark := false }).gr.take Q.taken).filter (fun g => !g.pad)).length
  match E.port with
  | some P =>
    if portQueue E P = q then modEngPort s c e (fun P => { P with done := P.done - n, posted := P.posted && decide (n < P.done) })
    else s
  | none => s

/-- A consumer of the replayed slices' outputs: it goes back to before the first row it took, so that what it wrote is overwritten
(R36); where it has no checkpoint there, it keeps the rows it took, and the slices do not push those again (log entry 23). The
answer lists the entries that are not pushed again, by queue. -/
def replayTaker (sls : List Slice) (outs : List Nat) (c : Nat) (acc : State × Tab Nat) (e : Nat) : State × Tab Nat :=
  let s := acc.1
  let E := getEng s c e
  let qs := (engPops E).filter (fun q => outs.contains q)
  let n := (qs.map (fun q => poppedOf s c q sls)).foldl (fun a b => a + b) 0
  if n = 0 then
    (qs.foldl (fun s q => if (getEq (getClu s c) q).entries.length ≤ pushedTo sls q then portBack s c e q else s) s, acc.2)
  else match saveBack E n with
    | some v => (restoreEngine s c e v.1 v.2, acc.2)
    | none => (s, qs.foldl (fun t q => tabSet 0 t q (poppedOf s c q sls)) acc.2)

/-- The slices as they stand before their replay: the entries that a consumer keeps are not pushed again, the first slice's first. -/
def replaySlices : List Slice → Tab Nat → List Slice
  | [], _ => []
  | x :: t, kept =>
    let skip := x.pushed.map (fun k => (k.1, Nat.min k.2 (tabGet 0 kept k.1)))
    { x with ops := [], pushed := [], skip := skip.filter (fun k => decide (k.2 ≠ 0)), status := 0, marks := [], busy := 0 } ::
      replaySlices t (skip.foldl (fun u k => tabMod 0 u k.1 (fun n => n - k.2)) kept)

/-- The spare takes its logical index at a boundary: the interrupted slices wait at the front of the descriptor queue, the engines
that feed them go back to their checkpoints, and what they had pushed is pushed again (R27, R36, R140). -/
def substitute (s : State) (c : Nat) : State :=
  match (getClu s c).subPending with
  | none => s
  | some l =>
    let la := getLa s c l
    let sls := (la.closing ++ [la.sl0, la.sl1]).filter (fun x => x.live)
    let ins := (sls.flatMap (fun x => x.ops.flatMap inQueues)).dedup
    let outs := (sls.flatMap (fun x => x.ops.flatMap outQueues)).dedup
    let mine (E : Engine) : Bool := sls.any (fun x => decide (x.part = E.part))
    let feeds := enginesWhere s c (fun E => mine E && (engPushes E).any (fun q => ins.contains q) && !E.saves.isEmpty)
    let takers := (enginesWhere s c (fun E => mine E && engBusy E && (engPops E).any (fun q => outs.contains q))).filter
      (fun e => !feeds.contains e)
    let x := takers.foldl (replayTaker sls outs c) (s, [])
    let front := sls.flatMap (fun x => x.ops.map (fun d => (x.part, d)))
    let s := outs.foldl (takeBack sls c) x.1
    let s := modLa s c l (fun la => { la with
      sl0 := {}, sl1 := {}, closing := [], replays := replaySlices sls x.2 ++ la.replays, descQ := front ++ la.descQ, run := none
      drains := la.drains.filter (fun d => d.blank), halted := false })
    let s := modPa s c 16 (fun pa => { ({} : PArray) with wb := pa.wb })
    let s := modClu s c (fun cl => { cl with spareFor := BitVec.ofNat 6 l, subPending := none, spareStarted := false })
    feeds.foldl (replayEngine ins c) s

/-! ### Slices that outlast their array (R70) -/

/-- A drain of rows without data for an operation that does not complete. -/
def blankDrain (p id : Nat) (d : List Word) : Drain :=
  { d := d, part := p, rows := List.replicate (dM d) [], row := 0, sums := [], scales := [], slice := id, seedLo := 0, seedHi := 0, blank := true }

/-- The descriptors of a context that wait and belong to its open slice. -/
def sliceRest (la : LArray) (p : Nat) (ctx : Bool) : List (List Word) :=
  ((la.descQ.filter (fun x => decide (x.1 = p) && (dCtx x.2 == ctx))).map (fun x => x.2)).takeWhile (fun d => !dStart d)

/-- An operation of a stopped slice: its rows go out poisoned, or it completes with ABORTED. -/
def abortOp (s : State) (c l p id : Nat) (d : List Word) : State :=
  if dLast d then modLa s c l (fun la => { la with drains := la.drains ++ [blankDrain p id d] })
  else opDone (emit s (.op c l (b2n (dCtx d)) stAborted)) c l id

/-- The engines of a stopped slice (R141): those that take its output go on to their next SLM and are stopped there, with the queues
of the slice that they bind; the others that feed it stop now, and the slice's other queues are flushed. -/
def stopFeeders (s : State) (c p : Nat) (ops : List (List Word)) : State :=
  let ins := (ops.flatMap inQueues).dedup
  let outs := (ops.flatMap outQueues).dedup
  let takers := enginesWhere s c (fun E => engBusy E && engTouches p outs engPops E)
  let feeders := (enginesWhere s c (engTouches p ins engPushes)).filter (fun e => !takers.contains e)
  let later := takers.flatMap (fun e => (boundQueues (getEng s c e)).filter (fun q => (ins ++ outs).contains q))
  let s := takers.foldl (fun s e => modEng s c e (fun E => { E with
    stopSlm := true
    stopQs := (E.stopQs ++ (boundQueues E).filter (fun q => (ins ++ outs).contains q)).dedup })) s
  flushQs (feeders.foldl (fun s e => haltEngine s c e) s) c ((ins ++ outs).filter (fun q => !later.contains q))

/-- The open slice of a context is stopped: what it has not pushed goes out poisoned, and it ends with ABORTED (R70). -/
def stopSlice (s : State) (c l p : Nat) (ctx : Bool) : State :=
  let la := getLa s c l
  let x := sliceOf la ctx
  let rest := sliceRest la p ctx
  let cur : List (List Word) := match la.run with
    | some r => if r.slice = x.id ∧ r.part = p then [r.d] else []
    | none => []
  let s := modLa s c l (fun la => { la with
    run := if cur.isEmpty then la.run else none
    descQ := la.descQ.filter (fun y => !(decide (y.1 = p) && (dCtx y.2 == ctx) && rest.contains y.2))
    drains := la.drains.map (fun d => if d.slice = x.id ∧ d.part = p then { d with blank := true } else d) })
  let s := modSlice s c l x.id (fun x => { x with status := worse x.status stAborted, busy := x.busy + rest.length })
  let s := (cur ++ rest).foldl (fun s d => abortOp s c l p x.id d) s
  closeSlice (stopFeeders s c p (x.ops ++ rest)) c l ctx

/-- Slices of partition p that have had their last operation and still drain are stopped (R70): their remaining rows go out poisoned,
they end with ABORTED, and so do their programs (R141). -/
def stopClosing (s : State) (c l p : Nat) : State :=
  let la := getLa s c l
  let late := la.closing.filter (fun x => sliceMine p x && decide (0 < x.busy))
  let s := late.foldl (fun s x => modSlice s c l x.id (fun x => { x with status := worse x.status stAborted })) s
  let s := modLa s c l (fun la => { la with
    drains := la.drains.map (fun d => if late.any (fun x => decide (x.id = d.slice)) then { d with blank := true } else d) })
  late.foldl (fun s x => stopFeeders s c p x.ops) s

/-- The open slice of a context of partition p still has something to do. -/
def sliceRuns (la : LArray) (p : Nat) (ctx : Bool) : Bool :=
  sliceMine p (sliceOf la ctx) && (decide (0 < (sliceOf la ctx).busy) || !(sliceRest la p ctx).isEmpty)

/-- A boundary takes logical array l from partition p: a slice that still runs is stopped, and the scheduler core receives
ARY_OVERRUN; one with nothing left to do ends (R70, R443). -/
def takeArray (s : State) (p c l : Nat) : State :=
  let la := getLa s c l
  let late := sliceRuns la p false || sliceRuns la p true || la.closing.any (fun x => sliceMine p x && decide (0 < x.busy))
  let s := stopClosing s c l p
  let s := [false, true].foldl (fun s ctx =>
    if sliceRuns la p ctx then stopSlice s c l p ctx
    else if sliceMine p (sliceOf (getLa s c l) ctx) then closeSlice s c l ctx else s) s
  if late then emit s (.aryOverrun p c l) else s

/-! ### The drain -/

/-- An entry row of a drain: its bytes with poison, and the state after free values were taken for it. -/
def drainBytes (s : State) (dr : Drain) (base : Nat) : List (Byte × Bool) × State :=
  if dr.blank then
    let bs := blankBytes s dr
    (bs, { s with fresh := s.fresh + bs.length })
  else (rowBytes dr base (dr.rows.getD dr.row []), s)

/-- The slice that a drain belongs to does not push its next row again. -/
def drainSkips (la : LArray) (dr : Drain) : Bool :=
  ([la.sl0, la.sl1] ++ la.closing).any (fun x => x.live && decide (x.id = dr.slice) && decide (0 < tabGet 0 x.skip (dOQ dr.d)))

/-- A row has been pushed; after the last one the operation is complete. -/
def rowDone (s : State) (c l : Nat) (dr : Drain) : State :=
  if dr.row + 1 < dr.rows.length then
    modLa s c l (fun la => { la with drains := match la.drains with
      | [] => []
      | d :: t => { d with row := d.row + 1 } :: t })
  else
    let s := modLa s c l (fun la => { la with drains := la.drains.drop 1, drnCnt := la.drnCnt + 1 })
    opDone (emit (cspWake s c) (.op c l (b2n (dCtx dr.d)) (if dr.blank then stAborted else stOk))) c l dr.slice

/-- No engine of the partition takes the rows of a stopped slice any more: they are flushed with the queue (R141). -/
def drainUntaken (s : State) (c : Nat) (dr : Drain) : Bool :=
  dr.blank && (enginesWhere s c (fun E => engBusy E && engTouches dr.part [dOQ dr.d] engPops E)).isEmpty

/-- Push the next row of the drain at the head, where there is room and, under IDX, an index (R134, R444). -/
def pushRow (s : State) (c l : Nat) (dr : Drain) : State :=
  let q := dOQ dr.d
  let Q := getEq (getClu s c) q
  let indexed := Q.idx && !drainSkips (getLa s c l) dr
  if drainUntaken s c dr then rowDone s c l dr
  else if indexed && Q.side.isEmpty then s else
  let r := drainBytes s dr (if indexed then Q.side.headD 0 else dr.row * 128)
  let es := entriesOfBytes r.1
  if !qRoom s c q es.length then s else
  let s := if indexed then modEq r.2 c q (fun Q => { Q with side := Q.side.drop 1 }) else r.2
  let s := pushFor s c l dr.slice q es
  let s := if r.1.any (fun b => b.2) then modSlice s c l dr.slice (fun x => { x with status := worse x.status stPoisoned }) else s
  rowDone s c l dr

/-- The errors that faults added to the sums of a row reach its values (R58). -/
def faultyRow (errs : List (Nat × Int)) (vals : List DVal) : List DVal :=
  vals.mapIdx (fun i v => { v with bits := v.bits + BitVec.ofInt 64 (((errs.filter (fun e => decide (e.1 = i))).map (fun e => e.2)).sum) })

/-- The errors that reach the sum of the column sums of a part of a row. -/
def errSum (d : List Word) (errs : List (Nat × Int)) (part : Nat) : Int :=
  ((errs.filter (fun e => !dCi16 d || decide (e.1 % 2 = part))).map (fun e => e.2)).sum

/-- The checksum column's sum of the row to be pushed is the sum of its column sums, modulo 2^16, in every part (R58). -/
def rowChecks (dr : Drain) (errs : List (Nat × Int)) : Bool :=
  ((dr.sums.getD dr.row []).mapIdx (fun i x => decide (ofSigned 16 (x.col + errSum dr.d errs i) = x.chk))).all (fun b => b)

/-- The drain with the errors of its next row in it. -/
def faultyDrain (dr : Drain) (errs : List (Nat × Int)) : Drain :=
  { dr with rows := dr.rows.mapIdx (fun i r => if i = dr.row then faultyRow errs r else r) }

/-- DRAIN_ROW_PUSH (R58, R73, R104-R109, R134, R444): the oldest final drain of a logical array compares the sums of its next row on
an exact path, and pushes the row; on a mismatch it pushes neither that row nor a later one, and the control core records an array
failure. -/
def execDrainRowPush (c : Fin 20) (a : Fin 16) (errs : List (Nat × Int)) (s : State) : Host.Outcome State Fault Refusal :=
  inRun s (fun s =>
    let la := getLa s c.val a.val
    match la.drains with
    | [] => s
    | dr :: _ =>
      if la.halted || decide ((getPart s dr.part).twinState = 3) || decide (4 ≤ (getPc s c.val).point) then s
      else if dExact dr.d && !dr.blank then
        (if rowChecks dr errs then pushRow s c.val a.val (faultyDrain dr errs)
         else recordFailure s c.val (physOf (getClu s c.val) a.val) 1)
      else pushRow s c.val a.val dr)

end Sys2Proof.Machine
end

