-- ==== Sys2Proof/Machine/Sched.lean ====
section
/-! DEFINITION. Tasks, launches, radio claims and twin runs: TASK_SUBMIT, TASK_END (R329, R333), LAUNCH_AT, RUN_END (R240-R242,
R249), RAD_CLAIM (R337), TWIN_SIGNATURE_RX, TWIN_LOST, FREEZE_NOTICE_RX (R245-R247). -/

namespace Sys2Proof.Machine

open Sys2Proof

/-! ### Placement images (R235) -/

/-- The header words of a placement image; none where it is not mapped. -/
def placeHead (s : State) (p a : Nat) : Option (List Word) := imageAt s p a 4

/-- The words of a placement image of n shards. -/
def placeImage (s : State) (p a n : Nat) : Option (List Word) := imageAt s p a (4 + 2 * n)

/-- Entry i of a placement image. -/
def placeEntry (im : List Word) (i : Nat) : Shard :=
  { chip := fld (wd im (4 + 2 * i)) 15 0, cluster := fld (wd im (4 + 2 * i)) 23 16, arrayFirst := fld (wd im (4 + 2 * i)) 29 24
    ngroup := fld (wd im (5 + 2 * i)) 3 0 }

/-- A local entry breaks the table of R235. -/
def entryBad (s : State) (im : List Word) (i : Nat) : Bool :=
  let e := placeEntry im i
  decide (e.chip = s.fab.chipId.toNat) &&
  (decide (19 < e.cluster) || decide (e.arrayFirst % 4 ≠ 0) || decide (fld (wd im (4 + 2 * i)) 31 30 ≠ 0) ||
    decide (e.ngroup = 0) || decide (4 < e.ngroup) || decide (16 < e.arrayFirst + 4 * e.ngroup) ||
    decide (fld (wd im (5 + 2 * i)) 31 4 ≠ 0))

/-- A group of a local entry is not wholly the partition's: it is outside its masks, or it is a half group (R241, R330). -/
def entryDenied (P : Part) (s : State) (x : Shard) : Bool :=
  (placeGroups s [x]).any (fun k => halfGroup k || !(namedGroups P).contains k)

/-- The checks of a placement image under a program (R235, R241). -/
def placeErrs (s : State) (p prog a : Nat) : List Nat :=
  let g := getProg s p prog
  match placeHead s p a with
  | none => [stBounds]
  | some h =>
    let n := shardCount (fld (wd h 0) 15 0)
    let hb := decide (fld (wd h 0) 31 16 ≠ 0) || decide (wd h 2 ≠ 0) || decide (wd h 3 ≠ 0)
    let other := g.live && (decide (wd h 1 ≠ g.hash.setWidth 32) || decide (n ≠ g.nshard))
    errsOf [(hb || other, stBadParam)] ++
    match placeImage s p a n with
      | none => [stBounds]
      | some im =>
        errsOf [((List.range n).any (entryBad s im), stBadParam),
          ((List.range n).any (fun i => !entryBad s im i && entryDenied (getPart s p) s (placeEntry im i)), stDenied)]

/-- The shards of a placement image that passed its checks. -/
def shardsOf (s : State) (p prog a : Nat) : List Shard :=
  let n := (getProg s p prog).nshard
  (List.range n).map (placeEntry ((placeImage s p a n).getD []))

/-! ### Tasks (R329, R333) -/

/-- N_p under R333: modulo 2^64 with a window of 2^63. -/
def nLess (a b : BitVec 64) : Bool := decide (a ≠ b) && decide ((b - a).toNat < 2 ^ 63)

/-- The smallest N of the other partitions that have tasks. -/
def nMin (s : State) (p : Nat) : Option (BitVec 64) :=
  (liveParts s).foldl (fun m q =>
    let Q := getPart s q
    if q = p ∨ Q.tasks = [] then m
    else match m with
      | none => some Q.nUse
      | some x => if nLess Q.nUse x then some Q.nUse else some x) none

/-- TASK_SUBMIT's checks (R229, R329, R235). -/
def taskErrs (p : Nat) (k : Pkt) (s : State) : List Nat :=
  let P := getPart s p
  let prog := fld (wd k.w 0) 15 0
  let n := fld (wd k.w 0) 22 16
  let a := fld48 k.w 1
  progHandleErrs s p prog ++ (if a = 0 then [] else placeErrs s p prog a) ++ errsOf
    [ (decide (n = 0) || decide (80 < n), stBadParam),
      (decide (256 ≤ P.tasks.length), stNoResource),
      (P.det, stRefusedMode) ]

/-- TASK_SUBMIT (R329, R333). -/
def execTaskSubmit (r : RingId) (k : Pkt) (s : State) : Host.Outcome State Fault Refusal :=
  inRun s (fun s => fwRun s r 0x26 k [] (taskErrs (ringP r) k) (fun s =>
    let p := ringP r
    let P := getPart s p
    let prog := fld (wd k.w 0) 15 0
    let a := fld48 k.w 1
    let t : Task :=
      { id := P.nextTask, prog := prog, ngroup := fld (wd k.w 0) 22 16, half := bit (wd k.w 0) 23
        place := if a = 0 then [] else shardsOf s p prog a, submitted := nextCommit s, subAt := s.time.now, waitFrom := s.time.clove
        promoted := false, held := [], placedAt := 0, revokeAt := 0, status := 0, safeTo := 0, again := false
        descs := [], engs := [], ctxs := [] }
    let n := if P.tasks = [] then (match nMin s p with
      | some m => if nLess P.nUse m then m else P.nUse
      | none => P.nUse) else P.nUse
    .wait (modPart s p (fun P => { P with tasks := P.tasks ++ [t], nextTask := P.nextTask + 1, nUse := n })) (.task t.id) []))

/-- The logical arrays of a group that tasks use (R321). -/
def groupArrays (k : Nat) : List Nat := (List.range 4).map (fun i => 4 * (k % 4) + i) |>.filter (fun l => !isSaffron (k / 4) l)

/-- Nothing of partition p waits or runs on a logical array. -/
def arrayQuiet (s : State) (p c l : Nat) : Bool :=
  let la := getLa s c l
  la.descQ.all (fun d => decide (d.1 ≠ p)) && (match la.run with
    | some r => decide (r.part ≠ p)
    | none => true) && la.drains.all (fun d => decide (d.part ≠ p)) && la.closing.all (fun x => decide (x.part ≠ p))

/-- The program on some groups has ended: its streams are used up, its engines are free and its contexts have halted. -/
def workDone (s : State) (p : Nat) (groups engs ctxs : List Nat) : Bool :=
  groups.all (fun k => (groupArrays k).all (fun l => arrayQuiet s p (k / 4) l)) &&
  engs.all (fun e => !(engBusy (getEng s (e / 8) (e % 8)) && decide ((getEng s (e / 8) (e % 8)).part = p))) &&
  ctxs.all (fun x => let o := getCsp s (x / 4) (x % 4); !(decide (o.part = p) && (decide (o.st = 1) || decide (o.st = 2))))

/-- The slices still open on the arrays of some groups end with their program (R443). -/
def closeGroups (s : State) (p : Nat) (groups : List Nat) : State :=
  groups.foldl (fun s k => (groupArrays k).foldl (fun s l =>
    [false, true].foldl (fun s ctx =>
      if decide ((sliceOf (getLa s (k / 4) l) ctx).part = p) then closeSlice s (k / 4) l ctx else s) s) s) s

/-- A task leaves its partition with a status: its completion is written, its groups are free from the next boundary that can be
committed (R25, R329, R330). -/
def finishTask (s : State) (p : Nat) (t : Task) (status : Nat) : State :=
  let s := dropWork s p [] [] t.descs
  let s := modPart s p (fun P => { P with tasks := P.tasks.filter (fun x => decide (x.id ≠ t.id)) })
  let s := { s with freed := s.freed ++ t.held.map (fun k => (k, nextCommit s)) }
  completeWhere s (fun o => decide (o.why = .task t.id) && decide (ringOwner o.ring = some p)) (fun o => (status, o.res))

/-- TASK_END (R329, R330, R368). -/
def execTaskEnd (p : Fin 64) (task : Nat) (s : State) : Host.Outcome State Fault Refusal :=
  inRun s (fun s =>
    match (getPart s p.val).tasks.find? (fun t => decide (t.id = task)) with
    | none => s
    | some t =>
      if t.held.isEmpty || !workDone s p.val t.held t.engs t.ctxs then s else
      let s := closeGroups s p.val t.held
      match (getPart s p.val).tasks.find? (fun t => decide (t.id = task)) with
      | none => s
      | some t => finishTask s p.val t t.status)

/-! ### Announced revocations (R28) -/

/-- The logical arrays of tasks in some groups, as (cluster, array). -/
def groupsArrays (ks : List Nat) : List (Nat × Nat) := ks.flatMap (fun k => (groupArrays k).map (fun l => (k / 4, l)))

/-- The scheduler core may revoke a partition's tasks: not a radio partition's (R336), and not those of a frozen one, which keeps
its resources (R346). -/
def revocable (P : Part) : Bool := decide (P.typ ≠ 0) && decide (P.st ≠ .frozen)

/-- Mark the tasks that hold one of some groups for revocation at boundary b. -/
def revokeGroups (s : State) (ks : List Nat) (b : Nat) : State :=
  (liveParts s).foldl (fun s p =>
    if !revocable (getPart s p) then s else
    modPart s p (fun P => { P with tasks := P.tasks.map (fun t =>
      if t.held.any (fun k => ks.contains k) && (decide (t.revokeAt = 0) || decide (b < t.revokeAt)) then { t with revokeAt := b } else t) })) s

/-- The arrays of tasks with a revocation pending know its boundary (R28). -/
def announce (s : State) : State :=
  (liveParts s).foldl (fun s p => ((getPart s p).tasks.filter (fun t => decide (t.revokeAt ≠ 0))).foldl (fun s t =>
    (groupsArrays t.held).foldl (fun s x => modLa s x.1 x.2 (fun la => { la with revokeAt := t.revokeAt })) s) s) s

/-! ### Launches (R240-R242, R249) -/

/-- DET_END_CLOVE and DET_END_CYCLE as result words. -/
def detEnd (s : State) (p : Nat) : List Word := [(getPart s p).endClove, BitVec.ofNat 32 (getPart s p).endCycle]

/-- An enabled link of this chip has reached IDENT with a chip as its partner, as LINK_STAT.PARTNER records it (R241, R256). -/
def partnerLink (s : State) (chip : Nat) : Bool :=
  (List.range 24).any (fun l => (getLink s l).en && (getLink s l).met && decide ((getLink s l).partner.toNat = chip))

/-- A link whose partner is a chip is up; one that is training again is not (R241). -/
def partnerUp (s : State) (chip : Nat) : Bool :=
  (List.range 24).any (fun l => (getLink s l).en && (getLink s l).met && decide ((getLink s l).partner.toNat = chip) &&
    decide ((getLink s l).st = 3))

/-- The clove that LAUNCH_AT names; none for a past one. -/
def launchClove (s : State) (k : Pkt) : Option Nat := cloveOfField s (wd k.w 1).toNat

/-- LAUNCH_AT's checks (R223, R236, R241). -/
def launchErrs (p : Nat) (k : Pkt) (s : State) : List Nat :=
  let P := getPart s p
  let w := wd k.w 0
  let prog := fld w 15 0
  let chip := fld (wd k.w 7) 15 0
  progHandleErrs s p prog ++ placeErrs s p prog (fld48 k.w 2) ++ errsOf
    [ ((bit w 17 && !bit w 16) || (bit w 18 && !bit w 17), stBadParam),
      (bit w 17 && (decide (chip = s.fab.chipId.toNat) || !partnerLink s chip || decide (63 < fld (wd k.w 7) 23 16)), stBadParam),
      (bit w 16 && !(P.det && P.isSealed), stRefusedMode),
      (match launchClove s k with
       | none => true
       | some L => !canCommit s L, stDeadline),
      (P.launch.isSome || (bit w 17 && !partnerUp s chip), stBusy) ]

/-- LAUNCH_AT (R240, R241). -/
def execLaunchAt (r : RingId) (k : Pkt) (s : State) : Host.Outcome State Fault Refusal :=
  inRun s (fun s => fwRun s r 0x27 k (detEnd s (ringP r)) (launchErrs (ringP r) k) (fun s =>
    let p := ringP r
    let w := wd k.w 0
    let prog := fld w 15 0
    let L : Launch :=
      { clove := (launchClove s k).getD 0, prog := prog, timing := bit w 16, twin := bit w 17, freeze := bit w 18
        seedLo := wd k.w 4, seedHi := wd k.w 5, runId := wd k.w 6, twinChip := BitVec.ofNat 16 (fld (wd k.w 7) 15 0)
        twinPart := BitVec.ofNat 8 (fld (wd k.w 7) 23 16), place := shardsOf s p prog (fld48 k.w 2), placeAddr := fld48 k.w 2
        running := false, sigs := [], lastSigs := [], sums := [], distNow := false, distLast := false, distEver := false
        links := [], freezeAt := 0, compared := 0, ended := false, status := 0, endClove := 0, endCycle := 0, endedIn := 0, diverged := false
        twinRx := none, descs := [], engs := [], ctxs := [] }
    let s := modPart s p (fun P => { P with launch := some L })
    .wait (if L.clove = s.time.clove + 1 then announce (revokeGroups s (placeGroups s L.place) L.clove) else s) (.run p) []))

/-- The run of a partition is over: its completion carries its last write, and its arrays are free from the next boundary that
can be committed (R242, R249). -/
def finishRun (s : State) (p status : Nat) : State :=
  let kept := match (getPart s p).launch with
    | some L => if mayFreeze L then placeGroups s L.place else []
    | none => []
  let s := { s with freed := s.freed ++ kept.map (fun k => (k, nextCommit s)) }
  let s := modPart s p (fun P => { P with launch := none, twinState := if P.twinState = 3 then 3 else 0 })
  completeWhere s (fun o => decide (o.why = .run p)) (fun _ => (status, detEnd s p))

/-- A run that has ended completes, unless a twin comparison of its last clove is still open or it is about to freeze (R247, R249). -/
def checkRunEnd (s : State) (p : Nat) : State :=
  match (getPart s p).launch with
  | none => s
  | some L =>
    if L.ended && decide (L.freezeAt = 0) && decide ((getPart s p).twinState ≠ 3) &&
        !(L.twin && decide ((getPart s p).twinState = 1) && decide (L.compared < L.endedIn)) then finishRun s p L.status else s

/-- RUN_END (R242, R249). -/
def execRunEnd (p : Fin 64) (s : State) : Host.Outcome State Fault Refusal :=
  inRun s (fun s =>
    match (getPart s p.val).launch with
    | none => s
    | some L0 =>
      let groups := placeGroups s L0.place
      if !L0.running || L0.ended || decide ((getPart s p.val).twinState = 3) || !workDone s p.val groups L0.engs L0.ctxs then s else
      let s := closeGroups s p.val groups
      let s := dropWork s p.val [] [] L0.descs
      let s := if mayFreeze L0 then s else { s with freed := s.freed ++ groups.map (fun k => (k, nextCommit s)) }
      let s := modPart s p.val (fun P => noteRunEnd { P with
        launch := P.launch.map (fun L => { L with ended := true, endedIn := s.time.clove }) })
      checkRunEnd s p.val)

/-! ### Twin comparison (R245-R247) -/

/-- The clusters that a run uses on this chip, ascending. -/
def runClusters (s : State) (L : Launch) : List Nat :=
  (List.range 20).filter (fun c => (localShards s L.place).any (fun x => decide (x.cluster = c)))

/-- A 20-bit map of clusters. -/
def cluMap (l : List Nat) : Nat := l.foldl (fun n c => n + 2 ^ c) 0

/-- The signature that a message gives a cluster; one it does not name differs from any. -/
def sigOf (m : TwinMsg) (c : Nat) : Option (BitVec 64) := (m.sigs.find? (fun x => decide (x.1 = c))).map (fun x => x.2)

/-- Compare the signatures of the clove before this one with the twin's (R246). -/
def compareTwin (s : State) (p : Nat) (m : TwinMsg) : State :=
  let P := getPart s p
  match P.launch with
  | none => s
  | some L =>
    let n := s.time.clove - 1
    let L1 : Launch := { L with compared := n, distEver := L.distEver || m.disturb, twinRx := none }
    let diff := (runClusters s L).filter (fun c => decide (sigOf m c ≠ some (tabGet 0 L.lastSigs c)))
    let s := modPart s p (fun P => { P with launch := some L1 })
    match diff with
    | [] => checkRunEnd s p
    | c :: _ =>
      let items (timing : Nat) : List (Nat × Nat) :=
        [(4, L.runId.toNat), (1, timing), (8, n), (4, cluMap diff), (8, (tabGet 0 L.lastSigs c).toNat),
          (8, ((sigOf m c).getD 0).toNat)]
      let tell (s : State) (t : Nat) : State := evPool (evPart s p 0x0403 (items t)) 0x0403 (items t)
      if L.diverged then checkRunEnd (modPart s p (fun P => { P with twinMismatch := satInc 32 P.twinMismatch 1 })) p
      else
      let s := modPart s p (fun P => { P with twinClusters := BitVec.ofNat 20 (cluMap diff), twinDivClove := BitVec.ofNat 32 n })
      if L1.distEver then
        checkRunEnd (tell (noteFlag (modPart s p (fun P => { P with twinTdiv := true, twinState := 2 })) (.twinTdiv p)) 1) p
      else
        let s := tell (noteFlag (modPart s p (fun P => { P with
          twinDiv := true, launch := P.launch.map (fun L => { L with diverged := true }) })) (.twinDiv p)) 0
        if L.freeze then
          sendOn (modPart s p (fun P => { P with launch := P.launch.map (fun L => { L with freezeAt := s.time.clove + 1 }) }))
            (chipPath s L.twinChip) (.freeze L.twinChip L.twinPart L.runId)
        else checkRunEnd s p

/-- A twin message counts as lost: comparison is suspended (R245, R246). -/
def loseTwin (s : State) (p : Nat) : State :=
  let s := noteFlag (modPart s p (fun P => { P with twinLostF := true, twinState := 2 })) (.twinLost p)
  checkRunEnd (evPart s p 0x0404 [(8, s.time.clove - 1)]) p

/-- A comparison of the clove before this one is open (R245). -/
def twinOpen (s : State) (p : Nat) : Bool :=
  let P := getPart s p
  match P.launch with
  | none => false
  | some L =>
    L.running && L.twin && decide (P.twinState = 1) && decide (L.clove < s.time.clove) && decide (L.compared + 1 < s.time.clove)

/-- TWIN_SIGNATURE_RX (R245, R246). -/
def execTwinSignatureRx (p : Fin 64) (m : Rx TwinMsg) (s : State) : Host.Outcome State Fault Refusal :=
  inRun s (fun s =>
    let s := if m.via.val < 24 then freeRx s m.via.val 2 0 else s
    let m := m.msg
    match (getPart s p.val).launch with
    | none => s
    | some L =>
      if !L.running || !L.twin || decide ((getPart s p.val).twinState ≠ 1) then s
      else if m.clove = BitVec.ofNat 32 (s.time.clove - 1) then
        (if !twinOpen s p.val then s
         else if m.runId ≠ L.runId ∨ 200000 < s.time.cycle then loseTwin s p.val else compareTwin s p.val m)
      else if m.clove = BitVec.ofNat 32 s.time.clove then
        modPart s p.val (fun P => { P with launch := some { L with twinRx := some m } })
      else s)

/-- A comparison that is still open as its clove ends: its message has not arrived in time (R245). -/
def loseOpen (s : State) (p : Nat) : State := if twinOpen s p then loseTwin s p else s

/-- TWIN_LOST (R245, R246). -/
def execTwinLost (p : Fin 64) (s : State) : Host.Outcome State Fault Refusal :=
  inRun s (fun s => if twinOpen s p.val && decide (200000 ≤ s.time.cycle) then loseTwin s p.val else s)

/-- FREEZE_NOTICE_RX (R247). -/
def execFreezeNoticeRx (p : Fin 64) (runId : Rx Word) (s : State) : Host.Outcome State Fault Refusal :=
  inRun s (fun s =>
    let s := if runId.via.val < 24 then freeRx s runId.via.val 2 0 else s
    match (getPart s p.val).launch with
    | none => s
    | some L =>
      if L.running && L.twin && decide (L.runId = runId.msg) && decide (L.freezeAt = 0) && decide ((getPart s p.val).twinState ≠ 3) then
        modPart s p.val (fun P => { P with launch := some { L with freezeAt := nextCommit s } })
      else s)

/-! ### RAD_CLAIM (R337) -/

/-- RAD_CLAIM's checks (R18, R318, R337); a partition that is not RADIO answers REFUSED_MODE (log entry 41). -/
def claimErrs (r : RingId) (k : Pkt) (s : State) : List Nat :=
  let p := fld (wd k.w 5) 7 0
  let nf := fld (wd k.w 1) 6 0
  let ng := fld (wd k.w 1) 13 7
  let F := cloveOfField s (wd k.w 0).toNat
  partParamErrs s r p ++ errsOf
    [ (decide (nf = 0) || decide (100 < nf) || decide (ng = 0) || decide (80 < ng), stBadParam),
      (match F with
       | none => false
       | some F => decide (F % 80 ≠ 0), stBadParam),
      (!canWrA s r (fld48 k.w 3) 10, stBounds),
      ((getPart s p).live && decide ((getPart s p).typ ≠ 0), stRefusedMode),
      (match F with
       | none => true
       | some F => !(decide (s.time.clove + 80 < F) || (decide (s.time.clove + 80 = F) && decide (s.time.cycle ≤ 245000))), stDeadline) ]

/-- RAD_CLAIM (R337). -/
def execRadClaim (r : RingId) (k : Pkt) (s : State) : Host.Outcome State Fault Refusal :=
  inRun s (fun s => fwRun s r 0x37 k [] (claimErrs r k) (fun s =>
    let id := s.nextClaim
    let c : Claim :=
      { id := id, part := fld (wd k.w 5) 7 0, frame := (cloveOfField s (wd k.w 0).toNat).getD 0, nframes := fld (wd k.w 1) 6 0
        ngroup := fld (wd k.w 1) 13 7, clusters := BitVec.ofNat 20 (fld (wd k.w 2) 19 0), ring := r, grantAddr := fld48 k.w 3 }
    .wait { s with claims := s.claims ++ [c], nextClaim := id + 1 } (.claim id) []))

end Sys2Proof.Machine
end

