-- ==== Sys2Proof/Machine/Place.lean ====
section
/-! DEFINITION. The scheduler core at a clove boundary: charges (R332), revocations and freezes (R28, R70, R248, R331, R346),
launches (R224, R239, R242), radio claims (R337-R339), the placing of tasks (R330, R334, R335) and who holds each array (R26, R42,
R77, R193, R328). -/

namespace Sys2Proof.Machine

open Sys2Proof

/-! ### Charges (R332) -/

/-- Arrays of tasks and grants, Saffron arrays apart, that partition p held in the clove that has just ended. -/
def heldArrays (s : State) (p : Nat) : Nat :=
  s.clusters.foldl (fun n c => n + c.2.la.countP (fun l => decide (l.2.part = some p) && !isSaffron c.1 l.1)) 0

/-- The charges of the clove that has just ended: partition and array-ns. -/
def cloveCharges (s : State) : List (Nat × Nat) := (liveParts s).map (fun p => (p, 125000 * heldArrays s p))

/-- Enter charges in PART_ACCT and N (R332). -/
def chargeAll (s : State) (l : List (Nat × Nat)) : State :=
  l.foldl (fun s x => if x.2 = 0 || !(getPart s x.1).live then s else modPart s x.1 (fun P => { P with
    acct := P.acct + BitVec.ofNat 64 x.2, nUse := P.nUse + BitVec.ofNat 64 (ceilDiv (x.2 * 256) P.weight) })) s

/-! ### Revocations -/

/-- Take some arrays from a partition (R70). -/
def takeArrays (s : State) (p : Nat) (ks : List Nat) : State :=
  (groupsArrays ks).foldl (fun s x => takeArray s p x.1 x.2) s

/-- Engines of a placement that do not run on to their next SLM (R141). -/
def stopsNow (s : State) (engs : List Nat) : List Nat := engs.filter (fun e => !(getEng s (e / 8) (e % 8)).stopSlm)

/-- The streams of a revoked task are no longer issued: it restarts at its resume entry (R331, log entry 38). -/
def dropStreams (s : State) (p : Nat) (ks : List Nat) : State :=
  (groupsArrays ks).foldl (fun s x => modLa s x.1 x.2 (fun la => { la with
    descQ := la.descQ.filter (fun d => decide (d.1 ≠ p)), replays := la.replays.filter (fun y => decide (y.part ≠ p)) })) s

/-- A task's groups are taken at this boundary: it waits again, and restarts at its resume entry (R28, R331). A slice that this
stops runs again, so its ABORTED does not count for the task. -/
def takeTask (s : State) (p : Nat) (t : Task) : State :=
  let s := dropStreams (takeArrays s p t.held) p t.held
  let s := dropWork s p (stopsNow s t.engs) t.ctxs t.descs
  modPart s p (fun P => { P with tasks := P.tasks.map (fun x => if x.id = t.id then
    { x with
      status := if x.status = stAborted then t.status else x.status
      held := [], again := true, waitFrom := s.time.clove, revokeAt := 0, promoted := false, safeTo := 0, descs := [], engs := [], ctxs := [] } else x) })

/-- Every task with some property is taken. -/
def takeWhere (s : State) (pick : Part → Task → Bool) : State :=
  (liveParts s).foldl (fun s p =>
    ((getPart s p).tasks.filter (fun t => !t.held.isEmpty && pick (getPart s p) t)).foldl (fun s t => takeTask s p t) s) s

/-! ### Freezes and thaws (R248, R346) -/

/-- PART_FREEZE at its boundary: a slice that still runs is stopped, and the command completes once nothing is in flight. -/
def freezeStep (s : State) (p : Nat) : State :=
  let P := getPart s p
  if P.st = .freezing ∧ P.frozenAt ≤ s.time.clove then
    let s := takeArrays s p (P.tasks.flatMap (fun t => t.held) ++ pinnedGroups s P)
    checkQuiet (modPart s p (fun P => { P with st := .frozen })) p
  else if P.st = .frozen ∧ P.thawAt ≠ 0 ∧ P.thawAt ≤ s.time.clove then
    completeWait (modPart s p (fun P => { P with st := .running, thawAt := 0, frozenAt := 0 })) (.thaw p) stOk
  else s

/-- The freeze of a twin run at its boundary (R247, R248). -/
def twinFreeze (s : State) (p : Nat) : State :=
  match (getPart s p).launch with
  | none => s
  | some L =>
    if L.freezeAt = 0 ∨ s.time.clove < L.freezeAt then s else
    let s := modPart s p (fun P => { noteRunEnd P with twinState := 3, launch := some { L with freezeAt := 0 } })
    completeWhere s (fun o => decide (o.why = .run p)) (fun _ => (stAborted, detEnd s p))

/-! ### Launches (R224, R239, R242) -/

/-- The scheduler core may start a partition's work. -/
def mayPlace (P : Part) : Bool := decide (P.st = .running) || decide (P.st = .freezing)

/-- The groups of a launch that it cannot have: pinned for another run, granted to a radio claim now or for a later frame, held by a
frozen partition, or out of service (R239, log entry 96). -/
def launchBlocked (s : State) (p : Nat) (ks : List Nat) : Bool :=
  ks.any (fun k => s.grants.any (fun g => decide (g.1 = k) && decide (s.time.clove < g.2.2.2)) || groupOut s k || (match pinner s k with
    | some q => decide (q ≠ p)
    | none => false) || (match taskHolder s k with
    | some q => !revocable (getPart s q)
    | none => false))

/-- Place the shards of a placement image that name this chip. -/
def placeLocal (x : Placing) (p : Nat) (g : Prog) (again : Bool) (l : List Shard) : Placing :=
  (l.zipIdx).foldl (fun x y =>
    if y.1.chip = x.s.fab.chipId.toNat then placeShard x p g again y.2 y.1.cluster y.1.arrayFirst else x) x

/-- A launch whose program cannot be placed ends before it has begun. -/
def failLaunch (s : State) (p status : Nat) : State :=
  let s := modPart s p (fun P => { P with launch := none })
  completeWhere s (fun o => decide (o.why = .run p)) (fun _ => (status, detEnd s p))

/-- R242, steps 1 to 4. -/
def startLaunch (s : State) (p : Nat) (L : Launch) : State :=
  let ks := placeGroups s L.place
  if launchBlocked s p ks then failLaunch s p stNoResource else
  let s0 := takeWhere s (fun _ t => t.held.any (fun k => ks.contains k))
  let s1 := modPart s0 p (fun P => { P with
    seedLo := L.seedLo, seedHi := L.seedHi, disturb := 0, refused := 0, twinMismatch := 0, everRun := true
    twinState := if L.twin then 1 else 0
    launch := some { L with running := true, sigs := [], lastSigs := [], sums := [], compared := L.clove - 1 } })
  let s1 := if (getPart s1 p).withheld then disturb s1 p 3 else s1
  let x := placeLocal { s := s1 } p (getProg s1 p L.prog) false L.place
  if x.errs.isEmpty then
    modPart x.s p (fun P => { P with launch := P.launch.map (fun L => { L with descs := x.descs, engs := x.engs, ctxs := x.ctxs }) })
  else failLaunch s0 p (lowest x.errs)

/-- Launches whose boundary has come start. -/
def launchStep (s : State) (p : Nat) : State :=
  match (getPart s p).launch with
  | none => s
  | some L => if !L.running && decide (L.clove ≤ s.time.clove) && mayPlace (getPart s p) then startLaunch s p L else s

/-! ### Radio claims (R337-R339) -/

/-- A grant on a group overlaps boundaries lo to hi - 1. -/
def grantedIn (s : State) (lo hi k : Nat) : Bool :=
  s.grants.any (fun g => decide (g.1 = k) && decide (g.2.2.1 < hi) && decide (lo < g.2.2.2))

/-- The groups that a claim may be given, by rank (R338). -/
def claimGroups (s : State) (c : Claim) : List Nat :=
  let hi := c.frame + 80 * c.nframes
  let ok := (namedGroups (getPart s c.part)).filter (fun k =>
    c.clusters.getLsbD (k / 4) && !grantedIn s c.frame hi k && (pinner s k).isNone && !groupOut s k)
  let mine (k : Nat) : Bool := s.grants.any (fun g => decide (g.1 = k) && decide (g.2.1 = c.part) && decide (g.2.2.1 < c.frame) && decide (c.frame ≤ g.2.2.2))
  let rest := ok.filter (fun k => !mine k)
  ok.filter mine ++ rest.filter (fun k => (taskHolder s k).isNone) ++
    rest.filter (fun k => match taskHolder s k with
      | some q => revocable (getPart s q) && !(getPart s q).det
      | none => false)

/-- The 80-bit grant map of some groups, as 10 bytes (R337). -/
def grantMap (ks : List Nat) : List Byte := leBytes 10 (ks.foldl (fun n k => n + 2 ^ k) 0)

/-- A claim is decided (R338, R339). -/
def decideClaim (s : State) (c : Claim) : State :=
  let ks := (claimGroups s c).take c.ngroup
  let s := { s with claims := s.claims.filter (fun x => decide (x.id ≠ c.id)) }
  if ks.isEmpty then completeWait s (.claim c.id) stNoResource else
  let s := { s with grants := s.grants ++ ks.map (fun k => (k, c.part, c.frame, c.frame + 80 * c.nframes)) }
  completeWait (wrA s c.ring c.grantAddr (grantMap ks)) (.claim c.id)
    (worse (if ks.length < c.ngroup then stPartial else stOk) (if lostA s c.ring c.grantAddr 10 then stTimeout else stOk))

/-- Claims are decided, in order of arrival, at the boundary that begins clove FRAME - 2; grants that are over go. -/
def claimStep (s : State) : State :=
  let n := s.time.clove
  let s := { s with grants := s.grants.filter (fun g => decide (n < g.2.2.2)) }
  (s.claims.filter (fun c => decide (c.frame ≤ n + 2))).foldl decideClaim s

/-! ### Placing tasks (R330, R334, R335) -/

/-- A group may be given to a task of partition p for the clove that follows: it is free, or it is granted to p and no task of p
holds it (R339). -/
def groupFor (s : State) (p k : Nat) : Bool :=
  if (getPart s p).typ = 0 then decide (grantee s s.time.clove k = some p) && (taskHolder s k).isNone && !groupOutAt s s.time.clove k
  else groupFree s s.time.clove k

/-- The groups on which a task can be placed, ascending (R330). -/
def taskMap (s : State) (p : Nat) (t : Task) : List Nat :=
  if t.place.isEmpty then (namedGroups (getPart s p)).filter (fun k => t.half || !halfGroup k) else placeGroups s t.place

/-- How many groups of its map a task needs. -/
def taskNeeds (s : State) (t : Task) : Nat := if t.place.isEmpty then t.ngroup else (placeGroups s t.place).length

/-- Deal groups to the shards of a program, in shard order: shard i begins at the taken group i * NGROUP / NSHARD. -/
def dealShards (x : Placing) (p : Nat) (g : Prog) (again : Bool) (ks : List Nat) : Placing :=
  (List.range g.nshard).foldl (fun x i =>
    let k := ks.getD (i * ks.length / g.nshard) 0
    placeShard x p g again i (k / 4) (groupFirst k)) x

/-- Place a task on some groups. A program that cannot be placed ends the task (R447). -/
def placeTask (s : State) (p : Nat) (t : Task) (ks : List Nat) : State :=
  let s1 := modPart s p (fun P => { P with everRun := true, tasks := P.tasks.map (fun x => if x.id = t.id then
    { x with held := ks, placedAt := s.time.clove, safeTo := if t.promoted then s.time.clove + P.urgency else 0, promoted := false } else x) })
  let g := getProg s1 p t.prog
  let x := if t.place.isEmpty then dealShards { s := s1 } p g t.again ks else placeLocal { s := s1 } p g t.again t.place
  if x.errs.isEmpty then
    modPart x.s p (fun P => { P with tasks := P.tasks.map (fun y => if y.id = t.id then
      { y with descs := x.descs, engs := x.engs, ctxs := x.ctxs } else y) })
  else finishTask s p t (lowest x.errs)

/-- Pending tasks with their partitions. -/
def pendingTasks (s : State) : List (Nat × Task) :=
  (liveParts s).flatMap (fun p =>
    if mayPlace (getPart s p) then
      ((getPart s p).tasks.filter (fun t => t.held.isEmpty && decide (t.submitted ≤ s.time.clove))).map (fun t => (p, t))
    else [])

/-- Insert into a list that a test orders, after its equals. -/
def insertBy {α : Type} (lt : α → α → Bool) (a : α) : List α → List α
  | [] => [a]
  | b :: t => if lt a b then a :: b :: t else b :: insertBy lt a t

/-- Sort a list, equals in their order. -/
def sortBy {α : Type} (lt : α → α → Bool) (l : List α) : List α := l.foldl (fun t a => insertBy lt a t) []

/-- The order of R334 among tasks that are listed by partition and submission. -/
def taskBefore (s : State) (a b : Nat × Task) : Bool :=
  if a.2.promoted ≠ b.2.promoted then a.2.promoted
  else if a.2.promoted then decide (a.2.subAt < b.2.subAt) || (decide (a.2.subAt = b.2.subAt) && decide (a.1 < b.1))
  else
    let x := (getPart s a.1).nUse
    let y := (getPart s b.1).nUse
    nLess x y || (decide (x = y) && decide (a.1 < b.1))

/-- Tasks whose wait has reached their partition's horizon are promoted (R335). -/
def promote (s : State) : State :=
  (liveParts s).foldl (fun s p => if (getPart s p).tasks.isEmpty then s else modPart s p (fun P => { P with
    tasks := P.tasks.map (fun t =>
      if t.held.isEmpty && !t.promoted && decide (t.waitFrom + P.urgency ≤ s.time.clove) then { t with promoted := true } else t) })) s

/-- The most recently placed of a partition's tasks that hold a group of a map and may be revoked (R335). -/
def lastPlaced (s : State) (ks : List Nat) (P : Part) : Option Task :=
  (P.tasks.filter (fun t => t.held.any (fun k => ks.contains k) && decide (t.revokeAt = 0) && decide (t.safeTo ≤ s.time.clove))).foldl
    (fun m t => match m with
      | none => some t
      | some x => if x.placedAt ≤ t.placedAt then some t else some x) none

/-- The task that R335 revokes next for a map. -/
def victim (s : State) (ks : List Nat) : Option (Nat × Task) :=
  (liveParts s).foldl (fun m p =>
    let P := getPart s p
    match (if revocable P then lastPlaced s ks P else none) with
    | none => m
    | some t =>
      match m with
      | none => some (p, t)
      | some (q, u) => if nLess (getPart s q).nUse P.nUse then some (p, t) else some (q, u)) none

/-- Groups of a map that are free, that ended tasks have left, or whose tasks are revoked, less those counted on already. -/
def comingFree (s : State) (p : Nat) (ks taken : List Nat) : List Nat :=
  ks.filter (fun k => !taken.contains k && (groupFor s p k || (!groupOutAt s (s.time.clove + 1) k && (grantee s (s.time.clove + 1) k).isNone && (pinner s k).isNone &&
    (liveParts s).all (fun q => (getPart s q).tasks.all (fun t => !t.held.contains k || decide (t.revokeAt ≠ 0))))))

/-- Revoke tasks until a promoted task fits, as far as tasks can be revoked (R335). -/
def revokeUntil (s : State) (p : Nat) (ks taken : List Nat) (need : Nat) : Nat → State
  | 0 => s
  | n + 1 =>
    if need ≤ (comingFree s p ks taken).length then s else
    match victim s ks with
    | none => s
    | some (q, t) =>
      revokeUntil (modPart s q (fun P => { P with tasks := P.tasks.map (fun x =>
        if x.id = t.id then { x with revokeAt := s.time.clove + 1 } else x) })) p ks taken need n

/-- One pending task at a boundary: it is placed where it fits, and a promoted one that does not fit makes room (R334, R335). taken
lists the groups that earlier promoted tasks count on. -/
def considerTask (acc : State × List Nat) (x : Nat × Task) : State × List Nat :=
  let s := acc.1
  let p := x.1
  let map := taskMap s p x.2
  let need := taskNeeds s x.2
  let free := map.filter (groupFor s p)
  if need ≤ free.length then (placeTask s p x.2 (free.take need), acc.2)
  else if !x.2.promoted then acc
  else
    let s := revokeUntil s p map acc.2 need 288
    (s, acc.2 ++ (comingFree s p map acc.2).take need)

/-- The placing of tasks for this boundary. -/
def taskStep (s : State) : State :=
  let s := promote s
  ((sortBy (taskBefore s) (pendingTasks s)).foldl considerTask (s, [])).1

/-! ### What the next boundary takes -/

/-- Groups that a grant or a launch takes at the next boundary, and groups whose grant then ends, are announced (R28). -/
def noticeStep (s : State) : State :=
  let b := s.time.clove + 1
  let granted := (s.grants.filter (fun g => decide (g.2.2.1 = b))).map (fun g => g.1)
  let launched := (liveParts s).flatMap (fun p => match (getPart s p).launch with
    | some L => if !L.running && decide (L.clove = b) then placeGroups s L.place else []
    | none => [])
  let s := revokeGroups s (granted ++ launched) b
  let ended := (s.grants.filter (fun g => decide (g.2.2.2 = b) && !grantedIn s b (b + 1) g.1)).map (fun g => (g.1, g.2.1))
  let s := ended.foldl (fun s g => modPart s g.2 (fun P => { P with tasks := P.tasks.map (fun t =>
    if t.held.contains g.1 then { t with revokeAt := b } else t) })) s
  s

/-! ### Who holds each array -/

/-- W_64^(row * col) of the DFT tile (R193), as a CI16 sample: round(2^14 cos) and round(2^14 sin) of -2 pi k / 64. -/
def dftWord (k : Nat) : Word :=
  let q : List Int := [16384, 16305, 16069, 15679, 15137, 14449, 13623, 12665, 11585, 10394, 9102, 7723, 6270, 4756, 3196, 1606, 0]
  let cosOf (i : Nat) : Int :=
    let i := i % 64
    if i ≤ 16 then q.getD i 0 else if i ≤ 32 then -(q.getD (32 - i) 0) else if i ≤ 48 then -(q.getD (i - 32) 0) else q.getD (64 - i) 0
  BitVec.ofNat 32 (ofSigned 16 (cosOf k) + 2 ^ 16 * ofSigned 16 (cosOf (k + 16)))

/-- The bytes of the resident DFT tile: a CI16 W-tile of 128 rows of 128 elements that holds W_64 in its first 64 rows and columns
(R118, R193, log entry 12). -/
def dftTile : List Byte :=
  (List.range 128).flatMap (fun r => (List.range 128).flatMap (fun c =>
    if r < 64 ∧ c < 64 then leBytes 4 (dftWord (r * c)).toNat else [0, 0, 0, 0]))

/-- The memory of a physical array as its new holder finds it: clear (R328), a radio partition's Saffron array with the resident
DFT tile (R193). -/
def freshArray (radio : Bool) (pa : PArray) : PArray :=
  { wb := if radio then { mem := wrBytes [] (512 * Config.dftOffset) dftTile } else {}, wdog := pa.wdog }

/-- A logical array passes to its holder for the clove that begins (R26, R42, R77, R328); an index that the spare served returns to
its own array, once repaired. -/
def giveArray (s : State) (c l : Nat) (new : Option Nat) : State :=
  let la := getLa s c l
  if la.part = new then s else
  let s := match la.part with
    | some p => takeArray s p c l
    | none => s
  match new with
  | none => modLa s c l (fun la => { la with part := none, revokeAt := 0, drnCnt := 0 })
  | some p =>
    let cl := getClu s c
    let back := decide (cl.spareFor.toNat = l) && !cl.failed.getLsbD l
    let s := if back then modClu s c (fun cl => { cl with spareFor := 0x3F }) else s
    let s := if decide (la.prev = p + 1) && !back then s
      else modPa s c (physOf (getClu s c) l) (freshArray (isSaffron c l && decide ((getPart s p).typ = 0)))
    modLa s c l (fun la => { la with part := some p, prev := p + 1, startCycle := 1024, revokeAt := 0, drnCnt := 0 })

/-- The arrays of one group. -/
def giveGroup (s : State) (k : Nat) : State :=
  let h := groupHolder s s.time.clove k
  (groupArrays k).foldl (fun s l => giveArray s (k / 4) l h) s

/-- The Saffron arrays of one cluster. -/
def giveSaffron (s : State) (c : Nat) : State :=
  let h := arrayHolder s s.time.clove c 0
  giveArray (giveArray s c 0 h) c 1 h

/-- Array reassignment. -/
def assignStep (s : State) : State :=
  let s := { s with clusters := tabMapV {} s.clusters (fun cl => { cl with la := tabMapV {} cl.la (fun la => { la with startCycle := 0 }) }) }
  let s := (List.range 80).foldl giveGroup s
  let s := (List.range 16).foldl giveSaffron s
  { s with freed := s.freed.filter (fun x => decide (s.time.clove < x.2)) }

/-- Step 3 of R27: array reassignment and pre-emption; the arrays, whoever has them now, then know of the revocations at the next
boundary (R28). -/
def scheduleStep (s : State) (charges : List (Nat × Nat)) : State :=
  let s := takeWhere s (fun _ t => decide (t.revokeAt ≠ 0) && decide (t.revokeAt ≤ s.time.clove))
  let s := (liveParts s).foldl freezeStep s
  let s := (liveParts s).foldl twinFreeze s
  let s := (liveParts s).foldl launchStep s
  let s := taskStep (claimStep s)
  announce (assignStep (chargeAll (noticeStep s) charges))

end Sys2Proof.Machine
end

