-- ==== Sys2Proof/Machine/Power.lean ====
section
/-! DEFINITION. Power and thermal control: throttling (R33, R382-R384), the switching of clusters and domains (R385, R436), and
the rows CLUSTER_IDLE_OFF and DOMAIN_IDLE_OFF. -/

namespace Sys2Proof.Machine

open Sys2Proof

/-! ### What a cluster holds -/

/-- No partition holds any resource on a cluster (R385). -/
def cluUnheld (s : State) (c : Nat) : Bool := (liveParts s).all (fun p => decide (getHold s p c = {}))

/-- A RADIO partition's reservation lies in a cluster (R33). -/
def cluRadio (s : State) (c : Nat) : Bool := (radioParts s).any (fun p => decide (getHold s p c ≠ {}))

/-- The partitions whose runs pin a group of a cluster (R239). -/
def cluPinners (s : State) (c : Nat) : List Nat :=
  (liveParts s).filter (fun p => (pinnedGroups s (getPart s p)).any (fun k => decide (k / 4 = c)))

/-! ### Throttling (R383, R384) -/

/-- TJ_TARGET as it acts (R386). -/
def tjLimit (s : State) : Nat := Nat.min 103 (Nat.max 60 s.pwr.tjTarget.toNat)

/-- The number of a list with the largest measure, the first of equals. -/
def argMax (f : Nat → Nat) : List Nat → Option Nat
  | [] => none
  | a :: t =>
    match argMax f t with
    | none => some a
    | some b => if f b ≤ f a then some a else some b

/-- Partitions that pick selects, by highest N (R332, R333). -/
def highestN (s : State) (pick : Part → Bool) : Option Nat :=
  ((liveParts s).filter (fun p => pick (getPart s p))).foldl (fun m p =>
    match m with
    | none => some p
    | some q => if nLess (getPart s q).nUse (getPart s p).nUse then some p else some q) none

/-- Clusters above P3 without a radio reservation, with or without pinned arrays. -/
def lowerable (s : State) (pinned : Bool) : List Nat :=
  if !s.pwr.dvfsEn then [] else
  (List.range 20).filter (fun c => decide ((getPc s c).point < 3) && !cluRadio s c && ((cluPinners s c).isEmpty != pinned))

/-- The next action of R384; hot says that a temperature asks for it, otherwise a current does. -/
def nextAction (s : State) (env : BoundaryEnv) (hot : Bool) : Option PwrAction :=
  let tj (c : Nat) : Nat := env.tj.getD c 0
  match argMax (fun c => if hot then tj c else env.amps.getD c 0) (lowerable s false) with
  | some c => some (.lower c)
  | none =>
    match highestN s (fun P => decide (P.typ ≠ 0) && !P.det && !P.withheld) with
    | some p => some (.withhold p)
    | none =>
      match argMax tj (lowerable s true) with
      | some c => some (.lower c)
      | none => (highestN s (fun P => decide (P.typ ≠ 0) && P.det && !P.withheld)).map .withhold

/-- An action takes effect, or the most recent one is undone. An action whose cluster or partition can no longer take it is
dropped. -/
def applyAction (s : State) (a : Option PwrAction) : State :=
  match a with
  | some (.lower c) =>
    if cluRadio s c || decide (3 ≤ (getPc s c).point) then s else
    let s := modPc s c (fun x => { x with point := x.point + 1 })
    { s with pwr := { s.pwr with actions := .lower c :: s.pwr.actions } }
  | some (.withhold p) =>
    if !(getPart s p).live || (getPart s p).withheld then s else
    let s := modPart s p (fun P => { P with withheld := true })
    { s with pwr := { s.pwr with actions := .withhold p :: s.pwr.actions } }
  | none =>
    match s.pwr.actions with
    | [] => s
    | x :: t =>
      let s := { s with pwr := { s.pwr with actions := t, crit := false } }
      match x with
      | .lower c => modPc s c (fun y => { y with point := if y.point < 4 then y.point - 1 else y.point })
      | .withhold p => modPart s p (fun P => { P with withheld := false })

/-- THROTTLE of R238 for an action on pinned arrays, or one that withholds the slices of a run. -/
def throttleRuns (s : State) : Option PwrAction → State
  | some (.lower c) => (cluPinners s c).foldl (fun s p => disturb s p 3) s
  | some (.withhold p) => disturb s p 3
  | none => s

/-- Actions that are no longer in force: of a cluster that is OFF or holds a radio reservation, or of a partition that is gone. -/
def pruneActions (s : State) : State :=
  { s with pwr := { s.pwr with actions := s.pwr.actions.filter (fun a => match a with
      | .lower c => decide ((getPc s c).point < 4) && !cluRadio s c
      | .withhold p => (getPart s p).live && (getPart s p).withheld) } }

/-- The decisions for this boundary take effect (R382, R383). -/
def applyDue (s : State) : State :=
  let now := s.pwr.due.filter (fun d => decide (d.1 ≤ s.time.clove))
  let s := { s with pwr := { s.pwr with due := s.pwr.due.filter (fun d => decide (s.time.clove < d.1)) } }
  now.foldl (fun s d => throttleRuns (applyAction s d.2) d.2) s

/-- PWR_THROTTLE (R384): what changed since the state before. -/
def throttleEvents (old s : State) : State :=
  let s := (liveParts s).foldl (fun s p =>
    if (getPart old p).withheld ≠ (getPart s p).withheld then evPart s p 0x0003 [] else s) s
  if old.pwr.actions.isEmpty ≠ s.pwr.actions.isEmpty then evPool s 0x0003 [] else s

/-- The decision that the readings of the past clove ask for (R383). -/
def decidePower (s : State) (env : BoundaryEnv) : State :=
  let n := s.time.clove
  let tj (c : Nat) : Nat := env.tj.getD c 0
  let lim := tjLimit s
  let hot := (List.range 20).any (fun c => decide (lim ≤ tj c))
  let cur := decide (s.pwr.pkgIlim.toNat < env.pkg)
  let cool := (List.range 20).all (fun c => decide (tj c + 3 ≤ lim)) && decide (20 * env.pkg ≤ 19 * s.pwr.pkgIlim.toNat)
  let v := s.pwr.due.foldl (fun s d => applyAction s d.2) s
  if hot || cur then
    let s := { s with pwr := { s.pwr with cool := 0 } }
    match nextAction v env hot with
    | some a => { s with pwr := { s.pwr with due := s.pwr.due ++ [(n + 2, some a)], crit := false } }
    | none =>
      if s.pwr.crit then s else
      let s := { s with pwr := { s.pwr with crit := true } }
      evPool ((radioParts s).foldl (fun s p => evPart s p 0x0004 []) s) 0x0004 []
  else if !cool then { s with pwr := { s.pwr with cool := 0 } }
  else if s.pwr.cool + 1 < 80 then { s with pwr := { s.pwr with cool := s.pwr.cool + 1 } }
  else if v.pwr.actions.isEmpty then s
  else { s with pwr := { s.pwr with cool := 0, due := s.pwr.due ++ [(n + 2, none)] } }

/-! ### Switching on and off (R385, R436) -/

/-- The on-condition of a domain of R436. -/
def domNeeded (s : State) (d : Nat) : Bool :=
  if d < 3 then (List.range 8).any (fun i => (getLink s (8 * d + i)).en)
  else if d < 5 then
    let mine (n : Nat) : Bool := decide (n / 4 = d - 3)
    (List.range 4).any (fun i => (getPort s (4 * (d - 3) + i)).en) || (s.time.dom0.en && mine s.time.dom0.port.toNat) ||
      (s.time.dom1.en && mine s.time.dom1.port.toNat) || (s.time.synceEn && mine s.time.syncePort.toNat)
  else s.radio.eps.any (fun e => e.2.live) || s.radio.cells.any (fun c => c.2.live)

/-- A domain whose switch-off was committed for this boundary goes off; what has come to need it since then is handled as if it came
now: the domain is on again at the next boundary and usable two cloves later (R25, R436). -/
def domOffStep (s : State) (d : Nat) : State :=
  let n := s.time.clove
  let a := tabGet 0 s.pwr.domOffAt d
  if decide (a = 0) || decide (n < a) then s else
  let s := setDom { s with pwr := { s.pwr with domOffAt := tabSet 0 s.pwr.domOffAt d 0 } } d false
  { s with pwr := { s.pwr with usableAt := tabSet 0 s.pwr.usableAt d (if domNeeded s d then n + 3 else 0) } }

/-- The HBM group of a stack at a boundary (R436). -/
def hbmOffStep (s : State) (n : Nat) : State :=
  let a := tabGet 0 s.pwr.domOffAt (6 + n)
  if decide (a = 0) || decide (s.time.clove < a) then s else
  { s with pwr := { s.pwr with
    hbmOn := s.pwr.hbmOn &&& ~~~(BitVec.ofNat 8 (2 ^ n)), domOffAt := tabSet 0 s.pwr.domOffAt (6 + n) 0 } }

/-- A domain at a boundary: it goes off or comes on where that is due, its waiting commands complete once it is usable, and the cloves
without need are counted. -/
def domStep (s : State) (d : Nat) : State :=
  let s := domOffStep s d
  let n := s.time.clove
  let u := tabGet 0 s.pwr.usableAt d
  let s := if !domOn s d && decide (u ≠ 0) && decide (u ≤ n + 2) then
      setDom { s with pwr := { s.pwr with usableAt := tabSet 0 s.pwr.usableAt d (n + 2) } } d true else s
  let s := if domUsable s (domOn s d) d then completeWait s (.powerOn d) stOk else s
  { s with pwr := { s.pwr with idle := tabSet 0 s.pwr.idle d (if domNeeded s d then 0 else Nat.min 80 (tabGet 0 s.pwr.idle d + 1)) } }

/-- A cluster at a boundary: its readings and flags; it comes on where that is due, and the cloves in which nothing of it is held
are counted. A cluster with a radio reservation stays at P0 (R33). -/
def cluPower (env : BoundaryEnv) (s : State) (c : Nat) : State :=
  let n := s.time.clove
  let radio := cluRadio s c
  let x := getPc s c
  let on := decide (x.point = 4) && decide (x.usableAt ≠ 0) && decide (x.usableAt ≤ n + 2)
  let due := decide (x.offAt ≠ 0) && decide (x.offAt ≤ n)
  let off := due && decide (80 ≤ x.idle) && cluUnheld s c
  let y : PwrClu :=
    { x with
      radio := radio, pinned := !(cluPinners s c).isEmpty, tj := env.tj.getD c 0
      point := if on || (radio && decide (x.point < 4)) then 0 else if off then 4 else x.point
      usableAt := if on then n + 2 else if off then 0 else x.usableAt
      offAt := if due then 0 else x.offAt
      idle := if cluUnheld s c then Nat.min 80 (x.idle + 1) else 0 }
  modPc s c (fun _ => y)

/-- Step 4 of R27, and the power core's work of the new clove. -/
def powerStep (s : State) (env : BoundaryEnv) : State :=
  let old := s
  let s := { s with pwr := { s.pwr with tjMax := env.tj.foldl Nat.max 0 } }
  let s := (List.range 20).foldl (cluPower env) s
  let s := throttleEvents old (applyDue (pruneActions s))
  decidePower ((List.range 8).foldl hbmOffStep ((List.range 6).foldl domStep s)) env

/-- CLUSTER_IDLE_OFF (R25, R385): the cluster is set to OFF at the next boundary that can be committed, if it is still idle. -/
def execClusterIdleOff (c : Fin 20) (s : State) : Host.Outcome State Fault Refusal :=
  inRun s (fun s =>
    let x := getPc s c.val
    if decide (x.point < 4) && decide (80 ≤ x.idle) && cluUnheld s c.val then
      modPc s c.val (fun x => { x with offAt := nextCommit s }) else s)

/-- The power core decides to switch a domain off at the next boundary that it can commit (R25). -/
def switchOff (s : State) (d : Nat) : State :=
  { s with pwr := { s.pwr with domOffAt := tabSet 0 s.pwr.domOffAt d (nextCommit s) } }

/-- A link group, Ethernet group or the radio domain is switched off after 80 cloves without need. -/
def idleOff (s : State) (d : Nat) : State :=
  if domOn s d && decide (80 ≤ tabGet 0 s.pwr.idle d) && !domNeeded s d && decide (tabGet 0 s.pwr.domOffAt d = 0) then switchOff s d else s

/-- DOMAIN_IDLE_OFF (R436). The host-interface group never goes off within RUN; an HBM group goes off when its last
pseudo-channel is retired. -/
def execDomainIdleOff (d : Domain) (s : State) : Host.Outcome State Fault Refusal :=
  inRun s (fun s =>
    match d with
    | .hbm n =>
      if (List.range 64).all (fun i => tabGet false s.hbm.pcRetired (64 * n.val + i)) && decide (tabGet 0 s.pwr.domOffAt (6 + n.val) = 0) then
        switchOff s (6 + n.val) else s
    | .link g => idleOff s g.val
    | .eth g => idleOff s (3 + g.val)
    | .host => s
    | .radio => idleOff s 5)

/-- alert_n: low while an action is in force (R439). -/
def alertN (s : State) : Bool := s.pwr.actions.isEmpty

end Sys2Proof.Machine
end

