-- ==== Sys2Proof/Machine/Service.lean ====
section
/-! DEFINITION. Testing and repairing in service: cluster tests (R413-R415, R77), coding-engine instances (R416), pseudo-channel
retirement (R418), the scrubber (R407-R409) and the management UART (R425, R426). -/

namespace Sys2Proof.Machine

open Sys2Proof

/-! ### Cluster tests -/

/-- A partition holds something in a cluster that only its end gives back (R413). -/
def holdsFixed (s : State) (c : Nat) : Bool :=
  (liveParts s).any (fun p =>
    let h := getHold s p c
    h.saf || decide (h.sram ≠ 0) || decide (h.lss ≠ 0) || decide (h.engines ≠ 0) || decide (h.csp ≠ 0) || decide (h.eq ≠ 0))

/-- The groups of a cluster. -/
def cluGroups (c : Nat) : List Nat := (List.range 4).map (fun g => 4 * c + g)

/-- A pinned array or a radio grant lies in a cluster (R413). -/
def pinnedOrGranted (s : State) (c : Nat) : Bool :=
  (cluGroups c).any (fun k => (pinner s k).isSome) || s.grants.any (fun g => (cluGroups c).contains g.1)

/-- The conditions under which SVC_CLUSTER_TEST completes with BUSY (R413). -/
def testBlocked (s : State) (c : Nat) : Bool :=
  holdsFixed s c || pinnedOrGranted s c || decide ((getClu s c).svc = 1) || decide ((getClu s c).svc = 2)

/-- Some task holds a group of a cluster. -/
def cluTasks (s : State) (c : Nat) : Bool := (cluGroups c).any (fun k => (taskHolder s k).isSome)

/-- A cluster leaves service for its test: nothing is placed there from the next boundary that can be committed (R25, R413). -/
def askTest (s : State) (c : Nat) : State := modClu s c (fun cl => { cl with svc := 1, svcFrom := nextCommit s })

/-- The test of a cluster begins once nothing is placed there any more and no task holds a group of it. -/
def beginTest (s : State) (c : Nat) : State :=
  if decide ((getClu s c).svc = 1) && decide ((getClu s c).svcFrom ≤ s.time.clove) && !cluTasks s c then
    modClu s c (fun cl => { cl with svc := 2, testClove := s.time.clove }) else s

/-- A cluster that waits for its test at a boundary: from the one it was committed for, the tasks that hold a group of it are revoked,
which the boundary announces and the next one does (R28, R413). -/
def testStep (s : State) (c : Nat) : State :=
  let cl := getClu s c
  if decide (cl.svc = 1) && decide (cl.svcFrom ≤ s.time.clove) && cluTasks s c then announce (revokeGroups s (cluGroups c) (s.time.clove + 1))
  else beginTest s c

/-- SVC_CLUSTER_TEST (R413). -/
def execSvcClusterTest (r : RingId) (k : Pkt) (s : State) : Host.Outcome State Fault Refusal :=
  inRun s (fun s =>
    let c := fld (wd k.w 0) 7 0
    fwRun s r 0x50 k []
      (fun s => errsOf [ (decide (19 < c), stBadParam), (decide (c ≤ 19) && testBlocked s c, stBusy) ])
      (fun s => .wait (askTest s c) (.clusterTest c) []))

/-- CLUSTER_TEST_START (R413, R415): the control core's own test starts when R413 first allows it; a test that was asked for
begins when the tasks have left. -/
def execClusterTestStart (c : Fin 20) (s : State) : Host.Outcome State Fault Refusal :=
  inRun s (fun s =>
    let s := if (getClu s c.val).selfTest && decide ((getClu s c.val).svc = 0) && !testBlocked s c.val then askTest s c.val else s
    beginTest s c.val)

/-- The result word of a test (R414). -/
def testWord (f : ClusterTest) : Word :=
  BitVec.ofNat 32 (f.arrays.toNat + (if f.units = 0 then 0 else 2 ^ 17) + 2 ^ 18 * b2n f.cspFailed + 2 ^ 19 * b2n f.engineFailed)

/-- Arrays that passed are returned to service, those that failed are recorded (R71, R77, R414). A logical index has an array again
when its own passes, to which it returns as it is reassigned, or the one it maps to. -/
def testArrays (s : State) (c : Nat) (f : ClusterTest) : State :=
  let pass (a : Nat) : Bool := !f.arrays.getLsbD a
  let s := modClu s c (fun cl => { cl with failed := cl.failed &&& f.arrays })
  let s := ((List.range 17).filter (fun a => f.arrays.getLsbD a)).foldl (fun s a => recordFailure s c a 4) s
  let cl := getClu s c
  let lost := cl.lostArrays.filter (fun l => !pass l && !pass (physOf cl l))
  modClu s c (fun cl => { cl with
    lostArrays := lost
    la := lost.foldl (fun t l => tabMod {} t l (fun (la : LArray) => { la with halted := true }))
      (tabMapV {} cl.la (fun la => { la with halted := false })) })

/-- The end of a test: SRAM and weight buffers read as zero without poison, failed units and clusters leave the pool, and the
command completes (R413-R415). -/
def finishTest (s : State) (c : Nat) (f : ClusterTest) : State :=
  let self := (getClu s c).selfTest
  let s := modClu s c (fun cl => { cl with
    sram := {}, lssPsn := [], pa := tabMapV {} cl.pa (fun _ => {})
    unitsRetired := cl.unitsRetired ||| f.units, cspFailed := f.cspFailed, selfTest := false
    svc := if f.cspFailed || f.engineFailed then 3 else 0 })
  let s := if f.cspFailed || f.engineFailed then modPc s c (fun x => { x with point := 4, usableAt := 0 }) else s
  let s := testArrays s c f
  let s := completeWhere s (fun o => decide (o.why = .clusterTest c)) (fun _ => (stOk, [testWord f]))
  if self then evPool s 0x070A [(1, c), (4, (testWord f).toNat)] else s

/-- CLUSTER_TEST_END (R413-R415). -/
def execClusterTestEnd (c : Fin 20) (found : ClusterTest) (s : State) : Host.Outcome State Fault Refusal :=
  inRun s (fun s => if (getClu s c.val).svc = 2 then finishTest s c.val found else s)

/-- CLUSTER_TEST_TIMEOUT (R414): after 400 cloves the command completes with TIMEOUT and the cluster stays out of service. The
result word that CLUSTER_OUT then carries is free. -/
def execClusterTestTimeout (c : Fin 20) (s : State) : Host.Outcome State Fault Refusal :=
  inRun s (fun s =>
    let cl := getClu s c.val
    if cl.svc ≠ 2 ∨ s.time.clove < cl.testClove + 400 then s else
    let s := modClu s c.val (fun cl => { cl with svc := 3, selfTest := false })
    let s := completeWait s (.clusterTest c.val) stTimeout
    if cl.selfTest then
      let f := takeFree s 32
      evPool f.2 0x070A [(1, c.val), (4, f.1.toNat)]
    else s)

/-! ### SVC_ENGINE_BYPASS (R416) -/

/-- SVC_ENGINE_BYPASS (R208, R416): a job in progress runs to its end; the last instance in service of a pool is not bypassed; a
self-test that fails leaves the instance bypassed. -/
def execSvcEngineBypass (r : RingId) (k : Pkt) (s : State) : Host.Outcome State Fault Refusal :=
  inRun s (fun s =>
    let pool := fld (wd k.w 0) 1 0
    let n := fld (wd k.w 0) 5 2
    let off := bit (wd k.w 0) 8
    let key := instKey pool n
    fwRun s r 0x51 k []
      (fun s => errsOf [ (decide (poolSize pool ≤ n), stBadParam),
        (!off && decide (n < poolSize pool) && (getInst s key).faulty, stNoResource),
        (off && decide (inService s pool = [n]), stRefusedMode) ])
      (fun s =>
        let s := modInst s key (fun I => { I with bypass := off })
        let s := if off then capacityCheck s pool else jobFeed s pool s.radio.waiting.length
        .done s stOk []))

/-! ### SVC_PC_RETIRE (R418) -/

/-- The pages in use on a pseudo-channel. -/
def pagesOn (s : State) (pc : Nat) : List Nat := (s.hbm.owner.filter (fun o => decide (pcOfPage o.1 = pc))).map (fun o => o.1)

/-- A free page for a page of a partition, away from a pseudo-channel. -/
def newPage (s : State) (pc p : Nat) : Option Nat :=
  (takePages (fun g => pageFree s (getPart s p).isSealed (getPart s p).pcs g && decide (pcOfPage g ≠ pc)) 196608 0 1).head?

/-- The listed entries of a table with keys lo to lo + len - 1 move to keys from dest on, in place of what stood there. -/
def tabMove {α : Type} [DecidableEq α] (d : α) (t : Tab α) (lo len dest : Nat) : Tab α :=
  let gone := tabKeep (fun k => !(decide (lo ≤ k) && decide (k < lo + len)) && !(decide (dest ≤ k) && decide (k < dest + len))) t
  (t.filter (fun e => decide (lo ≤ e.1) && decide (e.1 < lo + len))).foldl (fun r e => tabSet d r (e.1 - lo + dest) e.2) gone

/-- Move one page: its contents with their poison, its owner, the entries that point to it, and where exports find it. -/
def movePage (s : State) (g n : Nat) : State :=
  let p := tabGet 0 s.hbm.owner g - 1
  let m := s.hbm.m
  let s := { s with hbm := { s.hbm with
    m := { mem := tabMove 0 m.mem (pageBytes * g) pageBytes (pageBytes * n), psn := tabMove false m.psn (32768 * g) 32768 (32768 * n) }
    owner := tabSet 0 (tabSet 0 s.hbm.owner g 0) n (p + 1)
    pageMarked := tabSet false s.hbm.pageMarked g false
    moved := tabSet 0 (tabMapV 0 s.hbm.moved (fun x => if x = g + 1 then n + 1 else x)) g (n + 1) } }
  modPart s p (fun P => { P with
    pages := P.pages.map (fun x => if x = g then n else x)
    pt := tabMapV {} P.pt (fun e => if e.v ∧ e.kind = 0 ∧ e.target = pageBytes * g then { e with target := pageBytes * n } else e) })

/-- The pages of a pseudo-channel that hold page tables. -/
def tablesOn (s : State) (pc : Nat) : List Nat := (s.hbm.tables.filter (fun o => decide (pcOfPage o.1 = pc))).map (fun o => o.1)

/-- The page of the other copy beside a page of page tables (R411). -/
def otherCopy (s : State) (g : Nat) : Option Nat :=
  let P := getPart s (tabGet 0 s.hbm.tables g - 1)
  match P.tabA.idxOf? g with
  | some i => P.tabB[i]?
  | none => (P.tabB.idxOf? g).bind (fun i => P.tabA[i]?)

/-- Page tables move off a pseudo-channel (R411, R418). -/
def moveTable (s : State) (g : Nat) : State :=
  match tablePage s (otherCopy s g) with
  | none => s
  | some n => replaceTable s (tabGet 0 s.hbm.tables g - 1) g n

/-- Free pages suffice for the tables of a pseudo-channel, one page after another. -/
def canMoveTables (s : State) : List Nat → Bool
  | [] => true
  | g :: t =>
    match tablePage s (otherCopy s g) with
    | none => false
    | some n => canMoveTables (replaceTable s (tabGet 0 s.hbm.tables g - 1) g n) t

/-- Free pages suffice for the pages of a pseudo-channel that is to be retired, and then for the tables on it. -/
def canRetire (s : State) (pc : Nat) : List Nat → Bool
  | [] => canMoveTables s (tablesOn s pc)
  | g :: t =>
    let p := tabGet 0 s.hbm.owner g - 1
    match newPage s pc p with
    | none => false
    | some n => canRetire { s with hbm := { s.hbm with owner := tabSet 0 s.hbm.owner n (p + 1) } } pc t

/-- Move the pages one by one, as far as there are free ones. -/
def movePages (s : State) (pc : Nat) : List Nat → State
  | [] => s
  | g :: t =>
    match newPage s pc (tabGet 0 s.hbm.owner g - 1) with
    | none => s
    | some n => movePages (movePage s g n) pc t

/-- SVC_PC_RETIRE (R418): the pages move and the tables are switched at the next boundary that can be committed. -/
def execSvcPcRetire (r : RingId) (k : Pkt) (s : State) : Host.Outcome State Fault Refusal :=
  inRun s (fun s =>
    let pc := fld (wd k.w 0) 8 0
    fwRun s r 0x52 k []
      (fun s => errsOf [ (tabGet false s.hbm.pcRetired pc, stBadParam), (!canRetire { s with hbm := { s.hbm with retiring := some pc } } pc (pagesOn s pc), stNoResource),
        (s.hbm.retiring.isSome, stBusy) ])
      (fun s => .wait { s with hbm := { s.hbm with retiring := some pc } } (.pcRetire pc) []))

/-- The pages of a pseudo-channel that is being retired move at a boundary; with the last of them the command completes. -/
def retireStep (s : State) : State :=
  match s.hbm.retiring with
  | none => s
  | some pc =>
    let s := movePages (disturbPc s pc) pc (pagesOn s pc)
    let s := (tablesOn s pc).foldl moveTable s
    if !(pagesOn s pc).isEmpty || !(tablesOn s pc).isEmpty then s else
    completeWait { s with hbm := { s.hbm with retiring := none, pcRetired := tabSet false s.hbm.pcRetired pc true } } (.pcRetire pc) stOk

/-! ### The scrubber -/

/-- SCRUB_READ (R407-R409): a granule of HBM is corrected, or poisoned in place and its address logged. -/
def execScrubRead (granule : Nat) (found : Ecc) (s : State) : Host.Outcome State Fault Refusal :=
  inRun s (fun s =>
    if 196608 * 32768 ≤ granule then s else
    match found with
    | .clean => s
    | .corrected => hbmCe s (64 * granule)
    | .uncorrectable => hbmUe { s with sec := { s.sec with errorLog := s.sec.errorLog ++ [64 * granule] } } (64 * granule))

/-! ### The UART -/

/-- UART_FRAME_RX (R425, R426): it runs in the always-on domain. -/
def execUartFrameRx (f : UartFrame) (s : State) : Host.Outcome State Fault Refusal :=
  .next (
    if !s.pwr.porN || !s.uart.en || f.startHigh then s
    else if !f.stopHigh then { s with uart := { s.uart with framing := satInc 16 s.uart.framing 1 } }
    else { s with uart := { s.uart with
      data := f.data, valid := true, overrun := if s.uart.valid then satInc 16 s.uart.overrun 1 else s.uart.overrun } })

/-- UART_RX_READ (R426): the read clears VALID. -/
def execUartRxRead (s : State) : Host.Outcome State Fault Refusal :=
  inRun s (fun s => { s with uart := { s.uart with valid := false } })

end Sys2Proof.Machine
end

