-- ==== Sys2Proof/Machine/Cardamom.lean ====
section
/-! DEFINITION. The cardamom instructions (R126-R131), the completion of their entries (R130, R446) and substitution in
real-time queues (R138). -/

namespace Sys2Proof.Machine

open Sys2Proof

/-- END (R125, R126). -/
def execEndInsn (c : Fin 20) (e : Fin 8) (s : State) : Host.Outcome State Fault Refusal :=
  inRun s (fun s => if engAt s c.val e.val 0 then settleEngine (modEng s c.val e.val engEnd) c.val e.val else s)

/-- SETX (R126). -/
def execSetx (c : Fin 20) (e : Fin 8) (s : State) : Host.Outcome State Fault Refusal :=
  inRun s (fun s => engScalar s c.val e.val 1 (fun E w => setX E (fld w 25 22) (cardImm w)))

/-- ADDX (R126). -/
def execAddx (c : Fin 20) (e : Fin 8) (s : State) : Host.Outcome State Fault Refusal :=
  inRun s (fun s => engScalar s c.val e.val 2 (fun E w => setX E (fld w 25 22) (engX E (fld w 25 22) + cardImm w)))

/-- ADDR (R126). -/
def execAddr (c : Fin 20) (e : Fin 8) (s : State) : Host.Outcome State Fault Refusal :=
  inRun s (fun s => engScalar s c.val e.val 3 (fun E w =>
    setX E (fld w 25 22) (engX E (fld w 25 22) + engX E (fld w 21 18))))

/-- LOOP (R126, R128). -/
def execLoop (c : Fin 20) (e : Fin 8) (s : State) : Host.Outcome State Fault Refusal :=
  inRun s (fun s => if engAt s c.val e.val 4 then modEng s c.val e.val (fun E =>
    beginLoop E (fld (engInsn E) 5 0) (fld (engInsn E) 21 6 + 1)) else s)

/-- LOOPX (R126, R128): a count of 0 or less skips the body. -/
def execLoopx (c : Fin 20) (e : Fin 8) (s : State) : Host.Outcome State Fault Refusal :=
  inRun s (fun s => if engAt s c.val e.val 5 then modEng s c.val e.val (fun E =>
    beginLoop E (fld (engInsn E) 5 0) (engX E (fld (engInsn E) 25 22))) else s)

/-- RD (R118, R123, R124, R126, R127, R130, R136). -/
def execRd (c : Fin 20) (e : Fin 8) (ecc : List (Nat × Ecc)) (s : State) : Host.Outcome State Fault Refusal :=
  inRun s (fun s => engRead s c.val e.val 6 ecc (fun t P => [rdRun t (portXs t P) (portLen P)]))

/-- WR (R118, R124, R126, R127, R134, R137). -/
def execWr (c : Fin 20) (e : Fin 8) (s : State) : Host.Outcome State Fault Refusal :=
  inRun s (fun s => engPop s c.val e.val 7 (fun t P => some (linearIndex t (portXs t P))))

/-- RDS (R121, R123, R126). -/
def execRds (c : Fin 20) (e : Fin 8) (ecc : List (Nat × Ecc)) (s : State) : Host.Outcome State Fault Refusal :=
  inRun s (fun s => engRead s c.val e.val 8 ecc (fun t P =>
    [rdsRun t (P.xs.getD 0 0) (P.xs.getD 1 0) (portLen P)]))

/-- RDW (R118, R119, R123, R124, R126). -/
def execRdw (c : Fin 20) (e : Fin 8) (ecc : List (Nat × Ecc)) (s : State) : Host.Outcome State Fault Refusal :=
  inRun s (fun s => engRead s c.val e.val 9 ecc (fun t P =>
    [rdwRun t (P.xs.getD 0 0) (P.xs.getD 1 0) P.plFirst P.plCount]))

/-- WRW (R118, R124, R126, R137). -/
def execWrw (c : Fin 20) (e : Fin 8) (s : State) : Host.Outcome State Fault Refusal :=
  inRun s (fun s => engPop s c.val e.val 10 (fun _ _ => none))

/-- RDT (R123, R126, R139). -/
def execRdt (c : Fin 20) (e : Fin 8) (ecc : List (Nat × Ecc)) (s : State) : Host.Outcome State Fault Refusal :=
  inRun s (fun s => engRead s c.val e.val 11 ecc (fun t P => rdtRuns t (portXs t P)))

/-- PLS (R126). -/
def execPls (c : Fin 20) (e : Fin 8) (s : State) : Host.Outcome State Fault Refusal :=
  inRun s (fun s => engScalar s c.val e.val 12 (fun E w => { E with plFirst := fld w 5 3, plCount := fld w 2 0 + 1 }))

/-- DLS (R126). -/
def execDls (c : Fin 20) (e : Fin 8) (s : State) : Host.Outcome State Fault Refusal :=
  inRun s (fun s => engScalar s c.val e.val 13 (fun E w => { E with dlOff := fld w 19 18, dlCycle := fld w 17 0 }))

/-- DLA (R126). -/
def execDla (c : Fin 20) (e : Fin 8) (s : State) : Host.Outcome State Fault Refusal :=
  inRun s (fun s => engScalar s c.val e.val 14 (fun E w => addDl E (fld w 17 0)))

/-- The queues that a program pushes to. -/
def pushQueues (E : Engine) : List Nat :=
  (E.qslot.filter (fun w => bit w.2 31 && !bit w.2 6)).map (fun w => fld w.2 5 0)

/-- A checkpoint of an engine is held until a slice that took its marked entries ends (R140): some queue that the engine pushes to
feeds the execute engine, no engine popping it. -/
def marksHeld (s : State) (c e : Nat) : Bool :=
  (pushQueues (getEng s c e)).any (fun q => (List.range 8).all (fun e' =>
    !((getEng s c e').qslot.any (fun w => bit w.2 31 && bit w.2 6 && decide (fld w.2 5 0 = q)))))

/-- SLM saves the engine as a checkpoint and marks the next entry of each queue (R140). -/
def saveEngine (E : Engine) : Engine :=
  let E1 := engGo E E.pc
  let sv : EngSave :=
    { x := E1.x, loops := E1.loops, pc := E1.pc, plFirst := E1.plFirst, plCount := E1.plCount
      dlOff := E1.dlOff, dlCycle := E1.dlCycle, pops := E1.pops
      early := match E.port with
        | some P => decide (cardOp P.w = 7) || decide (cardOp P.w = 10)
        | none => false }
  { E1 with saves := E1.saves ++ [sv], markNext := pushQueues E1, replay := none }

/-- SLM (R140): it waits while both checkpoints are held by slices that have not ended; where no slice holds them, the older one
makes room. A program that consumes an aborted slice's output stops here, once its port is free (R141). -/
def execSlm (c : Fin 20) (e : Fin 8) (s : State) : Host.Outcome State Fault Refusal :=
  inRun s (fun s =>
    let E := getEng s c.val e.val
    if !engAt s c.val e.val 15 then s
    else if E.stopSlm then (if E.port.isSome then s else stopTaker s c.val e.val)
    else if decide (2 ≤ E.saves.length) && marksHeld s c.val e.val then s
    else modEng s c.val e.val (fun E => saveEngine (if 2 ≤ E.saves.length then { E with saves := E.saves.drop 1 } else E)))

/-- WAITB (R126, R130). -/
def execWaitb (c : Fin 20) (e : Fin 8) (s : State) : Host.Outcome State Fault Refusal :=
  inRun s (fun s => if engAt s c.val e.val 16 then
    modEng s c.val e.val (fun E =>
      let E1 := engGo E E.pc
      { E1 with waitB := E1.run }) else s)

/-! ### Completion of entries -/

/-- The entry as it arrives: read whole, or with what came for the granules from afar, those that a failed read touched as
poisoned zeros (R130, R446). None while a granule that a fabric load supplies is missing. -/
def arriveEntry (f : Flight) : Arrival → Option Entry
  | .ok => if f.far.isEmpty then some f.entry else none
  | .remote gs bad =>
    if f.far.all (fun g => bad.any (fun x => decide (x.1 = g)) || gs.any (fun x => decide (x.1 = g))) then
      some { f.entry with gr := f.entry.gr.mapIdx (fun i g =>
        if g.pad || !(f.far.contains i || f.hst.contains i) then g else
        match bad.find? (fun x => decide (x.1 = i)) with
        | some x => { g with data := 0, psn := true, tmo := x.2 && f.far.contains i }
        | none =>
          match gs.find? (fun x => decide (x.1 = i)) with
          | some x => { g with data := x.2.1, psn := x.2.2 }
          | none => g) }
    else none

/-- Remove the oldest entry in flight for a queue. -/
def dropFlight (q : Nat) : List Flight → List Flight
  | [] => []
  | f :: r => if f.q = q then r else f :: dropFlight q r

/-- CARD_ENTRY_COMPLETE (R130, R132, R138, R446): the oldest entry in flight for the queue is discarded against SKIP, or pushed
once the queue has room. -/
def execCardEntryComplete (c : Fin 20) (e : Fin 8) (q : Fin 64) (res : Arrival) (s : State) :
    Host.Outcome State Fault Refusal :=
  inRun s (fun s =>
    match (getEng s c.val e.val).flight.find? (fun f => decide (f.q = q.val)) with
    | none => s
    | some f =>
      match arriveEntry f res with
      | none => s
      | some en =>
        let Q := getEq (getClu s c.val) q.val
        let drop (s : State) : State := checkUnmap (modEng s c.val e.val (fun E => { E with
          flight := dropFlight q.val E.flight })) (getEng s c.val e.val).part
        if Q.rt && decide (0 < Q.skip) then
          modEq (drop s) c.val q.val (fun Q => { Q with skip := Q.skip - 1, late := satInc 8 Q.late 1 })
        else if 64 ≤ Q.entries.length then s
        else modEq (pushQ (drop s) c.val q.val en) c.val q.val (fun Q => { Q with waitFrom := none }))

/-- The entries in flight for a queue, in issue order. -/
def queueFlights (s : State) (c q : Nat) : List Flight :=
  ((getClu s c).eng.flatMap (fun e => e.2.flight)).filter (fun f => decide (f.q = q))

/-- A deadline has been reached. -/
def dlReached (s : State) (clove cycle : Nat) : Bool :=
  decide (clove < s.time.clove) || (decide (clove = s.time.clove) && decide (cycle ≤ s.time.cycle))

/-- The execute engine needs the next granule of a queue for an array: for the operation that runs there, or for the head operation
of a context that waits only for its first operand granule (R133, R135, R138). -/
def arrayWants (s : State) (c q l : Nat) : Bool :=
  let la := getLa s c l
  match la.run with
  | some r => !la.halted && decide (opWants r = some q)
  | none => [false, true].any (fun ctx =>
    match ctxHead la ctx with
    | none => false
    | some x => decide (firstQ x.2 = some q) && (opErrs s c x.1 x.2).isEmpty && headFree s c l x.1 x.2)

/-- Some consumer needs the next granule of a queue (R138). -/
def queueWanted (s : State) (c q : Nat) : Bool :=
  (List.range 16).any (arrayWants s c q) || (List.range 8).any (fun e => decide (portWants s c e = some q))

/-- RT_SUBSTITUTE (R138): a consumer that needs the next granule of an empty queue looks at the oldest entry in flight that SKIP
does not cover, and takes a substitute once its deadline is reached; with none in flight it waits until the end of the clove in
which it began waiting. -/
def execRtSubstitute (c : Fin 20) (q : Fin 64) (s : State) : Host.Outcome State Fault Refusal :=
  inRun s (fun s =>
    let Q := getEq (getClu s c.val) q.val
    if !Q.en || !Q.rt || !Q.entries.isEmpty || !queueWanted s c.val q.val then s else
    let head := ((queueFlights s c.val q.val).drop Q.skip).head?
    let from_ := Q.waitFrom.getD s.time.clove
    let due := match head with
      | some f => dlReached s f.dlClove f.dlCycle
      | none => dlReached s from_ 249999
    if !due then modEq s c.val q.val (fun Q => { Q with waitFrom := some from_ }) else
    let shape : Entry := match head with
      | some f => f.entry
      | none => { gr := List.replicate 8 { pad := false }, mark := false }
    let en : Entry := { shape with gr := shape.gr.map (fun g => { data := 0, psn := false, pad := g.pad, erased := true }) }
    let s := modEq (pushQ s c.val q.val en) c.val q.val (fun Q => { Q with
      skip := satInc 32 Q.skip 1, miss := satInc 8 Q.miss 1, subs := Q.subs + 1, waitFrom := none })
    { s with health := { s.health with misses := satInc 32 s.health.misses 1 } })

end Sys2Proof.Machine
end

