-- ==== Sys2Proof/Machine/Tick.lean ====
section
/-! DEFINITION. What passes with time: the clock, the watchdogs of the arrays (R63) and the waits of real-time consumers (R138). -/

namespace Sys2Proof.Machine

open Sys2Proof

/-- A consumer that needs the next granule of an empty real-time queue is waiting from this clove on, if it was not already (R138). -/
def noteWait (c : Nat) (s : State) (q : Nat) : State :=
  let Q := getEq (getClu s c) q
  if Q.en && Q.rt && Q.entries.isEmpty && Q.waitFrom.isNone && queueWanted s c q then
    modEq s c q (fun Q => { Q with waitFrom := some s.time.clove })
  else s

/-- The waits of every cluster's real-time consumers. -/
def noteWaits (s : State) : State :=
  (s.clusters.map (fun x => x.1)).foldl (fun s c => ((getClu s c).eq.map (fun q => q.1)).foldl (noteWait c) s) s

/-- Some array cycles pass: the arrays' watchdogs count them, and waits that have begun are known. -/
def cyclesPass (s : State) (n : Nat) : State := if mainOn s then noteWaits (watchArrays s n) else s

/-- One array cycle passes (R10). The last cycle of a clove of a running clock ends only with CLOVE_BOUNDARY (R212). -/
def passCycle (s : State) : State :=
  if s.time.cloveRun && decide (s.time.cycle = 249999) then s else tick (cyclesPass s 1)

end Sys2Proof.Machine
end

