-- ==== Sys2Proof/Machine/Boundary.lean ====
section
/-! DEFINITION. CLOVE_BOUNDARY (R24-R28): what the end of a clove and the boundary do, in the order of R27. -/

namespace Sys2Proof.Machine

open Sys2Proof

/-! ### The clove that ends -/

/-- SPOOF (R313): once for a clove with failed checks, with their count. -/
def spoofEvent (s : State) (p : Nat) : State :=
  let P := getPart s p
  if P.spoofClove = 0 then s else
  modPart (evPart s p 0x0601 [(1, 0), (1, P.spoofSub), (1, P.spoofChk), (4, P.spoofClove)]) p (fun P => { P with spoofClove := 0 })

/-- DEADLINE_MISS of a queue (R138): once for a clove with substitutions, with their count. -/
def missEvent (s : State) (c q : Nat) : State :=
  let Q := getEq (getClu s c) q
  if Q.subs = 0 then s else
  modEq (evPart s Q.part 0x0102 [(1, 0), (1, c), (1, q), (4, s.time.clove % 2 ^ 32), (4, Q.subs)]) c q (fun Q => { Q with subs := 0 })

/-- The queues of a cluster. -/
def missEvents (s : State) (c : Nat) : State := ((getClu s c).eq.map (fun q => q.1)).foldl (fun s q => missEvent s c q) s

/-- The signature of a cluster after a clove (R244). -/
def rollSig (sig sum : BitVec 64) : BitVec 64 := (sig.rotateLeft 1) ^^^ sum

/-- A run computes its signatures of the clove that ends, and its disturbances of that clove are known (R244-R246). -/
def rollRun (s : State) (p : Nat) : State :=
  match (getPart s p).launch with
  | none => s
  | some L =>
    if !L.running || (L.ended && decide (L.endedIn ≠ s.time.clove)) then s else
    let sigs := (runClusters s L).foldl (fun t c => tabSet 0 t c (rollSig (tabGet 0 L.sigs c) (tabGet 0 L.sums c))) []
    let L1 : Launch :=
      { L with sigs := sigs, lastSigs := sigs, sums := [], distLast := L.distNow, distEver := L.distEver || L.distNow, distNow := false }
    modPart s p (fun P => { P with launch := some L1 })

/-- What is counted and reported at the end of a clove. -/
def endClove (s : State) (env : BoundaryEnv) : State :=
  let s := cyclesPass s (250000 - s.time.cycle)
  let s := (liveParts s).foldl spoofEvent s
  let s := (liveClusters s).foldl missEvents s
  let s := (liveParts s).foldl loseOpen s
  let s := (liveParts s).foldl rollRun s
  overruns s s.time.clove env.use

/-! ### The clock (R212, R214, R226) -/

/-- The clock at the boundary that begins the next clove: its reading is 125,000 ns for each clove of its index (R212). -/
def advanceClock (t : TimeUnit) : TimeUnit :=
  let n := t.clove + 1
  slewClove { t with
    clove := n, cycle := 0, now := t.now + (250000 - t.cycle)
    sec := BitVec.ofNat 48 (125000 * n / 1000000000), ns := 125000 * n % 1000000000, frac := 0
    markMiss := if t.markBest.isNone then t.markMiss + 1 else 0, markBest := none }

/-! ### What the boundary releases -/

/-- The engines of a cluster that wait for a boundary go on (R125, R130). -/
def releaseEngines (s : State) (c : Nat) : State :=
  modClu s c (fun cl => { cl with eng := tabMapV {} cl.eng (fun E => { E with waitB := false }) })

/-- The contexts of a cluster: those that are new to their partition issue from cycle 768 of this clove (R147), and the boundary
reaches them. -/
def releaseCsp (s : State) (c : Nat) : State :=
  cspBoundary (modClu s c (fun cl => { cl with csp := tabMapV {} cl.csp (fun o =>
    { o with issueFrom := if 187500 < o.issueFrom then 768 else 0 }) })) c

/-- A link's counts of the clove begin again (R253), and a width that was asked for is taken (R260). -/
def linkStep (s : State) (l : Nat) : State :=
  let s := modLink s l (fun k => { k with fec := [] })
  let k := getLink s l
  if decide (k.st = 3) && (dueWidth s k).isSome then
    (if k.widthReq.toNat % 3 = k.widthAct.toNat then modLink s l (fun k => { k with widthAt := 0 }) else fastRetrain s l true none)
  else s

/-- A spill of an open accumulation is outstanding in a cluster (R93). -/
def spillOpen (cl : Cluster) : Bool :=
  cl.pa.any (fun a => a.2.accs.any (fun x => decide (x.2.openBy ≠ 0) && (x.2.mark || x.2.spilled)))

/-- The LSS window of a cluster takes the size that its holders need, where no spill is outstanding (R93). -/
def lssResize (s : State) (c : Nat) : State :=
  if spillOpen (getClu s c) then s else modClu s c (fun cl => { cl with lssSize := 64 - windowFrom s c })

/-- A PART_CREATE or PART_DESTROY no longer waits for a cluster whose window is right and that is usable (R93, R385). -/
def holdRelease (s : State) (x : Nat × Nat) : State :=
  let s := lssResize s x.2
  if decide ((getClu s x.2).lssSize = 64 - windowFrom s x.2) && decide ((getPc s x.2).point < 4) && decide ((getPc s x.2).usableAt ≤ s.time.clove) then
    let s := { s with lssHold := s.lssHold.erase x }
    noticeCheck s x.1 (!(getPart s x.1).noticeOpen)
  else s

/-- DIRTY_SWAP (R345): the other bitmap becomes active. -/
def swapStep (s : State) (p : Nat) : State :=
  if s.outst.any (fun o => decide (o.why = .swap p)) then
    let s := modPart s p (fun P => { P with dirtyActive := !P.dirtyActive })
    completeWhere s (fun o => decide (o.why = .swap p)) (fun _ => (stOk, [BitVec.ofNat 32 (b2n (getPart s p).dirtyActive)]))
  else s

/-- The signature message of the clove that has ended goes to the twin, and one that came early is compared (R245). -/
def twinStep (s : State) (p : Nat) : State :=
  match (getPart s p).launch with
  | none => s
  | some L =>
    if !twinOpen s p then s else
    let n := s.time.clove - 1
    let m : TwinMsg :=
      { runId := L.runId, clove := BitVec.ofNat 32 n, disturb := L.distLast
        sigs := (runClusters s L).map (fun c => (c, tabGet 0 L.lastSigs c)) }
    let s := sendOn s (chipPath s L.twinChip) (.twin L.twinChip L.twinPart m)
    match L.twinRx with
    | none => s
    | some r =>
      if r.clove ≠ BitVec.ofNat 32 n then s
      else if r.runId ≠ L.runId then loseTwin s p
      else compareTwin s p r

/-- HEALTH (R423): every 8,000 cloves, with the links that are down. -/
def healthStep (s : State) : State :=
  if s.time.clove % 8000 ≠ 0 then s else
  let h := s.health
  let down := ((List.range 24).filter (fun l => !linkAlive s l)).foldl (fun n l => n + 2 ^ l) 0
  evPool { s with health := {} } 0x070B
    [(4, h.retrains), (4, h.replays), (4, h.downs), (4, h.timeouts), (4, h.hbmCe), (4, h.misses), (4, h.spares), (4, down)]

/-- What the boundary releases and starts outside the steps of R27. -/
def releaseStep (s : State) : State :=
  let cs := liveClusters s
  let s := cs.foldl releaseEngines s
  let s := cs.foldl releaseCsp s
  let s := (List.range 4).foldl feedPool s
  let s := runDma ((s.fab.links.map (fun l => l.1)).foldl linkStep s)
  let s := resetAllowances (radioBoundary s)
  let s := s.lssHold.foldl holdRelease s
  let s := (liveParts s).foldl swapStep s
  let s := (liveParts s).foldl checkUnmap s
  let s := (liveParts s).foldl twinStep s
  let s := (List.range 20).foldl testStep (retireStep s)
  healthStep (offsetCheck (sendMarkers s))

/-- The boundary that begins the next clove: the steps of R27 in their order, each with the results of those before. -/
def boundary (s : State) (env : BoundaryEnv) : State :=
  let charges := cloveCharges s
  let s := endClove s env
  let s := { s with time := advanceClock s.time }
  let s := (liveClusters s).foldl substitute s
  let s := programStep s
  let s := scheduleStep s charges
  releaseStep (powerStep s env)

/-- CLOVE_BOUNDARY (R24, R213): raised while the cloves run. -/
def execCloveBoundary (env : BoundaryEnv) (s : State) : Host.Outcome State Fault Refusal :=
  inRun s (fun s => if s.time.cloveRun then boundary s env else s)

end Sys2Proof.Machine
end

