-- ==== Sys2Proof/Machine/Csp.lean ====
section
/-! DEFINITION. The CSP instructions (R149-R164), the time slice (R144) and the register-file parity error (R168). -/

namespace Sys2Proof.Machine

open Sys2Proof

/-! ### Loads and stores -/

/-- VLD (R150-R154, R157). -/
def execVld (k : Slot) (d : Fin 32) (p m : Fin 16) (circ : Bool) (ecc : Ecc) (s : State) : Host.Outcome State Fault Refusal :=
  cspAccess k p m circ 64 (fun s a =>
    let s := cspEcc s k.c.val a ecc
    wrD s k d.val (granData (getClu s k.c.val).sram (a / 64)) (cspPsn s k.c.val a)) s

/-- VLDB (R150-R154, R157): one element to all lanes. -/
def execVldb (k : Slot) (t : Lt) (d : Fin 32) (p m : Fin 16) (circ : Bool) (ecc : Ecc) (s : State) :
    Host.Outcome State Fault Refusal :=
  cspAccess k p m circ (ltBits t / 8) (fun s a =>
    let s := cspEcc s k.c.val a ecc
    let v := sramNum (getClu s k.c.val) a (ltBits t / 8)
    wrD s k d.val (packD (ltBits t) (List.replicate (512 / ltBits t) v)) (cspPsn s k.c.val a)) s

/-- VST (R150-R152, R154, R157): the store is made when its bundle ends. -/
def execVst (k : Slot) (d : Fin 32) (p m : Fin 16) (circ : Bool) (s : State) : Host.Outcome State Fault Refusal :=
  cspAccess k p m circ 64 (fun s a =>
    let r := oldRegs s k
    modCsp s k.c.val k.x.val (fun o => { o with stores := o.stores ++ [(a, rdD r d.val, rdDPsn r d.val)] })) s

/-! ### Lane arithmetic -/

/-- Clamp to a signed width. -/
def clampBits (w : Nat) (x : Int) : Int := clampInt (-(2 ^ (w - 1) : Nat)) ((2 ^ (w - 1) : Nat) - 1) x

/-- VADD (R155). -/
def execVadd (k : Slot) (t : Lt) (d u v : Fin 32) (s : State) : Host.Outcome State Fault Refusal :=
  vec2 k d u v (mapLanes2 (ltBits t) (fun a b => a + b)) s

/-- VSUB (R155). -/
def execVsub (k : Slot) (t : Lt) (d u v : Fin 32) (s : State) : Host.Outcome State Fault Refusal :=
  vec2 k d u v (mapLanes2 (ltBits t) (fun a b => a + (2 ^ ltBits t - b))) s

/-- A saturating lane operation on signed values (R155). -/
def vecSat (k : Slot) (t : Lt) (d u v : Fin 32) (f : Int → Int → Int) (s : State) : Host.Outcome State Fault Refusal :=
  cspSlot k s (fun s =>
    let r := oldRegs s k
    let w := ltBits t
    let xs := (List.range (512 / w)).map (fun i => f (toSigned w (lane w (rdD r u.val) i)) (toSigned w (lane w (rdD r v.val) i)))
    let s := setSat s k (xs.any (fun x => decide (clampBits w x ≠ x)))
    wrD s k d.val (packD w (xs.map (fun x => ofSigned w (clampBits w x)))) (rdDPsn r u.val || rdDPsn r v.val))

/-- VADDS (R155). -/
def execVadds (k : Slot) (t : Lt) (d u v : Fin 32) (s : State) : Host.Outcome State Fault Refusal :=
  vecSat k t d u v (fun a b => a + b) s

/-- VSUBS (R155). -/
def execVsubs (k : Slot) (t : Lt) (d u v : Fin 32) (s : State) : Host.Outcome State Fault Refusal :=
  vecSat k t d u v (fun a b => a - b) s

/-- The lane maximum or minimum (R156). -/
def laneMaxMin (t : Lt) (isMax : Bool) (a b : Nat) : Nat :=
  match t with
  | .f => fMaxMin fmtFP32 isMax a b
  | .d => fMaxMin fmtFP64 isMax a b
  | _ =>
    let w := ltBits t
    if isMax then (if toSigned w a < toSigned w b then b else a) else (if toSigned w b < toSigned w a then b else a)

/-- VMAX (R156). -/
def execVmax (k : Slot) (t : Lt) (d u v : Fin 32) (s : State) : Host.Outcome State Fault Refusal :=
  vec2 k d u v (mapLanes2 (ltBits t) (laneMaxMin t true)) s

/-- VMIN (R156). -/
def execVmin (k : Slot) (t : Lt) (d u v : Fin 32) (s : State) : Host.Outcome State Fault Refusal :=
  vec2 k d u v (mapLanes2 (ltBits t) (laneMaxMin t false)) s

/-- VAND (R157). -/
def execVand (k : Slot) (d u v : Fin 32) (s : State) : Host.Outcome State Fault Refusal := vec2 k d u v (fun a b => a &&& b) s

/-- VOR (R157). -/
def execVor (k : Slot) (d u v : Fin 32) (s : State) : Host.Outcome State Fault Refusal := vec2 k d u v (fun a b => a ||| b) s

/-- VXOR (R157). -/
def execVxor (k : Slot) (d u v : Fin 32) (s : State) : Host.Outcome State Fault Refusal := vec2 k d u v (fun a b => a ^^^ b) s

/-- VSEL (R157): the bit of Ds where the mask is 1, of Dt where it is 0. -/
def execVsel (k : Slot) (d m u v : Fin 32) (s : State) : Host.Outcome State Fault Refusal :=
  cspSlot k s (fun s =>
    let r := oldRegs s k
    let mask := rdD r m.val
    wrD s k d.val ((mask &&& rdD r u.val) ||| (~~~mask &&& rdD r v.val))
      (rdDPsn r m.val || rdDPsn r u.val || rdDPsn r v.val))

/-- VSHL (R155). -/
def execVshl (k : Slot) (t : Lt) (d u : Fin 32) (n : Fin 64) (s : State) : Host.Outcome State Fault Refusal :=
  vec1 k d u (mapLanes (ltBits t) (fun a => a * 2 ^ n.val)) s

/-- VSHR (R155). -/
def execVshr (k : Slot) (t : Lt) (d u : Fin 32) (n : Fin 64) (s : State) : Host.Outcome State Fault Refusal :=
  vec1 k d u (mapLanes (ltBits t) (fun a => ofSigned (ltBits t) (Int.fdiv (toSigned (ltBits t) a) ((2 ^ n.val : Nat) : Int)))) s

/-- VPERM (R157). -/
def execVperm (k : Slot) (d u v : Fin 32) (s : State) : Host.Outcome State Fault Refusal :=
  vec2 k d u v (fun a b => packD 16 ((List.range 32).map (fun i => lane 16 a (lane 16 b i % 32)))) s

/-! ### Multiply-accumulate -/

/-- The clamp of an ACC lane (R155). -/
def clampAcc (x : Int) : Int := clampInt (-(2 ^ 39 - 1)) (2 ^ 39 - 1) x

/-- Add values to the lanes of an ACC register, each clamped (R155). -/
def accAdd (k : Slot) (a : Fin 8) (psn : Bool) (xs : Nat → Int) (s : State) : State :=
  let r := oldRegs s k
  let l := (List.range 32).map (fun i => accLane (rdAcc r a.val) i + xs i)
  let s := setSat s k (l.any (fun x => decide (clampAcc x ≠ x)))
  wrAcc s k a.val (packAcc (l.map clampAcc)) (psn || rdAccPsn r a.val)

/-- A signed 16-bit lane. -/
def lane16 (v : GranuleBits) (i : Nat) : Int := toSigned 16 (lane 16 v i)

/-- What VMAC adds to lane i: a product, or a part of a complex product, conjugated where conj says so (R157). -/
def macTerm (cplx conj : Bool) (u v : GranuleBits) (i : Nat) : Int :=
  if !cplx then lane16 u i * lane16 v i
  else
    let j := i / 2 * 2
    let ar := lane16 u j
    let ai := lane16 u (j + 1)
    let br := lane16 v j
    let bi := if conj then -(lane16 v (j + 1)) else lane16 v (j + 1)
    if i % 2 = 0 then ar * br - ai * bi else ar * bi + ai * br

/-- VMAC (R155, R157). -/
def execVmac (k : Slot) (t : Lt) (a : Fin 8) (u v : Fin 32) (s : State) : Host.Outcome State Fault Refusal :=
  cspSlot k s (fun s =>
    let r := oldRegs s k
    accAdd k a (rdDPsn r u.val || rdDPsn r v.val) (macTerm (decide (t = .c)) false (rdD r u.val) (rdD r v.val)) s)

/-- VMACJ (R155, R157). -/
def execVmacj (k : Slot) (a : Fin 8) (u v : Fin 32) (s : State) : Host.Outcome State Fault Refusal :=
  cspSlot k s (fun s =>
    let r := oldRegs s k
    accAdd k a (rdDPsn r u.val || rdDPsn r v.val) (macTerm true true (rdD r u.val) (rdD r v.val)) s)

/-- VCLR (R157). -/
def execVclr (k : Slot) (a : Fin 8) (s : State) : Host.Outcome State Fault Refusal :=
  cspSlot k s (fun s => wrAcc s k a.val 0 false)

/-- VBIAS (R155, R156). -/
def execVbias (k : Slot) (a : Fin 8) (n : Nat) (s : State) : Host.Outcome State Fault Refusal :=
  cspSlot k s (fun s => accAdd k a false (fun _ => ((2 ^ (n - 1) : Nat) : Int)) s)

/-- VSHRN (R155, R157): `.H` narrows all 32 lanes, `.W` the 16 of half h. -/
def execVshrn (k : Slot) (t : Lt) (d : Fin 32) (a : Fin 8) (n : Nat) (h : Bool) (s : State) : Host.Outcome State Fault Refusal :=
  cspSlot k s (fun s =>
    let r := oldRegs s k
    let w := ltBits t
    let base := if w = 16 then 0 else 16 * b2n h
    let xs := (List.range (512 / w)).map (fun i => Int.fdiv (accLane (rdAcc r a.val) (base + i)) ((2 ^ n : Nat) : Int))
    let s := setSat s k (xs.any (fun x => decide (clampBits w x ≠ x)))
    wrD s k d.val (packD w (xs.map (fun x => ofSigned w (clampBits w x)))) (rdAccPsn r a.val))

/-! ### Floating lanes -/

/-- The format of a floating lane type. -/
def ltFmt (t : Lt) : Fmt := if t = .d then fmtFP64 else fmtFP32

/-- VFADD (R156). -/
def execVfadd (k : Slot) (t : Lt) (d u v : Fin 32) (s : State) : Host.Outcome State Fault Refusal :=
  vec2 k d u v (mapLanes2 (ltBits t) (fAdd (ltFmt t))) s

/-- VFMUL (R156). -/
def execVfmul (k : Slot) (t : Lt) (d u v : Fin 32) (s : State) : Host.Outcome State Fault Refusal :=
  vec2 k d u v (mapLanes2 (ltBits t) (fMul (ltFmt t))) s

/-- VFMA (R156): Dd + Ds × Dt with one rounding. -/
def execVfma (k : Slot) (t : Lt) (d u v : Fin 32) (s : State) : Host.Outcome State Fault Refusal :=
  cspSlot k s (fun s =>
    let r := oldRegs s k
    let w := ltBits t
    wrD s k d.val (packD w ((List.range (512 / w)).map (fun i =>
      fFma (ltFmt t) (lane w (rdD r d.val) i) (lane w (rdD r u.val) i) (lane w (rdD r v.val) i))))
      (rdDPsn r d.val || rdDPsn r u.val || rdDPsn r v.val))

/-- An integer in a floating format, to nearest even. -/
def fOfInt (f : Fmt) (x : Int) : Nat := dyRound f .rne false { z := x, e := 0 }

/-- A binary32 code as a 32-bit integer toward zero, and whether R155 counts a clamp. -/
def fToW (a : Nat) : Nat × Bool :=
  match fvOf fmtFP32 a with
  | .nan => (0, true)
  | .inf x => (ofSigned 32 (if x then -(2 ^ 31) else 2 ^ 31 - 1), true)
  | .fin x m e =>
    let z := dyTrunc (fvDy x m e)
    (ofSigned 32 (clampBits 32 z), decide (clampBits 32 z ≠ z))

/-- The lanes that VCVT writes, lane width first, and whether a clamp occurred (R155, R157). -/
def cvtLanes (t : Cvt) (h : Bool) (v : GranuleBits) : Nat × List Nat × Bool :=
  match t with
  | .ld => (64, (List.range 8).map (fun i => fOfInt fmtFP64 (toSigned 64 (lane 64 v i))), false)
  | .fd => (64, (List.range 8).map (fun i => fCvt fmtFP32 fmtFP64 .rne (lane 32 v (8 * b2n h + i))), false)
  | .df => (32, (List.range 16).map (fun i =>
      if i / 8 = b2n h then fCvt fmtFP64 fmtFP32 .rne (lane 64 v (i % 8)) else 0), false)
  | .hf => (32, (List.range 16).map (fun i => fOfInt fmtFP32 (toSigned 16 (lane 16 v (16 * b2n h + i)))), false)
  | .wf => (32, (List.range 16).map (fun i => fOfInt fmtFP32 (toSigned 32 (lane 32 v i))), false)
  | .fw =>
    let l := (List.range 16).map (fun i => fToW (lane 32 v i))
    (32, l.map (fun x => x.1), l.any (fun x => x.2))

/-- VCVT (R155-R157). -/
def execVcvt (k : Slot) (t : Cvt) (d u : Fin 32) (h : Bool) (s : State) : Host.Outcome State Fault Refusal :=
  cspSlot k s (fun s =>
    let r := oldRegs s k
    let x := cvtLanes t h (rdD r u.val)
    wrD (setSat s k x.2.2) k d.val (packD x.1 x.2.1) (rdDPsn r u.val))

/-- The function of VFUNC in one lane (R156). -/
def funcLane : Func → Nat → Nat
  | .exp2, a => fExp2 a
  | .rcp, a => fRcp a
  | .rsq, a => fRsq a

/-- VFUNC (R156). -/
def execVfunc (k : Slot) (f : Func) (d u : Fin 32) (s : State) : Host.Outcome State Fault Refusal :=
  vec1 k d u (mapLanes 32 (funcLane f)) s

/-- The largest of integer lanes and its lowest index. -/
def maxIndex (l : List Int) : Nat × Int :=
  (l.zipIdx).foldl (fun (b : Nat × Int) x => if b.2 < x.1 then (x.2, x.1) else b) (0, l.getD 0 0)

/-- VRMAX of a register: lane 0 the largest, lane 1 its index (R157). -/
def rmaxLanes (t : Lt) (v : GranuleBits) : List Nat :=
  let w := ltBits t
  let ls := (List.range (512 / w)).map (lane w v)
  match t with
  | .f =>
    let ok := (ls.zipIdx).filter (fun x => decide (fvOf fmtFP32 x.1 ≠ .nan))
    (match ok with
     | [] => [nanCode fmtFP32, 0]
     | x :: r =>
       let b := r.foldl (fun b y => if fKey fmtFP32 b.1 < fKey fmtFP32 y.1 then y else b) x
       [b.1, fOfInt fmtFP32 (b.2 : Nat)])
  | _ =>
    let b := maxIndex (ls.map (toSigned w))
    [ofSigned w b.2, b.1]

/-- VRMAX (R157). -/
def execVrmax (k : Slot) (t : Lt) (d u : Fin 32) (s : State) : Host.Outcome State Fault Refusal :=
  vec1 k d u (fun v => packD (ltBits t) (rmaxLanes t v)) s

/-- The sum that VRSUM puts in lane 0 (R92, R155, R157). -/
def rsumLane (t : Lt) (v : GranuleBits) : Nat :=
  let w := ltBits t
  let ls := (List.range (512 / w)).map (lane w v)
  match t with
  | .f => fCvt fmtFP64 fmtFP32 .rne (treeSum (ls.map (fCvt fmtFP32 fmtFP64 .rne)))
  | .d => treeSum ls
  | _ => ls.foldl (fun a b => a + b) 0 % 2 ^ w

/-- VRSUM (R155-R157): lane 0 is the sum; R157 states nothing of the other lanes, which take free values that the source
register gives (log entry 30), so that R231 holds of the register as a whole. -/
def execVrsum (k : Slot) (t : Lt) (d u : Fin 32) (s : State) : Host.Outcome State Fault Refusal :=
  cspSlot k s (fun s =>
    let r := oldRegs s k
    let w := ltBits t
    let rest := Config.rsumRest w (rdD r u.val)
    wrD s k d.val (BitVec.ofNat 512 (rsumLane t (rdD r u.val) + 2 ^ w * rest.toNat)) (rdDPsn r u.val))

/-! ### Scalars and control -/

/-- MOVP (R157). -/
def execMovp (k : Slot) (p : Fin 16) (v : Scalar) (s : State) : Host.Outcome State Fault Refusal :=
  scalar k (fun o r => { r with p := tabSet 0 r.p p.val (scalarVal o v) }) s

/-- ADDP (R157). -/
def execAddp (k : Slot) (p : Fin 16) (v : Scalar) (s : State) : Host.Outcome State Fault Refusal :=
  scalar k (fun o r => { r with p := tabSet 0 r.p p.val (tabGet 0 o.p p.val + scalarVal o v) }) s

/-- MOVM (R157). -/
def execMovm (k : Slot) (m : Fin 16) (v : Scalar) (s : State) : Host.Outcome State Fault Refusal :=
  scalar k (fun o r => { r with m := tabSet 0 r.m m.val (scalarVal o v) }) s

/-- SETB (R152). -/
def execSetb (k : Slot) (b : Fin 8) (v : Scalar) (s : State) : Host.Outcome State Fault Refusal :=
  scalar k (fun o r => { r with b := tabSet 0 r.b b.val (scalarVal o v &&& 0xFFFFFFC0) }) s

/-- SETL (R152). -/
def execSetl (k : Slot) (l : Fin 8) (v : Scalar) (s : State) : Host.Outcome State Fault Refusal :=
  scalar k (fun o r => { r with l := tabSet 0 r.l l.val (scalarVal o v &&& 0xFFFFFFC0) }) s

/-- VMOVS (R150, R157): a poisoned source stops the context with cause 0x5. -/
def execVmovs (k : Slot) (m : Fin 16) (u : Fin 32) (i : Fin 16) (s : State) : Host.Outcome State Fault Refusal :=
  cspSlot k s (fun s =>
    let r := oldRegs s k
    if rdDPsn r u.val then faultCsp s k.c.val k.x.val 5
    else modRegs s k (fun r' => { r' with m := tabSet 0 r'.m m.val (BitVec.ofNat 32 (lane 32 (rdD r u.val) i.val)) }))

/-- DBNZ (R157). -/
def execDbnz (k : Slot) (m : Fin 16) (t : Fin 1024) (s : State) : Host.Outcome State Fault Refusal :=
  cspSlot k s (fun s =>
    let v := tabGet 0 (oldRegs s k).m m.val - 1
    let s := modRegs s k (fun r => { r with m := tabSet 0 r.m m.val v })
    if v = 0 then s else modCsp s k.c.val k.x.val (fun o => { o with branch := some t.val }))

/-- REP (R146, R158-R160): it repeats the next bundle. On a cluster where a REP has delayed the radio in this clove, the
bundle of a non-radio context does not issue and the context waits at it. -/
def execRep (k : Slot) (n : Nat) (s : State) : Host.Outcome State Fault Refusal :=
  cspSlot k s (fun s =>
    if repBarred s k.c.val k.x.val then waitRep s k.c.val k.x.val
    else modCsp s k.c.val k.x.val (fun o => { o with repArm := n }))

/-- CSP_WAITB (R157). -/
def execCspWaitb (k : Slot) (s : State) : Host.Outcome State Fault Refusal :=
  cspSlot k s (fun s => modCsp s k.c.val k.x.val (fun o => { o with wait := .boundary }))

/-- The partition holds the engine's program or the array that WAITC names (R163). -/
def waitHeld (s : State) (c p src : Nat) : Bool :=
  if src < 8 then decide ((getEng s c src).part = p) && !(getEng s c src).prog.isEmpty
  else decide (16 ≤ src) && decide ((getLa s c (src - 16)).part = some p)

/-- WAITC (R163). -/
def execWaitc (k : Slot) (src : Fin 32) (m : Fin 16) (s : State) : Host.Outcome State Fault Refusal :=
  cspSlot k s (fun s =>
    let p := (getCsp s k.c.val k.x.val).part
    let target := tabGet 0 (oldRegs s k).m m.val
    if !waitHeld s k.c.val p src.val then faultCsp s k.c.val k.x.val 3
    else if countReached (waitCount s k.c.val src.val) target then s
    else modCsp s k.c.val k.x.val (fun o => { o with wait := .count src.val target }))

/-- FSET (R164): a window outside the partition's SRAM stops the context with cause 0x1, one that is not a multiple of 4 KiB
with cause 0x2 (R152, log entry 31). -/
def execFset (k : Slot) (f : Fin 8) (p m : Fin 16) (s : State) : Host.Outcome State Fault Refusal :=
  cspSlot k s (fun s =>
    let r := oldRegs s k
    let q := (getCsp s k.c.val k.x.val).part
    let a := (tabGet 0 r.p p.val).toNat
    let n := (tabGet 0 r.m m.val).toNat
    let units := if n = 0 then [a / 2 ^ 18] else (List.range ((a + n - 1) / 2 ^ 18 - a / 2 ^ 18 + 1)).map (fun i => a / 2 ^ 18 + i)
    if decide (2 ^ 24 < a + n) || !units.all (fun u => sramMine s q k.c.val (2 ^ 18 * u)) then faultCsp s k.c.val k.x.val 1
    else if a % 4096 ≠ 0 ∨ n % 4096 ≠ 0 then faultCsp s k.c.val k.x.val 2
    else modClu s k.c.val (fun cl => { cl with
      fence := tabSet {} cl.fence f.val { base := a / 4096, len := n / 4096, closed := false, ctx := k.x } }))

/-- FCLOSE (R164). -/
def execFclose (k : Slot) (f : Fin 8) (s : State) : Host.Outcome State Fault Refusal :=
  cspSlot k s (fun s => modClu s k.c.val (fun cl => { cl with fence := tabMod {} cl.fence f.val (fun x => { x with closed := true }) }))

/-- FOPEN (R164): the stores of earlier bundles have been made. -/
def execFopen (k : Slot) (f : Fin 8) (s : State) : Host.Outcome State Fault Refusal :=
  cspSlot k s (fun s => modClu s k.c.val (fun cl => { cl with fence := tabMod {} cl.fence f.val (fun x => { x with closed := false }) }))

/-- HALT (R157): the stores of its bundle are made, the program ends, and the owner receives CSP_HALT. -/
def execHalt (k : Slot) (code : BitVec 8) (s : State) : Host.Outcome State Fault Refusal :=
  cspSlot k s (fun s =>
    let c := k.c.val
    let x := k.x.val
    let o := getCsp s c x
    let s := modCsp (makeStores s c x) c x (fun o => { o with
      st := 0, old := o.regs, mid := false, branch := none, wait := .none })
    pickCsp (cspPendings (cspEvent s o 0x0104 [(1, c), (1, x), (1, code.toNat)]) c) c)

/-- CSP_TIMESLICE (R144): the running context has run 4,096 cycles and yields between bundles; a radio context 0, which runs
ahead of every other, yields to none. -/
def execCspTimeslice (c : Fin 20) (s : State) : Host.Outcome State Fault Refusal :=
  inRun s (fun s => pickCsp (modClu s c.val (fun cl =>
    if cl.cspRun = cl.cspTurn then { cl with cspTime := 4096 } else cl)) c.val)

/-- CSP_PARITY_ERROR (R168, R415): every context that uses the file stops with cause 0x4, the cluster's CSP is marked failed,
and the control core will start the cluster test. -/
def execCspParityError (c : Fin 20) (users : BitVec 4) (s : State) : Host.Outcome State Fault Refusal :=
  inRun s (fun s =>
    let s := (List.range 4).foldl (fun s x =>
      if users.getLsbD x && ((getCsp s c.val x).st == 1 || (getCsp s c.val x).st == 2) then faultCsp s c.val x 4 else s) s
    pickCsp (modClu s c.val (fun cl => { cl with cspFailed := true, selfTest := true })) c.val)

end Sys2Proof.Machine
end

