-- ==== Sys2Proof/Machine/Migrate.lean ====
section
/-! DEFINITION. PART_SAVE and PART_RESTORE (R347, R348, R402). The image's layout within its seal is not stated: an opaque codec
stands for it (log entry 39). -/

namespace Sys2Proof.Machine

open Sys2Proof

/-- What an image holds of one cluster, its members in ascending order; arrays by 4 * (place of the group) + array. -/
structure CluImage where
  sram : List PMem
  lss : List PMem
  wb : Tab PArray
  descQ : Tab (List (List Word))
  eq : List Eq
  eng : List Engine
  csp : List CspCtx
deriving DecidableEq, Repr

/-- What a partition's image holds (R347). -/
structure PartImage where
  part : Part
  clus : List CluImage
  pages : List PMem
deriving DecidableEq, Repr

/-- The plain bytes of an image, and what plain bytes spell (log entry 39). -/
opaque encodeImage (x : PartImage) : List Byte
opaque decodeImage (bs : List Byte) : Option PartImage

/-! ### Cutting and pasting -/

/-- Bytes lo to lo + n - 1 of a memory, counted from lo. -/
def cutPMem (m : PMem) (lo n : Nat) : PMem :=
  { mem := (tabKeep (fun a => decide (lo ≤ a) && decide (a < lo + n)) m.mem).map (fun e => (e.1 - lo, e.2))
    psn := (tabKeep (fun g => decide (lo / 64 ≤ g) && decide (g < (lo + n) / 64)) m.psn).map (fun e => (e.1 - lo / 64, e.2)) }

/-- Put a cut piece of n bytes at lo. -/
def pastePMem (m : PMem) (lo n : Nat) (x : PMem) : PMem :=
  let m := clearPMem m lo (lo + n)
  { mem := x.mem.foldl (fun t e => wrByte t (lo + e.1) e.2) m.mem
    psn := x.psn.foldl (fun t e => tabSet false t (lo / 64 + e.1) e.2) m.psn }

/-- The set bits of a mask of w bits, ascending. -/
def maskBits (w : Nat) (m : BitVec w) : List Nat := (List.range w).filter (fun i => m.getLsbD i)

/-- SRAM units that a holding names through LSS_MASK. -/
def lssList (h : Holding) : List Nat := (maskBits 16 h.lss).map (fun j => 48 + j)

/-- Counts of a holding: groups, SRAM units, LSS units, engines, contexts, queues (R348). -/
def holdCounts (h : Holding) : List Nat :=
  [(maskBits 4 h.groups).length, (maskBits 64 h.sram).length, (maskBits 16 h.lss).length, (maskBits 8 h.engines).length,
    (maskBits 4 h.csp).length, (maskBits 64 h.eq).length]

/-- The place of a value in a list, and the value at the same place of another. -/
def moveIdx (src dst : List Nat) (v : Nat) : Nat := dst.getD (src.findIdx (fun x => decide (x = v))) v

/-- The arrays of a cluster's named groups with their image keys. -/
def imageArrays (h : Holding) : List (Nat × Nat) :=
  ((maskBits 4 h.groups).zipIdx).flatMap (fun x => (List.range 4).map (fun i => (4 * x.2 + i, 4 * x.1 + i)))

/-- The image of one cluster. -/
def cluImage (s : State) (p c : Nat) (h : Holding) : CluImage :=
  let cl := getClu s c
  let unit (u : Nat) : PMem := cutPMem cl.sram (2 ^ 18 * u) (2 ^ 18)
  let arrs := (imageArrays h).filter (fun a => decide ((tabGet {} cl.la a.2).part = some p))
  { sram := (maskBits 64 h.sram).map unit
    lss := (lssList h).map unit
    wb := arrs.foldl (fun t a => tabSet {} t a.1 (tabGet {} cl.pa (physOf cl a.2))) []
    descQ := (imageArrays h).foldl (fun t a =>
      tabSet [] t a.1 (((tabGet {} cl.la a.2).descQ.filter (fun d => decide (d.1 = p))).map (fun d => d.2))) []
    eq := (maskBits 64 h.eq).map (fun q => tabGet {} cl.eq q)
    eng := (maskBits 8 h.engines).map (fun e => tabGet {} cl.eng e)
    csp := (maskBits 4 h.csp).map (fun x => tabGet {} cl.csp x) }

/-- The image of a partition (R347). -/
def partImage (s : State) (p : Nat) : PartImage :=
  let P := getPart s p
  { part := P, clus := P.hold.map (fun h => cluImage s p h.1 h.2)
    pages := P.pages.map (fun g => cutPMem s.hbm.m (pageBytes * g) pageBytes) }

/-- The image header after the salt: TYPE, MODE, HBM_PAGES and the counts of each cluster (R402). -/
def imageHeader (P : Part) : List Byte :=
  let cs := P.hold.flatMap (fun h => holdCounts h.2)
  leBytes 4 P.typ ++ leBytes 4 (b2n P.det) ++ leBytes 4 P.pages.length ++ leBytes 4 P.hold.length ++ cs.flatMap (leBytes 4)

/-- Bytes of a sealed image: salt, header, and the plain bytes with a 16-byte tag for each chunk of 1 MiB (R402). -/
def imageLength (header plain : List Byte) : Nat := 32 + header.length + plain.length + 16 * ceilDiv plain.length (2 ^ 20)

/-- LEN of PART_SAVE and PART_RESTORE. -/
def imgLen (k : Pkt) : Nat := fld64 k.w 3

/-- The length that a save needs. -/
def neededLength (s : State) (p : Nat) : Nat := imageLength (imageHeader (getPart s p)) (encodeImage (partImage s p))

/-- A number as two words. -/
def words64 (n : Nat) : List Word := [BitVec.ofNat 32 n, BitVec.ofNat 32 (n / 2 ^ 32)]

/-- PART_SAVE's checks (R347, R402); a partition that is not frozen answers BUSY (log entry 40). -/
def saveErrs (r : RingId) (k : Pkt) (s : State) : List Nat :=
  let p := fld (wd k.w 0) 7 0
  let P := getPart s p
  let n := neededLength s p
  partParamErrs s r p ++ errsOf
    [ (P.live && decide (imgLen k ≠ 0) && decide (imgLen k < n), stNoResource),
      (P.live && decide (n ≤ imgLen k) && !canWrVa s p (fld48 k.w 1) n, stBounds),
      (s.sec.sealKey.isNone, stDenied),
      (P.live && decide (P.st ≠ .frozen), stBusy) ]

/-- PART_SAVE (R347, R402). -/
def execPartSave (r : RingId) (k : Pkt) (s : State) : Host.Outcome State Fault Refusal :=
  let p := fld (wd k.w 0) 7 0
  inRun s (fun s => fwRun s r 0x15 k (words64 (neededLength s p)) (saveErrs r k) (fun s =>
    let res := words64 (neededLength s p)
    if imgLen k = 0 then .done s stOk res
    else
      let plain := encodeImage (partImage s p)
      let header := imageHeader (getPart s p)
      let salt := takeFree s 256
      let body := Config.sealImage (s.sec.sealKey.getD 0) salt.1 header plain
      let n := imageLength header plain
      let bytes := leBytes 32 salt.1.toNat ++ header ++ body
      .done (wrVa salt.2 p (fld48 k.w 1) ((bytes ++ List.replicate n 0).take n)) (if writeLost s p (fld48 k.w 1) n then stTimeout else stOk) res))

/-! ### PART_RESTORE (R348) -/

/-- The counts in an image's header agree with the target (R348). -/
def headerMatches (P : Part) (bs : List Byte) : Bool := decide ((bs.drop 32).take (imageHeader P).length = imageHeader P)

/-- The bytes of an image. -/
def imageBytes (s : State) (p : Nat) (k : Pkt) : Option (List Byte) := rdVa s p (fld48 k.w 1) (imgLen k)

/-- What a verified image holds. -/
def openedImage (s : State) (bs : List Byte) : Option PartImage :=
  match s.sec.sealKey with
  | none => none
  | some key => (Config.openImage key bs).bind decodeImage

/-- PART_RESTORE's checks (R348, R402). -/
def restoreErrs (r : RingId) (k : Pkt) (s : State) : List Nat :=
  let p := fld (wd k.w 0) 7 0
  let P := getPart s p
  partParamErrs s r p ++ (if !P.live then [] else
    errsOf [ (P.everRun, stBadParam), (decide (P.st ≠ .running), stBusy), (s.sec.sealKey.isNone, stDenied) ] ++
    (match imageBytes s p k with
     | none => [stBounds]
     | some bs => errsOf [(!headerMatches P bs, stBadParam), ((openedImage s bs).isNone, stDenied)]))

/-- Write what an image holds of one cluster into the matching cluster. -/
def putCluster (p : Nat) (hs hd : Holding) (x : CluImage) (cl : Cluster) : Cluster :=
  let paste (us : List Nat) (ms : List PMem) (m : PMem) : PMem :=
    (us.zip ms).foldl (fun m u => pastePMem m (2 ^ 18 * u.1) (2 ^ 18) u.2) m
  let qmap := moveIdx (maskBits 64 hs.eq) (maskBits 64 hd.eq)
  let umap := moveIdx (maskBits 64 hs.sram) (maskBits 64 hd.sram)
  let fixQ (Q : Eq) : Eq := if Q.en then { Q with part := p, base := 8 * umap (Q.base / 8) + Q.base % 8 } else Q
  let fixW (w : Word) : Word := putFld (putFld w 5 0 (qmap (fld w 5 0))) 17 9 (8 * umap (fld w 17 9 / 8) + fld w 17 9 % 8)
  let fixE (E : Engine) : Engine := if !engBusy E then E else { E with
    part := p, qslot := E.qslot.map (fun e => (e.1, fixW e.2)), flight := E.flight.map (fun f => { f with q := qmap f.q })
    markNext := E.markNext.map qmap, stopQs := E.stopQs.map qmap }
  { cl with
    sram := paste (lssList hd) x.lss (paste (maskBits 64 hd.sram) x.sram cl.sram)
    eq := ((maskBits 64 hd.eq).zip x.eq).foldl (fun t e => tabSet {} t e.1 (fixQ e.2)) cl.eq
    eng := ((maskBits 8 hd.engines).zip x.eng).foldl (fun t e => tabSet {} t e.1 (fixE e.2)) cl.eng
    csp := ((maskBits 4 hd.csp).zip x.csp).foldl (fun t e => tabSet {} t e.1 { e.2 with part := p, radio := false }) cl.csp }

/-- Put the arrays that the restored partition holds: weight buffer, accumulators, waiting descriptors with the new generation. -/
def putArrays (s : State) (p c : Nat) (hd : Holding) (x : CluImage) (groups : List Nat) : State :=
  (imageArrays hd).foldl (fun s a =>
    let s := modLa s c a.2 (fun la => { la with
      descQ := la.descQ ++ (tabGet [] x.descQ a.1).map (fun d => (p, placedDesc d p 0 (getPart s p).gen)) })
    if groups.contains (4 * c + a.2 / 4) && !isSaffron c a.2 then
      modPa (modLa s c a.2 (fun la => { la with part := some p, prev := p + 1 })) c (physOf (getClu s c) a.2)
        (fun _ => tabGet {} x.wb a.1)
    else s) s

/-- Map a group of the image's partition to the target's. -/
def moveGroup (src dst : Part) (k : Nat) : Nat := moveIdx (namedGroups src) (namedGroups dst) k

/-- Map a cluster likewise. -/
def moveCluster (src dst : Part) (c : Nat) : Nat := moveIdx (src.hold.map (fun h => h.1)) (dst.hold.map (fun h => h.1)) c

/-- A restored task keeps its groups where all of them are free here, and otherwise waits for a place (log entry 39). -/
def moveTask (s : State) (src dst : Part) (t : Task) : Task :=
  let held := t.held.map (moveGroup src dst)
  let engs := t.engs.map (fun e => 8 * moveCluster src dst (e / 8) + e % 8)
  let ctxs := t.ctxs.map (fun x => 4 * moveCluster src dst (x / 4) + x % 4)
  if held.all (groupFree s s.time.clove) then { t with held := held, engs := engs, ctxs := ctxs }
  else { t with held := [], again := true, waitFrom := s.time.clove, engs := [], ctxs := [] }

/-- The restored partition's record: the target's identity and resources with the image's state. -/
def restoredPart (s : State) (dst : Part) (x : PartImage) : Part :=
  let src := x.part
  let fixPte (e : Pte) : Pte :=
    if e.v && decide (e.kind = 0) then { e with target := pageBytes * moveIdx src.pages dst.pages (e.target / pageBytes) } else e
  let fixDesc (d : Desc) : Desc :=
    if d.live && decide (tSpace d.img ≠ 0) then
      { d with img := putFld (wd d.img 0) 23 16 (moveCluster src dst (tCluster d.img)) :: d.img.drop 1 } else d
  let fixShard (h : Shard) : Shard := if h.chip = s.fab.chipId.toNat then { h with cluster := moveCluster src dst h.cluster } else h
  { dst with
    st := .frozen, frozenAt := 0, thawAt := 0, everRun := true
    pt := src.pt.map (fun e => (e.1, fixPte e.2)), descs := src.descs.map (fun e => (e.1, fixDesc e.2)), progs := src.progs
    tasks := src.tasks.map (moveTask s src dst), nextTask := src.nextTask
    launch := src.launch.map (fun L => { L with place := L.place.map fixShard })
    seedLo := src.seedLo, seedHi := src.seedHi, oobWr := src.oobWr, srEntropy := src.srEntropy, disturb := src.disturb
    refused := src.refused, endClove := src.endClove, endCycle := src.endCycle, twinState := src.twinState }

/-- PART_RESTORE (R348, R402). -/
def execPartRestore (r : RingId) (k : Pkt) (s : State) : Host.Outcome State Fault Refusal :=
  let p := fld (wd k.w 0) 7 0
  inRun s (fun s => fwRun s r 0x16 k [] (restoreErrs r k) (fun s =>
    match openedImage s ((imageBytes s p k).getD []) with
    | none => .done s stDenied []
    | some x =>
      let dst := getPart s p
      let P := restoredPart s dst x
      let s0 := s
      let s := growTables (modPart s p (fun _ => P)) p ((P.pt.flatMap (fun e => rangeNodes (pageBytes * e.1) 1)).dedup)
      let s := (dst.pages.zip x.pages).foldl (fun s g =>
        { s with hbm := { s.hbm with m := pastePMem s.hbm.m (pageBytes * g.1) pageBytes g.2 } }) s
      let groups := P.tasks.flatMap (fun t => t.held) ++ pinnedGroups s P
      let s := ((dst.hold.zip x.part.hold).zip x.clus).foldl (fun s h =>
        putArrays (modClu s h.1.1.1 (putCluster p h.1.2.2 h.1.1.2 h.2)) p h.1.1.1 h.1.1.2 h.2 groups) s
      let lost := (x.part.tasks.filter (fun t => !(t.held.map (moveGroup x.part dst)).all (groupFree s0 s0.time.clove)))
      let s := lost.foldl (fun s t => dropWork s p (t.engs.map (fun e => 8 * moveCluster x.part dst (e / 8) + e % 8))
        (t.ctxs.map (fun c => 4 * moveCluster x.part dst (c / 4) + c % 4)) t.descs) s
      .done s stOk []))

end Sys2Proof.Machine
end

