-- ==== Sys2Proof/Machine/Reset.lean ====
section
/-! DEFINITION. Resets (R356-R358), package power states (R432-R435), tamper (R392, R403-R406) and the thermal trip (R439). -/

namespace Sys2Proof.Machine

open Sys2Proof

/-! ### The key store (R399, R401) -/

/-- Zeroise the key store; the seal key goes too, or is kept. -/
def zeroise (s : State) (keepSeal : Bool) : State :=
  emit { s with
    sec := { s.sec with identKey := false, partKeys := [], sealKey := if keepSeal then s.sec.sealKey else none }
    fab := { s.fab with links := tabMapV {} s.fab.links (fun k => { k with prk := none }) } } .zeroise

/-! ### What a reset keeps (R77, R261, R357, R409, R414) -/

/-- A link keeps its retired lanes. -/
def linkKept (k : Link) : Link := { lanesRet := k.lanesRet, st := if k.st = 5 then 5 else 0 }

/-- A cluster keeps its failed arrays, its retired SRAM units, and being out of service. SPARE_FOR returns to 0x3F (R76); where the
array whose index the spare served is still failed, the spare takes that index again at the first boundary (R36, log entry 52). -/
def cluKept (cl : Cluster) : Cluster :=
  let again := (spareUse cl).filter (fun l => cl.failed.getLsbD l && !cl.failed.getLsbD 16)
  let out := cl.lostArrays ++ (match again with
    | some l => [l]
    | none => [])
  { failed := cl.failed, cause := cl.cause, lostArrays := cl.lostArrays, subPending := again, unitsRetired := cl.unitsRetired
    la := out.foldl (fun t l => tabMod {} t l (fun (la : LArray) => { la with halted := true })) []
    svc := if cl.svc = 3 then 3 else 0, cspFailed := cl.cspFailed }

/-- HBM keeps what is retired; marked pages, whose partitions are gone, are retired too. -/
def hbmKept (h : Hbm) : Hbm :=
  { pcRetired := h.pcRetired
    pageRetired := h.pageMarked.foldl (fun t e => tabSet false t e.1 true) h.pageRetired }

/-- The fuses, the tamper latch and what stays until a power-on reset (R357, R398, R406). -/
def secKept (x : Security) : Security :=
  { lifecycle := x.lifecycle, debugDis := x.debugDis, rootSet := x.rootSet, root := x.root, minSvn := x.minSvn
    identErased := x.identErased, tamperLatch := x.tamperLatch, tamperCause := x.tamperCause
    lockViolation := x.lockViolation, dbgAccess := x.dbgAccess, sealKey := x.sealKey }

/-- The main domain in its reset state: what every reset but the power-on reset keeps, the pins, the always-on domain and the
host's memory (R357, R432, R434). -/
def mainReset (s : State) : State :=
  { time := { now := s.time.now }
    pwr := { porN := s.pwr.porN, pwrOk := s.pwr.pwrOk, perstN := s.pwr.perstN, thermtripN := s.pwr.thermtripN, stopped := s.pwr.stopped
             slept := s.pwr.slept, hbmOn := s.pwr.hbmOn, causePor := s.pwr.causePor, causeWake := s.pwr.causeWake
             causeDevice := s.pwr.causeDevice, causeTherm := s.pwr.causeTherm }
    sec := secKept s.sec, uart := s.uart, host := s.host, hostUp := s.hostUp, lastGen := s.lastGen
    clusters := tabMapV {} s.clusters cluKept, hbm := hbmKept s.hbm
    radio := { inst := tabMapV {} s.radio.inst (fun i => { faulty := i.faulty }) }
    fab := { links := tabMapV {} s.fab.links linkKept }
    fresh := s.fresh, out := s.out, pending := s.pending }

/-- A device reset (R357): every core returns to the boot ROM. -/
def deviceReset (s : State) : State :=
  let t := mainReset (zeroise s false)
  bootRom (noteFlag { t with pwr := { t.pwr with causeDevice := true } } .device)

/-- A host reset (R357): PART_RESET of each of its partitions, ascending. -/
def hostReset (s : State) (port : Nat) : State :=
  if s.boot.st ≠ .ready then s
  else ((liveParts s).filter (fun p => decide ((getPart s p).host.val = port))).foldl (fun s p =>
    if (getPart s p).wrapWait then s else resetPart s p false) s

/-- RESET (R358). -/
def execReset (key : BitVec 16) (s : State) : Host.Outcome State Fault Refusal :=
  inRun s (fun s => if key = 0xD1E5 then deviceReset s else s)

/-- FUNCTION_LEVEL_RESET (R357): also a hot reset, of a physical function. -/
def execFunctionLevelReset (f : Fn) (s : State) : Host.Outcome State Fault Refusal :=
  inRun s (fun s =>
    match f with
    | .pf port => if port.val = 0 then deviceReset s else hostReset s port.val
    | .vf port p =>
      let P := getPart s p.val
      if s.boot.st = .ready ∧ P.live ∧ P.host = port ∧ !P.wrapWait then resetPart s p.val false else s)

/-! ### Pins (R432-R435) -/

/-- PERST_N_LOW (R435). -/
def execPerstNLow (port : Fin 4) (s : State) : Host.Outcome State Fault Refusal :=
  .next (
    let s := { s with pwr := { s.pwr with perstN := s.pwr.perstN &&& ~~~(BitVec.ofNat 4 (2 ^ port.val)) } }
    if !mainOn s then s else
    let s := hostLinkLost s port.val
    if port.val = 0 then deviceReset s else hostReset s port.val)

/-- PERST_N_RISE (R435): the port trains its link; HOST_LINK_UP ends that. -/
def execPerstNRise (port : Fin 4) (s : State) : Host.Outcome State Fault Refusal :=
  .next { s with pwr := { s.pwr with perstN := s.pwr.perstN ||| BitVec.ofNat 4 (2 ^ port.val) } }

/-- POWER_ON_RESET (R357, R433): everything but the fuses and the tamper latch returns to its reset value while por_n is low. -/
def execPowerOnReset (s : State) : Host.Outcome State Fault Refusal :=
  let t := zeroise s false
  .next { State.reset with
    pwr := { perstN := s.pwr.perstN, pwrOk := s.pwr.pwrOk, thermtripN := s.pwr.thermtripN || !s.pwr.pwrOk }
    sec := { lifecycle := t.sec.lifecycle, debugDis := t.sec.debugDis, rootSet := t.sec.rootSet, root := t.sec.root
             minSvn := t.sec.minSvn, identErased := t.sec.identErased, tamperLatch := t.sec.tamperLatch
             tamperCause := t.sec.tamperCause }
    host := t.host, fresh := t.fresh, out := t.out, pending := t.pending }

/-- The package enters RUN: the boot ROM starts (R432, R433). A tamper alarm before it keeps the boot halted (R403). -/
def enterRun (s : State) : State := if s.boot.st = .halt ∧ s.boot.haltCause = 2 then s else bootRom s

/-- POR_N_RISE (R433): RESET, then SLEEP, and RUN if pwr_ok is high or rises in the same cycle. -/
def execPorNRise (pwrOk : Bool) (s : State) : Host.Outcome State Fault Refusal :=
  .next (
    if s.pwr.porN then s else
    let up := pwrOk || s.pwr.pwrOk
    let s := { s with pwr := { s.pwr with porN := true, pwrOk := up } }
    if up then enterRun s else s)

/-- PWR_OK_FALL (R434, R439): the main domain is reset, its links go down, and only the seal key is kept. -/
def execPwrOkFall (s : State) : Host.Outcome State Fault Refusal :=
  .next (
    let s := { s with pwr := { s.pwr with pwrOk := false, thermtripN := true, stopped := false } }
    if !s.pwr.porN then s else
    let t := mainReset (zeroise s true)
    { t with time := s.time, hostUp := 0, pwr := { t.pwr with slept := true } })

/-- PWR_OK_RISE (R433, R434): the first rise starts the boot; a later one is a start from sleep, and the clock restarts. -/
def execPwrOkRise (s : State) : Host.Outcome State Fault Refusal :=
  .next (
    if s.pwr.pwrOk then s else
    let s := { s with pwr := { s.pwr with pwrOk := true } }
    if !s.pwr.porN then s
    else if s.pwr.slept then
      bootRom (noteFlag { s with time := { now := s.time.now }
                                 pwr := { s.pwr with slept := false, causePor := false, causeWake := true } } .wake)
    else enterRun s)

/-! ### Tamper (R392, R403-R406) -/

/-- The latch and the cause bits of an alarm. -/
def latchTamper (s : State) (causes : BitVec 5) : State :=
  { s with sec := { s.sec with tamperLatch := true, tamperCause := s.sec.tamperCause ||| causes } }

/-- Every CSP stops at once: no bundle and no REP goes on (R159). -/
def haltReps (s : State) : State :=
  { s with clusters := tabMapV {} s.clusters (fun cl => { cl with csp := tabMapV {} cl.csp (fun o =>
    { o with stores := [], mid := false, repLeft := 0, repArm := 0, regs := o.old }) }) }

/-- The response in READY: keys are zeroised, every partition and cell stops, accepted commands complete with ABORTED, TAMPER
goes out and the device halts (R403, R404). -/
def tamperReady (s : State) (word : Nat) : State :=
  let s := haltReps (zeroise s false)
  let ps := liveParts s
  let s := ps.foldl (fun s p => stopPart s p true) s
  let s := completeWhere s (fun _ => true) (fun o => (stAborted, o.res))
  let s := evPool (ps.foldl (fun s p => evPart s p 0x0702 [(4, word)]) s) 0x0702 [(4, word)]
  { s with
    fab := { s.fab with links := tabMapV {} s.fab.links (fun k => linkDown k (if k.st = 5 then 5 else 0)) }
    boot := { s.boot with st := .halt, haltCause := 2 } }

/-- The response to an alarm; latch says whether it sets the latch and the cause bits (R392, R403). -/
def tamperResponse (s : State) (word : Nat) (latch : Option (BitVec 5)) : State :=
  let mark (s : State) : State := match latch with
    | some c => latchTamper s c
    | none => s
  if !s.pwr.porN then s
  else if !s.pwr.pwrOk && s.pwr.slept then mark (zeroise s false)
  else if s.boot.st = .ready ∧ mainOn s then tamperReady (mark s) word
  else if s.boot.st = .ready then { mark (zeroise s false) with boot := { s.boot with st := .halt, haltCause := 2 } }
  else if s.sec.tamperLatch ∧ s.boot.st = .halt then (if latch.isNone then zeroise s false else mark s)
  else { (if latch.isNone then zeroise s false else s) with boot := { s.boot with st := .halt, haltCause := 2 } }

/-- The cause word of TAMPER, with the bits of SEC_STAT [9:5] (13's table of events). -/
def causeWord (c : BitVec 5) : Nat := c.toNat * 32

/-- TAMPER_ALARM (R403-R406): the alarms of one cycle come as one set of causes. -/
def execTamperAlarm (causes : BitVec 5) (s : State) : Host.Outcome State Fault Refusal :=
  .next (if causes = 0 then s else tamperResponse s (causeWord causes) (some causes))

/-- DEBUG_ACCESS (R391, R392): the first internal access after a reset, in DEVELOPMENT and with the port open. -/
def execDebugAccess (s : State) : Host.Outcome State Fault Refusal :=
  inRun s (fun s =>
    if s.sec.lifecycle ≠ 0 ∨ s.sec.debugDis ∨ s.sec.dbgSeen then s else
    tamperResponse { s with sec := { s.sec with dbgSeen := true, dbgAccess := true } } 4096 none)

/-- THERMAL_TRIP (R439). -/
def execThermalTrip (s : State) : Host.Outcome State Fault Refusal :=
  inRun s (fun s =>
    let t := zeroise s true
    noteFlag { t with pwr := { t.pwr with stopped := true, causeTherm := true, thermtripN := false } } .therm)

end Sys2Proof.Machine
end

