-- ==== Sys2Proof/Machine/Security.lean ====
section
/-! DEFINITION. Security requests and fuses (R391-R397, R401, R405), pool manager authentication (R363) and the SPDM responder
(R378). Cryptography is opaque (log entry 10). -/

namespace Sys2Proof.Machine

open Sys2Proof

/-! ### Security requests (R395-R397) -/

/-- The address of the request block; bits [6:0] are ignored. -/
def secAddr (s : State) : Nat := s.sec.reqAddr / 128 * 128

/-- The request block; none where it cannot be read. -/
def secBlock (s : State) : Option (List Word) := (hostRead s 0 (secAddr s) 128).map (wordsOf 32)

def secKind (b : List Word) : Nat := fld (wd b 0) 3 0
def secType (b : List Word) : Nat := fld (wd b 0) 7 4
def secValue (b : List Word) : Nat := fld (wd b 0) 31 16
def secTokenLen (b : List Word) : Nat := (wd b 1).toNat
def secCapLen (b : List Word) : Nat := (wd b 2).toNat

/-- A reserved field of the block is not zero (R395). -/
def secReserved (b : List Word) : Bool :=
  let k := secKind b
  decide (fld (wd b 0) 15 8 ≠ 0) || (decide (k ≠ 2) && decide (secType b ≠ 0)) ||
  (decide (k ≠ 2) && decide (k ≠ 3) && decide (secValue b ≠ 0)) ||
  ((decide (k = 0) || decide (k = 5)) && decide (secTokenLen b ≠ 0)) ||
  (decide (k ≠ 5) && decide (k ≠ 6) && decide (wd b 2 ≠ 0)) ||
  (decide (k ≠ 5) && ((b.drop 3).take 11).any (fun w => decide (w ≠ 0))) ||
  decide (wd b 14 ≠ 0) || decide (wd b 15 ≠ 0)

/-- The kind needs a token (R396). -/
def needsToken (k : Nat) : Bool := (decide (1 ≤ k) && decide (k ≤ 4)) || decide (k = 6)

/-- The token of a request; none where it cannot be read. -/
def secToken (s : State) (b : List Word) : Option (List Byte) := hostRead s 0 (secAddr s + 64) (secTokenLen b)

/-- The capsule of SEAL_KEY; none where it cannot be read (R395, R401). -/
def secCapsule (s : State) (b : List Word) : Option (List Byte) :=
  hostRead s 0 (secAddr s + 64 + secTokenLen b) (secCapLen b)

/-- A token passes against the latest nonce (R396). -/
def secTokenOk (s : State) (b : List Word) : Bool :=
  match s.sec.nonce, secToken s b with
  | some n, some t => Config.tokenOk s.sec.root (hashBytes n ++ bytesOfWords (b.take 16)) t
  | _, _ => false

/-- The checks of R397 for a block; a capsule that does not open is DENIED (log entry 42). -/
def secErrs (s : State) (b : List Word) : List Nat :=
  let k := secKind b
  errsOf
    [ (secReserved b || decide (6 < k), stBadParam),
      (decide (k = 2) && (decide (secType b = 0) || decide (5 < secType b) ||
        decide (secValue b ≤ tabGet 0 s.sec.minSvn (secType b))), stBadParam),
      (decide (k = 3) && (decide (secValue b ≠ s.sec.lifecycle + 1) || decide (2 < secValue b)), stBadParam),
      (needsToken k && (secToken s b).isNone, stBounds),
      (decide (k = 6) && (secCapsule s b).isNone, stBounds),
      (needsToken k && !secTokenOk s b, stDenied),
      (decide (k = 6) && (match secCapsule s b with
        | some c => (Config.openCapsule c).isNone
        | none => false), stDenied),
      (decide (k = 5) && s.sec.rootSet, stDenied),
      (decide (k ≠ 0) && decide (s.sec.lifecycle = 2), stDenied) ]

/-- Serve the request that SEC_REQ_ADDR names, where it is of the row's kind or cannot be told to be of another: the status is
written, the nonce of a request that needs a token is consumed, and act has its effect (R396, R397). -/
def secRun (kind : Nat) (s : State) (act : State → List Word → State) : State :=
  match secBlock s with
  | none => { s with sec := { s.sec with reqStatus := stBounds } }
  | some b =>
    if secKind b ≠ kind ∧ secKind b ≤ 6 then s else
    let e := secErrs s b
    let s := { s with sec := { s.sec with reqStatus := lowest e, nonce := if needsToken (secKind b) then none else s.sec.nonce } }
    if e.isEmpty then act s b else s

/-- NONCE (R396). -/
def execNonce (s : State) : Host.Outcome State Fault Refusal :=
  inRun s (fun s => secRun 0 s (fun s _ =>
    let n := takeFree s 384
    hostWrite { n.2 with sec := { n.2.sec with nonce := some n.1 } } 0 (secAddr s + 64) (hashBytes n.1)))

/-- TAMPER_CLEAR (R405). -/
def execTamperClear (s : State) : Host.Outcome State Fault Refusal :=
  inRun s (fun s => secRun 1 s (fun s _ => { s with sec := { s.sec with tamperLatch := false, tamperCause := 0 } }))

/-- SVN_RAISE (R397). -/
def execSvnRaise (s : State) : Host.Outcome State Fault Refusal :=
  inRun s (fun s => secRun 2 s (fun s b =>
    { s with sec := { s.sec with minSvn := tabSet 0 s.sec.minSvn (secType b) (secValue b) } }))

/-- LIFE_ADVANCE (R391, R393). -/
def execLifeAdvance (s : State) : Host.Outcome State Fault Refusal :=
  inRun s (fun s => secRun 3 s (fun s b =>
    let last := decide (secValue b = 2)
    { s with sec := { s.sec with
      lifecycle := secValue b, identErased := s.sec.identErased || last, identKey := s.sec.identKey && !last } }))

/-- DEBUG_DISABLE (R392). -/
def execDebugDisable (s : State) : Host.Outcome State Fault Refusal :=
  inRun s (fun s => secRun 4 s (fun s _ => { s with sec := { s.sec with debugDis := true } }))

/-- ROOT_SET (R397). -/
def execRootSet (s : State) : Host.Outcome State Fault Refusal :=
  inRun s (fun s => secRun 5 s (fun s b =>
    { s with sec := { s.sec with rootSet := true, root := hashOf (bytesOfWords ((b.drop 2).take 12)) } }))

/-- SEAL_KEY (R401). -/
def execSealKey (s : State) : Host.Outcome State Fault Refusal :=
  inRun s (fun s => secRun 6 s (fun s b =>
    { s with sec := { s.sec with sealKey := (secCapsule s b).bind Config.openCapsule } }))

/-! ### POOL_AUTH (R363) -/

/-- A step 1 of POOL_AUTH that fails consumes the nonce; the third failure within 60 s locks. -/
def authFailed (s : State) : State :=
  let f := s.auth.fails.filter (fun t => decide (s.time.now ≤ t + minuteCycles)) ++ [s.time.now]
  { s with auth := { s.auth with nonce := none, fails := f, locked := decide (3 ≤ f.length) } }

/-- POOL_AUTH (R363). -/
def execPoolAuth (r : RingId) (k : Pkt) (s : State) : Host.Outcome State Fault Refusal :=
  inRun s (fun s =>
    let a := fld48 k.w 1
    let n := (wd k.w 3).toNat
    let step1 := bit (wd k.w 0) 0
    fwRun s r 0x01 k []
      (fun s => errsOf [ (s.auth.locked, stDenied),
        (!s.auth.locked && (if step1 then (rdA s r a n).isNone else !canWrA s r a 48), stBounds) ])
      (fun s =>
        if step1 then
          let ok := match s.auth.nonce, rdA s r a n with
            | some x, some t => Config.tokenOk s.sec.root (hashBytes x) t
            | _, _ => false
          if ok then .done { s with auth := { s.auth with authed := true } } stOk [] else .done (authFailed s) stDenied []
        else
          let x := takeFree s 384
          writeDone { x.2 with auth := { x.2.auth with nonce := some x.1 } } r a (hashBytes x.1) stOk []))

/-! ### SPDM (R378) -/

/-- The fuse summary of measurement 2 (log entry 10). -/
def fuseSummary (s : State) : List Byte :=
  [BitVec.ofNat 8 s.sec.lifecycle, BitVec.ofNat 8 (b2n s.sec.debugDis)] ++
    (List.range 5).flatMap (fun i => leBytes 2 (tabGet 0 s.sec.minSvn (i + 1))) ++ hashBytes s.sec.root

/-- Measurements 1 to 8. -/
def measurements (s : State) : List (BitVec 384) :=
  [Config.romHash, Config.sha384 (fuseSummary s)] ++ (List.range 6).map (fun i => tabGet 0 s.boot.meas (i + 1))

/-- The measurement log as bytes (log entry 10). -/
def manifest (s : State) : List Byte :=
  s.boot.log.flatMap (fun e => [BitVec.ofNat 8 e.typ] ++ leBytes 2 e.svn ++ hashBytes e.hash ++ [BitVec.ofNat 8 e.status])

/-- The request codes of the seven requests that the responder supports (PRESUMED, log entry 10). -/
def spdmKnown (code : Nat) : Bool := ([0x81, 0x82, 0x83, 0x84, 0xE0, 0xE1, 0xE3] : List Nat).contains code

/-- The responder's answer and the next state of its connection; an unsupported request gets ERROR UnsupportedRequest. -/
def spdmRespond (s : State) (conn : Nat) (req : List Byte) : List Byte × Nat :=
  let code := (req.getD 1 0).toNat
  if spdmKnown code then Config.spdmAnswer s.sec.identKey conn (measurements s) (manifest s) req
  else ([0x13, 0x7F, 0x07, BitVec.ofNat 8 code], conn)

/-- The connection of a ring set: the pool 68, partition p 4 + p. -/
def spdmConn (r : RingId) : Nat :=
  match ringOwner r with
  | none => 68
  | some p => 4 + p

/-- The answer to the request of an SPDM command and the connection's next state; none where the request cannot be read. -/
def spdmReply (s : State) (r : RingId) (k : Pkt) : Option (List Byte × Nat) :=
  (rdA s r (fld48 k.w 0) (fld (wd k.w 2) 15 0)).map (fun q => spdmRespond s (tabGet 0 s.spdm (spdmConn r)) q)

/-- SPDM's result word, written with every status (R374): the length of the response, 0 where there is none. -/
def spdmRes (s : State) (r : RingId) (k : Pkt) : List Word :=
  [match spdmReply s r k with
   | some x => BitVec.ofNat 32 x.1.length
   | none => 0]

/-- SPDM (R378): a response longer than RSP_MAX is not written. -/
def execSpdm (r : RingId) (k : Pkt) (s : State) : Host.Outcome State Fault Refusal :=
  inRun s (fun s =>
    let b := fld48 k.w 3
    let max := fld (wd k.w 5) 15 0
    fwRun s r 0x02 k (spdmRes s r k)
      (fun s => errsOf [ (match spdmReply s r k with
          | some x => decide (max < x.1.length)
          | none => false, stNoResource),
        ((spdmReply s r k).isNone || !canWrA s r b max, stBounds) ])
      (fun s =>
        match spdmReply s r k with
        | none => .done s stBounds []
        | some x => writeDone { s with spdm := tabSet 0 s.spdm (spdmConn r) x.2 } r b x.1 stOk [BitVec.ofNat 32 x.1.length]))

/-- SPDM_DOE_REQUEST (R378). -/
def execSpdmDoeRequest (port : Fin 4) (req : List Byte) (s : State) : Host.Outcome State Fault Refusal :=
  inRun s (fun s =>
    if s.boot.st ≠ .ready ∨ !hostLinkUp s port.val then s else
    let x := spdmRespond s (tabGet 0 s.spdm port.val) req
    emit { s with spdm := tabSet 0 s.spdm port.val x.2 } (.doe port.val x.1))

end Sys2Proof.Machine
end

