-- ==== Sys2Proof/Machine/RegWrite.lean ====
section
/-! DEFINITION. What a write of a register does, by its access codes (R11-R14, R16, R317, R358, R398). A register that has a row of
its own acts as that row. -/

namespace Sys2Proof.Machine

open Sys2Proof

/-- The state after a row that runs within a register write. -/
def within (s : State) (f : State → Host.Outcome State Fault Refusal) : State :=
  match f s with
  | .next t => t
  | .fault _ => s
  | .refused _ => s

/-- Bits [h:l] of a written word as a bit vector. -/
def wfld (w : Nat) (v : Word) (h l : Nat) : BitVec w := BitVec.ofNat w (fld v h l)

/-- Replace the low, or the high, word of a 64-bit register. -/
def put32 (n : Nat) (hi : Bool) (v : Word) : Nat :=
  if hi then n % 2 ^ 32 + 2 ^ 32 * v.toNat else 2 ^ 32 * (n / 2 ^ 32) + v.toNat

/-! ### Boot, security and UART -/

/-- BOOT_CTL (R358). -/
def writeBootCtl (s : State) (v : Word) : State :=
  let s := if bit v 0 then within s execPush else s
  let s := if bit v 1 then within s execStart else s
  if bit v 2 then within s (execReset (wfld 16 v 31 16)) else s

/-- SEC_REQ.GO (R395): the request runs by its kind. -/
def secGo (s : State) : State :=
  match secBlock s with
  | none => within s execNonce
  | some b =>
    let k := secKind b
    if k = 1 then within s execTamperClear
    else if k = 2 then within s execSvnRaise
    else if k = 3 then within s execLifeAdvance
    else if k = 4 then within s execDebugDisable
    else if k = 5 then within s execRootSet
    else if k = 6 then within s execSealKey
    else within s execNonce

/-- The security mailbox block. -/
def writeBoot (s : State) (o : Nat) (v : Word) : State :=
  if o = 4 then writeBootCtl s v
  else if o = 8 then { s with boot := { s.boot with imgAddr := put32 s.boot.imgAddr false v } }
  else if o = 0xC then { s with boot := { s.boot with imgAddr := put32 s.boot.imgAddr true v } }
  else if o = 0x10 then { s with boot := { s.boot with imgLen := v.toNat } }
  else if o = 0x100 then { s with sec := { s.sec with reqAddr := put32 s.sec.reqAddr false v } }
  else if o = 0x104 then { s with sec := { s.sec with reqAddr := put32 s.sec.reqAddr true v } }
  else if o = 0x108 then (if bit v 0 then secGo s else s)
  else if o = 0x400 then { s with uart := { s.uart with div := wfld 16 v 15 0, en := bit v 16 } }
  else s

/-! ### Power and time -/

/-- The power block (R386, R437). -/
def writePower (s : State) (o : Nat) (v : Word) : State :=
  if o = 0 then { s with pwr := { s.pwr with pkgIlim := wfld 16 v 15 0, tjTarget := wfld 8 v 23 16, dvfsEn := bit v 24 } }
  else if o = 0x210 then { s with pwr := { s.pwr with
    causePor := w1c s .por s.pwr.causePor (bit v 0), causeWake := w1c s .wake s.pwr.causeWake (bit v 1)
    causeDevice := w1c s .device s.pwr.causeDevice (bit v 2), causeTherm := w1c s .therm s.pwr.causeTherm (bit v 3) } }
  else s

/-- The Ethernet groups that the time unit needs (R436). -/
def requestTime (s : State) : State :=
  let t := s.time
  let s := if t.dom0.en then requestOn s (3 + t.dom0.port.toNat / 4) else s
  let s := if t.dom1.en then requestOn s (3 + t.dom1.port.toNat / 4) else s
  if t.synceEn then requestOn s (3 + t.syncePort.toNat / 4) else s

/-- TIME_CTL. -/
def writeTimeCtl (s : State) (v : Word) : State :=
  let s := modTime s (fun t => { t with
    auto := bit v 1, synceEn := bit v 2, syncePort := wfld 3 v 5 3, slew := wfld 10 v 17 8, ppsOutEn := bit v 18, rackMaster := bit v 19
    ppsOut := t.ppsOut && bit v 18 })
  let s := requestTime (refreshSynce (requestDomain s (bit v 0)))
  if bit v 20 then within s execSnap else s

/-- PTP_DOM of a domain: one that is not tracked, or whose number the profile does not allow, is not locked (R215). -/
def writeDom (s : State) (d : Bool) (v : Word) : State :=
  let s := modDom s d (fun m => { m with
    num := wfld 8 v 7 0, profile := bit v 8, port := wfld 3 v 11 9, sub := wfld 2 v 13 12, en := bit v 14 })
  let m := domOf s.time d
  requestTime (if m.en && domNumOk m then s else loseLock s d)

/-- The time-unit block. -/
def writeTime (s : State) (o : Nat) (v : Word) : State :=
  if o = 0 then writeTimeCtl s v
  else if o = 0x10 then writeDom s false v
  else if o = 0x20 then writeDom s true v
  else s

/-! ### Ethernet and traffic manager -/

/-- ETH_PORT_CFG (R289, R436). -/
def writePort (s : State) (n : Nat) (v : Word) : State :=
  let was := (getPort s n).en
  let pri := wfld 7 v 18 12
  let s := modPort s n (fun P => { P with
    mode := wfld 2 v 2 1, holdMs := wfld 7 v 10 4, pfcPri := pri, paused := P.paused.filter (fun x => pri.getLsbD (x.1 % 8)) })
  let s := (List.range 4).foldl (fun s u => startNext s n u) s
  if bit v 0 && !was then requestOn (portOn s n) (3 + n / 4)
  else if !bit v 0 && was then portOff s n
  else s

/-- TM_QCFG (R302): firmware alone writes RADIO queues. -/
def writeQcfg (s : State) (q : Nat) (v : Word) : State :=
  let Q := getQ s q
  if Q.radio then s else
  let s := if Q.en && !bit v 0 then disableQ s q else s
  modQ s q (fun Q => { Q with
    drop := if bit v 0 && !Q.en then 0 else Q.drop, flush := if bit v 0 && !Q.en then 0 else Q.flush
    credit := if bit v 0 && !Q.en then 0 else Q.credit, creditAt := if bit v 0 && !Q.en then s.time.now else Q.creditAt
    en := bit v 0, port := wfld 3 v 4 2, sub := wfld 2 v 6 5, part := wfld 8 v 15 8, weight := wfld 16 v 31 16 })

/-- TM_QSHAPE. -/
def writeQshape (s : State) (q : Nat) (v : Word) : State :=
  modQ (settleCredit s q) q (fun Q => { Q with
    idleSlope := wfld 12 v 11 0, qlim := wfld 12 v 23 12, hiCredit := wfld 8 v 31 24, creditAt := s.time.now })

/-- A policer's registers: the buckets fill on enable (R309). -/
def writePol (s : State) (i o : Nat) (v : Word) : State :=
  let f (p : Pol) : Pol :=
    if o = 0 then
      let p1 : Pol := { p with
        en := bit v 0, mode := bit v 1, aware := bit v 2, path := bit v 3, port := wfld 3 v 6 4, sub := wfld 2 v 8 7, part := wfld 8 v 23 16 }
      if bit v 0 && !p.en then { p1 with tc := 16000 * p.cbs.toNat, tp := 16000 * p.pbs.toNat, at_ := s.time.now } else p1
    else if o = 4 then { p with map := wfld 16 v 15 0 }
    else if o = 8 then { polFill p s.time.now with cir := wfld 19 v 18 0 }
    else if o = 0xC then { polFill p s.time.now with cbs := wfld 24 v 23 0 }
    else if o = 0x10 then { polFill p s.time.now with pir := wfld 19 v 18 0 }
    else if o = 0x14 then { polFill p s.time.now with pbs := wfld 24 v 23 0 }
    else p
  { s with eth := { s.eth with pols := tabMod {} s.eth.pols i f } }

/-- The bits of a partition's words in the traffic manager that are not reserved. -/
def tmPartMask (i : Nat) : Nat :=
  if i < 8 then (if i % 2 = 0 then full else 0x80FFFFFF) else if i < 12 then 0x1FFF1FFF else 0xFFFF

/-- A partition's words in the traffic manager. -/
def writeTmPart (s : State) (p i : Nat) (v : Word) : State :=
  let x := v &&& BitVec.ofNat 32 (tmPartMask i)
  modTmp s p (fun T =>
    if i < 8 then { T with macs := tabSet 0 T.macs i x }
    else if i < 12 then { T with vlans := tabSet 0 T.vlans (i - 8) x }
    else if i = 12 then { T with weight := wfld 16 v 15 0 } else T)

/-- The Ethernet block. -/
def writeEth (s : State) (o : Nat) (v : Word) : State :=
  if o < 0x800 then (if o % 0x100 = 0 then writePort s (o / 0x100) v else s)
  else if o < 0x10000 then s
  else if o < 0x20000 then
    (if o % 0x10 = 0 then writeQcfg s ((o - 0x10000) / 0x10) v
     else if o % 0x10 = 4 then writeQshape s ((o - 0x10000) / 0x10) v else s)
  else if o < 0x30000 then writePol s ((o - 0x20000) / 0x20) (o % 0x20) v
  else if o < 0x31000 then writeTmPart s ((o - 0x30000) / 0x40) (o % 0x40 / 4) v
  else s

/-! ### Fabric -/

/-- A write reaches an RWL field after its lock is set: the field keeps its value, and the violation is reported (R12, R398). -/
def lockViolation (s : State) (off : Nat) : State :=
  evPool { s with sec := { s.sec with lockViolation := true, errorLog := s.sec.errorLog ++ [off] } } 0x0701 [(4, off)]

/-- FAB_ID (R12, R287). -/
def writeFabId (s : State) (v : Word) : State :=
  if s.fab.locked then lockViolation s 0xC00000
  else { s with fab := { s.fab with chipId := wfld 16 v 15 0, node := wfld 8 v 23 16 } }

/-- LINK_CFG (R253, R257, R260, R262, R287, R436): the lock is set when a link is first enabled; a width request of a link that is
up takes effect at the next boundary that can be committed. -/
def writeLink (s : State) (l : Fin 24) (v : Word) : State :=
  let k := getLink s l.val
  let s := modLink s l.val (fun k => { k with
    en := bit v 0, widthReq := wfld 2 v 2 1, laneDis := wfld 4 v 11 8, errThr := wfld 16 v 31 16
    widthAt := if wfld 2 v 2 1 ≠ k.widthReq ∧ k.st ≠ 4 then nextCommit s else k.widthAt
    widthNow := k.widthNow || (decide (wfld 2 v 2 1 ≠ k.widthReq) && decide (k.st = 4)) })
  let s := if bit v 0 && !k.en then requestOn { s with fab := { s.fab with locked := true } } (l.val / 8)
    else if !bit v 0 && k.en && decide (k.st ≠ 5) then linkLost s l.val 0 else s
  let s := if bit v 4 then within s (execService l) else s
  if bit v 3 then within s (execRetrain l) else s

/-- The fabric block. -/
def writeFab (s : State) (o : Nat) (v : Word) : State :=
  if o = 0 then writeFabId s v
  else if o = 4 then { s with fab := { s.fab with combineEn := bit v 0, cacheEn := bit v 1, timeout := wfld 8 v 15 8 } }
  else if h : (o - 0x1000) / 0x40 < 24 then
    (if 0x1000 ≤ o ∧ o % 0x40 = 0 then writeLink s ⟨(o - 0x1000) / 0x40, h⟩ v else s)
  else s

/-! ### Radio and clusters -/

/-- A stream's registers. -/
def writeStream (s : State) (n o : Nat) (v : Word) : State :=
  modStream s n (fun x =>
    if o = 0 then { x with agcEn := bit v 1, freezeEn := bit v 2 }
    else if o = 4 then { x with gain := fld v 7 0, gainAt := s.time.now + 1, target := fld v 15 8, maxStep := fld v 19 16 }
    else if o = 8 then { x with base := wfld 24 v 23 0 }
    else if o = 0x10 then { x with cal := wfld 16 v 15 0 } else x)

/-- A lane's registers. -/
def writeLane (s : State) (n o : Nat) (v : Word) : State :=
  if o = 0x14 then modLane s n (fun x => { x with ovf := w1c s (.laneOvf n) x.ovf (bit v 30), valid := w1c s (.laneValid n) x.valid (bit v 31) }) else s

/-- A cell's registers. -/
def writeCell (s : State) (n o : Nat) (v : Word) : State :=
  if o = 0 then modCell s n (fun x => { x with rptOvf := w1c s (.rptOvf n) x.rptOvf (bit v 0) })
  else if o = 4 then modCell s n (fun x => { x with rptHead := wfld 16 v 31 16 }) else s

/-- The radio block. -/
def writeRadio (s : State) (o : Nat) (v : Word) : State :=
  if 0x100000 ≤ o ∧ o < 0x120000 then writeStream s ((o - 0x100000) / 0x40) (o % 0x40) v
  else if 0x120000 ≤ o ∧ o < 0x120800 then writeLane s ((o - 0x120000) / 0x20) (o % 0x20) v
  else if 0x140000 ≤ o ∧ o < 0x142000 then writeCell s ((o - 0x140000) / 0x10) (o % 0x10) v
  else s

/-- A cluster's block. -/
def writeCluster (s : State) (c o : Nat) (v : Word) : State :=
  if o = 0x4008 then modClu s c (fun cl => { cl with wdogLimit := wfld 18 v 17 0 })
  else if 0x6010 ≤ o ∧ o < 0x6020 then
    let k := (o - 0x6010) / 4
    modCsp s c k (fun x => { x with sat := w1c s (.cspSat c k) x.sat (bit v 0), stPsn := w1c s (.cspPsn c k) x.stPsn (bit v 1) })
  else s

/-! ### Rings and pages -/

/-- A ring's registers (R364, R365, R370). -/
def writeRing (s : State) (r : RingId) (o : Nat) (v : Word) : State :=
  let k := ringKey r
  let ev := ringIsEvent k
  if o = 0 then
    let was := (getRing s k).en || (getRing s k).enWaits
    let s := modRing s k (fun R => { R with
      fault := w1c s (.ringFault k) R.fault (bit v 2), cmdLog2 := if ev then R.cmdLog2 else wfld 4 v 7 4, cplLog2 := wfld 4 v 11 8, msix := wfld 11 v 26 16 })
    if bit v 0 ≠ was then within s (execRingEnable r (bit v 0)) else s
  else if o = 0x8 ∧ !ev then modRing s k (fun R => { R with cmdBase := BitVec.ofNat 64 (put32 R.cmdBase.toNat false v) })
  else if o = 0xC ∧ !ev then modRing s k (fun R => { R with cmdBase := BitVec.ofNat 64 (put32 R.cmdBase.toNat true v) })
  else if o = 0x10 then modRing s k (fun R => { R with cplBase := BitVec.ofNat 64 (put32 R.cplBase.toNat false v) })
  else if o = 0x14 then modRing s k (fun R => { R with cplBase := BitVec.ofNat 64 (put32 R.cplBase.toNat true v) })
  else if o = 0x18 then within s (execCmdDoorbell r (wfld 16 v 15 0))
  else if o = 0x24 then within s (execCplHeadWrite r (wfld 16 v 15 0))
  else s

/-- The network doorbells of a page (R301). -/
def writeNet (s : State) (p : Fin 64) (o : Nat) (v : Word) : State :=
  if o = 0x3000 then within s (execNetSqDb p v)
  else if o = 0x3004 then within s (execNetRqDb p v)
  else if o = 0x3008 then within s (execNetCqDb p v)
  else if o = 0x3010 then within s (execNetRawTxTail p v)
  else if o = 0x3018 then within s (execNetRawRxTail p v)
  else s

/-- A partition's register page, where the partition exists. -/
def writePage (s : State) (p : Fin 64) (o : Nat) (v : Word) : State :=
  if !(getPart s p.val).live then s
  else if o = 0x30 then modPart s p.val (fun P => { P with dirtyEn := bit v 0, dirtyOver := w1c s (.dirtyOver p.val) P.dirtyOver (bit v 2) })
  else if o = 0x200 then modPart s p.val (fun P => { P with seedLo := v })
  else if o = 0x204 then modPart s p.val (fun P => { P with seedHi := v })
  else if o = 0x210 then modPart s p.val (fun P => { P with oobWr := v.toNat })
  else if o = 0x220 then modPart s p.val (fun P => if P.det then P else { P with srEntropy := bit v 1 })
  else if o = 0x240 then modPart s p.val (fun P => { P with
    twinDiv := w1c s (.twinDiv p.val) P.twinDiv (bit v 2), twinTdiv := w1c s (.twinTdiv p.val) P.twinTdiv (bit v 3), twinLostF := w1c s (.twinLost p.val) P.twinLostF (bit v 4) })
  else if o = 0x260 then within s (execStepMark p v)
  else if o = 0x268 then modPart s p.val (fun P => { P with stepMax := v.toNat })
  else if 0x1000 ≤ o ∧ o < 0x1400 then writeRing s (.part p ⟨(o - 0x1000) / 0x40 % 16, Nat.mod_lt _ (by decide)⟩) (o % 0x40) v
  else if 0x1400 ≤ o ∧ o < 0x1440 then writeRing s (.partEv p) (o % 0x40) v
  else if 0x3000 ≤ o ∧ o < 0x3100 then writeNet s p o v
  else if 0x20000 ≤ o ∧ o < 0x40000 then
    (if streamMine s p.val ((o - 0x20000) / 0x40) then writeStream s ((o - 0x20000) / 0x40) (o % 0x40) v else s)
  else if 0x40000 ≤ o ∧ o < 0x40800 then
    (if laneMine s p.val ((o - 0x40000) / 0x20) then writeLane s ((o - 0x40000) / 0x20) (o % 0x20) v else s)
  else if 0x60000 ≤ o ∧ o < 0x62000 then
    (if pageCell s p.val ((o - 0x60000) / 0x10) then writeCell s ((o - 0x60000) / 0x10) (o % 0x10) v else s)
  else s

/-- A partition number below 64. -/
def part64 (n : Nat) : Fin 64 := ⟨n % 64, Nat.mod_lt _ (by decide)⟩

/-- The pool's block. -/
def writePool (s : State) (o : Nat) (v : Word) : State :=
  if 0x1000 ≤ o ∧ o < 0x1040 then writeRing s .pool (o % 0x40) v
  else if 0x1400 ≤ o ∧ o < 0x1440 then writeRing s .poolEv (o % 0x40) v
  else if 0x10000 ≤ o ∧ o < 0x50000 ∧ 0x260 ≤ o % 0x1000 ∧ o % 0x1000 < 0x270 then
    writePage s (part64 ((o - 0x10000) / 0x1000)) (o % 0x1000) v
  else s

/-- A write of the global register window at a multiple of 4 (R16, R358). -/
def writeWindow (s : State) (a : Nat) (v : Word) : State :=
  if 0x100000 ≤ a ∧ a < 0x200000 then writeBoot s (a - 0x100000) v
  else if s.boot.st ≠ .ready then s
  else if 0x200000 ≤ a ∧ a < 0x400000 then writePower s (a - 0x200000) v
  else if 0x400000 ≤ a ∧ a < 0x800000 then writeTime s (a - 0x400000) v
  else if 0x800000 ≤ a ∧ a < 0xC00000 then writeEth s (a - 0x800000) v
  else if 0xC00000 ≤ a ∧ a < 0x1000000 then writeFab s (a - 0xC00000) v
  else if 0x1000000 ≤ a ∧ a < 0x2000000 then writeRadio s (a - 0x1000000) v
  else if 0x2000000 ≤ a ∧ a < 0x3400000 then writeCluster s ((a - 0x2000000) / 0x100000) (a % 0x100000) v
  else if 0x3C00000 ≤ a ∧ a < 0x4000000 then writePool s (a - 0x3C00000) v
  else s

/-- REGISTER_WRITE (R11-R14, R16, R317, R358): a 32-bit write at an offset of a function's register window. -/
def execRegisterWrite (f : Fn) (off : BitVec 26) (v : Word) (s : State) : Host.Outcome State Fault Refusal :=
  inRun s (fun s =>
    if off.toNat % 4 ≠ 0 then s else
    match f with
    | .pf port => if port.val = 0 then writeWindow s off.toNat v else s
    | .vf port p =>
      if s.boot.st = .ready ∧ (getPart s p.val).host = port ∧ off.toNat < 2 ^ 20 then writePage s p off.toNat v else s)

end Sys2Proof.Machine
end

