-- ==== Sys2Proof/Machine/Dispatch.lean ====
section
/-! DEFINITION. One arm per command: a direct call of its meaning. -/

namespace Sys2Proof.Machine

open Sys2Proof

def exec (i : Instr) (s : State) : Host.Outcome State Fault Refusal :=
  match i with
  | .cloveBoundary env => Sys2Proof.Machine.execCloveBoundary env s
  | .mma c owner d => Sys2Proof.Machine.execMma c owner d s
  | .accPreload c owner d => Sys2Proof.Machine.execAccPreload c owner d s
  | .accDrain c owner d => Sys2Proof.Machine.execAccDrain c owner d s
  | .drainRowPush c a errs => Sys2Proof.Machine.execDrainRowPush c a errs s
  | .arrayWatchdog c a => Sys2Proof.Machine.execArrayWatchdog c a s
  | .registerParityError c a => Sys2Proof.Machine.execRegisterParityError c a s
  | .spareStart c => Sys2Proof.Machine.execSpareStart c s
  | .endInsn c e => Sys2Proof.Machine.execEndInsn c e s
  | .setx c e => Sys2Proof.Machine.execSetx c e s
  | .addx c e => Sys2Proof.Machine.execAddx c e s
  | .addr c e => Sys2Proof.Machine.execAddr c e s
  | .loop c e => Sys2Proof.Machine.execLoop c e s
  | .loopx c e => Sys2Proof.Machine.execLoopx c e s
  | .rd c e ecc => Sys2Proof.Machine.execRd c e ecc s
  | .wr c e => Sys2Proof.Machine.execWr c e s
  | .rds c e ecc => Sys2Proof.Machine.execRds c e ecc s
  | .rdw c e ecc => Sys2Proof.Machine.execRdw c e ecc s
  | .wrw c e => Sys2Proof.Machine.execWrw c e s
  | .rdt c e ecc => Sys2Proof.Machine.execRdt c e ecc s
  | .pls c e => Sys2Proof.Machine.execPls c e s
  | .dls c e => Sys2Proof.Machine.execDls c e s
  | .dla c e => Sys2Proof.Machine.execDla c e s
  | .slm c e => Sys2Proof.Machine.execSlm c e s
  | .waitb c e => Sys2Proof.Machine.execWaitb c e s
  | .cardEntryComplete c e q res => Sys2Proof.Machine.execCardEntryComplete c e q res s
  | .rtSubstitute c q => Sys2Proof.Machine.execRtSubstitute c q s
  | .vld k d p m circ ecc => Sys2Proof.Machine.execVld k d p m circ ecc s
  | .vldb k t d p m circ ecc => Sys2Proof.Machine.execVldb k t d p m circ ecc s
  | .vst k d p m circ => Sys2Proof.Machine.execVst k d p m circ s
  | .vadd k t d u v => Sys2Proof.Machine.execVadd k t d u v s
  | .vsub k t d u v => Sys2Proof.Machine.execVsub k t d u v s
  | .vadds k t d u v => Sys2Proof.Machine.execVadds k t d u v s
  | .vsubs k t d u v => Sys2Proof.Machine.execVsubs k t d u v s
  | .vmax k t d u v => Sys2Proof.Machine.execVmax k t d u v s
  | .vmin k t d u v => Sys2Proof.Machine.execVmin k t d u v s
  | .vand k d u v => Sys2Proof.Machine.execVand k d u v s
  | .vor k d u v => Sys2Proof.Machine.execVor k d u v s
  | .vxor k d u v => Sys2Proof.Machine.execVxor k d u v s
  | .vsel k d m u v => Sys2Proof.Machine.execVsel k d m u v s
  | .vshl k t d u n => Sys2Proof.Machine.execVshl k t d u n s
  | .vshr k t d u n => Sys2Proof.Machine.execVshr k t d u n s
  | .vperm k d u v => Sys2Proof.Machine.execVperm k d u v s
  | .vmac k t a u v => Sys2Proof.Machine.execVmac k t a u v s
  | .vmacj k a u v => Sys2Proof.Machine.execVmacj k a u v s
  | .vclr k a => Sys2Proof.Machine.execVclr k a s
  | .vbias k a n => Sys2Proof.Machine.execVbias k a n s
  | .vshrn k t d a n h => Sys2Proof.Machine.execVshrn k t d a n h s
  | .vfadd k t d u v => Sys2Proof.Machine.execVfadd k t d u v s
  | .vfmul k t d u v => Sys2Proof.Machine.execVfmul k t d u v s
  | .vfma k t d u v => Sys2Proof.Machine.execVfma k t d u v s
  | .vcvt k t d u h => Sys2Proof.Machine.execVcvt k t d u h s
  | .vfunc k f d u => Sys2Proof.Machine.execVfunc k f d u s
  | .vrmax k t d u => Sys2Proof.Machine.execVrmax k t d u s
  | .vrsum k t d u => Sys2Proof.Machine.execVrsum k t d u s
  | .movp k p v => Sys2Proof.Machine.execMovp k p v s
  | .addp k p v => Sys2Proof.Machine.execAddp k p v s
  | .movm k m v => Sys2Proof.Machine.execMovm k m v s
  | .setb k b v => Sys2Proof.Machine.execSetb k b v s
  | .setl k l v => Sys2Proof.Machine.execSetl k l v s
  | .vmovs k m u i0 => Sys2Proof.Machine.execVmovs k m u i0 s
  | .dbnz k m t => Sys2Proof.Machine.execDbnz k m t s
  | .rep k n => Sys2Proof.Machine.execRep k n s
  | .cspWaitb k => Sys2Proof.Machine.execCspWaitb k s
  | .waitc k src m => Sys2Proof.Machine.execWaitc k src m s
  | .fset k f p m => Sys2Proof.Machine.execFset k f p m s
  | .fclose k f => Sys2Proof.Machine.execFclose k f s
  | .fopen k f => Sys2Proof.Machine.execFopen k f s
  | .halt k code => Sys2Proof.Machine.execHalt k code s
  | .cspTimeslice c => Sys2Proof.Machine.execCspTimeslice c s
  | .cspParityError c users => Sys2Proof.Machine.execCspParityError c users s
  | .getVersion r k => Sys2Proof.Machine.execGetVersion r k s
  | .poolAuth r k => Sys2Proof.Machine.execPoolAuth r k s
  | .spdm r k => Sys2Proof.Machine.execSpdm r k s
  | .spdmDoeRequest port req => Sys2Proof.Machine.execSpdmDoeRequest port req s
  | .timeConfig r k => Sys2Proof.Machine.execTimeConfig r k s
  | .timeFreerun r k => Sys2Proof.Machine.execTimeFreerun r k s
  | .cloveProgLoad r k => Sys2Proof.Machine.execCloveProgLoad r k s
  | .cloveProgCommit r k => Sys2Proof.Machine.execCloveProgCommit r k s
  | .partCreate r k => Sys2Proof.Machine.execPartCreate r k s
  | .partDestroy r k => Sys2Proof.Machine.execPartDestroy r k s
  | .partReset r k => Sys2Proof.Machine.execPartReset r k s
  | .partFreeze r k => Sys2Proof.Machine.execPartFreeze r k s
  | .partThaw r k => Sys2Proof.Machine.execPartThaw r k s
  | .partSave r k => Sys2Proof.Machine.execPartSave r k s
  | .partRestore r k => Sys2Proof.Machine.execPartRestore r k s
  | .dirtySwap r k => Sys2Proof.Machine.execDirtySwap r k s
  | .memMap r k => Sys2Proof.Machine.execMemMap r k s
  | .memUnmap r k => Sys2Proof.Machine.execMemUnmap r k s
  | .descCreate r k => Sys2Proof.Machine.execDescCreate r k s
  | .descDestroy r k => Sys2Proof.Machine.execDescDestroy r k s
  | .cardLoad r k => Sys2Proof.Machine.execCardLoad r k s
  | .cspLoad r k => Sys2Proof.Machine.execCspLoad r k s
  | .progLoad r k => Sys2Proof.Machine.execProgLoad r k s
  | .progUnload r k => Sys2Proof.Machine.execProgUnload r k s
  | .taskSubmit r k => Sys2Proof.Machine.execTaskSubmit r k s
  | .taskEnd p task => Sys2Proof.Machine.execTaskEnd p task s
  | .launchAt r k => Sys2Proof.Machine.execLaunchAt r k s
  | .runEnd p => Sys2Proof.Machine.execRunEnd p s
  | .ruAdd r k => Sys2Proof.Machine.execRuAdd r k s
  | .ruRemove r k => Sys2Proof.Machine.execRuRemove r k s
  | .ruStats r k => Sys2Proof.Machine.execRuStats r k s
  | .cellAdd r k => Sys2Proof.Machine.execCellAdd r k s
  | .cellRemove r k => Sys2Proof.Machine.execCellRemove r k s
  | .cellExport r k => Sys2Proof.Machine.execCellExport r k s
  | .cellImport r k => Sys2Proof.Machine.execCellImport r k s
  | .radClaim r k => Sys2Proof.Machine.execRadClaim r k s
  | .fabDma r k => Sys2Proof.Machine.execFabDma r k s
  | .dmaSegmentCommit a => Sys2Proof.Machine.execDmaSegmentCommit a s
  | .fabInval r k => Sys2Proof.Machine.execFabInval r k s
  | .fabExport r k => Sys2Proof.Machine.execFabExport r k s
  | .fabUnexport r k => Sys2Proof.Machine.execFabUnexport r k s
  | .netQpCreate r k => Sys2Proof.Machine.execNetQpCreate r k s
  | .netQpDestroy r k => Sys2Proof.Machine.execNetQpDestroy r k s
  | .netMrReg r k => Sys2Proof.Machine.execNetMrReg r k s
  | .netMrDereg r k => Sys2Proof.Machine.execNetMrDereg r k s
  | .netRawCfg r k => Sys2Proof.Machine.execNetRawCfg r k s
  | .svcClusterTest r k => Sys2Proof.Machine.execSvcClusterTest r k s
  | .clusterTestStart c => Sys2Proof.Machine.execClusterTestStart c s
  | .clusterTestEnd c found => Sys2Proof.Machine.execClusterTestEnd c found s
  | .clusterTestTimeout c => Sys2Proof.Machine.execClusterTestTimeout c s
  | .svcEngineBypass r k => Sys2Proof.Machine.execSvcEngineBypass r k s
  | .svcPcRetire r k => Sys2Proof.Machine.execSvcPcRetire r k s
  | .nonce => Sys2Proof.Machine.execNonce s
  | .tamperClear => Sys2Proof.Machine.execTamperClear s
  | .svnRaise => Sys2Proof.Machine.execSvnRaise s
  | .lifeAdvance => Sys2Proof.Machine.execLifeAdvance s
  | .debugDisable => Sys2Proof.Machine.execDebugDisable s
  | .rootSet => Sys2Proof.Machine.execRootSet s
  | .sealKey => Sys2Proof.Machine.execSealKey s
  | .push => Sys2Proof.Machine.execPush s
  | .imageVerified => Sys2Proof.Machine.execImageVerified s
  | .start => Sys2Proof.Machine.execStart s
  | .bootReady => Sys2Proof.Machine.execBootReady s
  | .startTimeout => Sys2Proof.Machine.execStartTimeout s
  | .reset key => Sys2Proof.Machine.execReset key s
  | .functionLevelReset f => Sys2Proof.Machine.execFunctionLevelReset f s
  | .perstNLow port => Sys2Proof.Machine.execPerstNLow port s
  | .perstNRise port => Sys2Proof.Machine.execPerstNRise port s
  | .powerOnReset => Sys2Proof.Machine.execPowerOnReset s
  | .porNRise pwrOk => Sys2Proof.Machine.execPorNRise pwrOk s
  | .pwrOkFall => Sys2Proof.Machine.execPwrOkFall s
  | .pwrOkRise => Sys2Proof.Machine.execPwrOkRise s
  | .tamperAlarm causes => Sys2Proof.Machine.execTamperAlarm causes s
  | .debugAccess => Sys2Proof.Machine.execDebugAccess s
  | .thermalTrip => Sys2Proof.Machine.execThermalTrip s
  | .clusterIdleOff c => Sys2Proof.Machine.execClusterIdleOff c s
  | .domainIdleOff d => Sys2Proof.Machine.execDomainIdleOff d s
  | .cmdDoorbell r tail => Sys2Proof.Machine.execCmdDoorbell r tail s
  | .cplHeadWrite r head => Sys2Proof.Machine.execCplHeadWrite r head s
  | .ringEnable r en => Sys2Proof.Machine.execRingEnable r en s
  | .ringEnableDeferred r => Sys2Proof.Machine.execRingEnableDeferred r s
  | .generationWrap p => Sys2Proof.Machine.execGenerationWrap p s
  | .authLockoutExpiry => Sys2Proof.Machine.execAuthLockoutExpiry s
  | .hostLinkDown port => Sys2Proof.Machine.execHostLinkDown port s
  | .hostLinkUp port => Sys2Proof.Machine.execHostLinkUp port s
  | .stepMark p v => Sys2Proof.Machine.execStepMark p v s
  | .snap => Sys2Proof.Machine.execSnap s
  | .activeReq d => Sys2Proof.Machine.execActiveReq d s
  | .domainAcquire d frac => Sys2Proof.Machine.execDomainAcquire d frac s
  | .domainLock d => Sys2Proof.Machine.execDomainLock d s
  | .announceTimeout d => Sys2Proof.Machine.execAnnounceTimeout d s
  | .cloveMarkerRx link m => Sys2Proof.Machine.execCloveMarkerRx link m s
  | .markerTimeout => Sys2Proof.Machine.execMarkerTimeout s
  | .ppsInEdge => Sys2Proof.Machine.execPpsInEdge s
  | .flitRx link f => Sys2Proof.Machine.execFlitRx link f s
  | .linkTrainAttempt link o => Sys2Proof.Machine.execLinkTrainAttempt link o s
  | .trainStageTimeout link => Sys2Proof.Machine.execTrainStageTimeout link s
  | .partnerSilence link => Sys2Proof.Machine.execPartnerSilence link s
  | .laneLockLoss link lane => Sys2Proof.Machine.execLaneLockLoss link lane s
  | .laneLockTimeout link locked => Sys2Proof.Machine.execLaneLockTimeout link locked s
  | .retrain link => Sys2Proof.Machine.execRetrain link s
  | .service link => Sys2Proof.Machine.execService link s
  | .retrainRequestRx m => Sys2Proof.Machine.execRetrainRequestRx m s
  | .pathDown plane node => Sys2Proof.Machine.execPathDown plane node s
  | .linkRekey link => Sys2Proof.Machine.execLinkRekey link s
  | .load c p e => Sys2Proof.Machine.execLoad c p e s
  | .store c p e => Sys2Proof.Machine.execStore c p e s
  | .storeWithOrderedFlag c p e => Sys2Proof.Machine.execStoreWithOrderedFlag c p e s
  | .atomicAdd c p e => Sys2Proof.Machine.execAtomicAdd c p e s
  | .atomicMin c p e => Sys2Proof.Machine.execAtomicMin c p e s
  | .atomicMax c p e => Sys2Proof.Machine.execAtomicMax c p e s
  | .compareAndSwap c p e => Sys2Proof.Machine.execCompareAndSwap c p e s
  | .fabOpInval c p e => Sys2Proof.Machine.execFabOpInval c p e s
  | .fabricRouterRx q => Sys2Proof.Machine.execFabricRouterRx q s
  | .combineTimeout => Sys2Proof.Machine.execCombineTimeout s
  | .fabricRequestRx q ecc => Sys2Proof.Machine.execFabricRequestRx q ecc s
  | .orderedFlagApply node part => Sys2Proof.Machine.execOrderedFlagApply node part s
  | .fabricResponseRx a => Sys2Proof.Machine.execFabricResponseRx a s
  | .fabTimeout node seq => Sys2Proof.Machine.execFabTimeout node seq s
  | .resetNoticeRx node part gen => Sys2Proof.Machine.execResetNoticeRx node part gen s
  | .resetNoticeAckRx node part => Sys2Proof.Machine.execResetNoticeAckRx node part s
  | .resetNoticeResend part => Sys2Proof.Machine.execResetNoticeResend part s
  | .twinSignatureRx p m => Sys2Proof.Machine.execTwinSignatureRx p m s
  | .twinLost p => Sys2Proof.Machine.execTwinLost p s
  | .freezeNoticeRx p runId => Sys2Proof.Machine.execFreezeNoticeRx p runId s
  | .ethRxFrame f => Sys2Proof.Machine.execEthRxFrame f s
  | .rateIncrease qp => Sys2Proof.Machine.execRateIncrease qp s
  | .ackTimeout qp => Sys2Proof.Machine.execAckTimeout qp s
  | .netSqDb p v => Sys2Proof.Machine.execNetSqDb p v s
  | .netRqDb p v => Sys2Proof.Machine.execNetRqDb p v s
  | .netCqDb p v => Sys2Proof.Machine.execNetCqDb p v s
  | .netRawTxTail p v => Sys2Proof.Machine.execNetRawTxTail p v s
  | .netRawRxTail p v => Sys2Proof.Machine.execNetRawRxTail p v s
  | .frameTxDone port sub => Sys2Proof.Machine.execFrameTxDone port sub s
  | .radioFrameDeadline q => Sys2Proof.Machine.execRadioFrameDeadline q s
  | .subportDown port sub => Sys2Proof.Machine.execSubportDown port sub s
  | .subportUp port sub => Sys2Proof.Machine.execSubportUp port sub s
  | .holdExpiry port sub => Sys2Proof.Machine.execHoldExpiry port sub s
  | .rxWindowClose cell stream slot sym => Sys2Proof.Machine.execRxWindowClose cell stream slot sym s
  | .dlCplaneSend cell slot msgs => Sys2Proof.Machine.execDlCplaneSend cell slot msgs s
  | .dlUplaneSend cell slot sym msgs => Sys2Proof.Machine.execDlUplaneSend cell slot sym msgs s
  | .txLate cell slot sym part => Sys2Proof.Machine.execTxLate cell slot sym part s
  | .agcUpdate stream part => Sys2Proof.Machine.execAgcUpdate stream part s
  | .searchDetection lane m => Sys2Proof.Machine.execSearchDetection lane m s
  | .ldpcJob w => Sys2Proof.Machine.execLdpcJob w s
  | .polarJob j => Sys2Proof.Machine.execPolarJob j s
  | .trlJob w => Sys2Proof.Machine.execTrlJob w s
  | .jobDeadline pool => Sys2Proof.Machine.execJobDeadline pool s
  | .codingJobEnd pool n => Sys2Proof.Machine.execCodingJobEnd pool n s
  | .engineFault pool n => Sys2Proof.Machine.execEngineFault pool n s
  | .cloveTimer i0 => Sys2Proof.Machine.execCloveTimer i0 s
  | .scrubRead granule found => Sys2Proof.Machine.execScrubRead granule found s
  | .uartFrameRx f => Sys2Proof.Machine.execUartFrameRx f s
  | .uartRxRead => Sys2Proof.Machine.execUartRxRead s
  | .registerWrite f off v => Sys2Proof.Machine.execRegisterWrite f off v s
  | .linkUp link => Sys2Proof.Machine.execLinkUp link s
  | .pauseExpiry port sub pri => Sys2Proof.Machine.execPauseExpiry port sub pri s
  | .shaperCreditZero q => Sys2Proof.Machine.execShaperCreditZero q s
  | .ppsOutRise => Sys2Proof.Machine.execPpsOutRise s
  | .ppsOutFall => Sys2Proof.Machine.execPpsOutFall s

end Sys2Proof.Machine
end

