-- ==== Sys2Proof/Machine/Step.lean ====
section
/-! DEFINITION. One step: the command at the front of the queue runs on the state with the queue's rest. On an empty queue time
passes (log entry 2). -/

namespace Sys2Proof.Machine

open Sys2Proof

/-- What happens on an empty queue: one array cycle of the clock, which runs in every package state but RESET (R10, R432). -/
def idle (s : State) : State := if s.pwr.porN then passCycle s else s

/-- One step. -/
def step (s : State) : Host.Outcome State Fault Refusal :=
  match s.pending with
  | [] => .next (idle s)
  | c :: rest => exec c { s with pending := rest }

/-- The state with the command that a table word spells at the front of its queue. -/
def State.withFetchWord (s : State) (nbits w : Nat) : State :=
  match decodeTableWord nbits w with
  | none => s
  | some c => { s with pending := c :: s.pending }

end Sys2Proof.Machine
end

