-- ==== Sys2Proof/Safety.lean ====
section
/-! DEFINITION. The terms that claims use: when a command of each family acts, what it leaves, and the invariant of the machine. -/

namespace Sys2Proof.Machine

open Sys2Proof

/-! ### The CSP -/

/-- A CSP slot issues: the package runs, its context is the one that may issue now (R144, R147), and it does not wait at a bundle
that holds a REP (R146). -/
def SlotIssues (k : Slot) (s : State) : Prop :=
  mainOn s = true ∧ cspOk s k.c.val k.x.val = true ∧ repWaits s k.c.val k.x.val = false

/-- A slot's effect on its context, the bundle being under way. -/
def slotEffect (k : Slot) (f : CspCtx → CspCtx) (s : State) : State :=
  modCsp s k.c.val k.x.val (fun o => f { o with mid := true })

/-- A clamp of a slot sets the flag CSP_STAT.SAT now (R13, R155). -/
def slotSat (k : Slot) (sat : Bool) (s : State) : State := if sat then noteFlag s (.cspSat k.c.val k.x.val) else s

/-- The end of the bundle after its last slot (R154, R158). -/
def slotEnd (k : Slot) (s : State) : State := if k.eob then endBundle s k.c.val k.x.val else s

/-- A context after a slot wrote data register d with its poison bit; sat says whether a result was clamped (R150, R155). -/
def writesD (d : Fin 32) (v : GranuleBits) (psn sat : Bool) (o : CspCtx) : CspCtx :=
  { o with
    sat := o.sat || sat
    regs := { o.regs with d := tabSet 0 o.regs.d d.val v, dPsn := tabSet false o.regs.dPsn d.val psn } }

/-- A context after a slot wrote accumulator a with its poison bit (R150, R155). -/
def writesAcc (a : Fin 8) (v : BitVec 1280) (psn sat : Bool) (o : CspCtx) : CspCtx :=
  { o with
    sat := o.sat || sat
    regs := { o.regs with acc := tabSet 0 o.regs.acc a.val v, accPsn := tabSet false o.regs.accPsn a.val psn } }

/-- Nothing waits for a REP of the CSP to end: no boundary, stop, owner or load (R148, R159). -/
def cspQuiet (s : State) (c : Nat) : Prop :=
  (getClu s c).cspHeld = false ∧
    ∀ y, y < 4 → (getCsp s c y).stopPending = false ∧ (getCsp s c y).nextOwner = none ∧ (getCsp s c y).load = none

/-- Data register i, as the slots of the running bundle read it (R154). -/
def srcD (s : State) (k : Slot) (i : Fin 32) : GranuleBits := rdD (oldRegs s k) i.val

/-- Its poison bit (R150). -/
def srcPsn (s : State) (k : Slot) (i : Fin 32) : Bool := rdDPsn (oldRegs s k) i.val

/-- Accumulator a, as the slots of the running bundle read it. -/
def srcAcc (s : State) (k : Slot) (a : Fin 8) : BitVec 1280 := rdAcc (oldRegs s k) a.val

/-- Its poison bit. -/
def srcAccPsn (s : State) (k : Slot) (a : Fin 8) : Bool := rdAccPsn (oldRegs s k) a.val

/-! ### The cardamom engines -/

/-- An engine runs and stands at an instruction with this opcode (R125, R126). -/
def EngineAt (s : State) (c : Fin 20) (e : Fin 8) (op : Nat) : Prop := mainOn s = true ∧ engAt s c.val e.val op = true

/-- The state after an engine's instruction changed its engine and control went on (R128). An engine that was to stop at its next
SLM and has nothing left to do stops (R141). -/
def engStep (s : State) (c : Fin 20) (e : Fin 8) (f : Engine → Engine) : State :=
  settleEngine (modEng s c.val e.val (fun E => engGo (f E) E.pc)) c.val e.val

/-- No window of a cluster is closed (R164). -/
def noFence (s : State) (c : Nat) : Prop := ∀ x ∈ (getClu s c).fence, x.2.closed = false

/-- P is the data instruction with this opcode that holds the port of an engine, or takes it now (R129). -/
def PortNow (s : State) (c : Fin 20) (e : Fin 8) (op : Nat) (P : EngPort) : Prop :=
  let E := getEng s c.val e.val
  (E.port = some P ∧ mainOn s = true ∧ cardOp P.w = op ∧ engClocked s c.val e.val = true ∧ E.prog ≠ []) ∨
    (E.port = none ∧ EngineAt s c e op ∧ (takePort E).port = some P)

/-- Where an engine's scalar unit stands once its data instruction has the port. -/
def portPc (E : Engine) : Nat := if E.port.isSome then E.pc else (engGo E E.pc).pc

/-- The lines that entries of a read instruction need from the fabric (R130). -/
def entryLines (s : State) (p : Nat) (tn : List Word) (es : List (List (List Piece))) : Nat :=
  (es.map (fun r => (fabLines s p tn r).length)).sum

/-- The result of a read instruction: as many of its next entries as fit are in flight for its queue, each with the deadline of R138,
and with the last of them the port is free. -/
def readsIssue (s : State) (c : Fin 20) (e : Fin 8) (op : Nat) (i : Instr)
    (runs : List Word → EngPort → List (List (List Piece))) : Prop :=
  let E := getEng s c.val e.val
  ∀ P : EngPort, PortNow s c e op P →
  let tn := portTensor s E P
  let es := (cutEntries (runs tn P)).drop P.done
  let n := min (64 - E.flight.length) es.length
  E.stopSlm = false → noFence s (tCluster tn) → (getPart s E.part).noticeOpen = false →
  storeRoomFor s (entryLines s E.part tn (es.take n)) = true →
  ∃ t fl, exec i s = .next t ∧ (getEng t c.val e.val).flight = E.flight ++ fl ∧ fl.length = n ∧
    (∀ f ∈ fl, f.q = portQueue E P ∧ (f.dlClove, f.dlCycle) = entryDl s P) ∧
    (getEng t c.val e.val).port = (if n = es.length then none else some { P with done := P.done + n }) ∧
    (getEng t c.val e.val).pc = portPc E ∧ (getEng t c.val e.val).x = E.x

/-- The result of a write instruction whose data lie in its queue: the granules leave the queue, the port is free again, the index
that it posts stands last in the sideband, and no byte of its tensor's cluster SRAM changes but those that an item names. Stores to
fabric windows need room for them. -/
def writesAll (s : State) (c : Fin 20) (e : Fin 8) (op : Nat) (i : Instr) (post : List Word → EngPort → Option Nat) : Prop :=
  let E := getEng s c.val e.val
  ∀ P : EngPort, PortNow s c e op P →
  let tn := portTensor s E P
  let q := portQueue E P
  let Q := getEq (getClu s c.val) q
  let need := portNeed tn P - P.done
  let posts := Q.idx && !P.posted
  ∀ gs es k mk, E.stopSlm = false → Q.en = true → (posts = true → Q.side.length < 64) → headGrans Q 1 0 ≠ [] →
    (∀ x ∈ Q.entries, x.gr.any (fun g => !g.pad) = true) → takeGrans need Q.entries Q.taken = some (gs, es, k, mk) →
    gs.length = need → 0 < need → noFence s (tCluster tn) →
    ((∀ x ∈ (portItems tn P P.done gs).1, farGranule s E.part tn (x.addr / 64) = false) ∧ P.part = [] ∨
      (getPart s E.part).noticeOpen = false ∧ storeRoomFor s (8 * (P.part.length + (portItems tn P P.done gs).1.length)) = true) →
    tabWf {} s.clusters = true → pmemWf (getClu s (tCluster tn)).sram = true →
  ∃ t, exec i s = .next t ∧ (getEng t c.val e.val).pc = portPc E ∧ (getEng t c.val e.val).port = none ∧
    (getEq (getClu t c.val) q).entries = es ∧
    (getEq (getClu t c.val) q).side = (if posts then Q.side ++ (post tn P).toList else Q.side) ∧
    ∀ a, (tSpace tn = 1 → ∀ x ∈ (portItems tn P P.done gs).1, x.addr ≠ a) →
      rdByte (getClu t (tCluster tn)).sram.mem a = rdByte (getClu s (tCluster tn)).sram.mem a

/-! ### Firmware commands -/

/-- A command of the rings starts now: the package runs, firmware is ready, the ring exists, the packet is next (R361, R365, R367,
R369), and no check that every command shares fails (R20, R375). -/
def FwReady (s : State) (r : RingId) (op : Nat) (k : Pkt) : Prop :=
  mainOn s = true ∧ ringExists s r = true ∧ s.boot.st = .ready ∧ mayStart s r op k = true ∧ genericErrs s r op k = []

/-- Two states are alike but for what reports write: the rings and the records in host memory, what goes to the outside, the flags
that a report sets, and the dirty log of a partition whose host memory takes a record (R13, R344, R368, R379). -/
def OnlyReports (s t : State) : Prop :=
  { t with rings := s.rings, host := s.host, out := s.out, parts := s.parts, flagsAt := s.flagsAt } = s ∧
  ∀ p, { getPart t p with dirtyOver := false } = { getPart s p with dirtyOver := false }

/-- A command answers a next state that is t, but for reports. -/
def Answers (i : Instr) (s t : State) : Prop := ∃ u, exec i s = .next u ∧ OnlyReports t u

/-- A command that has started waits, with the result words it has so far (R366). -/
def waiting (s : State) (r : RingId) (op : Nat) (k : Pkt) (why : Wait) (res : List Word) : State :=
  settle (headOf r op k) (.wait s why res)

/-- The command of each opcode (R374). -/
def fwCommand (op : Nat) (r : RingId) (k : Pkt) : Option Instr :=
  match op with
  | 0x00 => some (.getVersion r k)
  | 0x01 => some (.poolAuth r k)
  | 0x02 => some (.spdm r k)
  | 0x03 => some (.timeConfig r k)
  | 0x04 => some (.timeFreerun r k)
  | 0x05 => some (.cloveProgLoad r k)
  | 0x06 => some (.cloveProgCommit r k)
  | 0x10 => some (.partCreate r k)
  | 0x11 => some (.partDestroy r k)
  | 0x12 => some (.partReset r k)
  | 0x13 => some (.partFreeze r k)
  | 0x14 => some (.partThaw r k)
  | 0x15 => some (.partSave r k)
  | 0x16 => some (.partRestore r k)
  | 0x17 => some (.dirtySwap r k)
  | 0x18 => some (.memMap r k)
  | 0x19 => some (.memUnmap r k)
  | 0x20 => some (.descCreate r k)
  | 0x21 => some (.descDestroy r k)
  | 0x22 => some (.cardLoad r k)
  | 0x23 => some (.cspLoad r k)
  | 0x24 => some (.progLoad r k)
  | 0x25 => some (.progUnload r k)
  | 0x26 => some (.taskSubmit r k)
  | 0x27 => some (.launchAt r k)
  | 0x30 => some (.ruAdd r k)
  | 0x31 => some (.ruRemove r k)
  | 0x32 => some (.ruStats r k)
  | 0x33 => some (.cellAdd r k)
  | 0x34 => some (.cellRemove r k)
  | 0x35 => some (.cellExport r k)
  | 0x36 => some (.cellImport r k)
  | 0x37 => some (.radClaim r k)
  | 0x40 => some (.fabDma r k)
  | 0x41 => some (.fabInval r k)
  | 0x42 => some (.fabExport r k)
  | 0x43 => some (.fabUnexport r k)
  | 0x50 => some (.svcClusterTest r k)
  | 0x51 => some (.svcEngineBypass r k)
  | 0x52 => some (.svcPcRetire r k)
  | 0x60 => some (.netQpCreate r k)
  | 0x61 => some (.netQpDestroy r k)
  | 0x62 => some (.netMrReg r k)
  | 0x63 => some (.netMrDereg r k)
  | 0x64 => some (.netRawCfg r k)
  | _ => none

/-! ### Links, jobs and the invariant -/

/-- A link runs with the widest set of lanes that its free lanes and the width it is asked for give (R259). -/
def runsWidest (k r : Link) : Prop :=
  let f := lanesFree k
  let req := if k.widthAct.toNat = 3 then 0 else k.widthAct.toNat
  if req = 0 ∧ f = [0, 1, 2, 3] then r.width = 0 ∧ r.lanesUp = 0xF
  else if req ≤ 1 ∧ 0 ∈ f ∧ 1 ∈ f then r.width = 1 ∧ r.lanesUp = 0x3
  else if req ≤ 1 ∧ 2 ∈ f ∧ 3 ∈ f then r.width = 1 ∧ r.lanesUp = 0xC
  else r.width = 2 ∧ r.lanesUp = BitVec.ofNat 4 (2 ^ f.headD 0)

/-- The canonical forms: the tables that hold the machine's entries, and the memories behind them. -/
def Canon (s : State) : Prop :=
  tabWf {} s.rings = true ∧ tabWf {} s.parts = true ∧ tabWf {} s.clusters = true ∧ tabWf {} s.fab.links = true ∧
  tabWf [] s.host = true ∧ (∀ n, memWf (tabGet [] s.host n) = true) ∧ pmemWf s.hbm.m = true ∧ ∀ c, pmemWf (getClu s c).sram = true

/-- The invariant: canonical tables and memories, a clock that reads less than a second of ns and less than a clove of cycles (R24,
R211), and a life cycle that R391 names. -/
def Inv (s : State) : Prop := Canon s ∧ s.time.ns < 1000000000 ∧ s.time.cycle < 250000 ∧ s.sec.lifecycle ≤ 2

/-- What a row that puts a coding job gives its pool: pool, job, whether it keeps to its table, partition, generation, deadline clove and
cycle (R195 to R197). -/
def codingRow : Instr → Option (Nat × JobKind × Bool × Nat × Nat × Nat × Nat)
  | .ldpcJob w => some (b2n (bit (wd w 0) 0), .ldpc w, ldpcOk w, fld (wd w 12) 23 16, fld (wd w 12) 15 0, (wd w 10).toNat, fld (wd w 11) 17 0)
  | .polarJob j => some (2, .polar j, polarOk j, j.part.val, j.gen.toNat, j.dlClove.toNat, j.dlCycle)
  | .trlJob w => some (3, .trl w, trlOk w, fld (wd w 12) 23 16, fld (wd w 12) 15 0, (wd w 10).toNat, fld (wd w 11) 17 0)
  | _ => none

end Sys2Proof.Machine
end

