-- ==== Sys2Proof/Certificates/Slice0/Obligations.lean ====
section
/-! DEFINITION. The statements for the provers. Each names in its docstring the rules of the manual that it rests on. -/

open Sys2Proof Sys2Proof.Machine

/-! ### The CSP -/

/-- R149, R154, R155, R157: what the lane instructions on integers write in each lane: wrapping sums and differences, the signed maximum and
minimum, shifts; VADDS and VSUBS clamp every lane to its range, and a clamp sets CSP_STAT.SAT. -/
def Obligations.CspLaneArithmetic : Prop :=
  (∀ (k : Slot) (t : Lt) (d u v : Fin 32) (s : State), SlotIssues k s → ltInt t = true →
      (∃ r, exec (.vadd k t d u v) s = .next (slotEnd k (slotEffect k (writesD d r (srcPsn s k u || srcPsn s k v) false) s)) ∧
        ∀ i, i < 512 / ltBits t → lane (ltBits t) r i =
          (lane (ltBits t) (srcD s k u) i + lane (ltBits t) (srcD s k v) i) % 2 ^ ltBits t) ∧
      (∃ r, exec (.vsub k t d u v) s = .next (slotEnd k (slotEffect k (writesD d r (srcPsn s k u || srcPsn s k v) false) s)) ∧
        ∀ i, i < 512 / ltBits t → lane (ltBits t) r i =
          (lane (ltBits t) (srcD s k u) i + 2 ^ ltBits t - lane (ltBits t) (srcD s k v) i) % 2 ^ ltBits t) ∧
      (∃ r, exec (.vmax k t d u v) s = .next (slotEnd k (slotEffect k (writesD d r (srcPsn s k u || srcPsn s k v) false) s)) ∧
        ∀ i, i < 512 / ltBits t → toSigned (ltBits t) (lane (ltBits t) r i) =
          max (toSigned (ltBits t) (lane (ltBits t) (srcD s k u) i)) (toSigned (ltBits t) (lane (ltBits t) (srcD s k v) i))) ∧
      (∃ r, exec (.vmin k t d u v) s = .next (slotEnd k (slotEffect k (writesD d r (srcPsn s k u || srcPsn s k v) false) s)) ∧
        ∀ i, i < 512 / ltBits t → toSigned (ltBits t) (lane (ltBits t) r i) =
          min (toSigned (ltBits t) (lane (ltBits t) (srcD s k u) i)) (toSigned (ltBits t) (lane (ltBits t) (srcD s k v) i))) ∧
      ∀ n : Fin 64, n.val < ltBits t →
        (∃ r, exec (.vshl k t d u n) s = .next (slotEnd k (slotEffect k (writesD d r (srcPsn s k u) false) s)) ∧
          ∀ i, i < 512 / ltBits t → lane (ltBits t) r i = lane (ltBits t) (srcD s k u) i * 2 ^ n.val % 2 ^ ltBits t) ∧
        (∃ r, exec (.vshr k t d u n) s = .next (slotEnd k (slotEffect k (writesD d r (srcPsn s k u) false) s)) ∧
          ∀ i, i < 512 / ltBits t → toSigned (ltBits t) (lane (ltBits t) r i) =
            toSigned (ltBits t) (lane (ltBits t) (srcD s k u) i) / ((2 ^ n.val : Nat) : Int))) ∧
  (∀ (k : Slot) (t : Lt) (d u v : Fin 32) (s : State), SlotIssues k s → ltHw t = true →
      let w := ltBits t
      let a (i : Nat) : Int := toSigned w (lane w (srcD s k u) i)
      let b (i : Nat) : Int := toSigned w (lane w (srcD s k v) i)
      let fits (x : Int) : Prop := -(2 ^ (w - 1) : Int) ≤ x ∧ x < 2 ^ (w - 1)
      (∃ r sat, exec (.vadds k t d u v) s =
          .next (slotEnd k (slotSat k sat (slotEffect k (writesD d r (srcPsn s k u || srcPsn s k v) sat) s))) ∧
        (∀ i, i < 512 / w → toSigned w (lane w r i) = clampInt (-(2 ^ (w - 1) : Int)) (2 ^ (w - 1) - 1) (a i + b i)) ∧
        (sat = false ↔ ∀ i, i < 512 / w → fits (a i + b i))) ∧
      (∃ r sat, exec (.vsubs k t d u v) s =
          .next (slotEnd k (slotSat k sat (slotEffect k (writesD d r (srcPsn s k u || srcPsn s k v) sat) s))) ∧
        (∀ i, i < 512 / w → toSigned w (lane w r i) = clampInt (-(2 ^ (w - 1) : Int)) (2 ^ (w - 1) - 1) (a i - b i)) ∧
        (sat = false ↔ ∀ i, i < 512 / w → fits (a i - b i))))

/-- R150, R152, R157: the bitwise instructions, VSEL and VPERM, and the scalar instructions. SETB and SETL clear bits [5:0]; a poisoned
source of VMOVS stops the context with cause 0x5. -/
def Obligations.CspBitwiseAndScalar : Prop :=
  (∀ (k : Slot) (d m u v : Fin 32) (s : State), SlotIssues k s →
      exec (.vand k d u v) s = .next (slotEnd k (slotEffect k
        (writesD d (srcD s k u &&& srcD s k v) (srcPsn s k u || srcPsn s k v) false) s)) ∧
      exec (.vor k d u v) s = .next (slotEnd k (slotEffect k
        (writesD d (srcD s k u ||| srcD s k v) (srcPsn s k u || srcPsn s k v) false) s)) ∧
      exec (.vxor k d u v) s = .next (slotEnd k (slotEffect k
        (writesD d (srcD s k u ^^^ srcD s k v) (srcPsn s k u || srcPsn s k v) false) s)) ∧
      (∃ r, exec (.vsel k d m u v) s = .next (slotEnd k (slotEffect k
          (writesD d r (srcPsn s k m || srcPsn s k u || srcPsn s k v) false) s)) ∧
        ∀ i, i < 512 → r.getLsbD i = if (srcD s k m).getLsbD i then (srcD s k u).getLsbD i else (srcD s k v).getLsbD i) ∧
      (∃ r, exec (.vperm k d u v) s = .next (slotEnd k (slotEffect k
          (writesD d r (srcPsn s k u || srcPsn s k v) false) s)) ∧
        ∀ i, i < 32 → lane 16 r i = lane 16 (srcD s k u) (lane 16 (srcD s k v) i % 32))) ∧
  (∀ (k : Slot) (s : State), SlotIssues k s →
      (∀ p v, exec (.movp k p v) s = .next (slotEnd k (slotEffect k (fun o =>
        { o with regs := { o.regs with p := tabSet 0 o.regs.p p.val (scalarVal (oldRegs s k) v) } }) s))) ∧
      (∀ p v, let x := tabGet 0 (oldRegs s k).p p.val + scalarVal (oldRegs s k) v
        exec (.addp k p v) s = .next (slotEnd k (slotEffect k (fun o =>
          { o with regs := { o.regs with p := tabSet 0 o.regs.p p.val x } }) s))) ∧
      (∀ m v, exec (.movm k m v) s = .next (slotEnd k (slotEffect k (fun o =>
        { o with regs := { o.regs with m := tabSet 0 o.regs.m m.val (scalarVal (oldRegs s k) v) } }) s))) ∧
      (∀ b v, ∃ x : Word, exec (.setb k b v) s = .next (slotEnd k (slotEffect k (fun o =>
          { o with regs := { o.regs with b := tabSet 0 o.regs.b b.val x } }) s)) ∧
        x.toNat = (scalarVal (oldRegs s k) v).toNat / 64 * 64) ∧
      (∀ l v, ∃ x : Word, exec (.setl k l v) s = .next (slotEnd k (slotEffect k (fun o =>
          { o with regs := { o.regs with l := tabSet 0 o.regs.l l.val x } }) s)) ∧
        x.toNat = (scalarVal (oldRegs s k) v).toNat / 64 * 64) ∧
      (∀ m u i, exec (.vmovs k m u i) s = .next (slotEnd k (
        if srcPsn s k u then faultCsp (slotEffect k id s) k.c.val k.x.val 5
        else slotEffect k (fun o => { o with
          regs := { o.regs with m := tabSet 0 o.regs.m m.val (BitVec.ofNat 32 (lane 32 (srcD s k u) i.val)) } }) s))) ∧
      (∀ m t, let x := tabGet 0 (oldRegs s k).m m.val - 1
        exec (.dbnz k m t) s = .next (slotEnd k (slotEffect k (fun o =>
          { o with regs := { o.regs with m := tabSet 0 o.regs.m m.val x }, branch := if x = 0 then o.branch else some t.val }) s))))

/-- R155, R157: the multiply-accumulates, VCLR, VBIAS and VSHRN. An ACC lane stays within the clamp of R155. -/
def Obligations.CspMultiplyAccumulate : Prop :=
  ∀ (k : Slot) (a : Fin 8) (d u v : Fin 32) (s : State), SlotIssues k s →
    let x (i : Nat) : Int := toSigned 16 (lane 16 (srcD s k u) i)
    let y (i : Nat) : Int := toSigned 16 (lane 16 (srcD s k v) i)
    let c (i : Nat) : Int := accLane (srcAcc s k a) i
    let clamp (z : Int) : Int := clampInt (-(2 ^ 39 - 1)) (2 ^ 39 - 1) z
    let psn := srcPsn s k u || srcPsn s k v || srcAccPsn s k a
    (∃ r sat, exec (.vmac k .h a u v) s = .next (slotEnd k (slotSat k sat (slotEffect k (writesAcc a r psn sat) s))) ∧
      ∀ i, i < 32 → accLane r i = clamp (c i + x i * y i)) ∧
    (∃ r sat, exec (.vmac k .c a u v) s = .next (slotEnd k (slotSat k sat (slotEffect k (writesAcc a r psn sat) s))) ∧
      ∀ j, j < 16 → accLane r (2 * j) = clamp (c (2 * j) + (x (2 * j) * y (2 * j) - x (2 * j + 1) * y (2 * j + 1))) ∧
        accLane r (2 * j + 1) = clamp (c (2 * j + 1) + (x (2 * j) * y (2 * j + 1) + x (2 * j + 1) * y (2 * j)))) ∧
    (∃ r sat, exec (.vmacj k a u v) s = .next (slotEnd k (slotSat k sat (slotEffect k (writesAcc a r psn sat) s))) ∧
      ∀ j, j < 16 → accLane r (2 * j) = clamp (c (2 * j) + (x (2 * j) * y (2 * j) + x (2 * j + 1) * y (2 * j + 1))) ∧
        accLane r (2 * j + 1) = clamp (c (2 * j + 1) + (x (2 * j + 1) * y (2 * j) - x (2 * j) * y (2 * j + 1)))) ∧
    exec (.vclr k a) s = .next (slotEnd k (slotEffect k (writesAcc a 0 false false) s)) ∧
    (∀ n, 1 ≤ n → n ≤ 39 → ∃ r sat, exec (.vbias k a n) s =
        .next (slotEnd k (slotSat k sat (slotEffect k (writesAcc a r (srcAccPsn s k a) sat) s))) ∧
      (∀ i, i < 32 → accLane r i = clamp (c i + 2 ^ (n - 1))) ∧
      (sat = false ↔ ∀ i, i < 32 → clamp (c i + 2 ^ (n - 1)) = c i + 2 ^ (n - 1))) ∧
    (∀ n, n ≤ 39 → ∃ r sat, exec (.vshrn k .h d a n false) s =
        .next (slotEnd k (slotSat k sat (slotEffect k (writesD d r (srcAccPsn s k a) sat) s))) ∧
      (∀ i, i < 32 → toSigned 16 (lane 16 r i) = clampInt (-32768) 32767 (c i / ((2 ^ n : Nat) : Int)))) ∧
    (∀ n h, n ≤ 39 → ∃ r sat, exec (.vshrn k .w d a n h) s =
        .next (slotEnd k (slotSat k sat (slotEffect k (writesD d r (srcAccPsn s k a) sat) s))) ∧
      (∀ i, i < 16 → toSigned 32 (lane 32 r i) =
        clampInt (-2147483648) 2147483647 (c (16 * b2n h + i) / ((2 ^ n : Nat) : Int))))

/-- R92, R156, R157: the floating lane instructions, each with one rounding, and the conversions. The lanes of VRSUM above lane 0 hold a
free value (log entry 30). -/
def Obligations.CspFloating : Prop :=
  ∀ (k : Slot) (d u v : Fin 32) (s : State), SlotIssues k s →
    let psn := srcPsn s k u || srcPsn s k v
    (∀ t, ltFloat t = true →
      (∃ r, exec (.vfadd k t d u v) s = .next (slotEnd k (slotEffect k (writesD d r psn false) s)) ∧
        ∀ i, i < 512 / ltBits t → lane (ltBits t) r i =
          fAdd (ltFmt t) (lane (ltBits t) (srcD s k u) i) (lane (ltBits t) (srcD s k v) i) % 2 ^ ltBits t) ∧
      (∃ r, exec (.vfmul k t d u v) s = .next (slotEnd k (slotEffect k (writesD d r psn false) s)) ∧
        ∀ i, i < 512 / ltBits t → lane (ltBits t) r i =
          fMul (ltFmt t) (lane (ltBits t) (srcD s k u) i) (lane (ltBits t) (srcD s k v) i) % 2 ^ ltBits t) ∧
      (∃ r, exec (.vfma k t d u v) s = .next (slotEnd k (slotEffect k (writesD d r (srcPsn s k d || psn) false) s)) ∧
        ∀ i, i < 512 / ltBits t → lane (ltBits t) r i = fFma (ltFmt t) (lane (ltBits t) (srcD s k d) i)
          (lane (ltBits t) (srcD s k u) i) (lane (ltBits t) (srcD s k v) i) % 2 ^ ltBits t) ∧
      (∃ r, exec (.vmax k t d u v) s = .next (slotEnd k (slotEffect k (writesD d r psn false) s)) ∧
        ∀ i, i < 512 / ltBits t → lane (ltBits t) r i =
          fMaxMin (ltFmt t) true (lane (ltBits t) (srcD s k u) i) (lane (ltBits t) (srcD s k v) i) % 2 ^ ltBits t) ∧
      (∃ r, exec (.vmin k t d u v) s = .next (slotEnd k (slotEffect k (writesD d r psn false) s)) ∧
        ∀ i, i < 512 / ltBits t → lane (ltBits t) r i =
          fMaxMin (ltFmt t) false (lane (ltBits t) (srcD s k u) i) (lane (ltBits t) (srcD s k v) i) % 2 ^ ltBits t)) ∧
    (∀ t h, (cvtHalves t || !h) = true → let x := cvtLanes t h (srcD s k u)
      exec (.vcvt k t d u h) s = .next (slotEnd k (slotSat k x.2.2 (slotEffect k
        (writesD d (packD x.1 x.2.1) (srcPsn s k u) x.2.2) s)))) ∧
    (∀ f, ∃ r, exec (.vfunc k f d u) s = .next (slotEnd k (slotEffect k (writesD d r (srcPsn s k u) false) s)) ∧
      ∀ i, i < 16 → lane 32 r i = funcLane f (lane 32 (srcD s k u) i) % 2 ^ 32) ∧
    (∀ t, (ltInt t || decide (t = .f)) = true → exec (.vrmax k t d u) s = .next (slotEnd k (slotEffect k
      (writesD d (packD (ltBits t) (rmaxLanes t (srcD s k u))) (srcPsn s k u) false) s))) ∧
    (∀ t, t ≠ .h → t ≠ .c → ∃ r, exec (.vrsum k t d u) s =
        .next (slotEnd k (slotEffect k (writesD d r (srcPsn s k u) false) s)) ∧
      lane (ltBits t) r 0 = rsumLane t (srcD s k u) % 2 ^ ltBits t)

/-- R146, R152, R157, R158, R163, R164: REP, the waits and the fences. A bundle of another context that holds a REP does not issue
once a REP has delayed the radio in the clove: its context waits. -/
def Obligations.CspControl : Prop :=
  (∀ (k : Slot) (s : State), mainOn s = true → cspOk s k.c.val k.x.val = true → repWaits s k.c.val k.x.val = true →
    (∀ n, exec (.rep k n) s = .next (waitRep s k.c.val k.x.val)) ∧
    (∀ d u v, exec (.vand k d u v) s = .next (waitRep s k.c.val k.x.val)) ∧
    (getCsp (waitRep s k.c.val k.x.val) k.c.val k.x.val).wait = .repHeld) ∧
  ∀ (k : Slot) (s : State), SlotIssues k s →
    (∀ n, repBarred s k.c.val k.x.val = false →
      exec (.rep k n) s = .next (slotEnd k (slotEffect k (fun o => { o with repArm := n }) s))) ∧
    (∀ n, repBarred s k.c.val k.x.val = true →
      exec (.rep k n) s = .next (slotEnd k (waitRep (slotEffect k id s) k.c.val k.x.val))) ∧
    exec (.cspWaitb k) s = .next (slotEnd k (slotEffect k (fun o => { o with wait := .boundary }) s)) ∧
    (∀ src m, waitHeld s k.c.val (getCsp s k.c.val k.x.val).part src.val = true →
      exec (.waitc k src m) s = .next (slotEnd k (
        if countReached (waitCount s k.c.val src.val) (tabGet 0 (oldRegs s k).m m.val) then slotEffect k id s
        else slotEffect k (fun o => { o with wait := .count src.val (tabGet 0 (oldRegs s k).m m.val) }) s))) ∧
    (∀ src m, waitHeld s k.c.val (getCsp s k.c.val k.x.val).part src.val = false →
      exec (.waitc k src m) s = .next (slotEnd k (faultCsp (slotEffect k id s) k.c.val k.x.val 3))) ∧
    (∀ f p m, let a := (tabGet 0 (oldRegs s k).p p.val).toNat
      let n := (tabGet 0 (oldRegs s k).m m.val).toNat
      let mine := ∀ u, a / 2 ^ 18 ≤ u → u ≤ (a + max n 1 - 1) / 2 ^ 18 →
        sramMine s (getCsp s k.c.val k.x.val).part k.c.val (2 ^ 18 * u) = true
      (a + n ≤ 2 ^ 24 → a % 4096 = 0 → n % 4096 = 0 → mine →
        exec (.fset k f p m) s = .next (slotEnd k (modClu (slotEffect k id s) k.c.val (fun cl => { cl with
          fence := tabSet {} cl.fence f.val { base := a / 4096, len := n / 4096, closed := false, ctx := k.x } })))) ∧
      (2 ^ 24 < a + n ∨ ¬mine → exec (.fset k f p m) s = .next (slotEnd k (faultCsp (slotEffect k id s) k.c.val k.x.val 1))) ∧
      (a + n ≤ 2 ^ 24 → mine → a % 4096 ≠ 0 ∨ n % 4096 ≠ 0 →
        exec (.fset k f p m) s = .next (slotEnd k (faultCsp (slotEffect k id s) k.c.val k.x.val 2)))) ∧
    (∀ f, exec (.fclose k f) s = .next (slotEnd k (modClu (slotEffect k id s) k.c.val (fun cl => { cl with
      fence := tabMod {} cl.fence f.val (fun x => { x with closed := true }) })))) ∧
    (∀ f, exec (.fopen k f) s = .next (slotEnd k (modClu (slotEffect k id s) k.c.val (fun cl => { cl with
      fence := tabMod {} cl.fence f.val (fun x => { x with closed := false }) }))))

/-- R150 to R152, R154, R157: the loads and the store within the partition's SRAM, aligned. A load takes the
granule at Pn before modification with its poison; a store waits for the end of its bundle. An access outside the partition's SRAM stops the
context with cause 0x1, also when it is misaligned, and one that is only misaligned with cause 0x2. -/
def Obligations.CspMemory : Prop :=
  (∀ (k : Slot) (d : Fin 32) (p m : Fin 16) (circ : Bool) (s : State), SlotIssues k s → circWf p circ = true →
      let r := oldRegs s k
      let o := getCsp s k.c.val k.x.val
      let a := (tabGet 0 r.p p.val).toNat
      let q := postModify (tabGet 0 r.p p.val) (tabGet 0 r.m m.val) circ (tabGet 0 r.b p.val) (tabGet 0 r.l p.val)
      let step (o : CspCtx) : CspCtx := { o with regs := { o.regs with p := tabSet 0 o.regs.p p.val q } }
      (sramMine s o.part k.c.val a = true → sramMine s o.part k.c.val (a + 63) = true → a % 64 = 0 →
        (∀ ecc, ecc ≠ .uncorrectable → exec (.vld k d p m circ ecc) s = .next (slotEnd k (slotEffect k (fun o =>
          step (writesD d (granData (getClu s k.c.val).sram (a / 64)) (cspPsn s k.c.val a) false o)) s))) ∧
        (k.eob = false → ∃ t, exec (.vld k d p m circ .uncorrectable) s = .next t ∧ srcPsn t k d = srcPsn s k d ∧
          rdDPsn (getCsp t k.c.val k.x.val).regs d.val = true ∧ granPsn (getClu t k.c.val).sram (a / 64) = true) ∧
        exec (.vst k d p m circ) s = .next (slotEnd k (slotEffect k (fun o => step { o with
          stores := o.stores ++ [(a, srcD s k d, srcPsn s k d)] }) s))) ∧
      (∀ t, t ≠ .c → sramMine s o.part k.c.val a = true → sramMine s o.part k.c.val (a + (ltBits t / 8 - 1)) = true →
        a % (ltBits t / 8) = 0 →
        ∃ v, (∀ ecc, ecc ≠ .uncorrectable → exec (.vldb k t d p m circ ecc) s = .next (slotEnd k (slotEffect k (fun o =>
            step (writesD d v (cspPsn s k.c.val a) false o)) s))) ∧
          ∀ i, i < 512 / ltBits t → lane (ltBits t) v i =
            sramNum (getClu s k.c.val) a (ltBits t / 8) % 2 ^ ltBits t)) ∧
  (∀ (k : Slot) (d : Fin 32) (p m : Fin 16) (circ : Bool) (ecc : Ecc) (s : State), SlotIssues k s →
      let a := (tabGet 0 (oldRegs s k).p p.val).toNat
      let o := getCsp s k.c.val k.x.val
      let stop (cause : Nat) := Host.Outcome.next (slotEnd k (faultCsp (slotEffect k id s) k.c.val k.x.val cause))
      ((sramMine s o.part k.c.val a = false ∨ sramMine s o.part k.c.val (a + 63) = false) →
        exec (.vld k d p m circ ecc) s = stop 1 ∧ exec (.vst k d p m circ) s = stop 1) ∧
      (sramMine s o.part k.c.val a = true → sramMine s o.part k.c.val (a + 63) = true → a % 64 ≠ 0 →
        exec (.vld k d p m circ ecc) s = stop 2 ∧ exec (.vst k d p m circ) s = stop 2))

/-- R144, R150, R154, R157, R158, R168, R169, R415: the last slot of a bundle makes its results the registers that the next bundle
reads, makes its stores and passes control on, past bundles without instructions (log entry 86); HALT ends the program, with the
stores of its bundle made; CSP_TIMESLICE makes the running context yield to the next ready one, but not within a bundle or REP; a
register-file parity error stops the contexts that use the file, and marks the CSP failed and the cluster for its test. -/
def Obligations.CspBundleAndProgramEnds : Prop :=
  (∀ (c : Fin 20) (x : Fin 4) (s : State), let o := getCsp s c.val x.val
      o.st = 1 → cspQuiet s c.val → pmemWf (getClu s c.val).sram = true →
      let t := endBundle s c.val x.val
      let o1 : CspCtx := { o with
        old := o.regs, mid := false, branch := none, stores := [], stPsn := o.stPsn || o.stores.any (fun w => w.2.2) }
      getCsp t c.val x.val = passEmpty (o.prog.length / 4) (
          if 1 < o.repLeft then { o1 with repLeft := o.repLeft - 1 }
          else if o.repLeft = 1 then { o1 with repLeft := 0, pc := o.pc + 1 }
          else if 0 < o.repArm then { o1 with repArm := 0, repLeft := o.repArm, pc := o.pc + 1 }
          else { o1 with pc := o.branch.getD (o.pc + 1), st := if o.wait = .none then 1 else 2 }) ∧
        (∀ y, y ≠ x.val → getCsp t c.val y = getCsp s c.val y) ∧
        (∀ a d p, o.stores = [(a, d, p)] →
          granData (getClu t c.val).sram (a / 64) = d ∧ granPsn (getClu t c.val).sram (a / 64) = p) ∧
        (∀ a, (∀ w ∈ o.stores, a / 64 ≠ w.1 / 64) →
          rdByte (getClu t c.val).sram.mem a = rdByte (getClu s c.val).sram.mem a)) ∧
  (∀ (k : Slot) (code : BitVec 8) (s : State), SlotIssues k s → (getCsp s k.c.val k.x.val).en = true → cspQuiet s k.c.val →
      ∃ t, exec (.halt k code) s = .next t ∧ (getCsp t k.c.val k.x.val).st = 0 ∧
        (getCsp t k.c.val k.x.val).regs = (getCsp s k.c.val k.x.val).regs ∧
        (getCsp t k.c.val k.x.val).old = (getCsp s k.c.val k.x.val).regs ∧ (getCsp t k.c.val k.x.val).stores = [] ∧
        ∀ y, y ≠ k.x.val → getCsp t k.c.val y = getCsp s k.c.val y) ∧
  (∀ (c : Fin 20) (s : State), mainOn s = true → let cl := getClu s c.val
      ∃ t, exec (.cspTimeslice c) s = .next t ∧ (∀ y, getCsp t c.val y = getCsp s c.val y) ∧
        (cspBusy s (getCsp s c.val cl.cspRun.val) = true → (getClu t c.val).cspRun = cl.cspRun) ∧
        (cspBusy s (getCsp s c.val cl.cspRun.val) = false → cl.cspRun = cl.cspTurn →
          ((getCsp s c.val 0).radio && cspReady s (getCsp s c.val 0)) = false → ∀ n, nextReady s c.val cl.cspTurn.val = some n →
          (getClu t c.val).cspRun.val = n ∧ (getClu t c.val).cspTurn.val = n ∧ (getClu t c.val).cspTime = 0)) ∧
  (∀ (c : Fin 20) (users : BitVec 4) (s : State), mainOn s = true →
      ∃ t, exec (.cspParityError c users) s = .next t ∧ (getClu t c.val).cspFailed = true ∧ (getClu t c.val).selfTest = true ∧
        (cspQuiet s c.val → ∀ x, x < 4 →
          (users.getLsbD x = true → (getCsp s c.val x).st = 1 ∨ (getCsp s c.val x).st = 2 →
            (getCsp t c.val x).st = 3 ∧ (getCsp t c.val x).cause = 4) ∧
          (users.getLsbD x = false → getCsp t c.val x = getCsp s c.val x)))

/-! ### The cardamom engines -/

/-- R125, R126, R128, R140, R141: the cardamom instructions on the coordinate registers, the plane range and the deadline register; END,
the loops, SLM and WAITB; where control goes after an instruction. -/
def Obligations.CardScalarsAndControl : Prop :=
  (∀ (c : Fin 20) (e : Fin 8) (s : State),
      let E := getEng s c.val e.val
      let w := engInsn E
      let imm : Word := BitVec.ofInt 32 (toSigned 20 (fld w 19 0))
      (EngineAt s c e 1 → exec (.setx c e) s = .next (engStep s c e (fun E => { E with x := tabSet 0 E.x (fld w 25 22) imm }))) ∧
      (EngineAt s c e 2 → exec (.addx c e) s = .next (engStep s c e (fun E =>
        { E with x := tabSet 0 E.x (fld w 25 22) (tabGet 0 E.x (fld w 25 22) + imm) }))) ∧
      (EngineAt s c e 3 → exec (.addr c e) s = .next (engStep s c e (fun E =>
        { E with x := tabSet 0 E.x (fld w 25 22) (tabGet 0 E.x (fld w 25 22) + tabGet 0 E.x (fld w 21 18)) }))) ∧
      (EngineAt s c e 12 → exec (.pls c e) s = .next (engStep s c e (fun E =>
        { E with plFirst := fld w 5 3, plCount := fld w 2 0 + 1 }))) ∧
      (EngineAt s c e 13 → exec (.dls c e) s = .next (engStep s c e (fun E =>
        { E with dlOff := fld w 19 18, dlCycle := fld w 17 0 }))) ∧
      (EngineAt s c e 14 → exec (.dla c e) s = .next (engStep s c e (fun E =>
        let m := min (250000 * E.dlOff + E.dlCycle + fld w 17 0) 999999
        { E with dlOff := m / 250000, dlCycle := m % 250000 })))) ∧
  (∀ (c : Fin 20) (e : Fin 8) (s : State),
      let w := engInsn (getEng s c.val e.val)
      (EngineAt s c e 0 → exec (.endInsn c e) s = .next (settleEngine (modEng s c.val e.val (fun E =>
        { E with run := false, waitB := false, loops := [] })) c.val e.val)) ∧
      (EngineAt s c e 4 → exec (.loop c e) s = .next (modEng s c.val e.val (fun E => { E with
        loops := { start := E.pc + 1, stop := fld w 5 0, left := fld w 21 6 + 1 } :: E.loops, pc := E.pc + 1 }))) ∧
      (EngineAt s c e 5 → 0 < engX (getEng s c.val e.val) (fld w 25 22) →
        exec (.loopx c e) s = .next (modEng s c.val e.val (fun E => { E with
          loops := { start := E.pc + 1, stop := fld w 5 0, left := (engX E (fld w 25 22)).toNat } :: E.loops, pc := E.pc + 1 }))) ∧
      (EngineAt s c e 5 → engX (getEng s c.val e.val) (fld w 25 22) ≤ 0 →
        exec (.loopx c e) s = .next (modEng s c.val e.val (fun E => engGo E (fld w 5 0)))) ∧
      (EngineAt s c e 15 → (getEng s c.val e.val).stopSlm = false →
        ((getEng s c.val e.val).saves.length < 2 ∨ marksHeld s c.val e.val = false) →
        exec (.slm c e) s = .next (modEng s c.val e.val (fun E =>
          let E1 := engGo E E.pc
          { E1 with
            saves := (if 2 ≤ E.saves.length then E.saves.drop 1 else E.saves) ++
              [{ x := E1.x, loops := E1.loops, pc := E1.pc, plFirst := E1.plFirst, plCount := E1.plCount, dlOff := E1.dlOff
                 dlCycle := E1.dlCycle, pops := E1.pops
                 early := match E.port with
                   | some P => decide (cardOp P.w = 7) || decide (cardOp P.w = 10)
                   | none => false }],
            markNext := pushQueues E1, replay := none }))) ∧
      (EngineAt s c e 15 → (getEng s c.val e.val).stopSlm = false → 2 ≤ (getEng s c.val e.val).saves.length →
        marksHeld s c.val e.val = true → exec (.slm c e) s = .next s) ∧
      (EngineAt s c e 15 → (getEng s c.val e.val).stopSlm = true →
        ((getEng s c.val e.val).port.isSome = true → exec (.slm c e) s = .next s) ∧
        ((getEng s c.val e.val).port = none → exec (.slm c e) s = .next (stopTaker s c.val e.val))) ∧
      (EngineAt s c e 16 → exec (.waitb c e) s = .next (modEng s c.val e.val (fun E =>
        { engGo E E.pc with waitB := (engGo E E.pc).run })))) ∧
  ((∀ i, loopNext i [] = (i + 1, [])) ∧
    (∀ i f r, i ≠ f.stop → loopNext i (f :: r) = (i + 1, f :: r)) ∧
    (∀ f r, 1 < f.left → loopNext f.stop (f :: r) = (f.start, { f with left := f.left - 1 } :: r)) ∧
    (∀ f r, f.left ≤ 1 → loopNext f.stop (f :: r) = loopNext f.stop r) ∧
    (∀ E i, (loopNext i E.loops).1 ≤ 63 → (engGo E i).run = E.run ∧ (engGo E i).pc = (loopNext i E.loops).1 ∧
      (engGo E i).loops = (loopNext i E.loops).2 ∧ (engGo E i).x = E.x) ∧
    (∀ E i, 63 < (loopNext i E.loops).1 → (engGo E i).run = false))

/-- R126, R127, R129, R130, R138: the read instructions put one entry in flight for each 512 bytes of each of their runs, as far as
64 in flight allow, and the instruction goes on at the port until its last one. -/
def Obligations.CardReads : Prop :=
  ∀ (c : Fin 20) (e : Fin 8) (s : State),
    readsIssue s c e 6 (.rd c e []) (fun t P => [rdRun t (portXs t P) (portLen P)]) ∧
    readsIssue s c e 8 (.rds c e []) (fun t P => [rdsRun t (P.xs.getD 0 0) (P.xs.getD 1 0) (portLen P)]) ∧
    readsIssue s c e 9 (.rdw c e []) (fun t P => [rdwRun t (P.xs.getD 0 0) (P.xs.getD 1 0) P.plFirst P.plCount]) ∧
    readsIssue s c e 11 (.rdt c e []) (fun t P => rdtRuns t (portXs t P)) ∧
    (∀ P, (takePort (getEng s c.val e.val)).port = some P → P.done = 0 ∧ P.w = engInsn (getEng s c.val e.val) ∧
      ∀ i, i < 16 - fld P.w 20 17 → P.xs.getD i 0 = engX (getEng s c.val e.val) (fld P.w 20 17 + i))

/-- R124, R126, R129, R134, R137: the write instructions. -/
def Obligations.CardWrites : Prop :=
  ∀ (c : Fin 20) (e : Fin 8) (s : State),
    writesAll s c e 7 (.wr c e) (fun t P => some (linearIndex t (portXs t P))) ∧ writesAll s c e 10 (.wrw c e) (fun _ _ => none)

/-- R130, R132, R138: an entry that arrives is pushed to its queue, behind the entries there, and stands in its slot of the queue's
storage (log entry 8); or it is discarded against SKIP of a real-time queue, or waits for room. A real-time queue whose deadline has
passed gives a consumer that needs its next granule an erased entry. -/
def Obligations.CardEntries : Prop :=
  (∀ (c : Fin 20) (e : Fin 8) (q : Fin 64) (res : Arrival) (s : State) (f : Flight) (en : Entry), mainOn s = true →
    tabWf {} s.clusters = true → tabWf {} (getClu s c.val).eng = true →
    (getEng s c.val e.val).flight.find? (fun f => decide (f.q = q.val)) = some f → arriveEntry f res = some en →
    let Q := getEq (getClu s c.val) q.val
    let E := getEng s c.val e.val
    let drop := checkUnmap (modEng s c.val e.val (fun E => { E with flight := dropFlight q.val E.flight })) E.part
    ((Q.rt = false ∨ Q.skip = 0) → Q.entries.length < 64 → pmemWf (getClu s c.val).sram = true →
      ∃ t, exec (.cardEntryComplete c e q res) s = .next t ∧ (getEng t c.val e.val).flight = dropFlight q.val E.flight ∧
        getEq (getClu t c.val) q.val = { Q with entries := Q.entries ++ [en], tail := (Q.tail + 1) % 64, waitFrom := none } ∧
        (∀ i g, en.gr[i]? = some g → g.pad = false →
          granData (getClu t c.val).sram (slotAddr Q / 64 + i) = g.data) ∧
        ∀ a, (∀ i g, en.gr[i]? = some g → g.pad = false → a / 64 ≠ slotAddr Q / 64 + i) →
          rdByte (getClu t c.val).sram.mem a = rdByte (getClu s c.val).sram.mem a) ∧
    ((Q.rt = false ∨ Q.skip = 0) → 64 ≤ Q.entries.length → exec (.cardEntryComplete c e q res) s = .next s) ∧
    (Q.rt = true → 0 < Q.skip →
      exec (.cardEntryComplete c e q res) s = .next (modEq drop c.val q.val (fun Q =>
        { Q with skip := Q.skip - 1, late := min 255 (Q.late + 1) })))) ∧
  (∀ (c : Fin 20) (q : Fin 64) (s : State), mainOn s = true →
    let Q := getEq (getClu s c.val) q.val
    let from_ := Q.waitFrom.getD s.time.clove
    let head := ((queueFlights s c.val q.val).drop Q.skip).head?
    let due := match head with
      | some f => dlReached s f.dlClove f.dlCycle
      | none => dlReached s from_ 249999
    (Q.en = true → Q.rt = true → Q.entries = [] → queueWanted s c.val q.val = true →
      (due = false → exec (.rtSubstitute c q) s = .next (modEq s c.val q.val (fun Q => { Q with waitFrom := some from_ }))) ∧
      (due = true → ∃ t en, exec (.rtSubstitute c q) s = .next t ∧
        en.gr.length = (match head with
          | some f => f.entry.gr.length
          | none => 8) ∧
        (∀ g ∈ en.gr, g.data = 0 ∧ g.psn = false ∧ g.erased = true) ∧
        getEq (getClu t c.val) q.val = { Q with
          entries := [en], tail := (Q.tail + 1) % 64, skip := min (2 ^ 32 - 1) (Q.skip + 1), miss := min 255 (Q.miss + 1),
          subs := Q.subs + 1, waitFrom := none } ∧
        t.health.misses = min (2 ^ 32 - 1) (s.health.misses + 1))) ∧
    (Q.en = false ∨ Q.rt = false ∨ Q.entries ≠ [] ∨ queueWanted s c.val q.val = false →
      exec (.rtSubstitute c q) s = .next s))

/-! ### The matrix arrays -/

/-- R45, R49, R55, R68, R85, R135: a WS operation of INT8 operands whose rows lie in A_Q, opened with INIT = 1, leaves in each column's
accumulator of each row the exact sum of the products of that row with the held tile, whatever the accumulator held before. An
operation of any kind whose descriptor fails its checks completes with the lowest code that fails, and one that may not start yet
waits in its queue. -/
def Obligations.MmaRow : Prop :=
  (∀ (c : Fin 20) (owner : Fin 64) (d : List Word) (s : State), mainOn s = true → (getPart s owner.val).live = true →
    let l := dArray d % 16
    let cl := getClu s c.val
    let la := getLa s c.val l
    let Q := getEq cl (dAQ d)
    let row := ceilDiv (dK d) 64
    la.run = none → la.descQ = [] → opErrs s c.val owner.val d = [] → canStart s c.val l owner.val d = true →
    dOp d = 1 → dFlow d = 0 → dInit d = true → dLast d = false → dRem d = false → dScale d = 0 → dSpill d = 0 →
    dA d = 1 → dW d = 1 → Q.en = true → dM d * row ≤ granAvail Q →
    ∀ gs es k mk, takeGrans (dM d * row) Q.entries Q.taken = some (gs, es, k, mk) →
    ∃ t, exec (.mma c owner d) s = .next t ∧ (getLa t c.val l).run = none ∧ (getEq (getClu t c.val) (dAQ d)).entries = es ∧
      ∀ m n, m < dM d → n < dN d →
        accInt (accOf t c.val l d m n 0) =
          ((List.range (dK d)).map (fun k =>
            toSigned 8 (granByte gs (64 * row * m + k)) * toSigned 8 (granByte (wbTile cl l d) (k * 128 + n)))).sum) ∧
  (∀ (c : Fin 20) (owner : Fin 64) (d : List Word) (s : State) (i : Instr), mainOn s = true → (getPart s owner.val).live = true →
    i ∈ [Instr.mma c owner d, .accPreload c owner d, .accDrain c owner d] →
    let l := dArray d % 16
    (getLa s c.val l).run = none → (getLa s c.val l).descQ = [] →
    (opErrs s c.val owner.val d ≠ [] → ∃ t, exec i s = .next t ∧
      t.out = s.out ++ [.op c.val l (b2n (dCtx d)) (lowest (opErrs s c.val owner.val d))] ∧ t.parts = s.parts ∧ t.hbm = s.hbm) ∧
    (opErrs s c.val owner.val d = [] → canStart s c.val l owner.val d = false → ∃ t, exec i s = .next t ∧
      (getLa t c.val l).descQ = [(owner.val, d)] ∧ (getLa t c.val l).run = none ∧ t.out = s.out ∧ t.parts = s.parts))

/-- R55, R56, R101 to R103, R445: an accumulator preload, of a row for each row or of one row for all rows, writes the entries of P_Q
with their poison; an ACC_DRAIN on accumulators that have not spilled begins a final drain of their values, a row for each of
M_ROWS. -/
def Obligations.AccPreloadAndDrain : Prop :=
  (∀ (c : Fin 20) (owner : Fin 64) (d : List Word) (s : State), mainOn s = true → (getPart s owner.val).live = true →
      let l := dArray d % 16
      let cl := getClu s c.val
      let la := getLa s c.val l
      let Q := getEq cl (dPQ d)
      let per := if dCi16 d then 2 else 1
      let row := ceilDiv (8 * dN d * per) 64
      let rows := if dBcast d then 1 else dM d
      la.run = none → la.descQ = [] → opErrs s c.val owner.val d = [] → canStart s c.val l owner.val d = true →
      dOp d = 2 → rows * row ≤ granAvail Q →
      ∀ gs es k mk, takeGrans (rows * row) Q.entries Q.taken = some (gs, es, k, mk) →
      ∃ t, exec (.accPreload c owner d) s = .next t ∧ (getLa t c.val l).run = none ∧
        ∀ m n i, m < dM d → n < dN d → i < per →
          let a := accOf t c.val l d m n i
          let at_ := 64 * row * (if dBcast d then 0 else m) + 8 * (n * per + i)
          a.bits = preloadBits d (granNum gs at_ 8) ∧ a.psn = granBad gs at_ ∧ a.count = 0 ∧ a.spill = 0 ∧ a.first = true) ∧
  (∀ (c : Fin 20) (owner : Fin 64) (d : List Word) (s : State), mainOn s = true → (getPart s owner.val).live = true →
      let l := dArray d % 16
      let la := getLa s c.val l
      let per := if dCi16 d then 2 else 1
      la.run = none → la.descQ = [] → opErrs s c.val owner.val d = [] → canStart s c.val l owner.val d = true →
      dOp d = 3 → (dScale d = 2 → ceilDiv (4 * dN d) 64 ≤ granAvail (getEq (getClu s c.val) (dSQ d))) →
      (∀ m n i, m < dM d → n < dN d → i < per → (accOf s c.val l d m n i).spilled = false) →
      ∃ t dr, exec (.accDrain c owner d) s = .next t ∧ (getLa t c.val l).run = none ∧
        (getLa t c.val l).drains = la.drains ++ [dr] ∧ dr.d = d ∧ dr.part = owner.val ∧ dr.row = 0 ∧ dr.blank = false ∧
        dr.rows = (List.range (dM d)).map (fun m => (List.range (dN d)).flatMap (fun n => (List.range per).map (fun i =>
          let a := accOf s c.val l d m n i
          if dExact d then { form := 0, bits := BitVec.ofInt 64 (accInt a), psn := a.psn }
          else { form := 1, bits := BitVec.ofNat 64 (a.bits.toNat % 2 ^ 32), psn := a.psn }))))

/-- R58, R70, R73, R105 to R109, R134, R444: the oldest final drain of an array pushes its next row to O_Q, rounded, with the errors
that reached its sums, where its checksum agrees; after the last row the drain is over and the array's drain count goes up by one.
The rows of a stopped slice go out poisoned. On a mismatch the control core records a failure with cause 1; a halted array pushes
nothing. -/
def Obligations.DrainPushesRow : Prop :=
  ∀ (c : Fin 20) (a : Fin 16) (errs : List (Nat × Int)) (s : State) (dr : Drain) (rest : List Drain), mainOn s = true →
    let la := getLa s c.val a.val
    let q := dOQ dr.d
    let Q := getEq (getClu s c.val) q
    let fd := if dExact dr.d then faultyDrain dr errs else dr
    let es := entriesOfBytes (rowBytes fd (if Q.idx then Q.side.headD 0 else dr.row * 128) (fd.rows.getD dr.row []))
    let skips := ∀ x ∈ [la.sl0, la.sl1] ++ la.closing, tabGet 0 x.skip q = 0
    la.drains = dr :: rest → la.part.isSome = true →
    (la.halted = true ∨ (getPart s dr.part).twinState = 3 ∨ 4 ≤ (getPc s c.val).point → exec (.drainRowPush c a errs) s = .next s) ∧
    (la.halted = false → (getPart s dr.part).twinState ≠ 3 → (getPc s c.val).point < 4 →
      (dr.blank = false → (dExact dr.d = true → rowChecks dr errs = true) → (Q.idx = true → Q.side ≠ []) →
        Q.entries.length + es.length ≤ 64 → skips →
        ∃ t, exec (.drainRowPush c a errs) s = .next t ∧ (getEq (getClu t c.val) q).entries = Q.entries ++ es ∧
          (getEq (getClu t c.val) q).side = (if Q.idx then Q.side.drop 1 else Q.side) ∧
          (dr.row + 1 < dr.rows.length → (getLa t c.val a.val).drains.length = la.drains.length ∧
            (getLa t c.val a.val).drains.head?.map (fun x => x.row) = some (dr.row + 1) ∧
            (getLa t c.val a.val).drnCnt = la.drnCnt) ∧
          (dr.rows.length ≤ dr.row + 1 → (getLa t c.val a.val).drains = rest ∧
            (getLa t c.val a.val).drnCnt = la.drnCnt + 1)) ∧
      (dr.blank = true → drainUntaken s c.val dr = false → Q.idx = false → skips →
        Q.entries.length + (entriesOfBytes (blankBytes s dr)).length ≤ 64 →
        ∃ t es, exec (.drainRowPush c a errs) s = .next t ∧ (getEq (getClu t c.val) q).entries = Q.entries ++ es ∧
          ∀ e ∈ es, ∀ g ∈ e.gr, g.pad = true ∨ g.psn = true) ∧
      (dr.blank = false → dExact dr.d = true → rowChecks dr errs = false → ∃ t, exec (.drainRowPush c a errs) s = .next t ∧
        (getClu t c.val).failed.getLsbD (physOf (getClu s c.val) a.val) = true ∧ (getClu t c.val).cause = 1))

/-- R36, R63, R71, R72, R74, R76: the first failure of an array in a cluster, found by the watchdog once its count has reached the limit
or by register parity, stops the array and gives its index and its weight buffer to the spare; a watchdog below its limit does
nothing; the spare starts in cycle 1,024 or once its copy has ended. -/
def Obligations.ArrayFailure : Prop :=
  (∀ (c : Fin 20) (a : Fin 17) (s : State), mainOn s = true →
    let cl := getClu s c.val
    let limit := max 0x1000 cl.wdogLimit.toNat
    ((getPa s c.val a.val).wdog < limit → exec (.arrayWatchdog c a) s = .next s) ∧
    (a.val < 16 → cl.failed = 0 → cl.subPending = none → 16 ≤ cl.spareFor.toNat → tabWf {} cl.pa = true →
      ∀ i cause, (i = .arrayWatchdog c a ∧ limit ≤ (getPa s c.val a.val).wdog ∧ cause = 3) ∨
        (i = .registerParityError c a ∧ cause = 2) →
      ∃ t, exec i s = .next t ∧ (getClu t c.val).failed = BitVec.ofNat 17 (2 ^ a.val) ∧ (getClu t c.val).cause = cause ∧
        (getClu t c.val).subPending = some a.val ∧ (getClu t c.val).copyEnd = s.time.now + 3072 ∧
        (getLa t c.val a.val).halted = true ∧ (getPa t c.val 16).wb = (getPa s c.val a.val).wb)) ∧
  (∀ (c : Fin 20) (s : State), mainOn s = true → (getClu s c.val).spareFor.toNat < 16 → (getClu s c.val).spareStarted = false →
    1024 ≤ s.time.cycle → (getClu s c.val).copyEnd ≤ s.time.now →
    exec (.spareStart c) s = .next (modClu s c.val (fun cl => { cl with spareStarted := true })))

/-- R86, R94, R95: an addition into an X56 accumulator is exact within its range, and saturates and poisons it outside. -/
def Obligations.X56Addition : Prop :=
  ∀ (a : Acc) (x : Int) (cnt : Nat) (psn : Bool), a.blank = false →
    (-(2 ^ 55) ≤ accInt a + x → accInt a + x < 2 ^ 55 →
      accInt (accAddInt a x cnt psn) = accInt a + x ∧ (accAddInt a x cnt psn).psn = (a.psn || psn)) ∧
    (2 ^ 55 ≤ accInt a + x → accInt (accAddInt a x cnt psn) = 2 ^ 55 - 1 ∧ (accAddInt a x cnt psn).psn = true) ∧
    (accInt a + x < -(2 ^ 55) → accInt (accAddInt a x cnt psn) = -(2 ^ 55 - 1) ∧ (accAddInt a x cnt psn).psn = true)

/-! ### Resets, power and tamper -/

/-- R357, R358, R435: a device reset, by its key, by the physical function of port 0 or by its perst_n, returns the cores to the boot ROM,
ends every partition and cell, and zeroises keys; fuses, the tamper latch and retired lanes stay. A wrong key does nothing. A virtual
function resets its partition, where it exists; the physical function of another port resets its partitions in ascending order, and
perst_n of that port does the same once its link has gone down. -/
def Obligations.Resets : Prop :=
  ((∀ (s : State) (i : Instr), mainOn s = true →
      (i = .reset 0xD1E5 ∨ i = .functionLevelReset (.pf 0) ∨ i = .perstNLow 0) →
      ∃ t, exec i s = .next t ∧ t.parts = [] ∧ t.radio.cells = [] ∧ t.rings = [] ∧ t.outst = [] ∧ t.sec.partKeys = [] ∧
        t.sec.identKey = false ∧ t.sec.sealKey = none ∧ t.boot.accepted = [] ∧ t.boot.meas = [] ∧ t.time.cloveRun = false ∧
        t.boot.st = (if s.sec.lifecycle = 2 then .halt else .waitImg) ∧
        t.sec.lifecycle = s.sec.lifecycle ∧ t.sec.debugDis = s.sec.debugDis ∧ t.sec.minSvn = s.sec.minSvn ∧ t.sec.root = s.sec.root ∧
        t.sec.tamperLatch = s.sec.tamperLatch ∧ t.sec.tamperCause = s.sec.tamperCause ∧
        (tabWf {} s.fab.links = true → ∀ l, (getLink t l).lanesRet = (getLink s l).lanesRet) ∧ t.pwr.causeDevice = true ∧
        t.pending = s.pending) ∧
    (∀ (s : State) (key : BitVec 16), key ≠ 0xD1E5 → exec (.reset key) s = .next s)) ∧
  ((∀ (s : State) (port : Fin 4) (p : Fin 64), mainOn s = true → s.boot.st = .ready → (getPart s p.val).live = true →
      (getPart s p.val).host = port → (getPart s p.val).wrapWait = false →
      exec (.functionLevelReset (.vf port p)) s = .next (resetPart s p.val false)) ∧
    (∀ (s : State) (port : Fin 4), mainOn s = true → s.boot.st = .ready → port ≠ 0 →
      exec (.functionLevelReset (.pf port)) s =
        .next (((List.range 64).filter (fun p => (getPart s p).live && decide ((getPart s p).host = port))).foldl
          (fun s p => if (getPart s p).wrapWait then s else resetPart s p false) s)) ∧
    (∀ (s : State) (port : Fin 4), mainOn s = true → port ≠ 0 →
      let low := { s with pwr := { s.pwr with perstN := s.pwr.perstN &&& ~~~(BitVec.ofNat 4 (2 ^ port.val)) } }
      exec (.perstNLow port) s = exec (.functionLevelReset (.pf port)) (hostLinkLost low port.val)))

/-- R357, R433 to R435, R398: while por_n is low everything but the fuses and the tamper latch takes its reset value; its release with
pwr_ok high starts the boot ROM; the loss of pwr_ok resets the main domain and keeps the seal key and the clock; the next rise is a start
from sleep. -/
def Obligations.PowerPins : Prop :=
  (∀ s : State, ∃ t, exec .powerOnReset s = .next t ∧ t.pwr.porN = false ∧ t.parts = [] ∧ t.clusters = [] ∧ t.hbm = {} ∧
    t.fab = {} ∧ t.time = {} ∧ t.boot = {} ∧ t.rings = [] ∧ t.sec.sealKey = none ∧ t.sec.identKey = false ∧ t.sec.partKeys = [] ∧
    t.sec.lockViolation = false ∧ t.sec.lifecycle = s.sec.lifecycle ∧ t.sec.minSvn = s.sec.minSvn ∧ t.sec.root = s.sec.root ∧
    t.sec.tamperLatch = s.sec.tamperLatch ∧ t.sec.tamperCause = s.sec.tamperCause) ∧
  (∀ (s : State) (up : Bool), s.pwr.porN = false → s.boot = {} → (up = true ∨ s.pwr.pwrOk = true) →
    ∃ t, exec (.porNRise up) s = .next t ∧ t.pwr.porN = true ∧ t.pwr.pwrOk = true ∧
      t.boot.st = (if s.sec.lifecycle = 2 then .halt else .waitImg) ∧ t.sec = s.sec) ∧
  (∀ s : State, s.pwr.porN = true → ∃ t, exec .pwrOkFall s = .next t ∧ t.pwr.pwrOk = false ∧ t.pwr.slept = true ∧
    t.hostUp = 0 ∧ t.parts = [] ∧ t.rings = [] ∧ t.sec.identKey = false ∧ t.sec.partKeys = [] ∧ t.sec.sealKey = s.sec.sealKey ∧
    t.time = s.time ∧ (tabWf {} s.fab.links = true → ∀ l, (getLink t l).st = if (getLink s l).st = 5 then 5 else 0)) ∧
  (∀ s : State, s.pwr.porN = true → s.pwr.pwrOk = false → s.pwr.slept = true →
    ∃ t, exec .pwrOkRise s = .next t ∧ t.pwr.pwrOk = true ∧ t.pwr.slept = false ∧ t.pwr.causeWake = true ∧
      t.boot.st = (if s.sec.lifecycle = 2 then .halt else .waitImg) ∧ t.time.cloveRun = false ∧ t.sec = s.sec) ∧
  (∀ (s : State) (p : Fin 4), exec (.perstNRise p) s =
    .next { s with pwr := { s.pwr with perstN := s.pwr.perstN ||| BitVec.ofNat 4 (2 ^ p.val) } })

/-- R392, R403 to R406, R439: an alarm halts the boot with no latch; in READY it zeroises the store, ends every partition's work, latches
every cause and halts; in sleep it zeroises and latches; an internal debug access acts like one without a latch; a thermal trip zeroises all
keys but the seal key and stops the main clocks. -/
def Obligations.TamperAndTrip : Prop :=
  (∀ (s : State) (x : BitVec 5), x ≠ 0 → s.pwr.porN = true → s.pwr.slept = false →
    (s.boot.st ≠ .ready → s.sec.tamperLatch = false → exec (.tamperAlarm x) s =
      .next { s with boot := { s.boot with st := .halt, haltCause := 2 } }) ∧
    (s.boot.st = .ready → mainOn s = true → ∃ t, exec (.tamperAlarm x) s = .next t ∧ t.boot.st = .halt ∧ t.boot.haltCause = 2 ∧
      t.sec.tamperLatch = true ∧ t.sec.tamperCause = (s.sec.tamperCause ||| x) ∧ t.sec.identKey = false ∧ t.sec.partKeys = [] ∧
      t.sec.sealKey = none ∧ t.outst = [])) ∧
  (∀ (s : State) (x : BitVec 5), x ≠ 0 → s.pwr.porN = true → s.pwr.pwrOk = false → s.pwr.slept = true →
    ∃ t, exec (.tamperAlarm x) s = .next t ∧ t.sec = { s.sec with
      identKey := false, partKeys := [], sealKey := none, tamperLatch := true, tamperCause := s.sec.tamperCause ||| x } ∧
      t.boot = s.boot) ∧
  (∀ s : State, mainOn s = true → s.sec.lifecycle = 0 → s.sec.debugDis = false → s.sec.dbgSeen = false →
    ∃ t, exec .debugAccess s = .next t ∧ t.sec.dbgAccess = true ∧ t.sec.tamperLatch = s.sec.tamperLatch ∧
      t.sec.tamperCause = s.sec.tamperCause ∧ t.sec.identKey = false ∧ t.sec.partKeys = [] ∧ t.sec.sealKey = none ∧
      t.boot.st = .halt) ∧
  (∀ s : State, mainOn s = true → ∃ t, exec .thermalTrip s = .next t ∧
    t.sec = { s.sec with identKey := false, partKeys := [] } ∧ t.out = s.out ++ [.zeroise] ∧
    t.pwr = { s.pwr with stopped := true, causeTherm := true, thermtripN := false } ∧ mainOn t = false ∧
    (tabWf {} s.fab.links = true → ∀ l, (getLink t l).prk = none) ∧
    t.parts = s.parts ∧ t.clusters = s.clusters ∧ t.hbm = s.hbm ∧ t.time = s.time ∧ t.boot = s.boot)

/-- R25, R385, R436: a cluster or a domain that nothing has needed for 80 cloves is set to go off at the next boundary that can be
committed, and goes off there; one that was needed does not. The host-interface group stays on, and an HBM group goes off with its
last pseudo-channel. -/
def Obligations.IdleSwitchOff : Prop :=
  (∀ (s : State) (c : Fin 20), mainOn s = true → (getPc s c.val).point < 4 →
    (80 ≤ (getPc s c.val).idle → cluUnheld s c.val = true → ∃ t, exec (.clusterIdleOff c) s = .next t ∧
      (getPc t c.val).offAt = nextCommit s ∧ (getPc t c.val).point = (getPc s c.val).point ∧
      ∀ d, d ≠ c.val → getPc t d = getPc s d) ∧
    ((getPc s c.val).idle < 80 ∨ cluUnheld s c.val = false → exec (.clusterIdleOff c) s = .next s) ∧
    (∀ env, (getPc s c.val).offAt ≠ 0 → (getPc s c.val).offAt ≤ s.time.clove → 80 ≤ (getPc s c.val).idle →
      cluUnheld s c.val = true → (getPc (cluPower env s c.val) c.val).point = 4)) ∧
  (∀ (s : State) (i : Instr) (d : Nat), mainOn s = true →
    ((∃ g : Fin 3, i = .domainIdleOff (.link g) ∧ d = g.val) ∨ (∃ g : Fin 2, i = .domainIdleOff (.eth g) ∧ d = 3 + g.val) ∨
      (i = .domainIdleOff .radio ∧ d = 5)) →
    (domOn s d = true → 80 ≤ tabGet 0 s.pwr.idle d → domNeeded s d = false → tabGet 0 s.pwr.domOffAt d = 0 →
      ∃ t, exec i s = .next t ∧ tabGet 0 t.pwr.domOffAt d = nextCommit s ∧ (∀ e, domOn t e = domOn s e) ∧
        ∀ e, e ≠ d → tabGet 0 t.pwr.domOffAt e = tabGet 0 s.pwr.domOffAt e) ∧
    (domOn s d = false ∨ tabGet 0 s.pwr.idle d < 80 ∨ domNeeded s d = true → exec i s = .next s) ∧
    (tabGet 0 s.pwr.domOffAt d ≠ 0 → tabGet 0 s.pwr.domOffAt d ≤ s.time.clove →
      domOn (domOffStep s d) d = false ∧ ∀ e, e < 6 → e ≠ d → domOn (domOffStep s d) e = domOn s e)) ∧
  (∀ s : State, exec (.domainIdleOff .host) s = .next s) ∧
  (∀ (s : State) (n : Fin 8), mainOn s = true →
    ((∀ i, i < 64 → tabGet false s.hbm.pcRetired (64 * n.val + i) = true) → tabGet 0 s.pwr.domOffAt (6 + n.val) = 0 →
      ∃ t, exec (.domainIdleOff (.hbm n)) s = .next t ∧ tabGet 0 t.pwr.domOffAt (6 + n.val) = nextCommit s ∧
        t.pwr.hbmOn = s.pwr.hbmOn) ∧
    ((∃ i, i < 64 ∧ tabGet false s.hbm.pcRetired (64 * n.val + i) = false) → exec (.domainIdleOff (.hbm n)) s = .next s) ∧
    (tabGet 0 s.pwr.domOffAt (6 + n.val) ≠ 0 → tabGet 0 s.pwr.domOffAt (6 + n.val) ≤ s.time.clove →
      (hbmOffStep s n.val).pwr.hbmOn.getLsbD n.val = false ∧
      ∀ m, m < 8 → m ≠ n.val → (hbmOffStep s n.val).pwr.hbmOn.getLsbD m = s.pwr.hbmOn.getLsbD m))

/-! ### The commands of the rings -/

/-- R15, R18, R20, R363, R365, R367, R372, R373, R375: a command of any opcode that fails a check of its packet, its ring or its partition
completes with the lowest status of the checks that fail, those and its own, and has no other effect. One that may not start yet waits in
its ring, and one on a ring that does not exist, or before READY, does nothing. -/
def Obligations.CommandChecks : Prop :=
  (∀ (s : State) (r : RingId) (op : Nat) (k : Pkt) (i : Instr), fwCommand op r k = some i → mainOn s = true → ringExists s r = true →
      s.boot.st = .ready → mayStart s r op k = true → genericErrs s r op k ≠ [] →
      ∃ t own res, exec i s = .next t ∧ OnlyReports s t ∧
        ((getRing s (ringKey r)).fetched.length ≤ 1 →
          t = complete (startCmd s r) (headOf r op k) (lowest (genericErrs s r op k ++ own)) res)) ∧
  (∀ (s : State) (r : RingId) (op : Nat) (k : Pkt) (i : Instr), fwCommand op r k = some i → mainOn s = true →
      (ringExists s r = true → s.boot.st = .ready → mayStart s r op k = false → exec i s = .next (parkCmd s r op k)) ∧
      (ringExists s r = false ∨ s.boot.st ≠ .ready → exec i s = .next s))

/-- R366, R368, R372: GET_VERSION on an enabled pool ring with room, from a manager that asks for version 1.0 alone, writes at the tail of
the completion ring one 32-byte completion with status OK, the agreed version and DEV_ID, and the tail advances. -/
def Obligations.CompletionRecord : Prop :=
  ∀ (s : State) (k : Pkt), let R := getRing s 1088
    FwReady s .pool 0 k → getVersionErrs .pool k s = [] → R.fetched.length ≤ 1 → hostLinkUp s 0 = true → R.en = true →
    cplRoom R = true → memWf (tabGet [] s.host 0) = true →
    ∃ t, exec (.getVersion .pool k) s = .next t ∧ (getRing t 1088).cplTail = R.cplTail + 1 ∧ t.poolVer = some (1, 0) ∧
      (tabWf [] s.host = true →
        hostRead t 0 (R.cplBaseAct + R.cplTail.toNat % cplSize R * 32) 32 = some (bytesOfWords
          [BitVec.ofNat 32 (2 ^ 16 * k.gen.toNat), k.tag, BitVec.ofNat 32 (k.part.toNat + 2 ^ 8 * phaseBit R), stamp s,
            0x100, 0x7720B111, 0, 0]))

/-- R363, R372, R377, R378, R387, R389: version negotiation, pool manager authentication, the SPDM responder, the time commands and the
clove program's commands have the effects of their rules. -/
def Obligations.PoolCommands : Prop :=
  ∀ (s : State) (r : RingId) (k : Pkt),
    (FwReady s r 0x00 k → getVersionErrs r k s = [] → Answers (.getVersion r k) s (match ringOwner r with
      | none => { s with poolVer := some (1, 0) }
      | some p => modPart s p (fun P => { P with version := some (1, 0) }))) ∧
    (FwReady s r 0x01 k → bit (wd k.w 0) 0 = true → s.auth.locked = false →
      ∀ tok, rdA s r (fld48 k.w 1) (wd k.w 3).toNat = some tok →
      Answers (.poolAuth r k) s (
        if (match s.auth.nonce with
            | some x => Config.tokenOk s.sec.root (hashBytes x) tok
            | none => false) then { s with auth := { s.auth with authed := true } }
        else
          let recent := s.auth.fails.filter (fun t => decide (s.time.now ≤ t + 120000000000)) ++ [s.time.now]
          { s with auth := { s.auth with nonce := none, fails := recent, locked := decide (3 ≤ recent.length) } })) ∧
    (FwReady s r 0x01 k → bit (wd k.w 0) 0 = false → s.auth.locked = false → canWrA s r (fld48 k.w 1) 48 = true →
      ∃ x, Answers (.poolAuth r k) s { s with fresh := s.fresh + 1, auth := { s.auth with nonce := some x } }) ∧
    (FwReady s r 0x02 k → (rdA s r (fld48 k.w 0) (fld (wd k.w 2) 15 0)).isSome = true →
      canWrA s r (fld48 k.w 3) (fld (wd k.w 5) 15 0) = true →
      let x := spdmRespond s (tabGet 0 s.spdm (spdmConn r)) ((rdA s r (fld48 k.w 0) (fld (wd k.w 2) 15 0)).getD [])
      Answers (.spdm r k) s (if fld (wd k.w 5) 15 0 < x.1.length then s
        else wrA { s with spdm := tabSet 0 s.spdm (spdmConn r) x.2 } r (fld48 k.w 3) x.1)) ∧
    (FwReady s r 0x03 k → let d := bit (wd k.w 0) 0
      ∃ t, exec (.timeConfig r k) s = .next t ∧ domOf t.time (!d) = domOf s.time (!d) ∧
        domOf t.time d = { domOf s.time d with
          locked := false, ipv6 := bit (wd k.w 0) 1, addrs := (List.range 8).map (fun i => wd k.w (1 + i))
          vlan := BitVec.ofNat 12 (fld (wd k.w 9) 11 0) }) ∧
    (FwReady s r 0x04 k → s.time.cloveRun = false → fld (wd k.w 2) 29 0 < 1000000000 →
      ∃ t, exec (.timeFreerun r k) s = .next t ∧ t.time.cloveRun = true ∧ t.time.sec = BitVec.ofNat 48 (fld48 k.w 0) ∧
        t.time.ns = fld (wd k.w 2) 29 0 ∧ t.time.clove = 8000 * fld48 k.w 0 + fld (wd k.w 2) 29 0 / 125000 ∧
        t.time.cycle = fld (wd k.w 2) 29 0 % 125000 * 2 ∧ OnlyReports { s with time := t.time } t) ∧
    (FwReady s r 0x05 k → cpLoadErrs r (fld48 k.w 0) s = [] →
      Answers (.cloveProgLoad r k) s { s with cprog := { s.cprog with inact := cpImage s r (fld48 k.w 0) } }) ∧
    (FwReady s r 0x06 k → cpCommitErrs k s = [] → ∃ c, cloveOfField s (wd k.w 0).toNat = some c ∧
      Answers (.cloveProgCommit r k) s (waiting { s with cprog := { s.cprog with commitAt := some c } } r 0x06 k (.progCommit c) []))

/-- R320 to R324, R327, R328, R341, R342, R351: a partition that is created holds what its list names, starts its generation, and finds its
memory clear under a key of its own; one that is destroyed is gone; one that is reset has no work and the next generation. -/
def Obligations.PartitionCommands : Prop :=
  ∀ (s : State) (r : RingId) (k : Pkt),
    (FwReady s r 0x10 k → createErrs k s = [] →
      let p := pcPart k
      let l := (resList s k).getD []
      let pages := pagesFor s k ((pcEntries l).map rPcs)
      ∃ t, exec (.partCreate r k) s = .next t ∧
        { getPart t p with noticeOpen := false, dirtyOver := false, saffFrom := 0, tabNodes := [], tabA := [], tabB := [] } =
          newPart k l pages ∧ (getPart t p).saffFrom = nextCommit s ∧
        (∀ q, q ≠ p → (getPart t q).live = (getPart s q).live ∧ (getPart t q).gen = (getPart s q).gen ∧
          (getPart t q).hold = (getPart s q).hold ∧ (getPart t q).pages = (getPart s q).pages ∧ (getPart t q).pt = (getPart s q).pt ∧
          (getPart t q).tasks = (getPart s q).tasks) ∧
        (tabGet none t.sec.partKeys p).isSome = true ∧ tabGet 0 t.lastGen p = pcGen k ∧
        (∀ g, g ∈ pages → tabGet 0 t.hbm.owner g = p + 1 ∧ ∀ i, i < pageBytes → rdByte t.hbm.m.mem (pageBytes * g + i) = 0)) ∧
    (let p := fld (wd k.w 0) 7 0;
      FwReady s r 0x11 k → (getPart s p).live = true → p < 64 → hasCell s p = false → tabWf {} s.parts = true →
      ∃ t, exec (.partDestroy r k) s = .next t ∧ (getPart t p).live = false) ∧
    (let p := fld (wd k.w 0) 7 0;
      FwReady s r 0x12 k → resetErrs r k s = [] → (getPart s p).live = true →
      ∃ t, exec (.partReset r k) s = .next t ∧ (getPart t p).tasks = [] ∧ (getPart t p).launch = none ∧
        (if (getPart s p).gen = 0xFFFF then (getPart t p).wrapWait = true ∧ (getPart t p).gen = 0xFFFF
         else (getPart t p).gen = (getPart s p).gen + 1)) ∧
    (∀ p : Fin 64, mainOn s = true → (getPart s p.val).wrapWait = true → allConsumed s p.val = true →
      ∃ t, exec (.generationWrap p) s = .next t ∧ (getPart t p.val).gen = 1 ∧ (getPart t p.val).wrapWait = false ∧
        tabGet 0 t.lastGen p.val = 1)

/-- R345 to R348, R371, R402: PART_FREEZE and PART_THAW wait for their clove and take effect at its boundary, DIRTY_SWAP at the next
boundary; PART_SAVE with LEN 0 only reports, and otherwise writes an image of the length it reports, where LEN and the partition's
map have room for it; a verified image is restored into a partition that is then frozen, and an image that fails leaves the target
as it was. -/
def Obligations.FreezeSaveRestore : Prop :=
  ∀ (s : State) (r : RingId) (k : Pkt), let p := fld (wd k.w 0) 7 0;
    (FwReady s r 0x13 k → freezeErrs r k s = [] → (getPart s p).typ ≠ 0 → timingRun (getPart s p) = false →
      (getPart s p).st = .running → ∃ L, freezeClove s k = some L ∧ Answers (.partFreeze r k) s
        (waiting (modPart s p (fun P => { P with st := .freezing, frozenAt := L })) r 0x13 k (.freeze p) [])) ∧
    (FwReady s r 0x14 k → freezeErrs r k s = [] → (getPart s p).st = .frozen → (getPart s p).thawAt = 0 →
      ∃ L, freezeClove s k = some L ∧ Answers (.partThaw r k) s
        (waiting (modPart s p (fun P => { P with thawAt := L })) r 0x14 k (.thaw p) [])) ∧
    (∀ q, ((getPart s q).st = .freezing → (getPart s q).frozenAt ≤ s.time.clove → (getPart (freezeStep s q) q).st = .frozen) ∧
      ((getPart s q).live = true → (getPart s q).st = .frozen → (getPart s q).thawAt ≠ 0 → (getPart s q).thawAt ≤ s.time.clove →
        (getPart (freezeStep s q) q).st = .running ∧ ∀ o ∈ (freezeStep s q).outst, o.why ≠ .thaw q)) ∧
    (FwReady s r 0x17 k → partParamErrs s r p = [] → Answers (.dirtySwap r k) s (waiting s r 0x17 k (.swap p) [])) ∧
    (FwReady s r 0x15 k → saveErrs r k s = [] → imgLen k = 0 → Answers (.partSave r k) s s) ∧
    (FwReady s r 0x15 k → partParamErrs s r p = [] → s.sec.sealKey.isSome = true → (getPart s p).st = .frozen → imgLen k ≠ 0 →
      let n := neededLength s p
      ∃ bs : List Byte, bs.length = n ∧ Answers (.partSave r k) s (
        if n ≤ imgLen k ∧ canWrVa s p (fld48 k.w 1) n = true then wrVa { s with fresh := s.fresh + 1 } p (fld48 k.w 1) bs else s)) ∧
    (FwReady s r 0x16 k → partParamErrs s r p = [] → (getPart s p).everRun = false → (getPart s p).st = .running →
      s.sec.sealKey.isSome = true → ∀ bs, imageBytes s p k = some bs → headerMatches (getPart s p) bs = true →
      match openedImage s bs with
      | none => Answers (.partRestore r k) s s
      | some _ => ∃ t, exec (.partRestore r k) s = .next t ∧ (getPart t p).st = .frozen ∧ (getPart t p).everRun = true ∧
          (getPart t p).gen = (getPart s p).gen ∧ (getPart t p).pages = (getPart s p).pages ∧
          (getPart t p).hold = (getPart s p).hold)

/-- R113, R114, R122, R125, R131, R159, R167, R325, R326: MEM_MAP and MEM_UNMAP change exactly the entries of their pages, and MEM_UNMAP
waits while an access of its partition is in flight; a descriptor is entered under a handle and leaves with it; a cardamom engine and
a CSP context get their programs and start at the next boundary, a CSP context once no REP runs. -/
def Obligations.MemoryCommands : Prop :=
  ∀ (s : State) (r : RingId) (k : Pkt), let p := ringP r;
    (FwReady s r 0x18 k → memMapErrs p k s = [] →
      let w := wd k.w 3
      ∃ t, exec (.memMap r k) s = .next t ∧
        OnlyReports (modPart { s with hbm := { s.hbm with m := t.hbm.m, tables := t.hbm.tables } } p (fun P => { P with
          pt := (getPart t p).pt, tabNodes := (getPart t p).tabNodes, tabA := (getPart t p).tabA, tabB := (getPart t p).tabB })) t ∧
        (∀ a, tabGet 0 t.hbm.tables (a / pageBytes) = tabGet 0 s.hbm.tables (a / pageBytes) →
          rdByte t.hbm.m.mem a = rdByte s.hbm.m.mem a) ∧
        ∀ g, tabGet {} (getPart t p).pt g =
          if fld48 k.w 0 / pageBytes ≤ g ∧ g < fld48 k.w 0 / pageBytes + fld (wd k.w 2) 17 0 then
            { v := true, w := bit w 0, c := bit w 1, kind := fld w 3 2
              target := if fld w 3 2 = 0 then
                  pageBytes * (getPart s p).pages.getD (fld (wd k.w 4) 17 0 + (g - fld48 k.w 0 / pageBytes)) 0
                else (wd k.w 4).toNat + 2 ^ 32 * fld (wd k.w 5) 19 0 + pageBytes * (g - fld48 k.w 0 / pageBytes) }
          else tabGet {} (getPart s p).pt g) ∧
    (FwReady s r 0x19 k → memUnmapErrs p k s = [] →
      ∃ t pt, exec (.memUnmap r k) s = .next t ∧
        OnlyReports (if accessOpen s p then waiting (modPart s p (fun P => { P with pt := pt })) r 0x19 k (.unmap p) []
          else modPart s p (fun P => { P with pt := pt })) t ∧ (getPart t p).pt = pt ∧
        ∀ g, tabGet {} pt g =
          if fld48 k.w 0 / pageBytes ≤ g ∧ g < fld48 k.w 0 / pageBytes + fld (wd k.w 2) 17 0 then {}
          else tabGet {} (getPart s p).pt g) ∧
    (FwReady s r 0x20 k → ∀ t, imageAt s p (fld48 k.w 0) 32 = some t → descErrs s p (some t) = [] →
      Answers (.descCreate r k) s
        (modPart s p (fun P => { P with descs := tabSet {} P.descs (newDesc s p) { live := true, img := t } }))) ∧
    (let h := fld (wd k.w 0) 15 0;
      FwReady s r 0x21 k → (tabGet {} (getPart s p).descs h).live = true → descBound s p h = false →
      Answers (.descDestroy r k) s (modPart s p (fun P => { P with descs := tabSet {} P.descs h {} }))) ∧
    (let c := fld (wd k.w 0) 7 0;
      let e := fld (wd k.w 0) 10 8;
      FwReady s r 0x22 k → cardLoadErrs p c e (fld48 k.w 1) s = [] →
      ∃ t im, exec (.cardLoad r k) s = .next t ∧ imageAt s p (fld48 k.w 1) 80 = some im ∧
        getEng t c e = { ({} : Engine) with
          run := true, part := p, prog := im.take 64, tslot := imHandles im
          qslot := (List.range 4).foldl (fun q i => if bit (imQslot im i) 31 then tabSet 0 q i (imQslot im i) else q) []
          waitB := true, flight := (getEng s c e).flight } ∧
        ∀ c2 e2, c2 ≠ c ∨ e2 ≠ e → getEng t c2 e2 = getEng s c2 e2) ∧
    (let c := fld (wd k.w 0) 7 0;
      let x := fld (wd k.w 0) 9 8;
      let im := (cspImageAt s p (fld48 k.w 1)).getD []
      FwReady s r 0x23 k → Answers (.cspLoad r k) s (
        if cspLoadErrs p c x (fld48 k.w 1) s ≠ [] then s
        else if inRep s c then
          waiting (modCsp s c x (fun o => { o with load := some (longestRep im, im) })) r 0x23 k (.cspLoad c x) []
        else startCsp s c x (longestRep im) im))

/-- R240, R329, R333, R337, R376: PROG_LOAD enters a program under a handle and PROG_UNLOAD removes it; TASK_SUBMIT queues a task, and the
partition's N catches up; LAUNCH_AT and RAD_CLAIM are recorded for their clove. -/
def Obligations.ProgramCommands : Prop :=
  ∀ (s : State) (r : RingId) (k : Pkt), let p := ringP r;
    (FwReady s r 0x24 k → ∀ bs, progBytes s p k = some bs → progLoadErrs p k s = [] →
      ∃ t ss, exec (.progLoad r k) s = .next t ∧ progSections bs = some ss ∧
        OnlyReports (modPart s p (fun P => { P with progs := tabSet {} P.progs (newProg s p) {
          live := true, nshard := shardCount (fld (wd (wordsOf 16 (bs.take 64)) 2) 15 0), hash := Config.sha384 bs,
          resume := (wd (wordsOf 16 (bs.take 64)) 4).toNat, maxWcet := fld (wd (wordsOf 16 (bs.take 64)) 5) 17 0,
          sections := ss } })) t) ∧
    (let h := fld (wd k.w 0) 15 0;
      FwReady s r 0x25 k → (getProg s p h).live = true → progUsed (getPart s p) h = false →
      Answers (.progUnload r k) s (modPart s p (fun P => { P with progs := tabSet {} P.progs h {} }))) ∧
    (FwReady s r 0x26 k → taskErrs p k s = [] →
      ∃ t x, exec (.taskSubmit r k) s = .next t ∧ (getPart t p).tasks = (getPart s p).tasks ++ [x] ∧
        x.prog = fld (wd k.w 0) 15 0 ∧ x.ngroup = fld (wd k.w 0) 22 16 ∧ x.half = bit (wd k.w 0) 23 ∧ x.held = [] ∧
        x.place = (if fld48 k.w 1 = 0 then [] else shardsOf s p (fld (wd k.w 0) 15 0) (fld48 k.w 1)) ∧
        (getPart t p).nUse = (if (getPart s p).tasks ≠ [] then (getPart s p).nUse else match nMin s p with
          | some m => if nLess (getPart s p).nUse m then m else (getPart s p).nUse
          | none => (getPart s p).nUse) ∧
        t.outst.length = s.outst.length + 1) ∧
    (FwReady s r 0x27 k → launchErrs p k s = [] →
      ∃ t L, exec (.launchAt r k) s = .next t ∧ launchClove s k = some L.clove ∧ (getPart t p).launch = some L ∧
        L.prog = fld (wd k.w 0) 15 0 ∧ L.timing = bit (wd k.w 0) 16 ∧ L.twin = bit (wd k.w 0) 17 ∧ L.freeze = bit (wd k.w 0) 18 ∧
        L.runId = wd k.w 6 ∧ L.running = false ∧ L.place = shardsOf s p (fld (wd k.w 0) 15 0) (fld48 k.w 2)) ∧
    (FwReady s r 0x37 k → claimErrs r k s = [] → ∃ F c, cloveOfField s (wd k.w 0).toNat = some F ∧ c.frame = F ∧
      c.part = fld (wd k.w 5) 7 0 ∧ c.nframes = fld (wd k.w 1) 6 0 ∧ c.ngroup = fld (wd k.w 1) 13 7 ∧
      c.clusters = BitVec.ofNat 20 (fld (wd k.w 2) 19 0) ∧
      Answers (.radClaim r k) s
        (waiting { s with claims := s.claims ++ [c], nextClaim := s.nextClaim + 1 } r 0x37 k (.claim s.nextClaim) []))

/-- R268, R276, R282, R413, R416, R418: FAB_DMA keeps the segments whose addresses are in order and goes on with them, the others fail with
BOUNDS; FAB_INVAL drops cached lines; FAB_EXPORT enters its pages and FAB_UNEXPORT removes them, once no request that the entry admitted
is held; the service commands ask for a cluster test, bypass an instance and retire a pseudo-channel. -/
def Obligations.FabricAndServiceCommands : Prop :=
  ∀ (s : State) (r : RingId) (k : Pkt), let p := ringP r;
    (FwReady s r 0x40 k → fabDmaErrs r k s = [] →
      let get := bit (wd k.w 0) 7
      let segs := (segList s r k).getD []
      let good := segs.filter (fun x => !segBad s p get x.2)
      let d : Dma := {
        id := s.fab.nextDma, part := p, get := get, segs := good.map (fun x => { n := x.1, e := x.2 }), map := 0, psn := false, ring := r,
        fails := (segs.filter (fun x => segBad s p get x.2)).map (fun x => (x.1, stBounds)) }
      Answers (.fabDma r k) s (if good = [] then s else
        waiting (runDma { s with fab := { s.fab with dma := s.fab.dma ++ [d], nextDma := s.fab.nextDma + 1 } }) r 0x40 k (.dma s.fab.nextDma) [])) ∧
    (FwReady s r 0x41 k → Answers (.fabInval r k) s (invalRange s p (fld48 k.w 0) (wd k.w 2).toNat)) ∧
    (FwReady s r 0x42 k → fabExportErrs r k s = [] →
      ∃ t, exec (.fabExport r k) s = .next t ∧
        let x := tabGet {} (getPart t p).exps (fld (wd k.w 0) 11 0)
        x.used = true ∧ x.srcNode = fld (wd k.w 0) 23 16 ∧ x.srcPart = fld (wd k.w 0) 31 24 ∧ x.rd = bit (wd k.w 1) 0 ∧
          x.wr = bit (wd k.w 1) 1 ∧ x.va = fld48 k.w 2 ∧ x.pages.length = fld (wd k.w 4) 17 0 ∧
          ∀ e, e ≠ fld (wd k.w 0) 11 0 → tabGet {} (getPart t p).exps e = tabGet {} (getPart s p).exps e) ∧
    (let ent := fld (wd k.w 0) 11 0;
      FwReady s r 0x43 k → ent < (getPart s p).nexport → Answers (.fabUnexport r k) s (
        if ∃ h ∈ s.fab.flagsHeld, h.owner = p ∧ h.ent = ent then
          waiting (modPart s p (fun P => { P with exps := tabMod {} P.exps ent (fun x => { x with closing := true }) })) r 0x43 k (.unexport p ent) []
        else dropExport s p ent)) ∧
    (let c := fld (wd k.w 0) 7 0;
      FwReady s r 0x50 k → c ≤ 19 → testBlocked s c = false → Answers (.svcClusterTest r k) s
        (waiting (modClu s c (fun cl => { cl with svc := 1, svcFrom := nextCommit s })) r 0x50 k (.clusterTest c) [])) ∧
    (let pool := fld (wd k.w 0) 1 0;
      let n := fld (wd k.w 0) 5 2;
      FwReady s r 0x51 k → n < poolSize pool →
      (bit (wd k.w 0) 8 = true → inService s pool ≠ [n] → tabWf {} s.radio.inst = true →
        ∃ t, exec (.svcEngineBypass r k) s = .next t ∧ (getInst t (instKey pool n)).bypass = true) ∧
      (bit (wd k.w 0) 8 = false → (getInst s (instKey pool n)).faulty = false → s.radio.waiting = [] → tabWf {} s.radio.inst = true →
        ∃ t, exec (.svcEngineBypass r k) s = .next t ∧ (getInst t (instKey pool n)).bypass = false)) ∧
    (let pc := fld (wd k.w 0) 8 0;
      let u := { s with hbm := { s.hbm with retiring := some pc } }
      FwReady s r 0x52 k → tabGet false s.hbm.pcRetired pc = false → canRetire u pc (pagesOn s pc) = true → s.hbm.retiring = none →
      Answers (.svcPcRetire r k) s (waiting u r 0x52 k (.pcRetire pc) []))

/-- R172, R176, R178 to R180, R349, R350: RU_ADD and RU_REMOVE, RU_STATS, and the commands that admit a cell or end it at a frame boundary.
-/
def Obligations.RadioCommands : Prop :=
  ∀ (s : State) (r : RingId) (k : Pkt), let p := cellP r;
    (FwReady s r 0x30 k → ruAddErrs r k s = [] → ∃ t n img, exec (.ruAdd r k) s = .next t ∧ freeEp s = some n ∧
      rdA s r (fld48 k.w 0) 48 = some img ∧ (domUsable s s.pwr.radioOn 5 = true → OnlyReports { s with radio := t.radio } t) ∧
      getEp t n = { ({} : Endpoint) with live := true, part := p, img := wordsOf 12 img } ∧ ∀ m, m ≠ n → getEp t m = getEp s m) ∧
    (let n := fld (wd k.w 0) 9 0;
      FwReady s r 0x31 k → epMine s r n = true → s.radio.cells.any (fun c => c.2.live && c.2.flows.any (fun f => decide (f.ep = n))) = false →
      Answers (.ruRemove r k) s (modEp s n (fun _ => {}))) ∧
    (let e := getEp s (fld (wd k.w 0) 9 0);
      FwReady s r 0x32 k → epMine s r (fld (wd k.w 0) 9 0) = true → canWrA s r (fld48 k.w 1) 28 = true →
      Answers (.ruStats r k) s
        (wrA s r (fld48 k.w 1) ([e.ontime, e.early, e.late, e.dup, e.seqgap, e.unsup, e.txLate].flatMap (leBytes 4)))) ∧
    (∀ i : Instr, (i = .cellAdd r k ∧ FwReady s r 0x33 k ∨ i = .cellImport r k ∧ FwReady s r 0x36 k) →
      cellErrs s p (readCtx s r k) (readFlows s r k) (fld (wd k.w 4) 12 0) (fld64 k.w 5) = [] →
      ∃ t n w, exec i s = .next t ∧ freeCell s = some n ∧ readCtx s r k = some w ∧ (getCell t n).live = true ∧
        (getCell t n).part = p ∧ (getCell t n).ctx = w ∧ (getCell t n).start = fld64 k.w 5 ∧ (getCell t n).started = false ∧
        (getCell t n).nstream = cNstream w ∧ freeStreams s (cNstream w) = some (getCell t n).streamFirst ∧
        (∀ j, j < cNstream w → (getStream t ((getCell t n).streamFirst + j)).en = true ∧
          (getStream t ((getCell t n).streamFirst + j)).cell = n) ∧ ∀ m, m ≠ n → getCell t m = getCell s m) ∧
    (let n := fld (wd k.w 0) 8 0;
      ∀ F, futureFrame s (wd k.w 1).toNat = some F → cellEndErrs s r n (wd k.w 1).toNat = [] →
      (FwReady s r 0x34 k → Answers (.cellRemove r k) s
        (waiting (modCell s n (fun C => { C with removeAt := F })) r 0x34 k (.cellRemove n) [])) ∧
      (FwReady s r 0x35 k → imageLen s (getCell s n) ≤ (wd k.w 4).toNat → canWrA s r (fld48 k.w 2) (wd k.w 4).toNat = true →
        Answers (.cellExport r k) s (waiting (modCell s n (fun C => { C with
          removeAt := F, exportTo := fld48 k.w 2, exportLen := (wd k.w 4).toNat })) r 0x35 k (.cellExport n) [])))

/-- R295, R298, R300: queue pairs, memory regions and the raw rings: their commands enter and remove them; the removal of a queue pair with
packets in flight, and of a region under which a message is being written, waits for them. -/
def Obligations.NetCommands : Prop :=
  ∀ (s : State) (r : RingId) (k : Pkt), let p := netP r;
    (FwReady s r 0x60 k → qpCreateErrs r k s = [] → ∃ t n c, exec (.netQpCreate r k) s = .next t ∧ freeQp s = some n ∧
      connBlock s r k = some c ∧ getQp t n = { ({} : Qp) with
        live := true, part := p, params := k.w, conn := c, sqPsn := BitVec.ofNat 24 (fld (wd c 14) 23 0)
        rqPsn := BitVec.ofNat 24 (fld (wd c 15) 23 0), rateAt := s.time.now } ∧ ∀ m, m ≠ n → getQp t m = getQp s m) ∧
    (let n := fld (wd k.w 0) 15 0;
      FwReady s r 0x61 k → (getQp s n).live = true → (getQp s n).part = p → tabWf {} s.eth.qps = true →
      ∃ t, exec (.netQpDestroy r k) s = .next t ∧ getQp t n = {} ∧ (∀ m, m ≠ n → getQp t m = getQp s m) ∧
        (qpInFlight s n = true → ∃ o ∈ t.outst, o.why = .qpGone n ∧ o.ring = r ∧ o.tag = k.tag)) ∧
    (FwReady s r 0x62 k → mrRegErrs r k s = [] → ∃ t n m, exec (.netMrReg r k) s = .next t ∧ freeMr s = some n ∧
      tabGet {} t.eth.mrs n = m ∧ m.live = true ∧ m.part = p ∧ m.va = fld48 k.w 0 ∧ m.len = fld64 k.w 2 ∧
      m.rwrite = bit (wd k.w 4) 0 ∧ m.rread = bit (wd k.w 4) 1 ∧ m.rkey.toNat % 2 ^ 24 = n ∧
      ∀ j, j ≠ n → tabGet {} t.eth.mrs j = tabGet {} s.eth.mrs j) ∧
    (let n := fld (wd k.w 0) 23 0;
      FwReady s r 0x63 k → (tabGet {} s.eth.mrs n).live = true → (tabGet {} s.eth.mrs n).part = p →
      (tabGet {} s.eth.mrs n).rkey = wd k.w 0 →
      let u := { s with eth := { s.eth with mrs := tabSet {} s.eth.mrs n {} } }
      Answers (.netMrDereg r k) s (if keyInUse s (wd k.w 0) then waiting u r 0x63 k (.mrGone (wd k.w 0)) [] else u)) ∧
    (FwReady s r 0x64 k → rawCfgErrs r k s = [] →
      (bit (wd k.w 0) 8 = false → Answers (.netRawCfg r k) s (modPart s p (fun P => { P with rawEn := false }))) ∧
      (bit (wd k.w 0) 8 = true → ∃ t, exec (.netRawCfg r k) s = .next t ∧ (getPart t p).rawEn = true ∧
        (getPart t p).rawTxLog2 = fld (wd k.w 0) 3 0 ∧ (getPart t p).rawRxLog2 = fld (wd k.w 0) 7 4 ∧
        (getPart t p).rawTxAddr = fld48 k.w 1 ∧ (getPart t p).rawRxAddr = fld48 k.w 3))

/-! ### Rings, links of the hosts and time -/

/-- R365, R369, R370: a doorbell stores CMD_TAIL; an enabled ring whose link is up fetches every packet up to it; an index more than the
ring's size ahead stops the ring with FAULT. CPL_HEAD takes what the host writes; a ring is enabled with its indices at 0 once it is idle;
disabling takes effect at once. -/
def Obligations.CommandRings : Prop :=
  (∀ (s : State) (r : RingId) (tail : BitVec 16), mainOn s = true → ringThere s r = true → ringIsEvent (ringKey r) = false →
      let k := ringKey r
      let R := getRing s k
      let go := R.en && !R.fault && hostLinkUp s (ringPort s k)
      (go = false → exec (.cmdDoorbell r tail) s = .next (modRing s k (fun R => { R with cmdTail := tail }))) ∧
      (go = true → (tail - R.cmdHead).toNat ≤ cmdSize R → cplUsed R ≤ cplSize R →
        ∃ t, exec (.cmdDoorbell r tail) s = .next t ∧ (getRing t k).cmdTail = tail ∧ (getRing t k).cmdHead = tail ∧
          (getRing t k).fault = false ∧ OnlyReports s t) ∧
      (go = true → cmdSize R < (tail - R.cmdHead).toNat →
        ∃ t, exec (.cmdDoorbell r tail) s = .next t ∧ (getRing t k).cmdTail = tail ∧ (getRing t k).cmdHead = R.cmdHead ∧
          (getRing t k).fault = true ∧ (getRing t k).fetched = R.fetched ∧ OnlyReports s t)) ∧
  (∀ (s : State) (r : RingId), mainOn s = true → ringThere s r = true → tabWf {} s.rings = true →
      let k := ringKey r
      let R := getRing s k
      (∀ head : BitVec 16, ∃ t, exec (.cplHeadWrite r head) s = .next t ∧ (getRing t k).cplHead = head ∧ OnlyReports s t ∧
        (cplSize R < (R.cplTail - head).toNat → (getRing t k).fault = true)) ∧
      (∃ t, exec (.ringEnable r false) s = .next t ∧ (getRing t k).en = false ∧ (getRing t k).enWaits = false ∧
        (getRing t k).cmdHead = R.cmdHead ∧ OnlyReports s t) ∧
      (R.en = false → ringIdle s k = true → ∀ i, i = .ringEnable r true ∨ (i = .ringEnableDeferred r ∧ R.enWaits = true) →
        ∃ t, exec i s = .next t ∧ OnlyReports s t ∧ getRing t k = { R with
          en := true, enWaits := false, fault := false, cmdHead := 0, cplTail := 0, cplHead := 0
          cmdBaseAct := 4096 * (R.cmdBase.toNat / 4096), cplBaseAct := 4096 * (R.cplBase.toNat / 4096)
          cmdLog2Act := Nat.min 12 (Nat.max 4 R.cmdLog2.toNat), cplLog2Act := Nat.min 13 (Nat.max 4 R.cplLog2.toNat) }) ∧
      (R.en = false → ringIdle s k = false → (∃ t, exec (.ringEnable r true) s = .next t ∧ (getRing t k).en = false ∧
        (getRing t k).enWaits = true) ∧ exec (.ringEnableDeferred r) s = .next s))

/-- R363, R371, R435: a host link that goes down changes nothing but its bit, reports and, on port 0, the pool manager's authentication; it
comes up only where perst_n is high; the lockout of authentication ends 60 s after the failure that began it. -/
def Obligations.HostLinks : Prop :=
  ∀ (s : State) (port : Fin 4), mainOn s = true →
    (hostLinkUp s port.val = true → ∃ t, exec (.hostLinkDown port) s = .next t ∧ hostLinkUp t port.val = false ∧
      (∀ q, q < 4 → q ≠ port.val → hostLinkUp t q = hostLinkUp s q) ∧ (port = 0 → t.auth.authed = false) ∧
      (port ≠ 0 → t.auth = s.auth) ∧ OnlyReports { s with hostUp := t.hostUp, auth := t.auth } t) ∧
    (hostLinkUp s port.val = false → s.pwr.perstN.getLsbD port.val = true → ∃ t, exec (.hostLinkUp port) s = .next t ∧
      hostLinkUp t port.val = true ∧ (∀ q, q < 4 → q ≠ port.val → hostLinkUp t q = hostLinkUp s q) ∧
      OnlyReports { s with hostUp := t.hostUp } t) ∧
    (s.pwr.perstN.getLsbD port.val = false → exec (.hostLinkUp port) s = .next s) ∧
    (s.auth.locked = true → s.auth.fails.getLastD 0 + 120000000000 ≤ s.time.now →
      exec .authLockoutExpiry s = .next { s with auth := { s.auth with locked := false, fails := [] } })

/-- R219, R222, R424, R438: a time stamp is the clock's reading in ns modulo 2^32; a clove field names the clove within half its range
of the current one; a step mark counts the time since the last one; an edge of PPS_IN is stamped; PPS_OUT rises and falls. -/
def Obligations.TimeMarks : Prop :=
  ∀ s : State, mainOn s = true →
    (stamp s).toNat = (1000000000 * s.time.sec.toNat + s.time.ns) % 2 ^ 32 ∧
    (∀ f, f < 2 ^ 32 →
      (∀ d, d < 2 ^ 31 → (s.time.clove + d) % 2 ^ 32 = f → cloveOfField s f = some (s.time.clove + d)) ∧
      (∀ d, 0 < d → d ≤ 2 ^ 31 → (f + d) % 2 ^ 32 = s.time.clove % 2 ^ 32 → cloveOfField s f = none)) ∧
    (∀ (p : Fin 64) (v : Word), (getPart s p.val).live = true →
      ((getPart s p.val).stepAt = none → exec (.stepMark p v) s =
        .next (modPart s p.val (fun P => { P with stepAt := some s.time.now }))) ∧
      (∀ a, (getPart s p.val).stepAt = some a →
        ∃ t n, exec (.stepMark p v) s = .next t ∧ n = Nat.min (2 ^ 32 - 1) ((s.time.now - a) / 2) ∧
          (getPart t p.val).stepAt = some s.time.now ∧ (getPart t p.val).stepLast = n ∧
          (getPart t p.val).stepMax = Nat.max (getPart s p.val).stepMax n ∧
          (getPart t p.val).stepCnt = (getPart s p.val).stepCnt + 1)) ∧
    (exec .ppsInEdge s = .next { s with time := { s.time with ppsInStamp := stamp s } }) ∧
    (s.time.ppsOutEn = true → s.time.ns ≤ 2 → exec .ppsOutRise s = .next { s with time := { s.time with ppsOut := true } }) ∧
    (s.time.ppsOutEn = false → exec .ppsOutRise s = .next s) ∧
    (exec .ppsOutFall s = .next { s with time := { s.time with ppsOut := false } })

/-- R213, R215 to R217: a tracked domain whose estimate has held for 16 s locks; the first starts the cloves by one step of the clock to its
estimate, and one that locks later ends holdover and becomes active; the loss of the last lock is holdover, with no slew; a request moves
the clock to a locked domain, or waits for its lock; a loss in the very cycle of the request's switch wins. -/
def Obligations.TimeDomains : Prop :=
  ∀ (s : State) (d : Bool), mainOn s = true → let D := domOf s.time d
    (D.en = true → domNumOk D = true → D.locked = false → (∃ a, D.heldFrom = some a ∧ a + 32000000000 ≤ s.time.now) →
      (s.time.cloveRun = false → ∀ frac : BitVec 16, let n := (((clockNs s.time : Int) + D.ofs) % (2 ^ 48 * 1000000000)).toNat
        ∃ t, exec (.domainAcquire d frac) s = .next t ∧ t.time.cloveRun = true ∧ t.time.sec = BitVec.ofNat 48 (n / 1000000000) ∧
          t.time.ns = n % 1000000000 ∧ t.time.frac = frac ∧ t.time.active = d ∧ (domOf t.time d).locked = true ∧
          t.time.holdover = false ∧ t.time.clove = n / 125000 ∧
          t.time.cycle = n % 125000 * 2 + frac.toNat / 32768 ∧ t = { s with time := t.time }) ∧
      (s.time.cloveRun = true → ∃ t, exec (.domainLock d) s = .next t ∧ (domOf t.time d).locked = true ∧
        t.time.holdover = false ∧ (s.time.holdover = true → t.time.active = d) ∧
        (s.time.reqWaits = true → s.time.activeReq = d → t.time.active = d ∧ t.time.reqWaits = false) ∧
        OnlyReports { s with time := t.time } t)) ∧
    (D.locked = true → D.annAt + Config.announceTimeout D.profile ≤ s.time.now →
      ∃ t, exec (.announceTimeout d) s = .next t ∧ (domOf t.time d).locked = false ∧ OnlyReports { s with time := t.time } t ∧
        (s.time.cloveRun = true → (domOf s.time (!d)).locked = false → t.time.holdover = true ∧ t.time.slewing = false) ∧
        (s.time.auto = true → s.time.active = d → (domOf s.time (!d)).locked = true → t.time.active = !d) ∧
        ((∀ a w, s.time.reqAt = some (a, w) → a ≠ s.time.now) → (domOf s.time (!d)).locked = false → t.time.active = s.time.active) ∧
        (s.time.reqAt = some (s.time.now, !d) → s.time.active = d → s.time.activeReq = d →
          t.time.active = (!d) ∧ t.time.reqWaits = true)) ∧
    (s.time.now < D.annAt + Config.announceTimeout D.profile → exec (.announceTimeout d) s = .next s) ∧
    (∃ t, exec (.activeReq d) s = .next t ∧ t.time.activeReq = d ∧ OnlyReports { s with time := t.time } t ∧
      (s.time.active = d → t.time.active = d ∧ t.time.reqWaits = false) ∧
      (s.time.active ≠ d → D.locked = true → t.time.active = d ∧ t.time.reqWaits = false) ∧
      (s.time.active ≠ d → D.locked = false → t.time.active = s.time.active ∧ t.time.reqWaits = true))

/-- R213, R225 to R227, R252: a marker frees its credits; one whose index differs from the running clove changes nothing else but a report;
one of this clove makes the chip follow it, by the least hop count; eight in a row start the cloves at the boundary they name; after eight
cloves without one the chip follows its own domain again. -/
def Obligations.CloveMarkers : Prop :=
  ∀ (s : State) (link : Fin 24) (m : Marker), mainOn s = true → linkAlive s link.val = true → let u := freeRx s link.val 2 0
    (s.time.cloveRun = true → m.index.toNat ≠ s.time.clove % 2 ^ 32 →
      ∃ t, exec (.cloveMarkerRx link m) s = .next t ∧ OnlyReports u t) ∧
    (s.time.cloveRun = true → m.index.toNat = s.time.clove % 2 ^ 32 → s.time.rackMaster = false → m.hop.val ≠ 15 →
      (s.time.master = none ∨ s.time.master = some m.master) →
      ∃ t, exec (.cloveMarkerRx link m) s = .next t ∧ t.time.markSrc = true ∧ t.time.markMiss = 0 ∧ t.time.master = some m.master ∧
        t = { u with time := t.time } ∧
        (s.time.markBest = none → t.time.markBest = some (m.hop.val, link.val) ∧ t.time.markHop = m.hop.val ∧
          t.time.slewLeft = (((getLink s link.val).delayPs.toNat + m.res : Nat) : Int) * 8 - 4000 * (s.time.cycle : Int)) ∧
        (∀ h k, s.time.markBest = some (h, k) → (h < m.hop.val ∨ h = m.hop.val ∧ k ≤ link.val) →
          t.time.markBest = s.time.markBest ∧ t.time.slewLeft = s.time.slewLeft)) ∧
    (s.time.cloveRun = false → s.time.rackMaster = false → m.hop.val ≠ 15 →
      (s.time.master = none ∨ s.time.master = some m.master) → s.time.markGood = 7 →
      m.index.toNat = (s.time.markIndex + 1) % 2 ^ 32 → m.index.toNat ≠ s.time.markIndex →
      (getLink s link.val).delayPs.toNat + m.res < 125000000 →
      ∃ t, exec (.cloveMarkerRx link m) s = .next t ∧ t.time.cloveRun = true ∧ t.time.clove = m.index.toNat ∧
        t.time.markSrc = true ∧ t.time.markBest = some (m.hop.val, link.val) ∧ t = { u with time := t.time }) ∧
    (s.time.markSrc = true → 8 ≤ s.time.markMiss → exec .markerTimeout s = .next { s with time := { s.time with
      markSrc := false, slewLeft := if s.time.holdover then 0 else (domOf s.time s.time.active).ofs * 8000 } }) ∧
    (s.time.markMiss < 8 → exec .markerTimeout s = .next s)

/-! ### The chip links and the fabric -/

/-- R254 to R256, R259, R263, R264: an enabled link that is down starts an attempt in DETECT, and passes the stages whose work is done: to
the end of SECURE, with a key, where its partner authenticates; a partner with this chip's ID ends the attempt, and one that fails to
authenticate leaves the link down until SERVICE. LINK_UP then brings it up at the width of its lanes. An attempt that exceeds a limit, or
whose partner falls silent, is a failure that waits. -/
def Obligations.LinkTraining : Prop :=
  (∀ (s : State) (l : Fin 24) (o : Training), mainOn s = true → mayTrain s l.val = true →
    let k := getLink s l.val
    (o.answered = false → ∃ t, exec (.linkTrainAttempt l o) s = .next t ∧ (∀ j, j ≠ l.val → getLink t j = getLink s j) ∧
      getLink t l.val = { k with
        st := 1, stage := 0, attemptAt := s.time.now, stageAt := s.time.now, heardAt := s.time.now, prk := none
        disAct := k.laneDis, widthAct := k.widthReq, widthAt := 0, widthNow := false, partnerW := none }) ∧
    (∀ m i d ok, o.answered = true → o.equalised = true → o.locked = some m → m &&& ~~~k.lanesRet &&& ~~~k.laneDis ≠ 0 →
      o.ident = some i → ownNode s < 64 → o.delayPs = some d → o.auth = some ok → (i.isSwitch = true ∨ i.node.toNat < 64) →
      ∃ t, exec (.linkTrainAttempt l o) s = .next t ∧ (∀ j, j ≠ l.val → getLink t j = getLink s j) ∧
        (getLink t l.val).partner = i.partner ∧ (getLink t l.val).node = i.node.toNat ∧
        (i.isSwitch = false → i.partner = s.fab.chipId →
          (getLink t l.val).st = 2 ∧ (getLink t l.val).failures = k.failures + 1) ∧
        ((i.isSwitch = true ∨ i.partner ≠ s.fab.chipId) → (getLink t l.val).delayPs = d ∧
          (ok = true → s.sec.identKey = true → (getLink t l.val).st = 1 ∧ (getLink t l.val).stage = 5 ∧
            (getLink t l.val).prk.isSome = true) ∧
          (ok = false → (getLink t l.val).st = 0 ∧ (getLink t l.val).authFail = true)))) ∧
  (∀ (s : State) (l : Fin 24) (w : Nat) (ls : List Nat), mainOn s = true → (getLink s l.val).st = 1 → (getLink s l.val).stage = 5 →
    (getLink s l.val).prk.isSome = true → overdue s (getLink s l.val) = false → laneSet (getLink s l.val) = some (w, ls) →
    ∃ t, exec (.linkUp l) s = .next t ∧ (getLink t l.val).st = 3 ∧ (getLink t l.val).width = w ∧
      (getLink t l.val).lanesUp = laneMask ls ∧ (getLink t l.val).failures = 0 ∧ (getLink t l.val).rxSeq = 0 ∧
      (∀ k, k ≠ l.val → (getLink t k).st = (getLink s k).st) ∧
      (s.fab.outst = [] → ∀ k, k ≠ l.val → getLink t k = getLink s k)) ∧
  (∀ (s : State) (l : Fin 24), mainOn s = true → (getLink s l.val).st = 1 → let k := getLink s l.val
    ∀ i, i = .trainStageTimeout l ∧ (k.stageAt + stageLimit k.stage < s.time.now ∨ k.attemptAt + 100000000 < s.time.now) ∨
      i = .partnerSilence l ∧ k.stage ≠ 0 ∧ k.heardAt + 2000000 ≤ s.time.now →
    ∃ t, exec i s = .next t ∧ (getLink t l.val).st = 2 ∧ (getLink t l.val).failures = k.failures + 1 ∧
      (getLink t l.val).nextTry = s.time.now + backoff (k.failures + 1) ∧
      ∀ j, j ≠ l.val → getLink t j = getLink s j)

/-- R257 to R261: a request, the loss of a lane's lock or the partner's request starts one fast retrain of a link that is up, and merges
with one under way; once its time has passed the link is back at the width its lanes give, or down; a lane that has caused four within
10 s, at either end, is retired. -/
def Obligations.FastRetrains : Prop :=
  ∀ (s : State) (l : Fin 24), mainOn s = true → let k := getLink s l.val
    (k.st = 3 → ∀ (i : Instr) (own : Bool) (w : Option (Fin 3)),
      (i = .retrain l ∧ own = true ∨ i = .retrainRequestRx ⟨l, none, w⟩ ∧ own = false) →
      ∃ t, exec i s = .next t ∧ (getLink t l.val).st = 4 ∧ (getLink t l.val).ownReq = own ∧ (getLink t l.val).retrainAt = s.time.now ∧
        (getLink t l.val).retrains = satInc 16 k.retrains 1 ∧ (own = false → ∀ x, w = some x → (getLink t l.val).partnerW = some x.val) ∧
        ∀ j, j ≠ l.val → getLink t j = getLink s j) ∧
    (k.st = 4 → exec (.retrain l) s = .next s ∧ ∀ w : Option (Fin 3), ∃ t, exec (.retrainRequestRx ⟨l, none, w⟩) s = .next t ∧
      getLink t l.val = { getLink (freeRx s l.val 2 0) l.val with
        retrainAt := if k.ownReq && !k.leader then s.time.now else k.retrainAt
        partnerW := match w with
          | some x => some x.val
          | none => k.partnerW }) ∧
    (∀ (lane : Fin 4) (i : Instr) (w : Option (Fin 3)), k.st = 3 → k.lanesRet.getLsbD lane.val = false →
      (i = .laneLockLoss l lane ∨ i = .retrainRequestRx ⟨l, some lane, w⟩) →
      let n := (k.charges.filter (fun x => decide (s.time.now ≤ x.2 + 20000000000) && decide (x.1 = lane.val))).length
      (n < 3 → ∃ t, exec i s = .next t ∧ (getLink t l.val).st = 4 ∧
        (getLink t l.val).charged.getLsbD lane.val = true ∧ (getLink t l.val).lanesRet = k.lanesRet) ∧
      (3 ≤ n → ∃ t, exec i s = .next t ∧ (getLink t l.val).lanesRet = (k.lanesRet ||| BitVec.ofNat 4 (2 ^ lane.val)) ∧
        (getLink t l.val).st = if (k.lanesRet ||| BitVec.ofNat 4 (2 ^ lane.val)) = 0xF then 5 else 4)) ∧
    (∀ locked : BitVec 4, k.st = 4 →
      (retrainOver s k locked = false → exec (.laneLockTimeout l locked) s = .next s) ∧
      (retrainOver s k locked = true →
        let k2 : Link := { k with locked := locked, disAct := k.laneDis, widthAct := BitVec.ofNat 2 (retrainWidth s k) }
        (∀ w ls, laneSet k2 = some (w, ls) → ∃ t, exec (.laneLockTimeout l locked) s = .next t ∧ (getLink t l.val).st = 3 ∧
          (getLink t l.val).width = w ∧ (getLink t l.val).lanesUp = laneMask ls ∧ (getLink t l.val).widthAct = k2.widthAct ∧
          (getLink t l.val).locked = locked ∧ ∀ j, j ≠ l.val → getLink t j = getLink s j) ∧
        (laneSet k2 = none → tabWf {} s.fab.links = true →
          ∃ t, exec (.laneLockTimeout l locked) s = .next t ∧ (getLink t l.val).st = 0)))

/-- R262: SERVICE clears a link's retired lanes and its retrain history; the link is down, and an enabled one whose group has power begins
its next training attempt from DETECT. -/
def Obligations.ServiceTrainsAnew : Prop :=
  ∀ (s : State) (l : Fin 24), mainOn s = true → tabWf {} s.fab.links = true →
    ∃ t, exec (.service l) s = .next t ∧ (getLink t l.val).lanesRet = 0 ∧ (getLink t l.val).charges = [] ∧
      (getLink t l.val).retrains = 0 ∧ (getLink t l.val).st = 0 ∧ (getLink t l.val).en = (getLink s l.val).en ∧
      ∀ o : Training, (getLink s l.val).en = true → linkPowered s l.val = true → o.answered = false →
        ∃ u, exec (.linkTrainAttempt l o) t = .next u ∧ (getLink u l.val).st = 1 ∧ (getLink u l.val).stage = 0

/-- R252, R253, R263, R264, R285, R400: a good flit in sequence takes its credits and is acknowledged, one seen before is acknowledged
again, one out of sequence or without credit, and a bad one, is asked for again, and sixteen bad tags in a row take the link down; an
acknowledgement empties the replay buffer, a request for a replay sends from it; a lane whose corrections come above the threshold
starts a retrain; a rekey moves the sender's epoch on, once its counter or an hour is at its end; a plane can be taken out of a node's
paths. -/
def Obligations.FlitsAndPaths : Prop :=
  ∀ (s : State) (l : Fin 24), mainOn s = true → let k := getLink s l.val
    (∀ f : Flit, k.st = 3 → k.prk.isSome = true → f.corrected = [] →
      (f.fecOk = true → f.tagOk = true → f.seq = k.rxSeq → flitFits k f = true →
        ∃ t r, exec (.flitRx l f) s = .next t ∧ (getLink t l.val).rxSeq = k.rxSeq + 1 ∧ (getLink t l.val).badTags = 0 ∧
          (getLink t l.val).rxUsed = (if f.bytes = 0 then k.rxUsed else tabMod 0 k.rxUsed f.vc.val (fun x => x + creditsOf f.bytes)) ∧
          t.out = s.out ++ .flitAck l.val f.seq :: r ∧
          (k.txq = [] → f.nak = none → r = []) ∧
          (k.txq = [] → f.ack = none → ∀ n, f.nak = some n → r = (k.replay.filter (fun x => decide (n ≤ x.seq))).map (.flit l.val)) ∧
          (k.txq = [] → ∀ n, f.ack = some n → (getLink t l.val).replay = k.replay.filter (fun x => decide (n ≤ x.seq)))) ∧
      (f.fecOk = true → f.tagOk = true → f.seq < k.rxSeq → ∃ t, exec (.flitRx l f) s = .next t ∧
        (getLink t l.val).rxSeq = k.rxSeq ∧ t.out = s.out ++ [.flitAck l.val f.seq]) ∧
      (f.fecOk = true → f.tagOk = true → (k.rxSeq < f.seq ∨ f.seq = k.rxSeq ∧ flitFits k f = false) →
        ∃ t, exec (.flitRx l f) s = .next t ∧ (getLink t l.val).rxSeq = k.rxSeq ∧ (getLink t l.val).rxUsed = k.rxUsed ∧
          t.out = s.out ++ [.flitNak l.val k.rxSeq]) ∧
      (f.fecOk = false → k.badTags < 16 → ∃ t, exec (.flitRx l f) s = .next t ∧ (getLink t l.val).rxSeq = k.rxSeq ∧
        (getLink t l.val).badTags = k.badTags ∧ t.out = s.out ++ [.flitNak l.val k.rxSeq]) ∧
      (f.fecOk = true → f.tagOk = false → k.badTags = 15 → tabWf {} s.fab.links = true →
        ∃ t, exec (.flitRx l f) s = .next t ∧ (getLink t l.val).st = 0)) ∧
    (∀ (f : Flit) (n : Nat), k.st = 3 → k.prk.isSome = true → f.fecOk = true → f.tagOk = true → f.corrected = [n] →
      tabGet 0 k.fec 0 ≤ k.errThr.toNat → k.errThr.toNat < tabGet 0 k.fec 0 + n →
      k.lanesRet = 0 → (k.charges.filter (fun x => decide (x.1 = 0))).length < 3 →
      ∃ t, exec (.flitRx l f) s = .next t ∧ (getLink t l.val).st = 4) ∧
    ((k.st = 3 ∨ k.st = 4) → k.prk.isSome = true →
      ((2 ^ 48 ≤ k.txCtr + 1 ∨ k.keyAt + 7200000000000 ≤ s.time.now) → ∃ t, exec (.linkRekey l) s = .next t ∧
        (getLink t l.val).txEpoch = k.txEpoch + 1 ∧ (getLink t l.val).keyAt = s.time.now ∧
        (k.txq = [] → (getLink t l.val).txCtr = 0 ∧ t.out = s.out ++ [.rekey l.val (k.txEpoch + 1)])) ∧
      (k.txCtr + 1 < 2 ^ 48 → s.time.now < k.keyAt + 7200000000000 → exec (.linkRekey l) s = .next s)) ∧
    (∀ (p : Fin 18) (n : Fin 64), n.val ≠ ownNode s → ∃ t, exec (.pathDown p n) s = .next t ∧ 6 + p.val ∉ planeLinks t n.val ∧
      ∀ j, (getLink t j).st = (getLink s j).st)

/-- R269 to R275, R280, R281: an entry that breaks its checks completes with its first status; a load whose lines the cache holds completes
from it; one that passes is issued, an atomic as one request and any other as one for each line of it: each waits in the retransmit store
with its part of the data, the first under the next sequence number to its node, and a write removes the source's cached copies. An entry
that may not be issued yet waits. -/
def Obligations.FabricSources : Prop :=
  ∀ (s : State) (c : Fin 20) (a : Fin 16) (x : Bool) (p : Fin 64) (e : List Word) (i : Instr) (op : Nat), mainOn s = true →
    partRuns s p.val = true →
    (i, op) ∈ [(Instr.load ⟨c, a, x⟩ p e, 0), (.store ⟨c, a, x⟩ p e, 1), (.storeWithOrderedFlag ⟨c, a, x⟩ p e, 2), (.atomicAdd ⟨c, a, x⟩ p e, 3),
      (.atomicMin ⟨c, a, x⟩ p e, 4), (.atomicMax ⟨c, a, x⟩ p e, 5), (.compareAndSwap ⟨c, a, x⟩ p e, 6)] → foOp e = op →
    let u := walkAll s p.val [foRemote e, foLocal e]
    let sl := issuer u c.val a.val x p.val
    let errs := foErrs u p.val e
    let n := foLen e
    let d := foData u p.val e
    (errs ≠ [] → (lowest errs ≠ stRefusedMode → exec i s = .next (foDone u p.val c.val sl (lowest errs))) ∧
      (lowest errs = stRefusedMode → ∃ t, exec i s = .next t ∧ (getPart t p.val).refused = satInc 16 (getPart u p.val).refused 1)) ∧
    (errs = [] → ∀ ga, foTarget u p.val e = some ga →
      (∀ bs q, op = 0 → foNc e = false → cacheRead u p.val ga n = some (bs, q) → writeLost u p.val (foLocal e) bs.length = false →
        exec i s = .next (foDone (wrLocal u p.val c.val (foLocal e) bs q) p.val c.val sl (if q then stPoisoned else stOk))) ∧
      ((op ≠ 0 ∨ foNc e = true ∨ cacheRead u p.val ga n = none) →
        (mayIssue u p.val (64 * (linesOf ga n).length) = false → exec i s = .next u) ∧
        (mayIssue u p.val (64 * (linesOf ga n).length) = true →
          ∃ t os, exec i s = .next t ∧ t.fab.outst = s.fab.outst ++ os ∧ t.hbm = u.hbm ∧
            os.length = (if foAtomic e then 1 else (lineParts ga n).length) ∧
            (∀ o ∈ os, o.dst = fabNode o.req.addr.toNat ∧ o.issued = s.time.now ∧ o.cluster = c.val ∧ o.slice = sl ∧ o.req.op.val = op ∧
              o.req.part = p ∧ o.req.gen = (getPart s p.val).gen ∧ o.req.psn = d.2 ∧
              (op ≠ 0 → ∀ y ∈ t.fab.cache, y.part = p.val → y.addr ≠ o.req.addr.toNat / 64)) ∧
            (∀ o, os.head? = some o → o.req.seq = BitVec.ofNat 32 (tabGet 0 s.fab.seqTx o.dst)) ∧
            (foAtomic e = true → ∀ o ∈ os, o.req.addr = BitVec.ofNat 52 ga ∧ o.req.len = n ∧ o.req.data = d.1) ∧
            (foAtomic e = false → ∀ (j : Nat) (y : Nat × Nat), (lineParts ga n)[j]? = some y → ∃ o, os[j]? = some o ∧
              (if op = 0 ∧ foNc e = false ∧ s.fab.cacheEn = true then
                o.req.addr = BitVec.ofNat 52 ((ga + y.1) / 64 * 64) ∧ o.req.len = 64
              else o.req.addr = BitVec.ofNat 52 (ga + y.1) ∧ o.req.len = y.2 ∧
                o.req.data = if op = 0 then [] else (d.1.drop y.1).take y.2)))))

/-- R267, R276 to R279: an invalidation removes the partition's lines; a request's source is bound by the link on which it came; a
router that does not combine forwards what it gets; one that does forwards a load and holds an atomic with no partner, until 64 ns have
passed or a store to its line flushes it. -/
def Obligations.FabricRouter : Prop :=
  (∀ (s : State) (c : Fin 20) (a : Fin 16) (x : Bool) (p : Fin 64) (e : List Word), mainOn s = true → (getPart s p.val).live = true →
    foOp e = 7 →
    (foErrs s p.val e ≠ [] → exec (.fabOpInval ⟨c, a, x⟩ p e) s =
      .next (foDone s p.val c.val (issuer s c.val a.val x p.val) (lowest (foErrs s p.val e)))) ∧
    (foErrs s p.val e = [] → ∃ t, exec (.fabOpInval ⟨c, a, x⟩ p e) s = .next t ∧
      t.fab.cache = (invalRange s p.val (foRemote e) (wd e 5).toNat).fab.cache ∧ t.out = s.out ++ [.fabOp c.val stOk] ∧
      (268435456 ≤ (wd e 5).toNat → ∀ y ∈ t.fab.cache, y.part ≠ p.val))) ∧
  (∀ (s : State) (r : FabReq) (via : Fin 25), mainOn s = true →
    let q := bindSource s via.val r
    let u := arrived s via.val 0 q.data.length q.part.val
    (via.val < 24 → (getLink s via.val).isSwitch = false → q.node = fin64 (getLink s via.val).node) ∧
    (s.fab.comb = [] →
      (s.fab.combineEn = false → exec (.fabricRouterRx ⟨r, via⟩) s = .next (forwardReq u q)) ∧
      (s.fab.combineEn = true → q.stage = none → q.members = [] →
        let held := { u with fab := { u.fab with comb := [{ req := q, members := [q], opened := s.time.now, writers := [] }] } }
        (combinable q = true → exec (.fabricRouterRx ⟨r, via⟩) s = .next held) ∧
        (q.op.val = 0 → exec (.fabricRouterRx ⟨r, via⟩) s = .next (forwardReq held q)) ∧
        (q.op.val ≠ 0 → combinable q = false → exec (.fabricRouterRx ⟨r, via⟩) s = .next (forwardReq u q)))) ∧
    (∀ x : Comb, s.fab.comb = [x] → x.req.op.val ≠ 0 → q.op.val = 1 → q.stage = none → q.members = [] → reqLine q = reqLine x.req →
      exec (.fabricRouterRx ⟨r, via⟩) s =
        .next (forwardReq (forwardReq { u with fab := { u.fab with comb := [] } } (combined x)) q))) ∧
  (∀ (s : State) (x : Comb), mainOn s = true → s.fab.comb = [x] → x.req.op.val ≠ 0 →
    (x.opened + 128 ≤ s.time.now → exec .combineTimeout s =
      .next (forwardReq { s with fab := { s.fab with comb := [] } } (combined x))) ∧
    (s.time.now < x.opened + 128 → exec .combineTimeout s = .next s))

/-- R267, R268, R272, R273, R283, R352: a request for another node, or whose generation is not the one its source has now, is discarded; a
repeat gets its first answer; one whose source has no generation, and one that no entry permits, is denied and changes no memory; a store
that an entry permits writes its bytes, a part of a segment is staged; an ordered flag waits for the earlier requests of its source. -/
def Obligations.FabricDestination : Prop :=
  (∀ (s : State) (r : FabReq) (via : Fin 25) (ecc : Ecc), mainOn s = true →
    let q := bindSource s via.val r
    let u := arrived s via.val 0 q.data.length q.part.val
    let gen := peerGen s q.node.val q.part.val
    (fabNode q.addr.toNat ≠ ownNode s → exec (.fabricRequestRx ⟨r, via⟩ ecc) s = .next s) ∧
    (fabNode q.addr.toNat = ownNode s →
      (gen ≠ 0 → gen ≠ q.gen → exec (.fabricRequestRx ⟨r, via⟩ ecc) s = .next u) ∧
      ((gen = 0 ∨ gen = q.gen) → repeats s q = true → exec (.fabricRequestRx ⟨r, via⟩ ecc) s = .next (answerAgain u q)) ∧
      ((gen = 0 ∨ gen = q.gen) → repeats s q = false → fabBad q.addr.toNat = false →
        ((∃ m ∈ sourcesOf q, peerGen s m.1 m.2.1 = 0) ∨ q.stage = none ∧ admitting s q = none →
          ∃ t, exec (.fabricRequestRx ⟨r, via⟩ ecc) s = .next t ∧ t.hbm = s.hbm ∧ t.fab.denied = s.fab.denied + 1 ∧
            t.fab.done.length = s.fab.done.length + (sourcesOf q).length) ∧
        ((∀ m ∈ sourcesOf q, peerGen s m.1 m.2.1 ≠ 0) → ∀ p ent, admitting s q = some (p, ent) →
          (q.stage = none → q.op.val = 1 → ∀ b, placeOf s (fabOff q.addr.toNat) = .hbm b → memWf s.hbm.m.mem = true →
            ∃ t, exec (.fabricRequestRx ⟨r, via⟩ ecc) s = .next t ∧
              (∀ i, i < q.data.length → rdByte t.hbm.m.mem (b + i) = q.data.getD i 0) ∧
              (∀ j, (j < b ∨ b + q.data.length ≤ j) → rdByte t.hbm.m.mem j = rdByte s.hbm.m.mem j)) ∧
          (q.stage = none → q.op.val = 2 → allEarlier s q = false → exec (.fabricRequestRx ⟨r, via⟩ ecc) s =
            .next { u with fab := { u.fab with flagsHeld := u.fab.flagsHeld ++ [{ q := q, owner := p, ent := ent }] } }) ∧
          (∀ y, q.stage = some y → s.fab.staged = [] → stagedUse s + q.data.length ≤ 33554432 → exec (.fabricRequestRx ⟨r, via⟩ ecc) s =
            .next { u with fab := { u.fab with
              staged := [{ node := q.node.val, part := q.part.val, dma := y.dma, seg := y.seg.val, parts := [q] }] } }))))) ∧
  (∀ (s : State) (h : HeldFlag), mainOn s = true → s.fab.flagsHeld = [h] →
    let u := { s with fab := { s.fab with flagsHeld := [] } }
    (allEarlier s h.q = true → exec (.orderedFlagApply h.q.node h.q.part) s = .next (closeExports (
      if (tabGet {} (getPart s h.owner).exps h.ent).used then applyReq u h.owner h.q else denyReq u h.q))) ∧
    (allEarlier s h.q = false → exec (.orderedFlagApply h.q.node h.q.part) s = .next s))

/-- R252, R273, R281, R284, R286, R351: the response to an outstanding request ends it; a request that waits too long, a part of a
segment for a path and any other for its response, ends with TIMEOUT and is counted; a reset notice sets PEER_GEN and is acknowledged;
its acknowledgement or 1 ms ends the wait for it. -/
def Obligations.FabricReplies : Prop :=
  (∀ (s : State) (a : FabResp) (via : Fin 25) (o : FabOut), mainOn s = true → s.fab.comb = [] → s.fab.outst = [o] → o.dst = a.node.val →
    o.req.seq = a.seq → ∃ t, exec (.fabricResponseRx ⟨a, via⟩) s = .next t ∧ (s.fab.dma = [] → t.fab.outst = [])) ∧
  (∀ (s : State) (n : Fin 64) (q : Word) (o : FabOut), mainOn s = true → s.fab.outst = [o] → o.dst = n.val → o.req.seq = q →
    let late := if o.kind = 3 then o.path = 25 ∧ o.noPathAt + fabTimeoutCycles s ≤ s.time.now
      else o.issued + fabTimeoutCycles s ≤ s.time.now
    (late → ∃ t, exec (.fabTimeout n q) s = .next t ∧ t.fab.timeouts = s.fab.timeouts + 1 ∧ (s.fab.dma = [] → t.fab.outst = [])) ∧
    (¬late → exec (.fabTimeout n q) s = .next s)) ∧
  (∀ (s : State) (n p : Fin 64) (g : BitVec 16) (via : Fin 25), mainOn s = true → g ≠ 0 →
    ∃ t, exec (.resetNoticeRx ⟨n, via⟩ p g) s = .next t ∧ peerGen t n.val p.val = g ∧
      (n.val = ownNode s → ∃ r, t.out = r ++ [.deliver (.noticeAck n.val p.val)]) ∧
      ∀ n2 p2, p2 < 64 → (n2 ≠ n.val ∨ p2 ≠ p.val) → peerGen t n2 p2 = peerGen s n2 p2) ∧
  (∀ (s : State) (n p : Fin 64) (g : BitVec 16) (via : Fin 25), mainOn s = true → s.fab.notices = [(p.val, g, [n.val])] →
    (getPart s p.val).live = true →
    ∀ i, i = .resetNoticeAckRx ⟨n, via⟩ p ∨ i = .resetNoticeResend p →
    ∃ t, exec i s = .next t ∧ (getPart t p.val).noticeOpen = false)

/-! ### The step -/

/-- DESIGN CHOICE (log entry 2): a step runs the command at the front of the queue on the state with the queue's rest; on an empty
queue one array cycle passes while por_n is high, and nothing happens while it is low. -/
def Obligations.StepRunsQueue : Prop :=
  (∀ (s : State) (c : Instr) (rest : List Instr), s.pending = c :: rest → step s = exec c { s with pending := rest }) ∧
  (∀ s : State, s.pending = [] → s.pwr.porN = true → step s = .next (tick s)) ∧
  (∀ s : State, s.pending = [] → s.pwr.porN = false → step s = .next s)

/-- R4, R142, R168, R191, R209 to R227, R287, R302, R357, R359, R386, R391, R426, R432, R436: what a power-on reset leaves, where the
manual gives a value; and the state after reset meets the invariant. -/
def Obligations.ResetState : Prop :=
  let s := State.reset
  Inv s ∧ s.pending = [] ∧ s.parts = [] ∧ s.rings = [] ∧ s.outst = [] ∧ s.boot.accepted = [] ∧ s.boot.meas = [] ∧
  s.time.cloveRun = false ∧ s.time.auto = true ∧ s.time.slew = 0x00A ∧ s.time.dom0.num = 0x18 ∧ s.time.master = none ∧
  s.pwr.pkgIlim = 0x07D0 ∧ s.pwr.tjTarget = 0x64 ∧ s.pwr.dvfsEn = true ∧ s.pwr.causePor = true ∧ s.pwr.radioOn = false ∧
  (∀ c, (getPc s c).point = 4) ∧ s.uart.div = 0x0364 ∧ s.uart.en = true ∧ s.uart.valid = false ∧
  s.fab.node = 0xFF ∧ s.fab.combineEn = true ∧ s.fab.cacheEn = true ∧ s.fab.timeout = 0x64 ∧
  (∀ l, (getLink s l).en = false ∧ (getLink s l).errThr = 0x0400 ∧ (getLink s l).st = 0) ∧
  (∀ c, (getClu s c).spareFor = 0x3F ∧ (getClu s c).failed = 0 ∧ (getClu s c).wdogLimit = 0x10000) ∧
  (∀ c q, (getEq (getClu s c) q).en = false) ∧ (∀ n, (getStream s n).agcEn = true ∧ (getStream s n).target = 0x48) ∧
  (∀ q, (getQ s q).en = false ∧ (getQ s q).qlim = 0x040) ∧ (∀ k, (getRing s k).en = false)

/-- R221: a write of 1 to TIME_CTL.SNAP latches the clock's fields and the clove index from one instant; after a clove boundary it holds the
index of the new clove, whose clock reads 125,000 ns for each clove of its index. -/
def Obligations.SnapshotAndBoundary : Prop :=
  (∀ s : State, mainOn s = true → exec .snap s = .next { s with time := { s.time with
    snapSec := s.time.sec, snapNs := s.time.ns, snapFrac := s.time.frac
    snapClove := BitVec.ofNat 64 (if s.time.cloveRun then s.time.clove else 8000 * s.time.sec.toNat + s.time.ns / 125000) } }) ∧
  (∀ (s : State) (v : Word), mainOn s = true → s.boot.st = .ready → bit v 20 = true →
    ∃ t u, exec (.registerWrite (.pf 0) 0x400000 (v &&& ~~~(0x100000 : Word))) s = .next t ∧ exec .snap t = .next u ∧
      exec (.registerWrite (.pf 0) 0x400000 v) s = .next u) ∧
  (∀ (s : State) (env : BoundaryEnv), mainOn s = true → s.time.cloveRun = true →
    ∃ t u, exec (.cloveBoundary env) s = .next t ∧ exec .snap t = .next u ∧
      t.time.clove = s.time.clove + 1 ∧ t.time.cycle = 0 ∧ t.time.ns = 125000 * (s.time.clove + 1) % 1000000000 ∧ t.time.frac = 0 ∧
      u.time.snapClove = BitVec.ofNat 64 (s.time.clove + 1)) ∧
  (∀ (s : State) (env : BoundaryEnv), mainOn s = true → s.time.cloveRun = false → exec (.cloveBoundary env) s = .next s)

/-- The machine's invariant is kept by every step from every state that has it. -/
def Obligations.StepKeepsInv : Prop :=
  ∀ s t : State, Inv s → step s = .next t → Inv t

/-- R391 to R393, R397: whatever command runs, the fuses only ever advance, and no command changes the queue. -/
def Obligations.FusesOnlyAdvance : Prop :=
  ∀ (c : Instr) (s t : State), exec c s = .next t →
    s.sec.lifecycle ≤ t.sec.lifecycle ∧ (s.sec.debugDis = true → t.sec.debugDis = true) ∧
    (s.sec.rootSet = true → t.sec.rootSet = true ∧ t.sec.root = s.sec.root) ∧
    (∀ u, tabGet 0 s.sec.minSvn u ≤ tabGet 0 t.sec.minSvn u) ∧ (s.sec.identErased = true → t.sec.identErased = true) ∧
    t.pending = s.pending

/-- R366: a command packet of sixteen words, as it lies in a command ring, spells its opcode and every field of its command again. -/
def Obligations.PacketRoundTrip : Prop :=
  ∀ (op : Nat) (k : Pkt), op < 256 → k.w.length = 12 →
    pktOfWords (pktWords op k) = (op, k) ∧ wordsOf 16 (bytesOfWords (pktWords op k)) = pktWords op k ∧ (pktWords op k).length = 16

/-! ### Boot and security -/

/-- R359 to R362, R399, R405: a push in WAIT_IMG begins the check and during VERIFY it only sets LAST_STATUS to BUSY; an image that
passes is accepted, logged and measured, one that fails is logged; a push after START is never accepted. START with all five types
accepted and no tamper latch goes to STARTING, and otherwise sets LAST_STATUS alone; the device is READY within 2 s, or halts with cause
6. -/
def Obligations.BootStates : Prop :=
  ∀ s : State, mainOn s = true →
    (s.boot.st = .waitImg → exec .push s = .next { s with boot := { s.boot with st := .verify } }) ∧
    (s.boot.st = .verify → exec .push s = .next { s with boot := { s.boot with lastStatus := stBusy } }) ∧
    (s.boot.st = .verify → let c := imgCheck s false
      ∃ t, exec .imageVerified s = .next t ∧ t.boot.st = .waitImg ∧ t.boot.lastStatus = lowest c.1 ∧
        t.boot.log = s.boot.log ++ [{ typ := c.2.1, svn := c.2.2.1, hash := c.2.2.2, status := lowest c.1 }] ∧
        t.sec = s.sec ∧ t.host = s.host ∧
        (c.1 = [] → accepted t c.2.1 = true ∧ (∀ u, u ≠ c.2.1 → accepted t u = accepted s u) ∧
          (tabWf 0 s.boot.meas = true → ∀ u, tabGet 0 t.boot.meas u =
            if u = c.2.1 then Config.sha384 (hashBytes (tabGet 0 s.boot.meas u) ++ hashBytes c.2.2.2) else tabGet 0 s.boot.meas u)) ∧
        (c.1 ≠ [] → t.boot.accepted = s.boot.accepted ∧ t.boot.meas = s.boot.meas ∧ t.boot.iface = s.boot.iface)) ∧
    ((s.boot.st = .starting ∨ s.boot.st = .ready) → ∃ t, exec .push s = .next t ∧ t.boot.st = s.boot.st ∧ t.boot.lastStatus ≠ stOk ∧
      t.boot.accepted = s.boot.accepted ∧ t.boot.meas = s.boot.meas) ∧
    (s.boot.st = .waitImg → allAccepted s = true → s.sec.tamperLatch = false →
      exec .start s = .next { s with boot := { s.boot with st := .starting, lastStatus := stOk, startAt := s.time.now } }) ∧
    (s.boot.st = .waitImg → allAccepted s = false → exec .start s = .next { s with boot := { s.boot with lastStatus := stBadParam } }) ∧
    (s.boot.st = .waitImg → allAccepted s = true → s.sec.tamperLatch = true →
      exec .start s = .next { s with boot := { s.boot with lastStatus := stDenied } }) ∧
    (s.boot.st = .starting → s.time.now ≤ s.boot.startAt + startCycles → exec .bootReady s =
      .next { s with boot := { s.boot with st := .ready }, sec := { s.sec with identKey := !s.sec.identErased } }) ∧
    (s.boot.st = .starting → s.boot.startAt + startCycles ≤ s.time.now → exec .startTimeout s =
      .next { s with boot := { s.boot with st := .halt, haltCause := 6 } })

/-- R391 to R393, R396, R397, R401, R405: a security request of each kind whose checks pass has its effect, sets STATUS to OK and, where its
kind needs a token, uses up the nonce; one whose checks fail leaves its first status in R20 order and has no other effect but that on the
nonce; a block that cannot be read gives BOUNDS. -/
def Obligations.SecurityRequests : Prop :=
  ∀ (s : State) (i : Instr) (kind : Nat), mainOn s = true →
    (i, kind) ∈ [(Instr.nonce, 0), (.tamperClear, 1), (.svnRaise, 2), (.lifeAdvance, 3), (.debugDisable, 4), (.rootSet, 5),
      (.sealKey, 6)] →
    (secBlock s = none → exec i s = .next { s with sec := { s.sec with reqStatus := stBounds } }) ∧
    ∀ b, secBlock s = some b → secKind b = kind →
      let x : Security := { s.sec with
        reqStatus := lowest (secErrs s b), nonce := if needsToken kind then none else s.sec.nonce };
      ∃ t, exec i s = .next t ∧ (secErrs s b ≠ [] → t = { s with sec := x }) ∧
        (secErrs s b = [] → t.sec.reqStatus = stOk ∧
          (kind = 0 → ∃ n, t.sec = { x with nonce := some n } ∧
            (memWf (tabGet [] s.host 0) = true → tabWf [] s.host = true →
              hostRead t 0 (secAddr s + 64) 48 = some (hashBytes n))) ∧
          (kind = 1 → t = { s with sec := { x with tamperLatch := false, tamperCause := 0 } }) ∧
          (kind = 2 → t = { s with sec := { x with minSvn := tabSet 0 s.sec.minSvn (secType b) (secValue b) } } ∧
            tabGet 0 s.sec.minSvn (secType b) < secValue b) ∧
          (kind = 3 → let y : Security := { x with lifecycle := s.sec.lifecycle + 1 };
            let e := decide (s.sec.lifecycle = 1);
            t = { s with sec := { y with identErased := s.sec.identErased || e, identKey := s.sec.identKey && !e } }) ∧
          (kind = 4 → t = { s with sec := { x with debugDis := true } }) ∧
          (kind = 5 → s.sec.rootSet = false ∧
            t = { s with sec := { x with rootSet := true, root := hashOf (bytesOfWords ((b.drop 2).take 12)) } }) ∧
          (kind = 6 → ∃ c key, secCapsule s b = some c ∧ Config.openCapsule c = some key ∧
            t = { s with sec := { x with sealKey := some key } }))

/-! ### Links -/

/-- R259: a link that comes up, and one that ends a fast retrain, runs at the widest width, within the width that is asked for, whose
lane set holds no excluded, retired or disabled lane; x2 prefers lanes 0 and 1, and x1 takes the lowest lane. -/
def Obligations.LaneSets : Prop :=
  ∀ (s : State) (l : Fin 24), mainOn s = true →
    let k := getLink s l.val
    (k.st = 1 → k.stage = 5 → k.prk.isSome = true → overdue s k = false → lanesFree k ≠ [] →
      ∃ t, exec (.linkUp l) s = .next t ∧ (getLink t l.val).st = 3 ∧ runsWidest k (getLink t l.val)) ∧
    (∀ locked : BitVec 4, k.st = 4 → retrainOver s k locked = true →
      let r : Link := { k with locked := locked, disAct := k.laneDis, widthAct := BitVec.ofNat 2 (retrainWidth s k) };
      lanesFree r ≠ [] → ∃ t, exec (.laneLockTimeout l locked) s = .next t ∧ (getLink t l.val).st = 3 ∧
        runsWidest r (getLink t l.val))

/-- R282 to R284, R371: a segment of this chip's own FAB_DMA of which every byte has been answered commits: a get writes its staged
data, its bit of the map is set, and a put with FLAG sends its flag next; a get that may not write fails with BOUNDS; with the last
segment the command ends, and no completion of it is awaited any more. A segment that another chip puts here commits once every byte of
it is staged: each part is applied and answered, or all of it is denied. -/
def Obligations.DmaSegments : Prop :=
  (∀ (s : State) (p seg : Fin 64) (d : Dma) (g : DmaSeg) (rest : List DmaSeg), mainOn s = true →
    s.fab.dma = [d] → d.part = p.val → d.segs = g :: rest → g.n = seg.val → (∀ y ∈ rest, y.n ≠ seg.val) → g.flag = false →
    let i := Instr.dmaSegmentCommit (.own p d.id seg)
    let la := fld48 g.e 0
    let n := segLen g
    let ends (t : State) : Prop := t.fab.dma = [] ∧ ∀ o ∈ t.outst, o.why ≠ .dma d.id
    (g.got < n → exec i s = .next s) ∧
    (n ≤ g.got → d.get = true → canWrVa s p.val la n = false →
      let e : Dma := { d with segs := rest, fails := d.fails ++ [(seg.val, stBounds)] }
      (rest ≠ [] → exec i s = .next { s with fab := { s.fab with dma := [e] } }) ∧
      (rest = [] → ∃ t, exec i s = .next t ∧ ends t ∧ OnlyReports { s with fab := t.fab, outst := t.outst } t)) ∧
    (n ≤ g.got → (d.get = true → canWrVa s p.val la n = true ∧ writeLost s p.val la n = false) →
      let u := if d.get then wrVaP s p.val la (stagedData g) g.psn else s
      let e : Dma := { d with map := d.map ||| BitVec.ofNat 64 (2 ^ seg.val), psn := d.psn || g.psn }
      (d.get = false → bit (wd g.e 4) 19 = true →
        exec i s = .next (runDma { s with fab := { s.fab with dma := [{ e with segs := { g with flag := true } :: rest }] } })) ∧
      ((d.get = true ∨ bit (wd g.e 4) 19 = false) →
        (rest ≠ [] → exec i s = .next (runDma { u with fab := { s.fab with dma := [{ e with segs := rest }] } })) ∧
        (rest = [] → ∃ t, exec i s = .next t ∧ ends t ∧ OnlyReports { u with fab := t.fab, outst := t.outst } t)))) ∧
  (∀ (s : State) (node part seg : Fin 64) (dma : Nat) (g : StagedSeg) (q : FabReq) (r : List FabReq) (x : Stage), mainOn s = true →
    s.fab.staged = [g] → isStage node.val part.val dma seg.val g = true → g.dead = false → g.parts = q :: r → q.stage = some x →
    0 < x.total →
    let i := Instr.dmaSegmentCommit (.incoming node part dma seg)
    let here := (g.parts.map (fun y => y.data.length)).sum
    let u := { s with fab := { s.fab with staged := [] } }
    (here < x.total → exec i s = .next s) ∧
    (x.total ≤ here → (∀ y ∈ g.parts, (admitting s y).isSome = true) →
      exec i s = .next (g.parts.foldl (fun s y => applyReq s ((admitting s y).getD (0, 0)).1 y) u)) ∧
    (x.total ≤ here → (∃ y ∈ g.parts, admitting s y = none) → ∃ t, exec i s = .next t ∧ t.hbm = s.hbm ∧
      t.fab.denied = s.fab.denied + g.parts.length))

/-! ### Tasks, launches and twin runs -/

/-- R242, R245 to R247, R249, R329, R330: a task or a run whose work is done ends, and its groups are free from the next boundary that
can be committed, a twin run once its last clove is compared; a lost message suspends the comparison of a twin run, one that agrees ends
the comparison of its clove, and one that differs is a divergence of data, which freezes the run where FREEZE asks for it, or, after a
disturbance, of time, and only a mismatch after the first divergence; a freeze notice freezes the run at the next boundary that can be
committed. -/
def Obligations.TasksAndTwinRuns : Prop :=
  ∀ (s : State) (p : Fin 64), mainOn s = true → tabWf {} s.parts = true →
    (∀ t : Task, (getPart s p.val).tasks = [t] → t.held ≠ [] → workDone s p.val t.held t.engs t.ctxs = true →
      ∃ u, exec (.taskEnd p t.id) s = .next u ∧ (getPart u p.val).tasks = [] ∧
        u.freed = s.freed ++ t.held.map (fun k => (k, nextCommit s)) ∧
        ∀ o ∈ u.outst, ¬(o.why = .task t.id ∧ ringOwner o.ring = some p)) ∧
    (∀ t : Task, (getPart s p.val).tasks = [t] → workDone s p.val t.held t.engs t.ctxs = false → exec (.taskEnd p t.id) s = .next s) ∧
    ∀ L : Launch, (getPart s p.val).launch = some L →
      (L.running = true → L.ended = false → L.twin = false → (getPart s p.val).twinState ≠ 3 →
        L.freezeAt = 0 → workDone s p.val (placeGroups s L.place) L.engs L.ctxs = true →
        ∃ u, exec (.runEnd p) s = .next u ∧ (getPart u p.val).launch = none ∧
          u.freed = s.freed ++ (placeGroups s L.place).map (fun k => (k, nextCommit s)) ∧ ∀ o ∈ u.outst, o.why ≠ .run p.val) ∧
      (L.running = true → L.ended = false → L.twin = true → (getPart s p.val).twinState = 1 → L.compared < s.time.clove →
        workDone s p.val (placeGroups s L.place) L.engs L.ctxs = true →
        ∃ u L2, exec (.runEnd p) s = .next u ∧ (getPart u p.val).launch = some L2 ∧ L2.ended = true ∧ L2.endedIn = s.time.clove) ∧
      (twinOpen s p.val = true → L.ended = false → 200000 ≤ s.time.cycle →
        ∃ u, exec (.twinLost p) s = .next u ∧ (getPart u p.val).twinLostF = true ∧ (getPart u p.val).twinState = 2 ∧
          (getPart u p.val).launch = some L) ∧
      (s.time.cycle < 200000 → exec (.twinLost p) s = .next s) ∧
      (∀ (m : TwinMsg) (via : Fin 25), let z := if via.val < 24 then freeRx s via.val 2 0 else s
        let i := Instr.twinSignatureRx p ⟨m, via⟩
        (twinOpen s p.val = true → L.ended = false → m.clove = BitVec.ofNat 32 (s.time.clove - 1) →
          (m.runId ≠ L.runId ∨ 200000 < s.time.cycle → ∃ u, exec i s = .next u ∧ (getPart u p.val).twinLostF = true ∧
            (getPart u p.val).twinState = 2) ∧
          (m.runId = L.runId → s.time.cycle ≤ 200000 →
            ((∀ c ∈ runClusters s L, sigOf m c = some (tabGet 0 L.lastSigs c)) →
              exec i s = .next (modPart z p.val (fun P => { P with launch := some { L with
                compared := s.time.clove - 1, distEver := L.distEver || m.disturb, twinRx := none } }))) ∧
            ((∃ c ∈ runClusters s L, sigOf m c ≠ some (tabGet 0 L.lastSigs c)) →
              (L.diverged = true → ∃ u, exec i s = .next u ∧
                (getPart u p.val).twinMismatch = satInc 32 (getPart s p.val).twinMismatch 1) ∧
              (L.diverged = false → L.distEver = false → m.disturb = false → ∃ u L2, exec i s = .next u ∧
                (getPart u p.val).twinDiv = true ∧ (getPart u p.val).twinTdiv = (getPart s p.val).twinTdiv ∧
                (getPart u p.val).twinState = 1 ∧ (getPart u p.val).twinDivClove = BitVec.ofNat 32 (s.time.clove - 1) ∧
                (getPart u p.val).launch = some L2 ∧ L2.freezeAt = if L.freeze then s.time.clove + 1 else L.freezeAt) ∧
              (L.diverged = false → (L.distEver || m.disturb) = true →
                ∃ u, exec i s = .next u ∧ (getPart u p.val).twinTdiv = true ∧ (getPart u p.val).twinState = 2 ∧
                  (getPart u p.val).twinDiv = (getPart s p.val).twinDiv)))) ∧
        (L.running = true → L.twin = true → (getPart s p.val).twinState = 1 → 0 < s.time.clove → m.clove = BitVec.ofNat 32 s.time.clove →
          exec i s = .next (modPart z p.val (fun P => { P with launch := some { L with twinRx := some m } })))) ∧
      (∀ (r : Word) (via : Fin 25), L.running = true → L.twin = true → L.freezeAt = 0 → (getPart s p.val).twinState ≠ 3 →
        let z := if via.val < 24 then freeRx s via.val 2 0 else s
        exec (.freezeNoticeRx p ⟨r, via⟩) s = .next (if r = L.runId then
          modPart z p.val (fun P => { P with launch := some { L with freezeAt := nextCommit s } }) else z))

/-! ### Ethernet -/

/-- R290, R291, R294, R304, R305, R308, R314, R316: frames that arrive, leave, miss their deadline or are paused, and subports that go down
and return. -/
def Obligations.EthernetPorts : Prop :=
  ∀ (s : State) (port : Fin 8) (sub : Fin 4), mainOn s = true → tabWf {} s.eth.ports = true →
    let P := getPort s port.val
    let m := BitVec.ofNat 4 (2 ^ sub.val)
    (∀ f : RxFrame, f.port = port → f.sub = sub → let h := parseEth f.bytes
      let z := pfcTx s port.val sub.val f.full
      (P.up.getLsbD sub.val = false → exec (.ethRxFrame f) s = .next s) ∧
      z.out = s.out ++ ((List.range 7).filter (fun i => f.full.getLsbD i && P.pfcPri.getLsbD i)).map (fun i => .pause port.val sub.val i) ∧
      (P.up.getLsbD sub.val = true → 9212 < f.bytes.length → exec (.ethRxFrame f) s = .next (rxErr z port.val)) ∧
      (P.up.getLsbD sub.val = true → f.bytes.length ≤ 9212 → ptpOf h = none → h.etype = 0x8809 → beAt h.pay 0 1 = 0x0A →
        port.val = s.time.syncePort.toNat → exec (.ethRxFrame f) s =
          .next (settleNet { z with time := { s.time with synceQl := BitVec.ofNat 4 (beAt h.pay 13 1 % 16) } })) ∧
      (P.up.getLsbD sub.val = true → f.bytes.length ≤ 9212 → ptpOf h = none → h.etype ≠ 0x8809 → h.etype ≠ 0x8808 → h.etype ≠ 0xAEFE →
        roceQp z port.val h = none → rawPart z port.val h = none → exec (.ethRxFrame f) s = .next (settleNet (rxNoMatch z port.val)))) ∧
    (curOf s port.val sub.val = none → exec (.frameTxDone port sub) s = .next s) ∧
    (∀ q f, curOf s port.val sub.val = some (q, f) → let done := tabGet 0 P.beganAt sub.val + frameCycles s port.val f
      (s.time.now < done → exec (.frameTxDone port sub) s = .next s) ∧
      (done ≤ s.time.now → ∃ t more, exec (.frameTxDone port sub) s = .next t ∧
        t.out = s.out ++ .frame port.val sub.val f.bytes :: more)) ∧
    (∀ q : Fin 4096, let Q := getQ s q.val
      (Q.radio = false → exec (.radioFrameDeadline q) s = .next s) ∧
      (Q.radio = true → ∃ t, exec (.radioFrameDeadline q) s = .next t ∧ t.time = s.time ∧
        (getQ t q.val).frames = Q.frames.filter (fun f => match f.dl with
          | some d => !dlDone s d
          | none => true)) ∧
      (Q.en = true → shaped Q = true → Q.port.toNat = port.val → Q.sub.toNat = sub.val →
        exec (.shaperCreditZero q) s = .next (startNext (settleCredit s q.val) port.val sub.val) ∧
        (P.up.getLsbD sub.val = false ∨ (curOf s port.val sub.val).isSome = true →
          exec (.shaperCreditZero q) s = .next (settleCredit s q.val))) ∧
      (Q.en = false ∨ shaped Q = false → exec (.shaperCreditZero q) s = .next s)) ∧
    (∀ pri : Fin 8, let k := 8 * sub.val + pri.val
      let ends := tabGet 0 P.paused k
      (ends = 0 ∨ s.time.now < ends → exec (.pauseExpiry port sub pri) s = .next s) ∧
      (ends ≠ 0 → ends ≤ s.time.now → tabWf 0 P.paused = true → ∃ t, exec (.pauseExpiry port sub pri) s = .next t ∧
        ∀ j, tabGet 0 (getPort t port.val).paused j = if j = k then 0 else tabGet 0 P.paused j)) ∧
    (P.up.getLsbD sub.val = true → ∃ t, exec (.subportDown port sub) s = .next t ∧ curOf t port.val sub.val = none ∧
      (getPort t port.val).up = (P.up &&& ~~~m) ∧ (getPort t port.val).held = (P.held ||| m) ∧
      (getPort t port.val).downCnt = satInc 16 P.downCnt 1 ∧ ∀ n, n ≠ port.val → getPort t n = getPort s n) ∧
    (P.up.getLsbD sub.val = false → P.en = true → portPowered s port.val = true → sub.val < subCount P.modeAct →
      ∃ t, exec (.subportUp port sub) s = .next t ∧ (getPort t port.val).up = (P.up ||| m) ∧
        (getPort t port.val).held = (P.held &&& ~~~m) ∧ (getPort t port.val).expired = (P.expired &&& ~~~m)) ∧
    (let last := tabGet 0 P.heldAt sub.val + 2000000 * Nat.min 100 P.holdMs.toNat;
      (P.held.getLsbD sub.val = false ∨ s.time.now ≤ last → exec (.holdExpiry port sub) s = .next s) ∧
      (P.held.getLsbD sub.val = true → last < s.time.now → ∃ t, exec (.holdExpiry port sub) s = .next t ∧
      (getPort t port.val).held = (P.held &&& ~~~m) ∧ (getPort t port.val).expired = (P.expired ||| m) ∧
      ∀ q, q ∈ subQueues s port.val sub.val → (getQ t q).frames = if (getQ s q).radio then (getQ s q).frames else []))

/-- R293, R295 to R297, R299 to R301: doorbells store their index, and one of another partition's queue pair or with an index too far
ahead is counted; once its time has passed, a retransmit timeout retries, or ends the oldest entry and puts the queue pair into error;
55 µs after the last notification or raise the rate rises again by 5 %. -/
def Obligations.QueuePairsAndDoorbells : Prop :=
  ∀ (s : State) (p : Fin 64) (v : Word), mainOn s = true → (getPart s p.val).live = true →
    let n := fld v 15 0
    let t := BitVec.ofNat 16 (fld v 31 16)
    let q := getQp s n
    let P := getPart s p.val
    let bad := modPart s p.val (fun P => { P with dbBad := satInc 16 P.dbBad 1 })
    (q.live = false ∨ q.part ≠ p.val → exec (.netSqDb p v) s = .next bad ∧ exec (.netRqDb p v) s = .next bad ∧
      exec (.netCqDb p v) s = .next bad) ∧
    (q.live = true → q.part = p.val →
      (sqSize q < (t - (q.sqHead - BitVec.ofNat 16 q.flight.length)).toNat → exec (.netSqDb p v) s = .next bad) ∧
      ((t - (q.sqHead - BitVec.ofNat 16 q.flight.length)).toNat ≤ sqSize q →
        ∃ u, exec (.netSqDb p v) s = .next u ∧ (getQp u n).sqTail = t) ∧
      (rqSize q < (t - q.rqHead).toNat → exec (.netRqDb p v) s = .next bad) ∧
      ((t - q.rqHead).toNat ≤ rqSize q → q.err = false →
        exec (.netRqDb p v) s = .next (modQp s n (fun q => { q with rqTail := t }))) ∧
      (cqSize q < (q.cqTail - t).toNat → exec (.netCqDb p v) s = .next bad) ∧
      ((q.cqTail - t).toNat ≤ cqSize q → ∃ u, exec (.netCqDb p v) s = .next u ∧ (getQp u n).cqHead = t)) ∧
    (let x := BitVec.ofNat 16 n;
      (P.rawEn = true → 2 ^ P.rawTxLog2 < (x - P.rawTxHead).toNat → exec (.netRawTxTail p v) s = .next bad) ∧
      (P.rawEn = true → (x - P.rawTxHead).toNat ≤ 2 ^ P.rawTxLog2 → ∃ u, exec (.netRawTxTail p v) s = .next u ∧
        (getPart u p.val).rawTxTail = x ∧ (getPart u p.val).rawTxHead = x) ∧
      (P.rawEn = false → exec (.netRawTxTail p v) s = .next (modPart s p.val (fun P => { P with rawTxTail := x }))) ∧
      (P.rawEn = true → 2 ^ P.rawRxLog2 < (x - P.rawRxHead).toNat → exec (.netRawRxTail p v) s = .next bad) ∧
      (P.rawEn = false ∨ (x - P.rawRxHead).toNat ≤ 2 ^ P.rawRxLog2 →
        exec (.netRawRxTail p v) s = .next (modPart s p.val (fun P => { P with rawRxTail := x })))) ∧
    (∀ qp : BitVec 16, let Q := getQp s qp.toNat
      let full := 100000 * subRate (getPort s (qpPort Q))
      let wait := 8192 * 2 ^ (if fld (wd Q.conn 16) 4 0 = 0 then 14 else fld (wd Q.conn 16) 4 0)
      (Q.live = false ∨ s.time.now < Q.rateAt + 110000 → exec (.rateIncrease qp) s = .next s) ∧
      (Q.live = true → Q.rateAt + 110000 ≤ s.time.now → exec (.rateIncrease qp) s = .next (modQp s qp.toNat (fun Q => { Q with
        rateAt := s.time.now, rate := Q.rate.bind (fun r => if full ≤ r + full / 20 then none else some (r + full / 20)) }))) ∧
      (Q.live = false ∨ Q.err = true ∨ Q.flight = [] ∨ s.time.now < Q.timerAt + wait → exec (.ackTimeout qp) s = .next s) ∧
      (Q.live = true → Q.err = false → Q.flight ≠ [] → Q.timerAt + wait ≤ s.time.now →
        (Q.rnrWait = true → ∃ u, exec (.ackTimeout qp) s = .next u ∧ (getQp u qp.toNat).rnrWait = false ∧
          (getQp u qp.toNat).retries = Q.retries ∧ (getQp u qp.toNat).flight = Q.flight) ∧
        (Q.rnrWait = false → Q.retries < qpRetry Q → ∃ u, exec (.ackTimeout qp) s = .next u ∧
          (getQp u qp.toNat).retries = Q.retries + 1 ∧ (getQp u qp.toNat).timerAt = s.time.now ∧ (getQp u qp.toNat).flight = Q.flight) ∧
        (Q.rnrWait = false → qpRetry Q ≤ Q.retries → ∃ u, exec (.ackTimeout qp) s = .next u ∧ (getQp u qp.toNat).err = true)))

/-! ### Radio -/

/-- R170, R174 to R176, R180, R182, R183, R187, R188, R190, R194, R290: the AGC factor is the integer nearest to 2^14 times 10^(G/80)
and each part of a sample is multiplied by it, cut and saturated; a part of a symbol passes the front end and the AGC loop makes its
update, unless it is frozen, the part is empty or GAIN was written in the same cycle; the detections of the search; the closing of a
symbol's window, which poisons what has not arrived; the sends of the downlink windows, and a section that misses its window. -/
def Obligations.RadioFrontEnd : Prop :=
  (∀ G, G ≤ 255 → (2 * agcFactor G - 1) ^ 80 ≤ 2 ^ 1200 * 10 ^ G ∧ 2 ^ 1200 * 10 ^ G < (2 * agcFactor G + 1) ^ 80) ∧
  (∀ g v, toSigned 16 (agcPart g v) = clampInt (-32768) 32767 (toSigned 16 v * (g : Int) / 16384)) ∧
  ∀ s : State, mainOn s = true →
    (∀ (n : Fin 2048) (slot : Nat) (y : Fin 14) (part : Fin 8), let S := getStream s n.val
      let C := getCell s S.cell
      let i := Instr.agcUpdate n ⟨slot, y, part⟩
      let xs := gainedPart s S.cell n.val slot y.val part.val
      let u := passPart s S.cell n.val slot y.val part.val
      let m : Int := Nat.max 1 S.maxStep
      let p : Int := Config.powerDb (squareSum xs) xs.length
      (S.en = false ∨ cellWorks C slot = false → exec i s = .next s) ∧
      (∀ v ∈ u.radio.sects, sectOf S.cell n.val slot y.val v = true → v.passed.getLsbD part.val = true) ∧
      (S.en = true → cellWorks C slot = true →
        (S.agcEn = false ∨ S.frozenBy ≠ [] ∨ xs = [] ∨ S.gainAt = s.time.now + 1 → exec i s = .next u) ∧
        (S.agcEn = true → S.frozenBy = [] → xs ≠ [] → S.gainAt ≠ s.time.now + 1 → exec i s =
          .next (modStream u n.val (fun S => { S with
            gain := (clampInt 0 255 ((S.gain : Int) + clampInt (-m) m (-(S.target : Int) - p))).toNat
            agcAt := s.time.now + 1, agcOld := S.gain }))))) ∧
    (∀ (l : Fin 64) (m : Detection), let L := getLane s l.val
      (L.busy = false ∨ L.lastClove < s.time.clove ∨ m.metric ≤ L.thresh → exec (.searchDetection l m) s = .next s) ∧
      (L.busy = true → s.time.clove ≤ L.lastClove → L.thresh < m.metric →
        ∃ t x, exec (.searchDetection l m) s = .next t ∧ getLane t l.val = { L with
            power := x, toff := m.toff, cfo := m.cfo, preamble := m.preamble, ovf := L.ovf || L.valid, valid := true,
            clove := BitVec.ofNat 32 s.time.clove } ∧
          ∀ i, i ≤ L.nstr → let S := getStream s (L.stream + i)
            S.freezeEn = true → l.val ∈ (getStream t (L.stream + i)).frozenBy ∧ (getStream t (L.stream + i)).gain =
              if S.agcAt = s.time.now + 1 ∧ S.gainAt ≠ s.time.now + 1 then S.agcOld else S.gain)) ∧
    (∀ (c : Fin 512) (n : Fin 2048) (slot : Nat) (y : Fin 14) (f : Flow), let C := getCell s c.val
      let x : Closed := { cell := c.val, stream := n.val, slot := slot, sym := y.val }
      let w := C.ctx
      cellWorks C slot = true → C.flows.find? (fun f => !f.down && !f.prach && decide (C.streamFirst + f.idx = n.val)) = some f →
      x ∉ s.radio.closed →
      (nowNs s < airTime w slot y.val + epTa4Max (getEp s f.ep) → exec (.rxWindowClose c n slot y) s = .next s) ∧
      (airTime w slot y.val + epTa4Max (getEp s f.ep) ≤ nowNs s →
        ∃ t, exec (.rxWindowClose c n slot y) s = .next t ∧ t.radio.closed = s.radio.closed ++ [x] ∧
          ∀ i ∈ erasedSubs s c.val slot y.val (f.idx / 16),
            let g := Config.symBuffer w 0 slot y.val + i * antGrans (cNstream w) + f.idx / 16
            granMine s C.part (cCluster w) g = true → granPsn (getClu t (cCluster w)).sram g = true)) ∧
    (∀ (c : Fin 512) (slot : Nat) (j : Nat) (f : Flow), let C := getCell s c.val
      let w := C.ctx
      let e := getEp s f.ep
      let q := match f.lastSeq with
        | none => 0
        | some q => (q + 1) % 256
      let sent (t : State) : Prop := (getCell t c.val).flows[j]? = some { f with lastSeq := some q }
      cellWorks C slot = true → slot % slotCloves w = 0 → C.flows[j]? = some f → f.down = true →
      (∀ m : CpMsg, m.flow = j →
        (m.ready = false ∨ m.poisoned = true ∨ cpSupported w m = false → exec (.dlCplaneSend c slot [m]) s = .next s) ∧
        (m.ready = true → m.poisoned = false → cpSupported w m = true → m.body.length ≤ 9000 →
          (inTxWindow s true e (airTime w slot 0) = false → exec (.dlCplaneSend c slot [m]) s = .next s) ∧
          (nowNs s + epT1aMinCp e ≤ airTime w slot 0 → airTime w slot 0 ≤ nowNs s + epT1aMaxCp e →
            ∃ t, exec (.dlCplaneSend c slot [m]) s = .next t ∧ sent t))) ∧
      (∀ (y : Fin 14) (m : DlSection), m.flow = j →
        (m.act = .map → exec (.dlUplaneSend c slot y [m]) s = .next (if cCompDl w = 5 then s else mapSect s C slot y.val f m)) ∧
        (m.act = .send → (m.ready = false ∨ sectPayload s C slot y.val f m = none) → exec (.dlUplaneSend c slot y [m]) s = .next s) ∧
        (∀ pay, m.act = .send → m.ready = true → sectPayload s C slot y.val f m = some pay → pay.length ≤ 9000 →
          (inTxWindow s false e (airTime w slot y.val) = false → exec (.dlUplaneSend c slot y [m]) s = .next s) ∧
          (nowNs s + epT1aMinUp e ≤ airTime w slot y.val → airTime w slot y.val ≤ nowNs s + epT1aMaxUp e →
            ∃ t, exec (.dlUplaneSend c slot y [m]) s = .next t ∧ sent t))) ∧
      (∀ (y : Fin 14) (cplane : Bool) (sect : Nat), let i := Instr.txLate c slot y ⟨cplane, j, sect⟩
        let k : TxKey := { cell := c.val, slot := slot, sym := if cplane then 0 else y.val, cplane := cplane, flow := j, sect := sect }
        let late := airTime w slot k.sym < nowNs s + (if cplane then epT1aMinCp e else epT1aMinUp e)
        (k ∈ s.radio.txDone ∨ ¬late → exec i s = .next s) ∧
        (k ∉ s.radio.txDone → late → ∃ t, exec i s = .next t ∧ k ∈ t.radio.txDone ∧
          (getEp t f.ep).txLate = satInc 32 e.txLate 1)))

/-- R195 to R197, R208, R417: a coding job that breaks its table completes with BAD_PARAM; one that passes takes the free instance with the
lowest number, or waits where none is free, or completes with DEADLINE where its deadline has come; an instance that fails is bypassed. -/
def Obligations.CodingJobs : Prop :=
  ∀ s : State, mainOn s = true → s.radio.waiting = [] → tabWf {} s.radio.inst = true →
    (∀ (i : Instr) (pool : Nat) (k : JobKind) (ok : Bool) (part gen f y : Nat),
      ((∃ w, i = .ldpcJob w) ∨ (∃ w, i = .polarJob w) ∨ ∃ w, i = .trlJob w) → codingRow i = some (pool, k, ok, part, gen, f, y) →
      (ok = false → exec i s = .next { s with out := s.out ++ [.job pool 255 stBadParam []] }) ∧
      (ok = true → part < 64 → (getPart s part).live = true → (getPart s part).typ = 0 → (getPart s part).gen.toNat = gen →
        jobMapped s part k = true →
        let j : Job := { kind := k, part := part, dlClove := jobClove s f, dlCycle := y, harqDone := false, psn := false }
        (dlDone s (j.dlClove, y) = true → ∃ t, exec i s = .next t ∧ t.out = s.out ++ [.job pool 255 stDeadline []] ∧
          t.radio = s.radio) ∧
        (dlDone s (j.dlClove, y) = false → (freeInst s pool = none ∨ s.time.cloveRun = false) →
          exec i s = .next { s with radio := { s.radio with waiting := [(pool, j)] } }) ∧
        (∀ n, dlDone s (j.dlClove, y) = false → freeInst s pool = some n → s.time.cloveRun = true →
          ∃ t b, exec i s = .next t ∧ t.radio.waiting = [] ∧ (harqSpan k = none → b = false) ∧
            (getInst t (instKey pool n)).job = some { j with harqDone := (harqSpan k).isSome, psn := b }))) ∧
    (∀ pool : Fin 4, exec (.jobDeadline pool) s = .next s) ∧
    (∀ (pool : Fin 4) (w : List (Nat × Job)), ∃ t, exec (.jobDeadline pool) { s with radio := { s.radio with waiting := w } } = .next t ∧
      t.radio.waiting = w.filter (fun x => !(decide (x.1 = pool.val) && dlDone s (x.2.dlClove, x.2.dlCycle)))) ∧
    (∀ (pool : Fin 4) (n : Fin 16) (j : Job), (getInst s (instKey pool.val n.val)).job = some j → ∃ t st info,
      exec (.codingJobEnd pool n) s = .next t ∧ (getInst t (instKey pool.val n.val)).job = none ∧
      t.out = s.out ++ [.job pool.val n.val st info] ∧
      (st = stOk → ¬(j.dlClove < s.time.clove ∨ j.dlClove = s.time.clove ∧ j.dlCycle < s.time.cycle))) ∧
    (∀ (pool : Fin 4) (n : Fin 16), n.val < poolSize pool.val → (getInst s (instKey pool.val n.val)).bypass = false →
      ∃ t, exec (.engineFault pool n) s = .next t ∧ (getInst t (instKey pool.val n.val)).bypass = true ∧
        (getInst t (instKey pool.val n.val)).faulty = true ∧ (getInst t (instKey pool.val n.val)).job = none)

/-! ### Service, the UART and register writes -/

/-- R358, R386, R407 to R410, R413 to R415, R424 to R426: cluster tests begin at the boundary they were committed for once no task holds
a group, and the control core's own test asks for one; they end with the cluster back in service and its memory clear, or leave it out of
service; the scrubber poisons a granule in place; the UART receives and is read; a write of a register that has a row of its own acts as
that row. -/
def Obligations.ServiceAndRegisters : Prop :=
  ∀ s : State, mainOn s = true →
    (∀ c : Fin 20, let cl := getClu s c.val
      (cl.svc = 1 → cl.svcFrom ≤ s.time.clove → cluTasks s c.val = false → exec (.clusterTestStart c) s =
        .next (modClu s c.val (fun cl => { cl with svc := 2, testClove := s.time.clove }))) ∧
      (cl.svc = 1 → s.time.clove < cl.svcFrom ∨ cluTasks s c.val = true → exec (.clusterTestStart c) s = .next s) ∧
      (cl.svc = 0 → cl.selfTest = true → testBlocked s c.val = false →
        ∃ t, exec (.clusterTestStart c) s = .next t ∧ (getClu t c.val).svc ≠ 0 ∧ (getClu t c.val).svcFrom = nextCommit s) ∧
      (cl.svc = 2 → tabWf {} s.clusters = true → ∀ f : ClusterTest, f.arrays = 0 → ∃ t, exec (.clusterTestEnd c f) s = .next t ∧
        (getClu t c.val).svc = (if f.cspFailed || f.engineFailed then 3 else 0) ∧ (getClu t c.val).sram = {} ∧
        (getClu t c.val).failed = 0 ∧ (getClu t c.val).unitsRetired = (cl.unitsRetired ||| f.units) ∧
        (∀ o ∈ t.outst, o.why ≠ .clusterTest c.val) ∧ ∀ d, d ≠ c.val → getClu t d = getClu s d) ∧
      (cl.svc = 2 → cl.testClove + 400 ≤ s.time.clove → ∃ t, exec (.clusterTestTimeout c) s = .next t ∧
        getClu t c.val = { cl with svc := 3, selfTest := false }) ∧
      (cl.svc = 2 → s.time.clove < cl.testClove + 400 → exec (.clusterTestTimeout c) s = .next s)) ∧
    (∀ g, g < 6442450944 → exec (.scrubRead g .clean) s = .next s ∧
      (∃ t, exec (.scrubRead g .corrected) s = .next t ∧ t.hbm.m = s.hbm.m ∧
        t.health.hbmCe = satInc 32 s.health.hbmCe 1) ∧
      ∃ t, exec (.scrubRead g .uncorrectable) s = .next t ∧ granPsn t.hbm.m g = true ∧ t.hbm.m.mem = s.hbm.m.mem ∧
        (∀ h, h ≠ g → granPsn t.hbm.m h = granPsn s.hbm.m h) ∧ t.sec.errorLog = s.sec.errorLog ++ [64 * g]) ∧
    (∀ f : UartFrame, s.uart.en = true → f.startHigh = false →
      (f.stopHigh = false → exec (.uartFrameRx f) s =
        .next { s with uart := { s.uart with framing := satInc 16 s.uart.framing 1 } }) ∧
      (f.stopHigh = true → exec (.uartFrameRx f) s = .next { s with uart := { s.uart with
        data := f.data, valid := true, overrun := if s.uart.valid then satInc 16 s.uart.overrun 1 else s.uart.overrun } })) ∧
    exec .uartRxRead s = .next { s with uart := { s.uart with valid := false } } ∧
    (∀ (port : Fin 4) (req : List Byte), s.boot.st = .ready → hostLinkUp s port.val = true →
      exec (.spdmDoeRequest port req) s = .next (let x := spdmRespond s (tabGet 0 s.spdm port.val) req;
        { s with spdm := tabSet 0 s.spdm port.val x.2, out := s.out ++ [.doe port.val x.1] })) ∧
    exec (.registerWrite (.pf 0) 0x100004 1) s = exec .push s ∧ exec (.registerWrite (.pf 0) 0x100004 2) s = exec .start s ∧
    exec (.registerWrite (.pf 0) 0x100004 0xD1E50004) s = exec (.reset 0xD1E5) s ∧
    (∀ v : Word, s.boot.st = .ready → exec (.registerWrite (.pf 0) 0x200000 v) s = .next { s with pwr := { s.pwr with
      pkgIlim := BitVec.ofNat 16 (fld v 15 0), tjTarget := BitVec.ofNat 8 (fld v 23 16), dvfsEn := bit v 24 } }) ∧
    (∀ (off : BitVec 26) (v : Word), s.boot.st ≠ .ready → 0x200000 ≤ off.toNat → exec (.registerWrite (.pf 0) off v) s = .next s) ∧
    (∀ (f : Fn) (off : BitVec 26) (v : Word), off.toNat % 4 ≠ 0 → exec (.registerWrite f off v) s = .next s) ∧
    (∀ (port : Fin 4) (off : BitVec 26) (v : Word), port ≠ 0 → exec (.registerWrite (.pf port) off v) s = .next s) ∧
    (∀ (port : Fin 4) (p : Fin 64) (v : Word), s.boot.st = .ready → (getPart s p.val).live = true → (getPart s p.val).host = port →
      exec (.registerWrite (.vf port p) 0x260 v) s = exec (.stepMark p v) s ∧
      exec (.registerWrite (.vf port p) 0x1018 v) s = exec (.cmdDoorbell (.part p 0) (BitVec.ofNat 16 (fld v 15 0))) s ∧
      exec (.registerWrite (.vf port p) 0x3000 v) s = exec (.netSqDb p v) s)

/-- R388: a timer armed at boundary b fires in cycle CYCLE of clove b + PERIOD - 1 with its index and TAG and, with REPEAT, arms again
at boundary b + PERIOD; a detector counts the samples that differ from its level, takes the new level at DEBOUNCE of them and posts its
event where EDGE matches; an event for a partition that does not exist is dropped. -/
def Obligations.CloveProgramEvents : Prop :=
  (∀ (s : State) (i : Fin 512) (t : Timer) (b : Nat), mainOn s = true → s.time.cloveRun = true → tabGet {} s.cprog.timers i.val = t →
    t.armed = b + 1 → t.fired = false → 1 ≤ tmPeriod t.entry →
    (s.time.clove = b + tmPeriod t.entry - 1 → s.time.cycle = tmCycle t.entry → exec (.cloveTimer i) s =
      .next (evTarget { s with cprog := { s.cprog with timers := tabSet {} s.cprog.timers i.val { t with fired := true } } }
        (fld (wd t.entry 2) 7 0) 0x0005 [(2, i.val), (2, fld (wd t.entry 2) 31 16)])) ∧
    (s.time.clove ≠ b + tmPeriod t.entry - 1 ∨ s.time.cycle ≠ tmCycle t.entry → exec (.cloveTimer i) s = .next s)) ∧
  (∀ (s : State) (b i : Nat), i < 512 → tabWf {} s.cprog.timers = true →
    let t := tabGet {} s.cprog.timers i
    t.armed ≠ 0 → t.swapped = false → t.entry = cpTimer s.cprog.act i → tmEn t.entry = true → 1 ≤ tmPeriod t.entry →
    tabGet {} (timersStep s false b).cprog.timers i =
      if b + 1 < t.armed + tmPeriod t.entry then t
      else if tmRepeat t.entry then { armed := b + 1, entry := t.entry } else {}) ∧
  (∀ (s : State) (i : Nat), i < 128 → tabWf {} s.cprog.dets = true →
    let d := tabGet {} s.cprog.dets i
    let x := bit (readWindow s (edSrc d.entry)) (edBit d.entry)
    let turns := d.k + 1 ≥ Nat.max 1 (fld (wd d.entry 1) 15 8)
    d.entry = cpEdge s.cprog.act i → edEdge d.entry ≠ 0 → d.known = true →
    ∃ s1 : State, s1 = { s with cprog := { s.cprog with dets := s1.cprog.dets } } ∧
      (∀ j, j ≠ i → tabGet {} s1.cprog.dets j = tabGet {} s.cprog.dets j) ∧
      tabGet {} s1.cprog.dets i = (if x = d.lvl then { d with k := 0 } else if turns then { d with lvl := x, k := 0 } else { d with k := d.k + 1 }) ∧
      edgeStep s i = (if x ≠ d.lvl ∧ turns ∧ (if x then edEdge d.entry % 2 = 1 else 2 ≤ edEdge d.entry) then
        evTarget s1 (fld (wd d.entry 2) 7 0) 0x0006 [(2, i), (2, fld (wd d.entry 1) 31 16), (1, b2n x)] else s1)) ∧
  (∀ (s : State) (p code : Nat) (items : List (Nat × Nat)), p ≠ 255 → (getPart s p).live = false → evTarget s p code items = s)
end

