-- ==== Sys2Proof/Laws/Tab.lean ====
section
/-! SUPPORT. Laws of the sparse tables and of byte memory: reading back a write, writing twice, and the canonical form. -/

namespace Sys2Proof.Machine

open Sys2Proof

variable {α : Type} [DecidableEq α] (d : α)

/-- A key that is not written reads as before, in every table. -/
theorem tabGet_tabSet_other (t : Tab α) {i j : Nat} (v : α) (h : i ≠ j) : tabGet d (tabSet d t i v) j = tabGet d t j := by
  induction t with
  | nil => by_cases hv : v = d <;> simp [tabSet, tabGet, hv, h]
  | cons e t ih =>
    obtain ⟨k, w⟩ := e
    simp only [tabSet]
    split
    · split <;> simp [tabGet, h]
    · split
      · subst_vars
        split <;> simp [tabGet, h]
      · simp [tabGet, ih]

/-- A value other than the default reads back, in every table. -/
theorem tabGet_tabSet_self (t : Tab α) (i : Nat) {v : α} (h : v ≠ d) : tabGet d (tabSet d t i v) i = v := by
  induction t with
  | nil => simp [tabSet, tabGet, h]
  | cons e t ih =>
    obtain ⟨k, w⟩ := e
    simp only [tabSet, h, if_false]
    split
    · simp [tabGet]
    · split
      · simp [tabGet]
      · simp [tabGet, *]

/-- Below its lowest key a canonical table reads the default. -/
theorem tabGet_below {t : Tab α} {lo i : Nat} (h : tabWfFrom d lo t = true) (hi : i < lo) : tabGet d t i = d := by
  induction t generalizing lo with
  | nil => rfl
  | cons e t ih =>
    obtain ⟨k, w⟩ := e
    simp only [tabWfFrom, Bool.and_eq_true, decide_eq_true_eq] at h
    have hk : k ≠ i := by omega
    simp only [tabGet, hk, if_false]
    exact ih h.2 (by omega)

/-- In a canonical table every value reads back. -/
theorem tabGet_tabSet_wf {t : Tab α} {lo : Nat} (h : tabWfFrom d lo t = true) (i : Nat) (v : α) :
    tabGet d (tabSet d t i v) i = v := by
  by_cases hv : v = d
  · subst hv
    induction t generalizing lo with
    | nil => simp [tabSet, tabGet]
    | cons e t ih =>
      obtain ⟨k, w⟩ := e
      simp only [tabWfFrom, Bool.and_eq_true, decide_eq_true_eq] at h
      simp only [tabSet, if_true]
      split
      · exact tabGet_below v (lo := k) (by simp [tabWfFrom, h.1.2, h.2]) (by assumption)
      · split
        · exact tabGet_below v h.2 (by omega)
        · simp only [tabGet, *, if_false]
          exact ih h.2
  · exact tabGet_tabSet_self d t i hv

/-- The canonical form is looser for a lower bound. -/
theorem tabWfFrom_mono {t : Tab α} {lo lo' : Nat} (h : tabWfFrom d lo t = true) (hl : lo' ≤ lo) : tabWfFrom d lo' t = true := by
  cases t with
  | nil => rfl
  | cons e t =>
    obtain ⟨k, w⟩ := e
    simp only [tabWfFrom, Bool.and_eq_true, decide_eq_true_eq] at h ⊢
    exact ⟨⟨by omega, h.1.2⟩, h.2⟩

/-- A write keeps the canonical form from a bound at or below its key. -/
theorem tabWfFrom_tabSet {t : Tab α} {lo i : Nat} (v : α) (h : tabWfFrom d lo t = true) (hi : lo ≤ i) :
    tabWfFrom d lo (tabSet d t i v) = true := by
  induction t generalizing lo with
  | nil => by_cases hv : v = d <;> simp [tabSet, tabWfFrom, hv, hi]
  | cons e t ih =>
    obtain ⟨k, w⟩ := e
    have h0 := h
    simp only [tabWfFrom, Bool.and_eq_true, decide_eq_true_eq] at h
    simp only [tabSet]
    split
    · split
      · exact h0
      · simp only [tabWfFrom, Bool.and_eq_true, decide_eq_true_eq]
        refine ⟨⟨hi, by assumption⟩, ⟨by omega, h.1.2⟩, h.2⟩
    · split
      · split
        · exact tabWfFrom_mono d h.2 (by omega)
        · simp only [tabWfFrom, Bool.and_eq_true, decide_eq_true_eq]
          subst_vars
          exact ⟨⟨h.1.1, by assumption⟩, h.2⟩
      · simp only [tabWfFrom, Bool.and_eq_true, decide_eq_true_eq]
        exact ⟨h.1, ih h.2 (by omega)⟩

/-- A write keeps the canonical form. -/
theorem tabWf_tabSet {t : Tab α} (i : Nat) (v : α) (h : tabWf d t = true) : tabWf d (tabSet d t i v) = true :=
  tabWfFrom_tabSet d v h (Nat.zero_le i)

/-- A change of one key keeps the canonical form. -/
theorem tabWf_tabMod {t : Tab α} (i : Nat) (f : α → α) (h : tabWf d t = true) : tabWf d (tabMod d t i f) = true :=
  tabWf_tabSet d i _ h

/-- Dropping entries keeps the canonical form. -/
theorem tabWfFrom_filter {t : Tab α} {lo : Nat} (p : Nat × α → Bool) (h : tabWfFrom d lo t = true) :
    tabWfFrom d lo (t.filter p) = true := by
  induction t generalizing lo with
  | nil => rfl
  | cons e t ih =>
    obtain ⟨k, w⟩ := e
    simp only [tabWfFrom, Bool.and_eq_true, decide_eq_true_eq] at h
    simp only [List.filter_cons]
    split
    · simp only [tabWfFrom, Bool.and_eq_true, decide_eq_true_eq]
      exact ⟨h.1, ih h.2⟩
    · exact tabWfFrom_mono d (ih h.2) (by omega)

/-- Dropping keys keeps the canonical form. -/
theorem tabWf_tabKeep {t : Tab α} (p : Nat → Bool) (h : tabWf d t = true) : tabWf d (tabKeep p t) = true :=
  tabWfFrom_filter d _ h

/-- A key that is changed reads the changed value, where that is not the default. -/
theorem tabGet_tabMod_self (t : Tab α) (i : Nat) (f : α → α) (h : f (tabGet d t i) ≠ d) :
    tabGet d (tabMod d t i f) i = f (tabGet d t i) := tabGet_tabSet_self d t i h

/-- A key that is not changed reads as before. -/
theorem tabGet_tabMod_other (t : Tab α) {i j : Nat} (f : α → α) (h : i ≠ j) : tabGet d (tabMod d t i f) j = tabGet d t j :=
  tabGet_tabSet_other d t _ h

/-- A second write of a key replaces the first, where the first was not the default. -/
theorem tabSet_tabSet (t : Tab α) (i : Nat) {v : α} (w : α) (h : v ≠ d) : tabSet d (tabSet d t i v) i w = tabSet d t i w := by
  induction t with
  | nil => simp [tabSet, h]
  | cons e t ih =>
    obtain ⟨k, u⟩ := e
    by_cases h1 : i < k
    · simp [tabSet, h1, h]
    · by_cases h2 : k = i
      · subst h2
        simp [tabSet, h]
      · simp [tabSet, h1, h2, ih]

/-- Two changes of a key are one, where the first leaves something that is not the default. -/
theorem tabMod_tabMod (t : Tab α) (i : Nat) (f g : α → α) (h : f (tabGet d t i) ≠ d) :
    tabMod d (tabMod d t i f) i g = tabMod d t i (fun x => g (f x)) := by
  simp only [tabMod]
  rw [tabGet_tabSet_self d t i h, tabSet_tabSet d t i _ h]

/-! ### Byte memory -/

/-- Writing bytes keeps the canonical form. -/
theorem memWf_wrBytes {m : Mem} (a : Nat) (bs : List Byte) (h : memWf m = true) : memWf (wrBytes m a bs) = true := by
  induction bs generalizing m a with
  | nil => exact h
  | cons b bs ih => exact ih (a + 1) (tabWf_tabSet 0 a b h)

/-- Writing a byte keeps the canonical form. -/
theorem memWf_wrByte {m : Mem} (a : Nat) (b : Byte) (h : memWf m = true) : memWf (wrByte m a b) = true :=
  tabWf_tabSet 0 a b h

/-- Zeroing a range keeps the canonical form. -/
theorem memWf_zeroRange {m : Mem} (lo hi : Nat) (h : memWf m = true) : memWf (zeroRange m lo hi) = true :=
  tabWf_tabKeep 0 _ h

/-- A byte outside the written bytes reads as before. -/
theorem rdByte_wrBytes_other (m : Mem) {a x : Nat} (bs : List Byte) (h : x < a ∨ a + bs.length ≤ x) :
    rdByte (wrBytes m a bs) x = rdByte m x := by
  induction bs generalizing m a with
  | nil => rfl
  | cons b bs ih =>
    simp only [List.length_cons] at h
    have h1 : a ≠ x := by omega
    rw [wrBytes, ih (wrByte m a b) (by omega)]
    exact tabGet_tabSet_other 0 m b h1

/-- A written byte reads back. -/
theorem rdByte_wrBytes_in {m : Mem} {a i : Nat} (bs : List Byte) (hm : memWf m = true) (h : i < bs.length) :
    rdByte (wrBytes m a bs) (a + i) = bs.getD i 0 := by
  induction bs generalizing m a i with
  | nil => simp at h
  | cons b bs ih =>
    cases i with
    | zero =>
      rw [wrBytes, rdByte_wrBytes_other _ bs (by omega)]
      exact tabGet_tabSet_wf 0 hm a b
    | succ i =>
      have := ih (a := a + 1) (i := i) (memWf_wrByte a b hm) (by simpa using h)
      simpa [wrBytes, Nat.add_assoc, Nat.add_comm 1 i] using this

theorem pmemWf_putGran {m : PMem} (g : Nat) (v : GranuleBits) (p : Bool) (h : pmemWf m = true) :
    pmemWf (putGran m g v p) = true := by
  simp only [pmemWf, putGran, Bool.and_eq_true] at h ⊢
  exact ⟨memWf_wrBytes _ (leBytes 64 v.toNat) h.1, tabWf_tabSet _ _ _ h.2⟩

theorem pmemWf_setGranPsn {m : PMem} (g : Nat) (p : Bool) (h : pmemWf m = true) : pmemWf (setGranPsn m g p) = true := by
  simp only [pmemWf, Bool.and_eq_true] at h ⊢
  exact ⟨h.1, tabWf_tabSet _ _ _ h.2⟩

theorem pmemWf_clearPMem {m : PMem} (lo hi : Nat) (h : pmemWf m = true) : pmemWf (clearPMem m lo hi) = true := by
  simp only [pmemWf, clearPMem, Bool.and_eq_true] at h ⊢
  exact ⟨memWf_zeroRange _ _ h.1, tabWf_tabKeep (d := false) (fun g => decide (64 * g + 64 ≤ lo) || decide (hi ≤ 64 * g)) h.2⟩

theorem pmemWf_putBytes {m : PMem} (a : Nat) (bs : List Byte) (p : Bool) (h : pmemWf m = true) :
    pmemWf (putBytes m a bs p) = true := by
  simp only [pmemWf, putBytes, Bool.and_eq_true] at h ⊢
  refine ⟨memWf_wrBytes _ _ h.1, ?_⟩
  have key : ∀ (l : List Nat) (t : Tab Bool), tabWf false t = true →
      tabWf false (l.foldl (fun t g => if p then tabSet false t g true
        else if granWhole a bs.length g then tabSet false t g false else t) t) = true := by
    intro l
    induction l with
    | nil => intro t ht; exact ht
    | cons g l ih =>
      intro t ht
      apply ih
      dsimp only
      split
      · exact tabWf_tabSet _ _ _ ht
      · split
        · exact tabWf_tabSet _ _ _ ht
        · exact ht
  exact key _ _ h.2

end Sys2Proof.Machine
end

