-- ==== Sys2Proof/Laws/State.lean ====
section
/-! SUPPORT. What each update of State leaves: one lemma per field per update, and reading an entry after changing one. -/

namespace Sys2Proof.Machine

open Sys2Proof

variable (s : State)

/-! ### modRing -/

@[simp] theorem modRing_time (k : Nat) (f : Ring → Ring) : (modRing s k f).time = s.time := rfl
@[simp] theorem modRing_pwr (k : Nat) (f : Ring → Ring) : (modRing s k f).pwr = s.pwr := rfl
@[simp] theorem modRing_boot (k : Nat) (f : Ring → Ring) : (modRing s k f).boot = s.boot := rfl
@[simp] theorem modRing_sec (k : Nat) (f : Ring → Ring) : (modRing s k f).sec = s.sec := rfl
@[simp] theorem modRing_auth (k : Nat) (f : Ring → Ring) : (modRing s k f).auth = s.auth := rfl
@[simp] theorem modRing_uart (k : Nat) (f : Ring → Ring) : (modRing s k f).uart = s.uart := rfl
@[simp] theorem modRing_poolVer (k : Nat) (f : Ring → Ring) : (modRing s k f).poolVer = s.poolVer := rfl
@[simp] theorem modRing_outst (k : Nat) (f : Ring → Ring) : (modRing s k f).outst = s.outst := rfl
@[simp] theorem modRing_host (k : Nat) (f : Ring → Ring) : (modRing s k f).host = s.host := rfl
@[simp] theorem modRing_hostUp (k : Nat) (f : Ring → Ring) : (modRing s k f).hostUp = s.hostUp := rfl
@[simp] theorem modRing_parts (k : Nat) (f : Ring → Ring) : (modRing s k f).parts = s.parts := rfl
@[simp] theorem modRing_lastGen (k : Nat) (f : Ring → Ring) : (modRing s k f).lastGen = s.lastGen := rfl
@[simp] theorem modRing_lssHold (k : Nat) (f : Ring → Ring) : (modRing s k f).lssHold = s.lssHold := rfl
@[simp] theorem modRing_freed (k : Nat) (f : Ring → Ring) : (modRing s k f).freed = s.freed := rfl
@[simp] theorem modRing_claims (k : Nat) (f : Ring → Ring) : (modRing s k f).claims = s.claims := rfl
@[simp] theorem modRing_nextClaim (k : Nat) (f : Ring → Ring) : (modRing s k f).nextClaim = s.nextClaim := rfl
@[simp] theorem modRing_grants (k : Nat) (f : Ring → Ring) : (modRing s k f).grants = s.grants := rfl
@[simp] theorem modRing_clusters (k : Nat) (f : Ring → Ring) : (modRing s k f).clusters = s.clusters := rfl
@[simp] theorem modRing_hbm (k : Nat) (f : Ring → Ring) : (modRing s k f).hbm = s.hbm := rfl
@[simp] theorem modRing_radio (k : Nat) (f : Ring → Ring) : (modRing s k f).radio = s.radio := rfl
@[simp] theorem modRing_fab (k : Nat) (f : Ring → Ring) : (modRing s k f).fab = s.fab := rfl
@[simp] theorem modRing_eth (k : Nat) (f : Ring → Ring) : (modRing s k f).eth = s.eth := rfl
@[simp] theorem modRing_cprog (k : Nat) (f : Ring → Ring) : (modRing s k f).cprog = s.cprog := rfl
@[simp] theorem modRing_health (k : Nat) (f : Ring → Ring) : (modRing s k f).health = s.health := rfl
@[simp] theorem modRing_spdm (k : Nat) (f : Ring → Ring) : (modRing s k f).spdm = s.spdm := rfl
@[simp] theorem modRing_fresh (k : Nat) (f : Ring → Ring) : (modRing s k f).fresh = s.fresh := rfl
@[simp] theorem modRing_out (k : Nat) (f : Ring → Ring) : (modRing s k f).out = s.out := rfl
@[simp] theorem modRing_flagsAt (k : Nat) (f : Ring → Ring) : (modRing s k f).flagsAt = s.flagsAt := rfl
@[simp] theorem modRing_pending (k : Nat) (f : Ring → Ring) : (modRing s k f).pending = s.pending := rfl

/-! ### noteFlag -/

@[simp] theorem noteFlag_time (b : W1cBit) : (noteFlag s b).time = s.time := rfl
@[simp] theorem noteFlag_pwr (b : W1cBit) : (noteFlag s b).pwr = s.pwr := rfl
@[simp] theorem noteFlag_boot (b : W1cBit) : (noteFlag s b).boot = s.boot := rfl
@[simp] theorem noteFlag_sec (b : W1cBit) : (noteFlag s b).sec = s.sec := rfl
@[simp] theorem noteFlag_auth (b : W1cBit) : (noteFlag s b).auth = s.auth := rfl
@[simp] theorem noteFlag_uart (b : W1cBit) : (noteFlag s b).uart = s.uart := rfl
@[simp] theorem noteFlag_rings (b : W1cBit) : (noteFlag s b).rings = s.rings := rfl
@[simp] theorem noteFlag_poolVer (b : W1cBit) : (noteFlag s b).poolVer = s.poolVer := rfl
@[simp] theorem noteFlag_outst (b : W1cBit) : (noteFlag s b).outst = s.outst := rfl
@[simp] theorem noteFlag_host (b : W1cBit) : (noteFlag s b).host = s.host := rfl
@[simp] theorem noteFlag_hostUp (b : W1cBit) : (noteFlag s b).hostUp = s.hostUp := rfl
@[simp] theorem noteFlag_parts (b : W1cBit) : (noteFlag s b).parts = s.parts := rfl
@[simp] theorem noteFlag_lastGen (b : W1cBit) : (noteFlag s b).lastGen = s.lastGen := rfl
@[simp] theorem noteFlag_lssHold (b : W1cBit) : (noteFlag s b).lssHold = s.lssHold := rfl
@[simp] theorem noteFlag_freed (b : W1cBit) : (noteFlag s b).freed = s.freed := rfl
@[simp] theorem noteFlag_claims (b : W1cBit) : (noteFlag s b).claims = s.claims := rfl
@[simp] theorem noteFlag_nextClaim (b : W1cBit) : (noteFlag s b).nextClaim = s.nextClaim := rfl
@[simp] theorem noteFlag_grants (b : W1cBit) : (noteFlag s b).grants = s.grants := rfl
@[simp] theorem noteFlag_clusters (b : W1cBit) : (noteFlag s b).clusters = s.clusters := rfl
@[simp] theorem noteFlag_hbm (b : W1cBit) : (noteFlag s b).hbm = s.hbm := rfl
@[simp] theorem noteFlag_radio (b : W1cBit) : (noteFlag s b).radio = s.radio := rfl
@[simp] theorem noteFlag_fab (b : W1cBit) : (noteFlag s b).fab = s.fab := rfl
@[simp] theorem noteFlag_eth (b : W1cBit) : (noteFlag s b).eth = s.eth := rfl
@[simp] theorem noteFlag_cprog (b : W1cBit) : (noteFlag s b).cprog = s.cprog := rfl
@[simp] theorem noteFlag_health (b : W1cBit) : (noteFlag s b).health = s.health := rfl
@[simp] theorem noteFlag_spdm (b : W1cBit) : (noteFlag s b).spdm = s.spdm := rfl
@[simp] theorem noteFlag_fresh (b : W1cBit) : (noteFlag s b).fresh = s.fresh := rfl
@[simp] theorem noteFlag_out (b : W1cBit) : (noteFlag s b).out = s.out := rfl
@[simp] theorem noteFlag_pending (b : W1cBit) : (noteFlag s b).pending = s.pending := rfl

/-! ### modPart -/

@[simp] theorem modPart_time (p : Nat) (f : Part → Part) : (modPart s p f).time = s.time := rfl
@[simp] theorem modPart_pwr (p : Nat) (f : Part → Part) : (modPart s p f).pwr = s.pwr := rfl
@[simp] theorem modPart_boot (p : Nat) (f : Part → Part) : (modPart s p f).boot = s.boot := rfl
@[simp] theorem modPart_sec (p : Nat) (f : Part → Part) : (modPart s p f).sec = s.sec := rfl
@[simp] theorem modPart_auth (p : Nat) (f : Part → Part) : (modPart s p f).auth = s.auth := rfl
@[simp] theorem modPart_uart (p : Nat) (f : Part → Part) : (modPart s p f).uart = s.uart := rfl
@[simp] theorem modPart_rings (p : Nat) (f : Part → Part) : (modPart s p f).rings = s.rings := rfl
@[simp] theorem modPart_poolVer (p : Nat) (f : Part → Part) : (modPart s p f).poolVer = s.poolVer := rfl
@[simp] theorem modPart_outst (p : Nat) (f : Part → Part) : (modPart s p f).outst = s.outst := rfl
@[simp] theorem modPart_host (p : Nat) (f : Part → Part) : (modPart s p f).host = s.host := rfl
@[simp] theorem modPart_hostUp (p : Nat) (f : Part → Part) : (modPart s p f).hostUp = s.hostUp := rfl
@[simp] theorem modPart_lastGen (p : Nat) (f : Part → Part) : (modPart s p f).lastGen = s.lastGen := rfl
@[simp] theorem modPart_lssHold (p : Nat) (f : Part → Part) : (modPart s p f).lssHold = s.lssHold := rfl
@[simp] theorem modPart_freed (p : Nat) (f : Part → Part) : (modPart s p f).freed = s.freed := rfl
@[simp] theorem modPart_claims (p : Nat) (f : Part → Part) : (modPart s p f).claims = s.claims := rfl
@[simp] theorem modPart_nextClaim (p : Nat) (f : Part → Part) : (modPart s p f).nextClaim = s.nextClaim := rfl
@[simp] theorem modPart_grants (p : Nat) (f : Part → Part) : (modPart s p f).grants = s.grants := rfl
@[simp] theorem modPart_clusters (p : Nat) (f : Part → Part) : (modPart s p f).clusters = s.clusters := rfl
@[simp] theorem modPart_hbm (p : Nat) (f : Part → Part) : (modPart s p f).hbm = s.hbm := rfl
@[simp] theorem modPart_radio (p : Nat) (f : Part → Part) : (modPart s p f).radio = s.radio := rfl
@[simp] theorem modPart_fab (p : Nat) (f : Part → Part) : (modPart s p f).fab = s.fab := rfl
@[simp] theorem modPart_eth (p : Nat) (f : Part → Part) : (modPart s p f).eth = s.eth := rfl
@[simp] theorem modPart_cprog (p : Nat) (f : Part → Part) : (modPart s p f).cprog = s.cprog := rfl
@[simp] theorem modPart_health (p : Nat) (f : Part → Part) : (modPart s p f).health = s.health := rfl
@[simp] theorem modPart_spdm (p : Nat) (f : Part → Part) : (modPart s p f).spdm = s.spdm := rfl
@[simp] theorem modPart_fresh (p : Nat) (f : Part → Part) : (modPart s p f).fresh = s.fresh := rfl
@[simp] theorem modPart_out (p : Nat) (f : Part → Part) : (modPart s p f).out = s.out := rfl
@[simp] theorem modPart_flagsAt (p : Nat) (f : Part → Part) : (modPart s p f).flagsAt = s.flagsAt := rfl
@[simp] theorem modPart_pending (p : Nat) (f : Part → Part) : (modPart s p f).pending = s.pending := rfl

/-! ### modClu -/

@[simp] theorem modClu_time (c : Nat) (f : Cluster → Cluster) : (modClu s c f).time = s.time := rfl
@[simp] theorem modClu_pwr (c : Nat) (f : Cluster → Cluster) : (modClu s c f).pwr = s.pwr := rfl
@[simp] theorem modClu_boot (c : Nat) (f : Cluster → Cluster) : (modClu s c f).boot = s.boot := rfl
@[simp] theorem modClu_sec (c : Nat) (f : Cluster → Cluster) : (modClu s c f).sec = s.sec := rfl
@[simp] theorem modClu_auth (c : Nat) (f : Cluster → Cluster) : (modClu s c f).auth = s.auth := rfl
@[simp] theorem modClu_uart (c : Nat) (f : Cluster → Cluster) : (modClu s c f).uart = s.uart := rfl
@[simp] theorem modClu_rings (c : Nat) (f : Cluster → Cluster) : (modClu s c f).rings = s.rings := rfl
@[simp] theorem modClu_poolVer (c : Nat) (f : Cluster → Cluster) : (modClu s c f).poolVer = s.poolVer := rfl
@[simp] theorem modClu_outst (c : Nat) (f : Cluster → Cluster) : (modClu s c f).outst = s.outst := rfl
@[simp] theorem modClu_host (c : Nat) (f : Cluster → Cluster) : (modClu s c f).host = s.host := rfl
@[simp] theorem modClu_hostUp (c : Nat) (f : Cluster → Cluster) : (modClu s c f).hostUp = s.hostUp := rfl
@[simp] theorem modClu_parts (c : Nat) (f : Cluster → Cluster) : (modClu s c f).parts = s.parts := rfl
@[simp] theorem modClu_lastGen (c : Nat) (f : Cluster → Cluster) : (modClu s c f).lastGen = s.lastGen := rfl
@[simp] theorem modClu_lssHold (c : Nat) (f : Cluster → Cluster) : (modClu s c f).lssHold = s.lssHold := rfl
@[simp] theorem modClu_freed (c : Nat) (f : Cluster → Cluster) : (modClu s c f).freed = s.freed := rfl
@[simp] theorem modClu_claims (c : Nat) (f : Cluster → Cluster) : (modClu s c f).claims = s.claims := rfl
@[simp] theorem modClu_nextClaim (c : Nat) (f : Cluster → Cluster) : (modClu s c f).nextClaim = s.nextClaim := rfl
@[simp] theorem modClu_grants (c : Nat) (f : Cluster → Cluster) : (modClu s c f).grants = s.grants := rfl
@[simp] theorem modClu_hbm (c : Nat) (f : Cluster → Cluster) : (modClu s c f).hbm = s.hbm := rfl
@[simp] theorem modClu_radio (c : Nat) (f : Cluster → Cluster) : (modClu s c f).radio = s.radio := rfl
@[simp] theorem modClu_fab (c : Nat) (f : Cluster → Cluster) : (modClu s c f).fab = s.fab := rfl
@[simp] theorem modClu_eth (c : Nat) (f : Cluster → Cluster) : (modClu s c f).eth = s.eth := rfl
@[simp] theorem modClu_cprog (c : Nat) (f : Cluster → Cluster) : (modClu s c f).cprog = s.cprog := rfl
@[simp] theorem modClu_health (c : Nat) (f : Cluster → Cluster) : (modClu s c f).health = s.health := rfl
@[simp] theorem modClu_spdm (c : Nat) (f : Cluster → Cluster) : (modClu s c f).spdm = s.spdm := rfl
@[simp] theorem modClu_fresh (c : Nat) (f : Cluster → Cluster) : (modClu s c f).fresh = s.fresh := rfl
@[simp] theorem modClu_out (c : Nat) (f : Cluster → Cluster) : (modClu s c f).out = s.out := rfl
@[simp] theorem modClu_flagsAt (c : Nat) (f : Cluster → Cluster) : (modClu s c f).flagsAt = s.flagsAt := rfl
@[simp] theorem modClu_pending (c : Nat) (f : Cluster → Cluster) : (modClu s c f).pending = s.pending := rfl

/-! ### modEq -/

@[simp] theorem modEq_time (c q : Nat) (f : Eq → Eq) : (modEq s c q f).time = s.time := rfl
@[simp] theorem modEq_pwr (c q : Nat) (f : Eq → Eq) : (modEq s c q f).pwr = s.pwr := rfl
@[simp] theorem modEq_boot (c q : Nat) (f : Eq → Eq) : (modEq s c q f).boot = s.boot := rfl
@[simp] theorem modEq_sec (c q : Nat) (f : Eq → Eq) : (modEq s c q f).sec = s.sec := rfl
@[simp] theorem modEq_auth (c q : Nat) (f : Eq → Eq) : (modEq s c q f).auth = s.auth := rfl
@[simp] theorem modEq_uart (c q : Nat) (f : Eq → Eq) : (modEq s c q f).uart = s.uart := rfl
@[simp] theorem modEq_rings (c q : Nat) (f : Eq → Eq) : (modEq s c q f).rings = s.rings := rfl
@[simp] theorem modEq_poolVer (c q : Nat) (f : Eq → Eq) : (modEq s c q f).poolVer = s.poolVer := rfl
@[simp] theorem modEq_outst (c q : Nat) (f : Eq → Eq) : (modEq s c q f).outst = s.outst := rfl
@[simp] theorem modEq_host (c q : Nat) (f : Eq → Eq) : (modEq s c q f).host = s.host := rfl
@[simp] theorem modEq_hostUp (c q : Nat) (f : Eq → Eq) : (modEq s c q f).hostUp = s.hostUp := rfl
@[simp] theorem modEq_parts (c q : Nat) (f : Eq → Eq) : (modEq s c q f).parts = s.parts := rfl
@[simp] theorem modEq_lastGen (c q : Nat) (f : Eq → Eq) : (modEq s c q f).lastGen = s.lastGen := rfl
@[simp] theorem modEq_lssHold (c q : Nat) (f : Eq → Eq) : (modEq s c q f).lssHold = s.lssHold := rfl
@[simp] theorem modEq_freed (c q : Nat) (f : Eq → Eq) : (modEq s c q f).freed = s.freed := rfl
@[simp] theorem modEq_claims (c q : Nat) (f : Eq → Eq) : (modEq s c q f).claims = s.claims := rfl
@[simp] theorem modEq_nextClaim (c q : Nat) (f : Eq → Eq) : (modEq s c q f).nextClaim = s.nextClaim := rfl
@[simp] theorem modEq_grants (c q : Nat) (f : Eq → Eq) : (modEq s c q f).grants = s.grants := rfl
@[simp] theorem modEq_hbm (c q : Nat) (f : Eq → Eq) : (modEq s c q f).hbm = s.hbm := rfl
@[simp] theorem modEq_radio (c q : Nat) (f : Eq → Eq) : (modEq s c q f).radio = s.radio := rfl
@[simp] theorem modEq_fab (c q : Nat) (f : Eq → Eq) : (modEq s c q f).fab = s.fab := rfl
@[simp] theorem modEq_eth (c q : Nat) (f : Eq → Eq) : (modEq s c q f).eth = s.eth := rfl
@[simp] theorem modEq_cprog (c q : Nat) (f : Eq → Eq) : (modEq s c q f).cprog = s.cprog := rfl
@[simp] theorem modEq_health (c q : Nat) (f : Eq → Eq) : (modEq s c q f).health = s.health := rfl
@[simp] theorem modEq_spdm (c q : Nat) (f : Eq → Eq) : (modEq s c q f).spdm = s.spdm := rfl
@[simp] theorem modEq_fresh (c q : Nat) (f : Eq → Eq) : (modEq s c q f).fresh = s.fresh := rfl
@[simp] theorem modEq_out (c q : Nat) (f : Eq → Eq) : (modEq s c q f).out = s.out := rfl
@[simp] theorem modEq_flagsAt (c q : Nat) (f : Eq → Eq) : (modEq s c q f).flagsAt = s.flagsAt := rfl
@[simp] theorem modEq_pending (c q : Nat) (f : Eq → Eq) : (modEq s c q f).pending = s.pending := rfl

/-! ### modEng -/

@[simp] theorem modEng_time (c e : Nat) (f : Engine → Engine) : (modEng s c e f).time = s.time := rfl
@[simp] theorem modEng_pwr (c e : Nat) (f : Engine → Engine) : (modEng s c e f).pwr = s.pwr := rfl
@[simp] theorem modEng_boot (c e : Nat) (f : Engine → Engine) : (modEng s c e f).boot = s.boot := rfl
@[simp] theorem modEng_sec (c e : Nat) (f : Engine → Engine) : (modEng s c e f).sec = s.sec := rfl
@[simp] theorem modEng_auth (c e : Nat) (f : Engine → Engine) : (modEng s c e f).auth = s.auth := rfl
@[simp] theorem modEng_uart (c e : Nat) (f : Engine → Engine) : (modEng s c e f).uart = s.uart := rfl
@[simp] theorem modEng_rings (c e : Nat) (f : Engine → Engine) : (modEng s c e f).rings = s.rings := rfl
@[simp] theorem modEng_poolVer (c e : Nat) (f : Engine → Engine) : (modEng s c e f).poolVer = s.poolVer := rfl
@[simp] theorem modEng_outst (c e : Nat) (f : Engine → Engine) : (modEng s c e f).outst = s.outst := rfl
@[simp] theorem modEng_host (c e : Nat) (f : Engine → Engine) : (modEng s c e f).host = s.host := rfl
@[simp] theorem modEng_hostUp (c e : Nat) (f : Engine → Engine) : (modEng s c e f).hostUp = s.hostUp := rfl
@[simp] theorem modEng_parts (c e : Nat) (f : Engine → Engine) : (modEng s c e f).parts = s.parts := rfl
@[simp] theorem modEng_lastGen (c e : Nat) (f : Engine → Engine) : (modEng s c e f).lastGen = s.lastGen := rfl
@[simp] theorem modEng_lssHold (c e : Nat) (f : Engine → Engine) : (modEng s c e f).lssHold = s.lssHold := rfl
@[simp] theorem modEng_freed (c e : Nat) (f : Engine → Engine) : (modEng s c e f).freed = s.freed := rfl
@[simp] theorem modEng_claims (c e : Nat) (f : Engine → Engine) : (modEng s c e f).claims = s.claims := rfl
@[simp] theorem modEng_nextClaim (c e : Nat) (f : Engine → Engine) : (modEng s c e f).nextClaim = s.nextClaim := rfl
@[simp] theorem modEng_grants (c e : Nat) (f : Engine → Engine) : (modEng s c e f).grants = s.grants := rfl
@[simp] theorem modEng_hbm (c e : Nat) (f : Engine → Engine) : (modEng s c e f).hbm = s.hbm := rfl
@[simp] theorem modEng_radio (c e : Nat) (f : Engine → Engine) : (modEng s c e f).radio = s.radio := rfl
@[simp] theorem modEng_fab (c e : Nat) (f : Engine → Engine) : (modEng s c e f).fab = s.fab := rfl
@[simp] theorem modEng_eth (c e : Nat) (f : Engine → Engine) : (modEng s c e f).eth = s.eth := rfl
@[simp] theorem modEng_cprog (c e : Nat) (f : Engine → Engine) : (modEng s c e f).cprog = s.cprog := rfl
@[simp] theorem modEng_health (c e : Nat) (f : Engine → Engine) : (modEng s c e f).health = s.health := rfl
@[simp] theorem modEng_spdm (c e : Nat) (f : Engine → Engine) : (modEng s c e f).spdm = s.spdm := rfl
@[simp] theorem modEng_fresh (c e : Nat) (f : Engine → Engine) : (modEng s c e f).fresh = s.fresh := rfl
@[simp] theorem modEng_out (c e : Nat) (f : Engine → Engine) : (modEng s c e f).out = s.out := rfl
@[simp] theorem modEng_flagsAt (c e : Nat) (f : Engine → Engine) : (modEng s c e f).flagsAt = s.flagsAt := rfl
@[simp] theorem modEng_pending (c e : Nat) (f : Engine → Engine) : (modEng s c e f).pending = s.pending := rfl

/-! ### modCsp -/

@[simp] theorem modCsp_time (c x : Nat) (f : CspCtx → CspCtx) : (modCsp s c x f).time = s.time := rfl
@[simp] theorem modCsp_pwr (c x : Nat) (f : CspCtx → CspCtx) : (modCsp s c x f).pwr = s.pwr := rfl
@[simp] theorem modCsp_boot (c x : Nat) (f : CspCtx → CspCtx) : (modCsp s c x f).boot = s.boot := rfl
@[simp] theorem modCsp_sec (c x : Nat) (f : CspCtx → CspCtx) : (modCsp s c x f).sec = s.sec := rfl
@[simp] theorem modCsp_auth (c x : Nat) (f : CspCtx → CspCtx) : (modCsp s c x f).auth = s.auth := rfl
@[simp] theorem modCsp_uart (c x : Nat) (f : CspCtx → CspCtx) : (modCsp s c x f).uart = s.uart := rfl
@[simp] theorem modCsp_rings (c x : Nat) (f : CspCtx → CspCtx) : (modCsp s c x f).rings = s.rings := rfl
@[simp] theorem modCsp_poolVer (c x : Nat) (f : CspCtx → CspCtx) : (modCsp s c x f).poolVer = s.poolVer := rfl
@[simp] theorem modCsp_outst (c x : Nat) (f : CspCtx → CspCtx) : (modCsp s c x f).outst = s.outst := rfl
@[simp] theorem modCsp_host (c x : Nat) (f : CspCtx → CspCtx) : (modCsp s c x f).host = s.host := rfl
@[simp] theorem modCsp_hostUp (c x : Nat) (f : CspCtx → CspCtx) : (modCsp s c x f).hostUp = s.hostUp := rfl
@[simp] theorem modCsp_parts (c x : Nat) (f : CspCtx → CspCtx) : (modCsp s c x f).parts = s.parts := rfl
@[simp] theorem modCsp_lastGen (c x : Nat) (f : CspCtx → CspCtx) : (modCsp s c x f).lastGen = s.lastGen := rfl
@[simp] theorem modCsp_lssHold (c x : Nat) (f : CspCtx → CspCtx) : (modCsp s c x f).lssHold = s.lssHold := rfl
@[simp] theorem modCsp_freed (c x : Nat) (f : CspCtx → CspCtx) : (modCsp s c x f).freed = s.freed := rfl
@[simp] theorem modCsp_claims (c x : Nat) (f : CspCtx → CspCtx) : (modCsp s c x f).claims = s.claims := rfl
@[simp] theorem modCsp_nextClaim (c x : Nat) (f : CspCtx → CspCtx) : (modCsp s c x f).nextClaim = s.nextClaim := rfl
@[simp] theorem modCsp_grants (c x : Nat) (f : CspCtx → CspCtx) : (modCsp s c x f).grants = s.grants := rfl
@[simp] theorem modCsp_hbm (c x : Nat) (f : CspCtx → CspCtx) : (modCsp s c x f).hbm = s.hbm := rfl
@[simp] theorem modCsp_radio (c x : Nat) (f : CspCtx → CspCtx) : (modCsp s c x f).radio = s.radio := rfl
@[simp] theorem modCsp_fab (c x : Nat) (f : CspCtx → CspCtx) : (modCsp s c x f).fab = s.fab := rfl
@[simp] theorem modCsp_eth (c x : Nat) (f : CspCtx → CspCtx) : (modCsp s c x f).eth = s.eth := rfl
@[simp] theorem modCsp_cprog (c x : Nat) (f : CspCtx → CspCtx) : (modCsp s c x f).cprog = s.cprog := rfl
@[simp] theorem modCsp_health (c x : Nat) (f : CspCtx → CspCtx) : (modCsp s c x f).health = s.health := rfl
@[simp] theorem modCsp_spdm (c x : Nat) (f : CspCtx → CspCtx) : (modCsp s c x f).spdm = s.spdm := rfl
@[simp] theorem modCsp_fresh (c x : Nat) (f : CspCtx → CspCtx) : (modCsp s c x f).fresh = s.fresh := rfl
@[simp] theorem modCsp_out (c x : Nat) (f : CspCtx → CspCtx) : (modCsp s c x f).out = s.out := rfl
@[simp] theorem modCsp_flagsAt (c x : Nat) (f : CspCtx → CspCtx) : (modCsp s c x f).flagsAt = s.flagsAt := rfl
@[simp] theorem modCsp_pending (c x : Nat) (f : CspCtx → CspCtx) : (modCsp s c x f).pending = s.pending := rfl

/-! ### modLa -/

@[simp] theorem modLa_time (c l : Nat) (f : LArray → LArray) : (modLa s c l f).time = s.time := rfl
@[simp] theorem modLa_pwr (c l : Nat) (f : LArray → LArray) : (modLa s c l f).pwr = s.pwr := rfl
@[simp] theorem modLa_boot (c l : Nat) (f : LArray → LArray) : (modLa s c l f).boot = s.boot := rfl
@[simp] theorem modLa_sec (c l : Nat) (f : LArray → LArray) : (modLa s c l f).sec = s.sec := rfl
@[simp] theorem modLa_auth (c l : Nat) (f : LArray → LArray) : (modLa s c l f).auth = s.auth := rfl
@[simp] theorem modLa_uart (c l : Nat) (f : LArray → LArray) : (modLa s c l f).uart = s.uart := rfl
@[simp] theorem modLa_rings (c l : Nat) (f : LArray → LArray) : (modLa s c l f).rings = s.rings := rfl
@[simp] theorem modLa_poolVer (c l : Nat) (f : LArray → LArray) : (modLa s c l f).poolVer = s.poolVer := rfl
@[simp] theorem modLa_outst (c l : Nat) (f : LArray → LArray) : (modLa s c l f).outst = s.outst := rfl
@[simp] theorem modLa_host (c l : Nat) (f : LArray → LArray) : (modLa s c l f).host = s.host := rfl
@[simp] theorem modLa_hostUp (c l : Nat) (f : LArray → LArray) : (modLa s c l f).hostUp = s.hostUp := rfl
@[simp] theorem modLa_parts (c l : Nat) (f : LArray → LArray) : (modLa s c l f).parts = s.parts := rfl
@[simp] theorem modLa_lastGen (c l : Nat) (f : LArray → LArray) : (modLa s c l f).lastGen = s.lastGen := rfl
@[simp] theorem modLa_lssHold (c l : Nat) (f : LArray → LArray) : (modLa s c l f).lssHold = s.lssHold := rfl
@[simp] theorem modLa_freed (c l : Nat) (f : LArray → LArray) : (modLa s c l f).freed = s.freed := rfl
@[simp] theorem modLa_claims (c l : Nat) (f : LArray → LArray) : (modLa s c l f).claims = s.claims := rfl
@[simp] theorem modLa_nextClaim (c l : Nat) (f : LArray → LArray) : (modLa s c l f).nextClaim = s.nextClaim := rfl
@[simp] theorem modLa_grants (c l : Nat) (f : LArray → LArray) : (modLa s c l f).grants = s.grants := rfl
@[simp] theorem modLa_hbm (c l : Nat) (f : LArray → LArray) : (modLa s c l f).hbm = s.hbm := rfl
@[simp] theorem modLa_radio (c l : Nat) (f : LArray → LArray) : (modLa s c l f).radio = s.radio := rfl
@[simp] theorem modLa_fab (c l : Nat) (f : LArray → LArray) : (modLa s c l f).fab = s.fab := rfl
@[simp] theorem modLa_eth (c l : Nat) (f : LArray → LArray) : (modLa s c l f).eth = s.eth := rfl
@[simp] theorem modLa_cprog (c l : Nat) (f : LArray → LArray) : (modLa s c l f).cprog = s.cprog := rfl
@[simp] theorem modLa_health (c l : Nat) (f : LArray → LArray) : (modLa s c l f).health = s.health := rfl
@[simp] theorem modLa_spdm (c l : Nat) (f : LArray → LArray) : (modLa s c l f).spdm = s.spdm := rfl
@[simp] theorem modLa_fresh (c l : Nat) (f : LArray → LArray) : (modLa s c l f).fresh = s.fresh := rfl
@[simp] theorem modLa_out (c l : Nat) (f : LArray → LArray) : (modLa s c l f).out = s.out := rfl
@[simp] theorem modLa_flagsAt (c l : Nat) (f : LArray → LArray) : (modLa s c l f).flagsAt = s.flagsAt := rfl
@[simp] theorem modLa_pending (c l : Nat) (f : LArray → LArray) : (modLa s c l f).pending = s.pending := rfl

/-! ### modPa -/

@[simp] theorem modPa_time (c a : Nat) (f : PArray → PArray) : (modPa s c a f).time = s.time := rfl
@[simp] theorem modPa_pwr (c a : Nat) (f : PArray → PArray) : (modPa s c a f).pwr = s.pwr := rfl
@[simp] theorem modPa_boot (c a : Nat) (f : PArray → PArray) : (modPa s c a f).boot = s.boot := rfl
@[simp] theorem modPa_sec (c a : Nat) (f : PArray → PArray) : (modPa s c a f).sec = s.sec := rfl
@[simp] theorem modPa_auth (c a : Nat) (f : PArray → PArray) : (modPa s c a f).auth = s.auth := rfl
@[simp] theorem modPa_uart (c a : Nat) (f : PArray → PArray) : (modPa s c a f).uart = s.uart := rfl
@[simp] theorem modPa_rings (c a : Nat) (f : PArray → PArray) : (modPa s c a f).rings = s.rings := rfl
@[simp] theorem modPa_poolVer (c a : Nat) (f : PArray → PArray) : (modPa s c a f).poolVer = s.poolVer := rfl
@[simp] theorem modPa_outst (c a : Nat) (f : PArray → PArray) : (modPa s c a f).outst = s.outst := rfl
@[simp] theorem modPa_host (c a : Nat) (f : PArray → PArray) : (modPa s c a f).host = s.host := rfl
@[simp] theorem modPa_hostUp (c a : Nat) (f : PArray → PArray) : (modPa s c a f).hostUp = s.hostUp := rfl
@[simp] theorem modPa_parts (c a : Nat) (f : PArray → PArray) : (modPa s c a f).parts = s.parts := rfl
@[simp] theorem modPa_lastGen (c a : Nat) (f : PArray → PArray) : (modPa s c a f).lastGen = s.lastGen := rfl
@[simp] theorem modPa_lssHold (c a : Nat) (f : PArray → PArray) : (modPa s c a f).lssHold = s.lssHold := rfl
@[simp] theorem modPa_freed (c a : Nat) (f : PArray → PArray) : (modPa s c a f).freed = s.freed := rfl
@[simp] theorem modPa_claims (c a : Nat) (f : PArray → PArray) : (modPa s c a f).claims = s.claims := rfl
@[simp] theorem modPa_nextClaim (c a : Nat) (f : PArray → PArray) : (modPa s c a f).nextClaim = s.nextClaim := rfl
@[simp] theorem modPa_grants (c a : Nat) (f : PArray → PArray) : (modPa s c a f).grants = s.grants := rfl
@[simp] theorem modPa_hbm (c a : Nat) (f : PArray → PArray) : (modPa s c a f).hbm = s.hbm := rfl
@[simp] theorem modPa_radio (c a : Nat) (f : PArray → PArray) : (modPa s c a f).radio = s.radio := rfl
@[simp] theorem modPa_fab (c a : Nat) (f : PArray → PArray) : (modPa s c a f).fab = s.fab := rfl
@[simp] theorem modPa_eth (c a : Nat) (f : PArray → PArray) : (modPa s c a f).eth = s.eth := rfl
@[simp] theorem modPa_cprog (c a : Nat) (f : PArray → PArray) : (modPa s c a f).cprog = s.cprog := rfl
@[simp] theorem modPa_health (c a : Nat) (f : PArray → PArray) : (modPa s c a f).health = s.health := rfl
@[simp] theorem modPa_spdm (c a : Nat) (f : PArray → PArray) : (modPa s c a f).spdm = s.spdm := rfl
@[simp] theorem modPa_fresh (c a : Nat) (f : PArray → PArray) : (modPa s c a f).fresh = s.fresh := rfl
@[simp] theorem modPa_out (c a : Nat) (f : PArray → PArray) : (modPa s c a f).out = s.out := rfl
@[simp] theorem modPa_flagsAt (c a : Nat) (f : PArray → PArray) : (modPa s c a f).flagsAt = s.flagsAt := rfl
@[simp] theorem modPa_pending (c a : Nat) (f : PArray → PArray) : (modPa s c a f).pending = s.pending := rfl

/-! ### modLink -/

@[simp] theorem modLink_time (l : Nat) (f : Link → Link) : (modLink s l f).time = s.time := rfl
@[simp] theorem modLink_pwr (l : Nat) (f : Link → Link) : (modLink s l f).pwr = s.pwr := rfl
@[simp] theorem modLink_boot (l : Nat) (f : Link → Link) : (modLink s l f).boot = s.boot := rfl
@[simp] theorem modLink_sec (l : Nat) (f : Link → Link) : (modLink s l f).sec = s.sec := rfl
@[simp] theorem modLink_auth (l : Nat) (f : Link → Link) : (modLink s l f).auth = s.auth := rfl
@[simp] theorem modLink_uart (l : Nat) (f : Link → Link) : (modLink s l f).uart = s.uart := rfl
@[simp] theorem modLink_rings (l : Nat) (f : Link → Link) : (modLink s l f).rings = s.rings := rfl
@[simp] theorem modLink_poolVer (l : Nat) (f : Link → Link) : (modLink s l f).poolVer = s.poolVer := rfl
@[simp] theorem modLink_outst (l : Nat) (f : Link → Link) : (modLink s l f).outst = s.outst := rfl
@[simp] theorem modLink_host (l : Nat) (f : Link → Link) : (modLink s l f).host = s.host := rfl
@[simp] theorem modLink_hostUp (l : Nat) (f : Link → Link) : (modLink s l f).hostUp = s.hostUp := rfl
@[simp] theorem modLink_parts (l : Nat) (f : Link → Link) : (modLink s l f).parts = s.parts := rfl
@[simp] theorem modLink_lastGen (l : Nat) (f : Link → Link) : (modLink s l f).lastGen = s.lastGen := rfl
@[simp] theorem modLink_lssHold (l : Nat) (f : Link → Link) : (modLink s l f).lssHold = s.lssHold := rfl
@[simp] theorem modLink_freed (l : Nat) (f : Link → Link) : (modLink s l f).freed = s.freed := rfl
@[simp] theorem modLink_claims (l : Nat) (f : Link → Link) : (modLink s l f).claims = s.claims := rfl
@[simp] theorem modLink_nextClaim (l : Nat) (f : Link → Link) : (modLink s l f).nextClaim = s.nextClaim := rfl
@[simp] theorem modLink_grants (l : Nat) (f : Link → Link) : (modLink s l f).grants = s.grants := rfl
@[simp] theorem modLink_clusters (l : Nat) (f : Link → Link) : (modLink s l f).clusters = s.clusters := rfl
@[simp] theorem modLink_hbm (l : Nat) (f : Link → Link) : (modLink s l f).hbm = s.hbm := rfl
@[simp] theorem modLink_radio (l : Nat) (f : Link → Link) : (modLink s l f).radio = s.radio := rfl
@[simp] theorem modLink_eth (l : Nat) (f : Link → Link) : (modLink s l f).eth = s.eth := rfl
@[simp] theorem modLink_cprog (l : Nat) (f : Link → Link) : (modLink s l f).cprog = s.cprog := rfl
@[simp] theorem modLink_health (l : Nat) (f : Link → Link) : (modLink s l f).health = s.health := rfl
@[simp] theorem modLink_spdm (l : Nat) (f : Link → Link) : (modLink s l f).spdm = s.spdm := rfl
@[simp] theorem modLink_fresh (l : Nat) (f : Link → Link) : (modLink s l f).fresh = s.fresh := rfl
@[simp] theorem modLink_out (l : Nat) (f : Link → Link) : (modLink s l f).out = s.out := rfl
@[simp] theorem modLink_flagsAt (l : Nat) (f : Link → Link) : (modLink s l f).flagsAt = s.flagsAt := rfl
@[simp] theorem modLink_pending (l : Nat) (f : Link → Link) : (modLink s l f).pending = s.pending := rfl

/-! ### modPort -/

@[simp] theorem modPort_time (n : Nat) (f : EthPort → EthPort) : (modPort s n f).time = s.time := rfl
@[simp] theorem modPort_pwr (n : Nat) (f : EthPort → EthPort) : (modPort s n f).pwr = s.pwr := rfl
@[simp] theorem modPort_boot (n : Nat) (f : EthPort → EthPort) : (modPort s n f).boot = s.boot := rfl
@[simp] theorem modPort_sec (n : Nat) (f : EthPort → EthPort) : (modPort s n f).sec = s.sec := rfl
@[simp] theorem modPort_auth (n : Nat) (f : EthPort → EthPort) : (modPort s n f).auth = s.auth := rfl
@[simp] theorem modPort_uart (n : Nat) (f : EthPort → EthPort) : (modPort s n f).uart = s.uart := rfl
@[simp] theorem modPort_rings (n : Nat) (f : EthPort → EthPort) : (modPort s n f).rings = s.rings := rfl
@[simp] theorem modPort_poolVer (n : Nat) (f : EthPort → EthPort) : (modPort s n f).poolVer = s.poolVer := rfl
@[simp] theorem modPort_outst (n : Nat) (f : EthPort → EthPort) : (modPort s n f).outst = s.outst := rfl
@[simp] theorem modPort_host (n : Nat) (f : EthPort → EthPort) : (modPort s n f).host = s.host := rfl
@[simp] theorem modPort_hostUp (n : Nat) (f : EthPort → EthPort) : (modPort s n f).hostUp = s.hostUp := rfl
@[simp] theorem modPort_parts (n : Nat) (f : EthPort → EthPort) : (modPort s n f).parts = s.parts := rfl
@[simp] theorem modPort_lastGen (n : Nat) (f : EthPort → EthPort) : (modPort s n f).lastGen = s.lastGen := rfl
@[simp] theorem modPort_lssHold (n : Nat) (f : EthPort → EthPort) : (modPort s n f).lssHold = s.lssHold := rfl
@[simp] theorem modPort_freed (n : Nat) (f : EthPort → EthPort) : (modPort s n f).freed = s.freed := rfl
@[simp] theorem modPort_claims (n : Nat) (f : EthPort → EthPort) : (modPort s n f).claims = s.claims := rfl
@[simp] theorem modPort_nextClaim (n : Nat) (f : EthPort → EthPort) : (modPort s n f).nextClaim = s.nextClaim := rfl
@[simp] theorem modPort_grants (n : Nat) (f : EthPort → EthPort) : (modPort s n f).grants = s.grants := rfl
@[simp] theorem modPort_clusters (n : Nat) (f : EthPort → EthPort) : (modPort s n f).clusters = s.clusters := rfl
@[simp] theorem modPort_hbm (n : Nat) (f : EthPort → EthPort) : (modPort s n f).hbm = s.hbm := rfl
@[simp] theorem modPort_radio (n : Nat) (f : EthPort → EthPort) : (modPort s n f).radio = s.radio := rfl
@[simp] theorem modPort_fab (n : Nat) (f : EthPort → EthPort) : (modPort s n f).fab = s.fab := rfl
@[simp] theorem modPort_cprog (n : Nat) (f : EthPort → EthPort) : (modPort s n f).cprog = s.cprog := rfl
@[simp] theorem modPort_health (n : Nat) (f : EthPort → EthPort) : (modPort s n f).health = s.health := rfl
@[simp] theorem modPort_spdm (n : Nat) (f : EthPort → EthPort) : (modPort s n f).spdm = s.spdm := rfl
@[simp] theorem modPort_fresh (n : Nat) (f : EthPort → EthPort) : (modPort s n f).fresh = s.fresh := rfl
@[simp] theorem modPort_out (n : Nat) (f : EthPort → EthPort) : (modPort s n f).out = s.out := rfl
@[simp] theorem modPort_flagsAt (n : Nat) (f : EthPort → EthPort) : (modPort s n f).flagsAt = s.flagsAt := rfl
@[simp] theorem modPort_pending (n : Nat) (f : EthPort → EthPort) : (modPort s n f).pending = s.pending := rfl

/-! ### modQ -/

@[simp] theorem modQ_time (q : Nat) (f : TmQ → TmQ) : (modQ s q f).time = s.time := rfl
@[simp] theorem modQ_pwr (q : Nat) (f : TmQ → TmQ) : (modQ s q f).pwr = s.pwr := rfl
@[simp] theorem modQ_boot (q : Nat) (f : TmQ → TmQ) : (modQ s q f).boot = s.boot := rfl
@[simp] theorem modQ_sec (q : Nat) (f : TmQ → TmQ) : (modQ s q f).sec = s.sec := rfl
@[simp] theorem modQ_auth (q : Nat) (f : TmQ → TmQ) : (modQ s q f).auth = s.auth := rfl
@[simp] theorem modQ_uart (q : Nat) (f : TmQ → TmQ) : (modQ s q f).uart = s.uart := rfl
@[simp] theorem modQ_rings (q : Nat) (f : TmQ → TmQ) : (modQ s q f).rings = s.rings := rfl
@[simp] theorem modQ_poolVer (q : Nat) (f : TmQ → TmQ) : (modQ s q f).poolVer = s.poolVer := rfl
@[simp] theorem modQ_outst (q : Nat) (f : TmQ → TmQ) : (modQ s q f).outst = s.outst := rfl
@[simp] theorem modQ_host (q : Nat) (f : TmQ → TmQ) : (modQ s q f).host = s.host := rfl
@[simp] theorem modQ_hostUp (q : Nat) (f : TmQ → TmQ) : (modQ s q f).hostUp = s.hostUp := rfl
@[simp] theorem modQ_parts (q : Nat) (f : TmQ → TmQ) : (modQ s q f).parts = s.parts := rfl
@[simp] theorem modQ_lastGen (q : Nat) (f : TmQ → TmQ) : (modQ s q f).lastGen = s.lastGen := rfl
@[simp] theorem modQ_lssHold (q : Nat) (f : TmQ → TmQ) : (modQ s q f).lssHold = s.lssHold := rfl
@[simp] theorem modQ_freed (q : Nat) (f : TmQ → TmQ) : (modQ s q f).freed = s.freed := rfl
@[simp] theorem modQ_claims (q : Nat) (f : TmQ → TmQ) : (modQ s q f).claims = s.claims := rfl
@[simp] theorem modQ_nextClaim (q : Nat) (f : TmQ → TmQ) : (modQ s q f).nextClaim = s.nextClaim := rfl
@[simp] theorem modQ_grants (q : Nat) (f : TmQ → TmQ) : (modQ s q f).grants = s.grants := rfl
@[simp] theorem modQ_clusters (q : Nat) (f : TmQ → TmQ) : (modQ s q f).clusters = s.clusters := rfl
@[simp] theorem modQ_hbm (q : Nat) (f : TmQ → TmQ) : (modQ s q f).hbm = s.hbm := rfl
@[simp] theorem modQ_radio (q : Nat) (f : TmQ → TmQ) : (modQ s q f).radio = s.radio := rfl
@[simp] theorem modQ_fab (q : Nat) (f : TmQ → TmQ) : (modQ s q f).fab = s.fab := rfl
@[simp] theorem modQ_cprog (q : Nat) (f : TmQ → TmQ) : (modQ s q f).cprog = s.cprog := rfl
@[simp] theorem modQ_health (q : Nat) (f : TmQ → TmQ) : (modQ s q f).health = s.health := rfl
@[simp] theorem modQ_spdm (q : Nat) (f : TmQ → TmQ) : (modQ s q f).spdm = s.spdm := rfl
@[simp] theorem modQ_fresh (q : Nat) (f : TmQ → TmQ) : (modQ s q f).fresh = s.fresh := rfl
@[simp] theorem modQ_out (q : Nat) (f : TmQ → TmQ) : (modQ s q f).out = s.out := rfl
@[simp] theorem modQ_flagsAt (q : Nat) (f : TmQ → TmQ) : (modQ s q f).flagsAt = s.flagsAt := rfl
@[simp] theorem modQ_pending (q : Nat) (f : TmQ → TmQ) : (modQ s q f).pending = s.pending := rfl

/-! ### modTmp -/

@[simp] theorem modTmp_time (p : Nat) (f : TmPart → TmPart) : (modTmp s p f).time = s.time := rfl
@[simp] theorem modTmp_pwr (p : Nat) (f : TmPart → TmPart) : (modTmp s p f).pwr = s.pwr := rfl
@[simp] theorem modTmp_boot (p : Nat) (f : TmPart → TmPart) : (modTmp s p f).boot = s.boot := rfl
@[simp] theorem modTmp_sec (p : Nat) (f : TmPart → TmPart) : (modTmp s p f).sec = s.sec := rfl
@[simp] theorem modTmp_auth (p : Nat) (f : TmPart → TmPart) : (modTmp s p f).auth = s.auth := rfl
@[simp] theorem modTmp_uart (p : Nat) (f : TmPart → TmPart) : (modTmp s p f).uart = s.uart := rfl
@[simp] theorem modTmp_rings (p : Nat) (f : TmPart → TmPart) : (modTmp s p f).rings = s.rings := rfl
@[simp] theorem modTmp_poolVer (p : Nat) (f : TmPart → TmPart) : (modTmp s p f).poolVer = s.poolVer := rfl
@[simp] theorem modTmp_outst (p : Nat) (f : TmPart → TmPart) : (modTmp s p f).outst = s.outst := rfl
@[simp] theorem modTmp_host (p : Nat) (f : TmPart → TmPart) : (modTmp s p f).host = s.host := rfl
@[simp] theorem modTmp_hostUp (p : Nat) (f : TmPart → TmPart) : (modTmp s p f).hostUp = s.hostUp := rfl
@[simp] theorem modTmp_parts (p : Nat) (f : TmPart → TmPart) : (modTmp s p f).parts = s.parts := rfl
@[simp] theorem modTmp_lastGen (p : Nat) (f : TmPart → TmPart) : (modTmp s p f).lastGen = s.lastGen := rfl
@[simp] theorem modTmp_lssHold (p : Nat) (f : TmPart → TmPart) : (modTmp s p f).lssHold = s.lssHold := rfl
@[simp] theorem modTmp_freed (p : Nat) (f : TmPart → TmPart) : (modTmp s p f).freed = s.freed := rfl
@[simp] theorem modTmp_claims (p : Nat) (f : TmPart → TmPart) : (modTmp s p f).claims = s.claims := rfl
@[simp] theorem modTmp_nextClaim (p : Nat) (f : TmPart → TmPart) : (modTmp s p f).nextClaim = s.nextClaim := rfl
@[simp] theorem modTmp_grants (p : Nat) (f : TmPart → TmPart) : (modTmp s p f).grants = s.grants := rfl
@[simp] theorem modTmp_clusters (p : Nat) (f : TmPart → TmPart) : (modTmp s p f).clusters = s.clusters := rfl
@[simp] theorem modTmp_hbm (p : Nat) (f : TmPart → TmPart) : (modTmp s p f).hbm = s.hbm := rfl
@[simp] theorem modTmp_radio (p : Nat) (f : TmPart → TmPart) : (modTmp s p f).radio = s.radio := rfl
@[simp] theorem modTmp_fab (p : Nat) (f : TmPart → TmPart) : (modTmp s p f).fab = s.fab := rfl
@[simp] theorem modTmp_cprog (p : Nat) (f : TmPart → TmPart) : (modTmp s p f).cprog = s.cprog := rfl
@[simp] theorem modTmp_health (p : Nat) (f : TmPart → TmPart) : (modTmp s p f).health = s.health := rfl
@[simp] theorem modTmp_spdm (p : Nat) (f : TmPart → TmPart) : (modTmp s p f).spdm = s.spdm := rfl
@[simp] theorem modTmp_fresh (p : Nat) (f : TmPart → TmPart) : (modTmp s p f).fresh = s.fresh := rfl
@[simp] theorem modTmp_out (p : Nat) (f : TmPart → TmPart) : (modTmp s p f).out = s.out := rfl
@[simp] theorem modTmp_flagsAt (p : Nat) (f : TmPart → TmPart) : (modTmp s p f).flagsAt = s.flagsAt := rfl
@[simp] theorem modTmp_pending (p : Nat) (f : TmPart → TmPart) : (modTmp s p f).pending = s.pending := rfl

/-! ### modQp -/

@[simp] theorem modQp_time (q : Nat) (f : Qp → Qp) : (modQp s q f).time = s.time := rfl
@[simp] theorem modQp_pwr (q : Nat) (f : Qp → Qp) : (modQp s q f).pwr = s.pwr := rfl
@[simp] theorem modQp_boot (q : Nat) (f : Qp → Qp) : (modQp s q f).boot = s.boot := rfl
@[simp] theorem modQp_sec (q : Nat) (f : Qp → Qp) : (modQp s q f).sec = s.sec := rfl
@[simp] theorem modQp_auth (q : Nat) (f : Qp → Qp) : (modQp s q f).auth = s.auth := rfl
@[simp] theorem modQp_uart (q : Nat) (f : Qp → Qp) : (modQp s q f).uart = s.uart := rfl
@[simp] theorem modQp_rings (q : Nat) (f : Qp → Qp) : (modQp s q f).rings = s.rings := rfl
@[simp] theorem modQp_poolVer (q : Nat) (f : Qp → Qp) : (modQp s q f).poolVer = s.poolVer := rfl
@[simp] theorem modQp_outst (q : Nat) (f : Qp → Qp) : (modQp s q f).outst = s.outst := rfl
@[simp] theorem modQp_host (q : Nat) (f : Qp → Qp) : (modQp s q f).host = s.host := rfl
@[simp] theorem modQp_hostUp (q : Nat) (f : Qp → Qp) : (modQp s q f).hostUp = s.hostUp := rfl
@[simp] theorem modQp_parts (q : Nat) (f : Qp → Qp) : (modQp s q f).parts = s.parts := rfl
@[simp] theorem modQp_lastGen (q : Nat) (f : Qp → Qp) : (modQp s q f).lastGen = s.lastGen := rfl
@[simp] theorem modQp_lssHold (q : Nat) (f : Qp → Qp) : (modQp s q f).lssHold = s.lssHold := rfl
@[simp] theorem modQp_freed (q : Nat) (f : Qp → Qp) : (modQp s q f).freed = s.freed := rfl
@[simp] theorem modQp_claims (q : Nat) (f : Qp → Qp) : (modQp s q f).claims = s.claims := rfl
@[simp] theorem modQp_nextClaim (q : Nat) (f : Qp → Qp) : (modQp s q f).nextClaim = s.nextClaim := rfl
@[simp] theorem modQp_grants (q : Nat) (f : Qp → Qp) : (modQp s q f).grants = s.grants := rfl
@[simp] theorem modQp_clusters (q : Nat) (f : Qp → Qp) : (modQp s q f).clusters = s.clusters := rfl
@[simp] theorem modQp_hbm (q : Nat) (f : Qp → Qp) : (modQp s q f).hbm = s.hbm := rfl
@[simp] theorem modQp_radio (q : Nat) (f : Qp → Qp) : (modQp s q f).radio = s.radio := rfl
@[simp] theorem modQp_fab (q : Nat) (f : Qp → Qp) : (modQp s q f).fab = s.fab := rfl
@[simp] theorem modQp_cprog (q : Nat) (f : Qp → Qp) : (modQp s q f).cprog = s.cprog := rfl
@[simp] theorem modQp_health (q : Nat) (f : Qp → Qp) : (modQp s q f).health = s.health := rfl
@[simp] theorem modQp_spdm (q : Nat) (f : Qp → Qp) : (modQp s q f).spdm = s.spdm := rfl
@[simp] theorem modQp_fresh (q : Nat) (f : Qp → Qp) : (modQp s q f).fresh = s.fresh := rfl
@[simp] theorem modQp_out (q : Nat) (f : Qp → Qp) : (modQp s q f).out = s.out := rfl
@[simp] theorem modQp_flagsAt (q : Nat) (f : Qp → Qp) : (modQp s q f).flagsAt = s.flagsAt := rfl
@[simp] theorem modQp_pending (q : Nat) (f : Qp → Qp) : (modQp s q f).pending = s.pending := rfl

/-! ### modCell -/

@[simp] theorem modCell_time (n : Nat) (f : Cell → Cell) : (modCell s n f).time = s.time := rfl
@[simp] theorem modCell_pwr (n : Nat) (f : Cell → Cell) : (modCell s n f).pwr = s.pwr := rfl
@[simp] theorem modCell_boot (n : Nat) (f : Cell → Cell) : (modCell s n f).boot = s.boot := rfl
@[simp] theorem modCell_sec (n : Nat) (f : Cell → Cell) : (modCell s n f).sec = s.sec := rfl
@[simp] theorem modCell_auth (n : Nat) (f : Cell → Cell) : (modCell s n f).auth = s.auth := rfl
@[simp] theorem modCell_uart (n : Nat) (f : Cell → Cell) : (modCell s n f).uart = s.uart := rfl
@[simp] theorem modCell_rings (n : Nat) (f : Cell → Cell) : (modCell s n f).rings = s.rings := rfl
@[simp] theorem modCell_poolVer (n : Nat) (f : Cell → Cell) : (modCell s n f).poolVer = s.poolVer := rfl
@[simp] theorem modCell_outst (n : Nat) (f : Cell → Cell) : (modCell s n f).outst = s.outst := rfl
@[simp] theorem modCell_host (n : Nat) (f : Cell → Cell) : (modCell s n f).host = s.host := rfl
@[simp] theorem modCell_hostUp (n : Nat) (f : Cell → Cell) : (modCell s n f).hostUp = s.hostUp := rfl
@[simp] theorem modCell_parts (n : Nat) (f : Cell → Cell) : (modCell s n f).parts = s.parts := rfl
@[simp] theorem modCell_lastGen (n : Nat) (f : Cell → Cell) : (modCell s n f).lastGen = s.lastGen := rfl
@[simp] theorem modCell_lssHold (n : Nat) (f : Cell → Cell) : (modCell s n f).lssHold = s.lssHold := rfl
@[simp] theorem modCell_freed (n : Nat) (f : Cell → Cell) : (modCell s n f).freed = s.freed := rfl
@[simp] theorem modCell_claims (n : Nat) (f : Cell → Cell) : (modCell s n f).claims = s.claims := rfl
@[simp] theorem modCell_nextClaim (n : Nat) (f : Cell → Cell) : (modCell s n f).nextClaim = s.nextClaim := rfl
@[simp] theorem modCell_grants (n : Nat) (f : Cell → Cell) : (modCell s n f).grants = s.grants := rfl
@[simp] theorem modCell_clusters (n : Nat) (f : Cell → Cell) : (modCell s n f).clusters = s.clusters := rfl
@[simp] theorem modCell_hbm (n : Nat) (f : Cell → Cell) : (modCell s n f).hbm = s.hbm := rfl
@[simp] theorem modCell_fab (n : Nat) (f : Cell → Cell) : (modCell s n f).fab = s.fab := rfl
@[simp] theorem modCell_eth (n : Nat) (f : Cell → Cell) : (modCell s n f).eth = s.eth := rfl
@[simp] theorem modCell_cprog (n : Nat) (f : Cell → Cell) : (modCell s n f).cprog = s.cprog := rfl
@[simp] theorem modCell_health (n : Nat) (f : Cell → Cell) : (modCell s n f).health = s.health := rfl
@[simp] theorem modCell_spdm (n : Nat) (f : Cell → Cell) : (modCell s n f).spdm = s.spdm := rfl
@[simp] theorem modCell_fresh (n : Nat) (f : Cell → Cell) : (modCell s n f).fresh = s.fresh := rfl
@[simp] theorem modCell_out (n : Nat) (f : Cell → Cell) : (modCell s n f).out = s.out := rfl
@[simp] theorem modCell_flagsAt (n : Nat) (f : Cell → Cell) : (modCell s n f).flagsAt = s.flagsAt := rfl
@[simp] theorem modCell_pending (n : Nat) (f : Cell → Cell) : (modCell s n f).pending = s.pending := rfl

/-! ### modStream -/

@[simp] theorem modStream_time (n : Nat) (f : Stream → Stream) : (modStream s n f).time = s.time := rfl
@[simp] theorem modStream_pwr (n : Nat) (f : Stream → Stream) : (modStream s n f).pwr = s.pwr := rfl
@[simp] theorem modStream_boot (n : Nat) (f : Stream → Stream) : (modStream s n f).boot = s.boot := rfl
@[simp] theorem modStream_sec (n : Nat) (f : Stream → Stream) : (modStream s n f).sec = s.sec := rfl
@[simp] theorem modStream_auth (n : Nat) (f : Stream → Stream) : (modStream s n f).auth = s.auth := rfl
@[simp] theorem modStream_uart (n : Nat) (f : Stream → Stream) : (modStream s n f).uart = s.uart := rfl
@[simp] theorem modStream_rings (n : Nat) (f : Stream → Stream) : (modStream s n f).rings = s.rings := rfl
@[simp] theorem modStream_poolVer (n : Nat) (f : Stream → Stream) : (modStream s n f).poolVer = s.poolVer := rfl
@[simp] theorem modStream_outst (n : Nat) (f : Stream → Stream) : (modStream s n f).outst = s.outst := rfl
@[simp] theorem modStream_host (n : Nat) (f : Stream → Stream) : (modStream s n f).host = s.host := rfl
@[simp] theorem modStream_hostUp (n : Nat) (f : Stream → Stream) : (modStream s n f).hostUp = s.hostUp := rfl
@[simp] theorem modStream_parts (n : Nat) (f : Stream → Stream) : (modStream s n f).parts = s.parts := rfl
@[simp] theorem modStream_lastGen (n : Nat) (f : Stream → Stream) : (modStream s n f).lastGen = s.lastGen := rfl
@[simp] theorem modStream_lssHold (n : Nat) (f : Stream → Stream) : (modStream s n f).lssHold = s.lssHold := rfl
@[simp] theorem modStream_freed (n : Nat) (f : Stream → Stream) : (modStream s n f).freed = s.freed := rfl
@[simp] theorem modStream_claims (n : Nat) (f : Stream → Stream) : (modStream s n f).claims = s.claims := rfl
@[simp] theorem modStream_nextClaim (n : Nat) (f : Stream → Stream) : (modStream s n f).nextClaim = s.nextClaim := rfl
@[simp] theorem modStream_grants (n : Nat) (f : Stream → Stream) : (modStream s n f).grants = s.grants := rfl
@[simp] theorem modStream_clusters (n : Nat) (f : Stream → Stream) : (modStream s n f).clusters = s.clusters := rfl
@[simp] theorem modStream_hbm (n : Nat) (f : Stream → Stream) : (modStream s n f).hbm = s.hbm := rfl
@[simp] theorem modStream_fab (n : Nat) (f : Stream → Stream) : (modStream s n f).fab = s.fab := rfl
@[simp] theorem modStream_eth (n : Nat) (f : Stream → Stream) : (modStream s n f).eth = s.eth := rfl
@[simp] theorem modStream_cprog (n : Nat) (f : Stream → Stream) : (modStream s n f).cprog = s.cprog := rfl
@[simp] theorem modStream_health (n : Nat) (f : Stream → Stream) : (modStream s n f).health = s.health := rfl
@[simp] theorem modStream_spdm (n : Nat) (f : Stream → Stream) : (modStream s n f).spdm = s.spdm := rfl
@[simp] theorem modStream_fresh (n : Nat) (f : Stream → Stream) : (modStream s n f).fresh = s.fresh := rfl
@[simp] theorem modStream_out (n : Nat) (f : Stream → Stream) : (modStream s n f).out = s.out := rfl
@[simp] theorem modStream_flagsAt (n : Nat) (f : Stream → Stream) : (modStream s n f).flagsAt = s.flagsAt := rfl
@[simp] theorem modStream_pending (n : Nat) (f : Stream → Stream) : (modStream s n f).pending = s.pending := rfl

/-! ### modEp -/

@[simp] theorem modEp_time (n : Nat) (f : Endpoint → Endpoint) : (modEp s n f).time = s.time := rfl
@[simp] theorem modEp_pwr (n : Nat) (f : Endpoint → Endpoint) : (modEp s n f).pwr = s.pwr := rfl
@[simp] theorem modEp_boot (n : Nat) (f : Endpoint → Endpoint) : (modEp s n f).boot = s.boot := rfl
@[simp] theorem modEp_sec (n : Nat) (f : Endpoint → Endpoint) : (modEp s n f).sec = s.sec := rfl
@[simp] theorem modEp_auth (n : Nat) (f : Endpoint → Endpoint) : (modEp s n f).auth = s.auth := rfl
@[simp] theorem modEp_uart (n : Nat) (f : Endpoint → Endpoint) : (modEp s n f).uart = s.uart := rfl
@[simp] theorem modEp_rings (n : Nat) (f : Endpoint → Endpoint) : (modEp s n f).rings = s.rings := rfl
@[simp] theorem modEp_poolVer (n : Nat) (f : Endpoint → Endpoint) : (modEp s n f).poolVer = s.poolVer := rfl
@[simp] theorem modEp_outst (n : Nat) (f : Endpoint → Endpoint) : (modEp s n f).outst = s.outst := rfl
@[simp] theorem modEp_host (n : Nat) (f : Endpoint → Endpoint) : (modEp s n f).host = s.host := rfl
@[simp] theorem modEp_hostUp (n : Nat) (f : Endpoint → Endpoint) : (modEp s n f).hostUp = s.hostUp := rfl
@[simp] theorem modEp_parts (n : Nat) (f : Endpoint → Endpoint) : (modEp s n f).parts = s.parts := rfl
@[simp] theorem modEp_lastGen (n : Nat) (f : Endpoint → Endpoint) : (modEp s n f).lastGen = s.lastGen := rfl
@[simp] theorem modEp_lssHold (n : Nat) (f : Endpoint → Endpoint) : (modEp s n f).lssHold = s.lssHold := rfl
@[simp] theorem modEp_freed (n : Nat) (f : Endpoint → Endpoint) : (modEp s n f).freed = s.freed := rfl
@[simp] theorem modEp_claims (n : Nat) (f : Endpoint → Endpoint) : (modEp s n f).claims = s.claims := rfl
@[simp] theorem modEp_nextClaim (n : Nat) (f : Endpoint → Endpoint) : (modEp s n f).nextClaim = s.nextClaim := rfl
@[simp] theorem modEp_grants (n : Nat) (f : Endpoint → Endpoint) : (modEp s n f).grants = s.grants := rfl
@[simp] theorem modEp_clusters (n : Nat) (f : Endpoint → Endpoint) : (modEp s n f).clusters = s.clusters := rfl
@[simp] theorem modEp_hbm (n : Nat) (f : Endpoint → Endpoint) : (modEp s n f).hbm = s.hbm := rfl
@[simp] theorem modEp_fab (n : Nat) (f : Endpoint → Endpoint) : (modEp s n f).fab = s.fab := rfl
@[simp] theorem modEp_eth (n : Nat) (f : Endpoint → Endpoint) : (modEp s n f).eth = s.eth := rfl
@[simp] theorem modEp_cprog (n : Nat) (f : Endpoint → Endpoint) : (modEp s n f).cprog = s.cprog := rfl
@[simp] theorem modEp_health (n : Nat) (f : Endpoint → Endpoint) : (modEp s n f).health = s.health := rfl
@[simp] theorem modEp_spdm (n : Nat) (f : Endpoint → Endpoint) : (modEp s n f).spdm = s.spdm := rfl
@[simp] theorem modEp_fresh (n : Nat) (f : Endpoint → Endpoint) : (modEp s n f).fresh = s.fresh := rfl
@[simp] theorem modEp_out (n : Nat) (f : Endpoint → Endpoint) : (modEp s n f).out = s.out := rfl
@[simp] theorem modEp_flagsAt (n : Nat) (f : Endpoint → Endpoint) : (modEp s n f).flagsAt = s.flagsAt := rfl
@[simp] theorem modEp_pending (n : Nat) (f : Endpoint → Endpoint) : (modEp s n f).pending = s.pending := rfl

/-! ### modLane -/

@[simp] theorem modLane_time (n : Nat) (f : Lane → Lane) : (modLane s n f).time = s.time := rfl
@[simp] theorem modLane_pwr (n : Nat) (f : Lane → Lane) : (modLane s n f).pwr = s.pwr := rfl
@[simp] theorem modLane_boot (n : Nat) (f : Lane → Lane) : (modLane s n f).boot = s.boot := rfl
@[simp] theorem modLane_sec (n : Nat) (f : Lane → Lane) : (modLane s n f).sec = s.sec := rfl
@[simp] theorem modLane_auth (n : Nat) (f : Lane → Lane) : (modLane s n f).auth = s.auth := rfl
@[simp] theorem modLane_uart (n : Nat) (f : Lane → Lane) : (modLane s n f).uart = s.uart := rfl
@[simp] theorem modLane_rings (n : Nat) (f : Lane → Lane) : (modLane s n f).rings = s.rings := rfl
@[simp] theorem modLane_poolVer (n : Nat) (f : Lane → Lane) : (modLane s n f).poolVer = s.poolVer := rfl
@[simp] theorem modLane_outst (n : Nat) (f : Lane → Lane) : (modLane s n f).outst = s.outst := rfl
@[simp] theorem modLane_host (n : Nat) (f : Lane → Lane) : (modLane s n f).host = s.host := rfl
@[simp] theorem modLane_hostUp (n : Nat) (f : Lane → Lane) : (modLane s n f).hostUp = s.hostUp := rfl
@[simp] theorem modLane_parts (n : Nat) (f : Lane → Lane) : (modLane s n f).parts = s.parts := rfl
@[simp] theorem modLane_lastGen (n : Nat) (f : Lane → Lane) : (modLane s n f).lastGen = s.lastGen := rfl
@[simp] theorem modLane_lssHold (n : Nat) (f : Lane → Lane) : (modLane s n f).lssHold = s.lssHold := rfl
@[simp] theorem modLane_freed (n : Nat) (f : Lane → Lane) : (modLane s n f).freed = s.freed := rfl
@[simp] theorem modLane_claims (n : Nat) (f : Lane → Lane) : (modLane s n f).claims = s.claims := rfl
@[simp] theorem modLane_nextClaim (n : Nat) (f : Lane → Lane) : (modLane s n f).nextClaim = s.nextClaim := rfl
@[simp] theorem modLane_grants (n : Nat) (f : Lane → Lane) : (modLane s n f).grants = s.grants := rfl
@[simp] theorem modLane_clusters (n : Nat) (f : Lane → Lane) : (modLane s n f).clusters = s.clusters := rfl
@[simp] theorem modLane_hbm (n : Nat) (f : Lane → Lane) : (modLane s n f).hbm = s.hbm := rfl
@[simp] theorem modLane_fab (n : Nat) (f : Lane → Lane) : (modLane s n f).fab = s.fab := rfl
@[simp] theorem modLane_eth (n : Nat) (f : Lane → Lane) : (modLane s n f).eth = s.eth := rfl
@[simp] theorem modLane_cprog (n : Nat) (f : Lane → Lane) : (modLane s n f).cprog = s.cprog := rfl
@[simp] theorem modLane_health (n : Nat) (f : Lane → Lane) : (modLane s n f).health = s.health := rfl
@[simp] theorem modLane_spdm (n : Nat) (f : Lane → Lane) : (modLane s n f).spdm = s.spdm := rfl
@[simp] theorem modLane_fresh (n : Nat) (f : Lane → Lane) : (modLane s n f).fresh = s.fresh := rfl
@[simp] theorem modLane_out (n : Nat) (f : Lane → Lane) : (modLane s n f).out = s.out := rfl
@[simp] theorem modLane_flagsAt (n : Nat) (f : Lane → Lane) : (modLane s n f).flagsAt = s.flagsAt := rfl
@[simp] theorem modLane_pending (n : Nat) (f : Lane → Lane) : (modLane s n f).pending = s.pending := rfl

/-! ### modInst -/

@[simp] theorem modInst_time (k : Nat) (f : Inst → Inst) : (modInst s k f).time = s.time := rfl
@[simp] theorem modInst_pwr (k : Nat) (f : Inst → Inst) : (modInst s k f).pwr = s.pwr := rfl
@[simp] theorem modInst_boot (k : Nat) (f : Inst → Inst) : (modInst s k f).boot = s.boot := rfl
@[simp] theorem modInst_sec (k : Nat) (f : Inst → Inst) : (modInst s k f).sec = s.sec := rfl
@[simp] theorem modInst_auth (k : Nat) (f : Inst → Inst) : (modInst s k f).auth = s.auth := rfl
@[simp] theorem modInst_uart (k : Nat) (f : Inst → Inst) : (modInst s k f).uart = s.uart := rfl
@[simp] theorem modInst_rings (k : Nat) (f : Inst → Inst) : (modInst s k f).rings = s.rings := rfl
@[simp] theorem modInst_poolVer (k : Nat) (f : Inst → Inst) : (modInst s k f).poolVer = s.poolVer := rfl
@[simp] theorem modInst_outst (k : Nat) (f : Inst → Inst) : (modInst s k f).outst = s.outst := rfl
@[simp] theorem modInst_host (k : Nat) (f : Inst → Inst) : (modInst s k f).host = s.host := rfl
@[simp] theorem modInst_hostUp (k : Nat) (f : Inst → Inst) : (modInst s k f).hostUp = s.hostUp := rfl
@[simp] theorem modInst_parts (k : Nat) (f : Inst → Inst) : (modInst s k f).parts = s.parts := rfl
@[simp] theorem modInst_lastGen (k : Nat) (f : Inst → Inst) : (modInst s k f).lastGen = s.lastGen := rfl
@[simp] theorem modInst_lssHold (k : Nat) (f : Inst → Inst) : (modInst s k f).lssHold = s.lssHold := rfl
@[simp] theorem modInst_freed (k : Nat) (f : Inst → Inst) : (modInst s k f).freed = s.freed := rfl
@[simp] theorem modInst_claims (k : Nat) (f : Inst → Inst) : (modInst s k f).claims = s.claims := rfl
@[simp] theorem modInst_nextClaim (k : Nat) (f : Inst → Inst) : (modInst s k f).nextClaim = s.nextClaim := rfl
@[simp] theorem modInst_grants (k : Nat) (f : Inst → Inst) : (modInst s k f).grants = s.grants := rfl
@[simp] theorem modInst_clusters (k : Nat) (f : Inst → Inst) : (modInst s k f).clusters = s.clusters := rfl
@[simp] theorem modInst_hbm (k : Nat) (f : Inst → Inst) : (modInst s k f).hbm = s.hbm := rfl
@[simp] theorem modInst_fab (k : Nat) (f : Inst → Inst) : (modInst s k f).fab = s.fab := rfl
@[simp] theorem modInst_eth (k : Nat) (f : Inst → Inst) : (modInst s k f).eth = s.eth := rfl
@[simp] theorem modInst_cprog (k : Nat) (f : Inst → Inst) : (modInst s k f).cprog = s.cprog := rfl
@[simp] theorem modInst_health (k : Nat) (f : Inst → Inst) : (modInst s k f).health = s.health := rfl
@[simp] theorem modInst_spdm (k : Nat) (f : Inst → Inst) : (modInst s k f).spdm = s.spdm := rfl
@[simp] theorem modInst_fresh (k : Nat) (f : Inst → Inst) : (modInst s k f).fresh = s.fresh := rfl
@[simp] theorem modInst_out (k : Nat) (f : Inst → Inst) : (modInst s k f).out = s.out := rfl
@[simp] theorem modInst_flagsAt (k : Nat) (f : Inst → Inst) : (modInst s k f).flagsAt = s.flagsAt := rfl
@[simp] theorem modInst_pending (k : Nat) (f : Inst → Inst) : (modInst s k f).pending = s.pending := rfl

/-! ### modPc -/

@[simp] theorem modPc_time (c : Nat) (f : PwrClu → PwrClu) : (modPc s c f).time = s.time := rfl
@[simp] theorem modPc_boot (c : Nat) (f : PwrClu → PwrClu) : (modPc s c f).boot = s.boot := rfl
@[simp] theorem modPc_sec (c : Nat) (f : PwrClu → PwrClu) : (modPc s c f).sec = s.sec := rfl
@[simp] theorem modPc_auth (c : Nat) (f : PwrClu → PwrClu) : (modPc s c f).auth = s.auth := rfl
@[simp] theorem modPc_uart (c : Nat) (f : PwrClu → PwrClu) : (modPc s c f).uart = s.uart := rfl
@[simp] theorem modPc_rings (c : Nat) (f : PwrClu → PwrClu) : (modPc s c f).rings = s.rings := rfl
@[simp] theorem modPc_poolVer (c : Nat) (f : PwrClu → PwrClu) : (modPc s c f).poolVer = s.poolVer := rfl
@[simp] theorem modPc_outst (c : Nat) (f : PwrClu → PwrClu) : (modPc s c f).outst = s.outst := rfl
@[simp] theorem modPc_host (c : Nat) (f : PwrClu → PwrClu) : (modPc s c f).host = s.host := rfl
@[simp] theorem modPc_hostUp (c : Nat) (f : PwrClu → PwrClu) : (modPc s c f).hostUp = s.hostUp := rfl
@[simp] theorem modPc_parts (c : Nat) (f : PwrClu → PwrClu) : (modPc s c f).parts = s.parts := rfl
@[simp] theorem modPc_lastGen (c : Nat) (f : PwrClu → PwrClu) : (modPc s c f).lastGen = s.lastGen := rfl
@[simp] theorem modPc_lssHold (c : Nat) (f : PwrClu → PwrClu) : (modPc s c f).lssHold = s.lssHold := rfl
@[simp] theorem modPc_freed (c : Nat) (f : PwrClu → PwrClu) : (modPc s c f).freed = s.freed := rfl
@[simp] theorem modPc_claims (c : Nat) (f : PwrClu → PwrClu) : (modPc s c f).claims = s.claims := rfl
@[simp] theorem modPc_nextClaim (c : Nat) (f : PwrClu → PwrClu) : (modPc s c f).nextClaim = s.nextClaim := rfl
@[simp] theorem modPc_grants (c : Nat) (f : PwrClu → PwrClu) : (modPc s c f).grants = s.grants := rfl
@[simp] theorem modPc_clusters (c : Nat) (f : PwrClu → PwrClu) : (modPc s c f).clusters = s.clusters := rfl
@[simp] theorem modPc_hbm (c : Nat) (f : PwrClu → PwrClu) : (modPc s c f).hbm = s.hbm := rfl
@[simp] theorem modPc_radio (c : Nat) (f : PwrClu → PwrClu) : (modPc s c f).radio = s.radio := rfl
@[simp] theorem modPc_fab (c : Nat) (f : PwrClu → PwrClu) : (modPc s c f).fab = s.fab := rfl
@[simp] theorem modPc_eth (c : Nat) (f : PwrClu → PwrClu) : (modPc s c f).eth = s.eth := rfl
@[simp] theorem modPc_cprog (c : Nat) (f : PwrClu → PwrClu) : (modPc s c f).cprog = s.cprog := rfl
@[simp] theorem modPc_health (c : Nat) (f : PwrClu → PwrClu) : (modPc s c f).health = s.health := rfl
@[simp] theorem modPc_spdm (c : Nat) (f : PwrClu → PwrClu) : (modPc s c f).spdm = s.spdm := rfl
@[simp] theorem modPc_fresh (c : Nat) (f : PwrClu → PwrClu) : (modPc s c f).fresh = s.fresh := rfl
@[simp] theorem modPc_out (c : Nat) (f : PwrClu → PwrClu) : (modPc s c f).out = s.out := rfl
@[simp] theorem modPc_flagsAt (c : Nat) (f : PwrClu → PwrClu) : (modPc s c f).flagsAt = s.flagsAt := rfl
@[simp] theorem modPc_pending (c : Nat) (f : PwrClu → PwrClu) : (modPc s c f).pending = s.pending := rfl

/-! ### emit -/

@[simp] theorem emit_time (o : Out) : (emit s o).time = s.time := rfl
@[simp] theorem emit_pwr (o : Out) : (emit s o).pwr = s.pwr := rfl
@[simp] theorem emit_boot (o : Out) : (emit s o).boot = s.boot := rfl
@[simp] theorem emit_sec (o : Out) : (emit s o).sec = s.sec := rfl
@[simp] theorem emit_auth (o : Out) : (emit s o).auth = s.auth := rfl
@[simp] theorem emit_uart (o : Out) : (emit s o).uart = s.uart := rfl
@[simp] theorem emit_rings (o : Out) : (emit s o).rings = s.rings := rfl
@[simp] theorem emit_poolVer (o : Out) : (emit s o).poolVer = s.poolVer := rfl
@[simp] theorem emit_outst (o : Out) : (emit s o).outst = s.outst := rfl
@[simp] theorem emit_host (o : Out) : (emit s o).host = s.host := rfl
@[simp] theorem emit_hostUp (o : Out) : (emit s o).hostUp = s.hostUp := rfl
@[simp] theorem emit_parts (o : Out) : (emit s o).parts = s.parts := rfl
@[simp] theorem emit_lastGen (o : Out) : (emit s o).lastGen = s.lastGen := rfl
@[simp] theorem emit_lssHold (o : Out) : (emit s o).lssHold = s.lssHold := rfl
@[simp] theorem emit_freed (o : Out) : (emit s o).freed = s.freed := rfl
@[simp] theorem emit_claims (o : Out) : (emit s o).claims = s.claims := rfl
@[simp] theorem emit_nextClaim (o : Out) : (emit s o).nextClaim = s.nextClaim := rfl
@[simp] theorem emit_grants (o : Out) : (emit s o).grants = s.grants := rfl
@[simp] theorem emit_clusters (o : Out) : (emit s o).clusters = s.clusters := rfl
@[simp] theorem emit_hbm (o : Out) : (emit s o).hbm = s.hbm := rfl
@[simp] theorem emit_radio (o : Out) : (emit s o).radio = s.radio := rfl
@[simp] theorem emit_fab (o : Out) : (emit s o).fab = s.fab := rfl
@[simp] theorem emit_eth (o : Out) : (emit s o).eth = s.eth := rfl
@[simp] theorem emit_cprog (o : Out) : (emit s o).cprog = s.cprog := rfl
@[simp] theorem emit_health (o : Out) : (emit s o).health = s.health := rfl
@[simp] theorem emit_spdm (o : Out) : (emit s o).spdm = s.spdm := rfl
@[simp] theorem emit_fresh (o : Out) : (emit s o).fresh = s.fresh := rfl
@[simp] theorem emit_pending (o : Out) : (emit s o).pending = s.pending := rfl

/-! ### Entries -/

theorem getRing_modRing_self (k : Nat) (f : Ring → Ring) (h : f (getRing s k) ≠ {}) : getRing (modRing s k f) k = f (getRing s k) :=
  tabGet_tabMod_self ({} : Ring) s.rings k f h

theorem getRing_modRing_other {k j : Nat} (f : Ring → Ring) (h : k ≠ j) : getRing (modRing s k f) j = getRing s j :=
  tabGet_tabMod_other ({} : Ring) s.rings f h

theorem getPart_modPart_self (p : Nat) (f : Part → Part) (h : f (getPart s p) ≠ {}) : getPart (modPart s p f) p = f (getPart s p) :=
  tabGet_tabMod_self ({} : Part) s.parts p f h

theorem getPart_modPart_other {p j : Nat} (f : Part → Part) (h : p ≠ j) : getPart (modPart s p f) j = getPart s j :=
  tabGet_tabMod_other ({} : Part) s.parts f h

theorem getClu_modClu_self (c : Nat) (f : Cluster → Cluster) (h : f (getClu s c) ≠ {}) : getClu (modClu s c f) c = f (getClu s c) :=
  tabGet_tabMod_self ({} : Cluster) s.clusters c f h

theorem getClu_modClu_other {c j : Nat} (f : Cluster → Cluster) (h : c ≠ j) : getClu (modClu s c f) j = getClu s j :=
  tabGet_tabMod_other ({} : Cluster) s.clusters f h

theorem getLink_modLink_self (l : Nat) (f : Link → Link) (h : f (getLink s l) ≠ {}) : getLink (modLink s l f) l = f (getLink s l) :=
  tabGet_tabMod_self ({} : Link) s.fab.links l f h

theorem getLink_modLink_other {l j : Nat} (f : Link → Link) (h : l ≠ j) : getLink (modLink s l f) j = getLink s j :=
  tabGet_tabMod_other ({} : Link) s.fab.links f h

theorem getPort_modPort_self (n : Nat) (f : EthPort → EthPort) (h : f (getPort s n) ≠ {}) : getPort (modPort s n f) n = f (getPort s n) :=
  tabGet_tabMod_self ({} : EthPort) s.eth.ports n f h

theorem getPort_modPort_other {n j : Nat} (f : EthPort → EthPort) (h : n ≠ j) : getPort (modPort s n f) j = getPort s j :=
  tabGet_tabMod_other ({} : EthPort) s.eth.ports f h

theorem getQ_modQ_self (q : Nat) (f : TmQ → TmQ) (h : f (getQ s q) ≠ {}) : getQ (modQ s q f) q = f (getQ s q) :=
  tabGet_tabMod_self ({} : TmQ) s.eth.qs q f h

theorem getQ_modQ_other {q j : Nat} (f : TmQ → TmQ) (h : q ≠ j) : getQ (modQ s q f) j = getQ s j :=
  tabGet_tabMod_other ({} : TmQ) s.eth.qs f h

theorem getTmp_modTmp_self (p : Nat) (f : TmPart → TmPart) (h : f (getTmp s p) ≠ {}) : getTmp (modTmp s p f) p = f (getTmp s p) :=
  tabGet_tabMod_self ({} : TmPart) s.eth.tmp p f h

theorem getTmp_modTmp_other {p j : Nat} (f : TmPart → TmPart) (h : p ≠ j) : getTmp (modTmp s p f) j = getTmp s j :=
  tabGet_tabMod_other ({} : TmPart) s.eth.tmp f h

theorem getQp_modQp_self (q : Nat) (f : Qp → Qp) (h : f (getQp s q) ≠ {}) : getQp (modQp s q f) q = f (getQp s q) :=
  tabGet_tabMod_self ({} : Qp) s.eth.qps q f h

theorem getQp_modQp_other {q j : Nat} (f : Qp → Qp) (h : q ≠ j) : getQp (modQp s q f) j = getQp s j :=
  tabGet_tabMod_other ({} : Qp) s.eth.qps f h

theorem getCell_modCell_self (n : Nat) (f : Cell → Cell) (h : f (getCell s n) ≠ {}) : getCell (modCell s n f) n = f (getCell s n) :=
  tabGet_tabMod_self ({} : Cell) s.radio.cells n f h

theorem getCell_modCell_other {n j : Nat} (f : Cell → Cell) (h : n ≠ j) : getCell (modCell s n f) j = getCell s j :=
  tabGet_tabMod_other ({} : Cell) s.radio.cells f h

theorem getStream_modStream_self (n : Nat) (f : Stream → Stream) (h : f (getStream s n) ≠ {}) : getStream (modStream s n f) n = f (getStream s n) :=
  tabGet_tabMod_self ({} : Stream) s.radio.streams n f h

theorem getStream_modStream_other {n j : Nat} (f : Stream → Stream) (h : n ≠ j) : getStream (modStream s n f) j = getStream s j :=
  tabGet_tabMod_other ({} : Stream) s.radio.streams f h

theorem getEp_modEp_self (n : Nat) (f : Endpoint → Endpoint) (h : f (getEp s n) ≠ {}) : getEp (modEp s n f) n = f (getEp s n) :=
  tabGet_tabMod_self ({} : Endpoint) s.radio.eps n f h

theorem getEp_modEp_other {n j : Nat} (f : Endpoint → Endpoint) (h : n ≠ j) : getEp (modEp s n f) j = getEp s j :=
  tabGet_tabMod_other ({} : Endpoint) s.radio.eps f h

theorem getLane_modLane_self (n : Nat) (f : Lane → Lane) (h : f (getLane s n) ≠ {}) : getLane (modLane s n f) n = f (getLane s n) :=
  tabGet_tabMod_self ({} : Lane) s.radio.lanes n f h

theorem getLane_modLane_other {n j : Nat} (f : Lane → Lane) (h : n ≠ j) : getLane (modLane s n f) j = getLane s j :=
  tabGet_tabMod_other ({} : Lane) s.radio.lanes f h

theorem getInst_modInst_self (k : Nat) (f : Inst → Inst) (h : f (getInst s k) ≠ {}) : getInst (modInst s k f) k = f (getInst s k) :=
  tabGet_tabMod_self ({} : Inst) s.radio.inst k f h

theorem getInst_modInst_other {k j : Nat} (f : Inst → Inst) (h : k ≠ j) : getInst (modInst s k f) j = getInst s j :=
  tabGet_tabMod_other ({} : Inst) s.radio.inst f h

theorem getPc_modPc_self (c : Nat) (f : PwrClu → PwrClu) (h : f (getPc s c) ≠ {}) : getPc (modPc s c f) c = f (getPc s c) :=
  tabGet_tabMod_self ({} : PwrClu) s.pwr.clu c f h

theorem getPc_modPc_other {c j : Nat} (f : PwrClu → PwrClu) (h : c ≠ j) : getPc (modPc s c f) j = getPc s j :=
  tabGet_tabMod_other ({} : PwrClu) s.pwr.clu f h

theorem getCsp_modCsp_self (c x : Nat) (f : CspCtx → CspCtx) (h : f (getCsp s c x) ≠ {}) : getCsp (modCsp s c x f) c x = f (getCsp s c x) := by
  have hc : tabGet {} (tabMod {} (getClu s c).csp x f) x ≠ ({} : CspCtx) := by
    rw [tabGet_tabMod_self ({} : CspCtx) (getClu s c).csp x f h]; exact h
  have hne : ({ getClu s c with csp := tabMod {} (getClu s c).csp x f } : Cluster) ≠ {} := by
    intro e
    have e' : tabMod ({} : CspCtx) (getClu s c).csp x f = [] := congrArg Cluster.csp e
    rw [e'] at hc; exact hc rfl
  show tabGet {} (getClu (modClu s c _) c).csp x = _
  rw [getClu_modClu_self s c _ hne]
  exact tabGet_tabMod_self ({} : CspCtx) (getClu s c).csp x f h

theorem modCsp_modCsp (c x : Nat) (f g : CspCtx → CspCtx) (h : f (getCsp s c x) ≠ {}) :
    modCsp (modCsp s c x f) c x g = modCsp s c x (fun o => g (f o)) := by
  have hc : tabGet {} (tabMod {} (getClu s c).csp x f) x ≠ ({} : CspCtx) := by
    rw [tabGet_tabMod_self ({} : CspCtx) (getClu s c).csp x f h]; exact h
  have hne : ({ getClu s c with csp := tabMod {} (getClu s c).csp x f } : Cluster) ≠ {} := by
    intro e
    have e' : tabMod ({} : CspCtx) (getClu s c).csp x f = [] := congrArg Cluster.csp e
    rw [e'] at hc; exact hc rfl
  simp only [modCsp, modClu]
  rw [tabMod_tabMod ({} : Cluster) s.clusters c _ _ hne]
  have e : tabMod ({} : CspCtx) (tabMod {} (getClu s c).csp x f) x g = tabMod {} (getClu s c).csp x (fun o => g (f o)) :=
    tabMod_tabMod ({} : CspCtx) (getClu s c).csp x f g h
  simp only [tabMod, getClu] at e ⊢
  rw [e]

theorem getEng_modEng_self (c x : Nat) (f : Engine → Engine) (h : f (getEng s c x) ≠ {}) : getEng (modEng s c x f) c x = f (getEng s c x) := by
  have hc : tabGet {} (tabMod {} (getClu s c).eng x f) x ≠ ({} : Engine) := by
    rw [tabGet_tabMod_self ({} : Engine) (getClu s c).eng x f h]; exact h
  have hne : ({ getClu s c with eng := tabMod {} (getClu s c).eng x f } : Cluster) ≠ {} := by
    intro e
    have e' : tabMod ({} : Engine) (getClu s c).eng x f = [] := congrArg Cluster.eng e
    rw [e'] at hc; exact hc rfl
  show tabGet {} (getClu (modClu s c _) c).eng x = _
  rw [getClu_modClu_self s c _ hne]
  exact tabGet_tabMod_self ({} : Engine) (getClu s c).eng x f h

theorem modEng_modEng (c x : Nat) (f g : Engine → Engine) (h : f (getEng s c x) ≠ {}) :
    modEng (modEng s c x f) c x g = modEng s c x (fun o => g (f o)) := by
  have hc : tabGet {} (tabMod {} (getClu s c).eng x f) x ≠ ({} : Engine) := by
    rw [tabGet_tabMod_self ({} : Engine) (getClu s c).eng x f h]; exact h
  have hne : ({ getClu s c with eng := tabMod {} (getClu s c).eng x f } : Cluster) ≠ {} := by
    intro e
    have e' : tabMod ({} : Engine) (getClu s c).eng x f = [] := congrArg Cluster.eng e
    rw [e'] at hc; exact hc rfl
  simp only [modEng, modClu]
  rw [tabMod_tabMod ({} : Cluster) s.clusters c _ _ hne]
  have e : tabMod ({} : Engine) (tabMod {} (getClu s c).eng x f) x g = tabMod {} (getClu s c).eng x (fun o => g (f o)) :=
    tabMod_tabMod ({} : Engine) (getClu s c).eng x f g h
  simp only [tabMod, getClu] at e ⊢
  rw [e]

theorem getLa_modLa_self (c x : Nat) (f : LArray → LArray) (h : f (getLa s c x) ≠ {}) : getLa (modLa s c x f) c x = f (getLa s c x) := by
  have hc : tabGet {} (tabMod {} (getClu s c).la x f) x ≠ ({} : LArray) := by
    rw [tabGet_tabMod_self ({} : LArray) (getClu s c).la x f h]; exact h
  have hne : ({ getClu s c with la := tabMod {} (getClu s c).la x f } : Cluster) ≠ {} := by
    intro e
    have e' : tabMod ({} : LArray) (getClu s c).la x f = [] := congrArg Cluster.la e
    rw [e'] at hc; exact hc rfl
  show tabGet {} (getClu (modClu s c _) c).la x = _
  rw [getClu_modClu_self s c _ hne]
  exact tabGet_tabMod_self ({} : LArray) (getClu s c).la x f h

theorem modLa_modLa (c x : Nat) (f g : LArray → LArray) (h : f (getLa s c x) ≠ {}) :
    modLa (modLa s c x f) c x g = modLa s c x (fun o => g (f o)) := by
  have hc : tabGet {} (tabMod {} (getClu s c).la x f) x ≠ ({} : LArray) := by
    rw [tabGet_tabMod_self ({} : LArray) (getClu s c).la x f h]; exact h
  have hne : ({ getClu s c with la := tabMod {} (getClu s c).la x f } : Cluster) ≠ {} := by
    intro e
    have e' : tabMod ({} : LArray) (getClu s c).la x f = [] := congrArg Cluster.la e
    rw [e'] at hc; exact hc rfl
  simp only [modLa, modClu]
  rw [tabMod_tabMod ({} : Cluster) s.clusters c _ _ hne]
  have e : tabMod ({} : LArray) (tabMod {} (getClu s c).la x f) x g = tabMod {} (getClu s c).la x (fun o => g (f o)) :=
    tabMod_tabMod ({} : LArray) (getClu s c).la x f g h
  simp only [tabMod, getClu] at e ⊢
  rw [e]

theorem getPa_modPa_self (c x : Nat) (f : PArray → PArray) (h : f (getPa s c x) ≠ {}) : getPa (modPa s c x f) c x = f (getPa s c x) := by
  have hc : tabGet {} (tabMod {} (getClu s c).pa x f) x ≠ ({} : PArray) := by
    rw [tabGet_tabMod_self ({} : PArray) (getClu s c).pa x f h]; exact h
  have hne : ({ getClu s c with pa := tabMod {} (getClu s c).pa x f } : Cluster) ≠ {} := by
    intro e
    have e' : tabMod ({} : PArray) (getClu s c).pa x f = [] := congrArg Cluster.pa e
    rw [e'] at hc; exact hc rfl
  show tabGet {} (getClu (modClu s c _) c).pa x = _
  rw [getClu_modClu_self s c _ hne]
  exact tabGet_tabMod_self ({} : PArray) (getClu s c).pa x f h

theorem modPa_modPa (c x : Nat) (f g : PArray → PArray) (h : f (getPa s c x) ≠ {}) :
    modPa (modPa s c x f) c x g = modPa s c x (fun o => g (f o)) := by
  have hc : tabGet {} (tabMod {} (getClu s c).pa x f) x ≠ ({} : PArray) := by
    rw [tabGet_tabMod_self ({} : PArray) (getClu s c).pa x f h]; exact h
  have hne : ({ getClu s c with pa := tabMod {} (getClu s c).pa x f } : Cluster) ≠ {} := by
    intro e
    have e' : tabMod ({} : PArray) (getClu s c).pa x f = [] := congrArg Cluster.pa e
    rw [e'] at hc; exact hc rfl
  simp only [modPa, modClu]
  rw [tabMod_tabMod ({} : Cluster) s.clusters c _ _ hne]
  have e : tabMod ({} : PArray) (tabMod {} (getClu s c).pa x f) x g = tabMod {} (getClu s c).pa x (fun o => g (f o)) :=
    tabMod_tabMod ({} : PArray) (getClu s c).pa x f g h
  simp only [tabMod, getClu] at e ⊢
  rw [e]

theorem modPart_modPart (p : Nat) (f g : Part → Part) (h : f (getPart s p) ≠ {}) :
    modPart (modPart s p f) p g = modPart s p (fun P => g (f P)) := by
  simp only [modPart]
  rw [tabMod_tabMod ({} : Part) s.parts p f g h]

theorem modRing_modRing (k : Nat) (f g : Ring → Ring) (h : f (getRing s k) ≠ {}) :
    modRing (modRing s k f) k g = modRing s k (fun r => g (f r)) := by
  simp only [modRing]
  rw [tabMod_tabMod ({} : Ring) s.rings k f g h]

end Sys2Proof.Machine
end

