-- ==== Sys2Proof/Laws/Csp.lean ====
section
/-! SUPPORT. What a CSP slot does: its effect on its context and the end of its bundle; lanes read back what was packed. -/

namespace Sys2Proof.Machine

open Sys2Proof

/-- A context under way is none of the unlisted ones. -/
theorem mid_ne (f : CspCtx → CspCtx) (o : CspCtx) (h : (f { o with mid := true }).mid = true) :
    f { o with mid := true } ≠ {} := by
  intro e
  rw [e] at h
  exact absurd h (by decide)

/-- A slot that issues has its effect, and ends its bundle if it is the last. -/
theorem cspSlot_issues {k : Slot} {s : State} (h : SlotIssues k s) (f : State → State) :
    cspSlot k s f = .next (slotEnd k (f (modCsp s k.c.val k.x.val (fun o => { o with mid := true })))) := by
  simp only [cspSlot, inRun, h.1, h.2.1, h.2.2, slotEnd, if_true, Bool.not_true, if_false, Bool.false_eq_true]

/-- A slot that cannot issue does nothing. -/
theorem cspSlot_stalled {k : Slot} {s : State} (h : cspOk s k.c.val k.x.val = false) (f : State → State) :
    cspSlot k s f = .next s := by
  simp only [cspSlot, inRun, h]
  split <;> simp

/-- The registers that a slot reads are those from before its bundle. -/
@[simp] theorem oldRegs_mid (s : State) (k : Slot) :
    oldRegs (modCsp s k.c.val k.x.val (fun o => { o with mid := true })) k = oldRegs s k := by
  simp only [oldRegs]
  rw [getCsp_modCsp_self]
  exact mid_ne (fun o => o) _ rfl

/-- The context of a slot under way. -/
theorem getCsp_mid (s : State) (k : Slot) :
    getCsp (modCsp s k.c.val k.x.val (fun o => { o with mid := true })) k.c.val k.x.val =
      { getCsp s k.c.val k.x.val with mid := true } := by
  rw [getCsp_modCsp_self]
  exact mid_ne (fun o => o) _ rfl

/-- A change of the context by a slot is its effect. -/
theorem modCsp_mid (s : State) (k : Slot) (f : CspCtx → CspCtx) :
    modCsp (modCsp s k.c.val k.x.val (fun o => { o with mid := true })) k.c.val k.x.val f = slotEffect k f s := by
  rw [modCsp_modCsp]
  · rfl
  · exact mid_ne (fun o => o) _ rfl

/-- A second change after an effect that leaves the bundle under way. -/
theorem modCsp_slotEffect (s : State) (k : Slot) (f g : CspCtx → CspCtx) (h : ∀ o, o.mid = true → (f o).mid = true) :
    modCsp (slotEffect k f s) k.c.val k.x.val g = slotEffect k (fun o => g (f o)) s := by
  unfold slotEffect
  rw [modCsp_modCsp]
  exact mid_ne f _ (h _ rfl)

/-- A slot that only clears nothing and writes nothing leaves the bundle under way. -/
theorem mid_effect (s : State) (k : Slot) :
    modCsp s k.c.val k.x.val (fun o => { o with mid := true }) = slotEffect k (fun o => o) s := rfl

/-- A flag that is noted and a change of a context do not meet. -/
theorem modCsp_noteFlag (s : State) (b : W1cBit) (c x : Nat) (f : CspCtx → CspCtx) :
    modCsp (noteFlag s b) c x f = noteFlag (modCsp s c x f) b := rfl

/-- A data register write, with the clamp flag before it. -/
theorem wrD_setSat (s : State) (k : Slot) (d : Fin 32) (v : GranuleBits) (p b : Bool) :
    wrD (setSat (modCsp s k.c.val k.x.val (fun o => { o with mid := true })) k b) k d.val v p =
      slotSat k b (slotEffect k (writesD d v p b) s) := by
  cases b
  · simp only [setSat, slotSat, wrD, modRegs, Bool.false_eq_true, if_false, modCsp_mid]
    congr 1; funext o; simp [writesD]
  · simp only [setSat, slotSat, wrD, modRegs, if_true, modCsp_noteFlag, modCsp_mid]
    congr 1
    refine (modCsp_slotEffect s k (fun o => { o with sat := true }) _ (fun o ho => ho)).trans ?_
    congr 1; funext o; simp [writesD]

/-- A data register write. -/
theorem wrD_mid (s : State) (k : Slot) (d : Fin 32) (v : GranuleBits) (p : Bool) :
    wrD (modCsp s k.c.val k.x.val (fun o => { o with mid := true })) k d.val v p = slotEffect k (writesD d v p false) s := by
  simpa [setSat, slotSat] using wrD_setSat s k d v p false

/-- An accumulator write, with the clamp flag before it. -/
theorem wrAcc_setSat (s : State) (k : Slot) (a : Fin 8) (v : BitVec 1280) (p b : Bool) :
    wrAcc (setSat (modCsp s k.c.val k.x.val (fun o => { o with mid := true })) k b) k a.val v p =
      slotSat k b (slotEffect k (writesAcc a v p b) s) := by
  cases b
  · simp only [setSat, slotSat, wrAcc, modRegs, Bool.false_eq_true, if_false, modCsp_mid]
    congr 1; funext o; simp [writesAcc]
  · simp only [setSat, slotSat, wrAcc, modRegs, if_true, modCsp_noteFlag, modCsp_mid]
    congr 1
    refine (modCsp_slotEffect s k (fun o => { o with sat := true }) _ (fun o ho => ho)).trans ?_
    congr 1; funext o; simp [writesAcc]

/-- A two-source vector instruction that issues. -/
theorem vec2_issues {k : Slot} {s : State} (h : SlotIssues k s) (d u v : Fin 32) (f : GranuleBits → GranuleBits → GranuleBits) :
    vec2 k d u v f s = .next (slotEnd k (slotEffect k
      (writesD d (f (srcD s k u) (srcD s k v)) (srcPsn s k u || srcPsn s k v) false) s)) := by
  simp only [vec2, cspSlot_issues h, oldRegs_mid, wrD_mid, srcD, srcPsn]

/-- A one-source vector instruction that issues. -/
theorem vec1_issues {k : Slot} {s : State} (h : SlotIssues k s) (d u : Fin 32) (f : GranuleBits → GranuleBits) :
    vec1 k d u f s = .next (slotEnd k (slotEffect k (writesD d (f (srcD s k u)) (srcPsn s k u) false) s)) := by
  simp only [vec1, cspSlot_issues h, oldRegs_mid, wrD_mid, srcD, srcPsn]

/-- A scalar instruction that issues. -/
theorem scalar_issues {k : Slot} {s : State} (h : SlotIssues k s) (f : CspRegs → CspRegs → CspRegs) :
    scalar k f s = .next (slotEnd k (slotEffect k (fun o => { o with regs := f (oldRegs s k) o.regs }) s)) := by
  simp only [scalar, cspSlot_issues h, oldRegs_mid, modRegs, modCsp_mid]

/-! ### Lanes -/

/-- The number that lanes spell is below its width. -/
theorem packNat_lt (w : Nat) (l : List Nat) : packNat w l < 2 ^ (w * l.length) := by
  induction l with
  | nil => simp [packNat]
  | cons a t ih =>
    have h1 : a % 2 ^ w < 2 ^ w := Nat.mod_lt _ (Nat.two_pow_pos w)
    simp only [packNat, List.length_cons, Nat.mul_succ]
    rw [Nat.add_comm (w * t.length) w, Nat.pow_add]
    calc a % 2 ^ w + 2 ^ w * packNat w t < 2 ^ w + 2 ^ w * packNat w t := by omega
      _ = 2 ^ w * (packNat w t + 1) := by ring
      _ ≤ 2 ^ w * 2 ^ (w * t.length) := Nat.mul_le_mul_left _ ih

/-- A lane of the number that lanes spell. -/
theorem packNat_lane (w : Nat) (l : List Nat) (i : Nat) : packNat w l / 2 ^ (w * i) % 2 ^ w = l.getD i 0 % 2 ^ w := by
  induction l generalizing i with
  | nil => simp [packNat]
  | cons a t ih =>
    have hp : 0 < 2 ^ w := Nat.two_pow_pos w
    cases i with
    | zero => simp [packNat, Nat.add_mod]
    | succ i =>
      have : packNat w (a :: t) / 2 ^ (w * (i + 1)) = packNat w t / 2 ^ (w * i) := by
        rw [Nat.mul_succ, Nat.add_comm, Nat.pow_add, ← Nat.div_div_eq_div_mul]
        congr 1
        simp only [packNat]
        rw [Nat.add_mul_div_left _ _ hp, Nat.div_eq_of_lt (Nat.mod_lt _ hp), Nat.zero_add]
      rw [this, ih]
      simp

/-- A lane of a packed data register. -/
theorem lane_packD {w : Nat} {l : List Nat} (h : w * l.length ≤ 512) (i : Nat) : lane w (packD w l) i = l.getD i 0 % 2 ^ w := by
  have hlt : packNat w l < 2 ^ 512 := Nat.lt_of_lt_of_le (packNat_lt w l) (Nat.pow_le_pow_right Nat.two_pos h)
  simp only [lane, packD, BitVec.toNat_ofNat, Nat.mod_eq_of_lt hlt]
  exact packNat_lane w l i

/-- A lane is below its width. -/
theorem lane_lt (w : Nat) (v : GranuleBits) (i : Nat) : lane w v i < 2 ^ w := Nat.mod_lt _ (Nat.two_pow_pos w)

/-- Lanes of every lane type fill a data register. -/
theorem ltBits_mul (t : Lt) : ltBits t * (512 / ltBits t) = 512 := by cases t <;> rfl

/-- A lane of a register made lane by lane. -/
theorem lane_ofLanes (t : Lt) (f : Nat → Nat) {i : Nat} (h : i < 512 / ltBits t) :
    lane (ltBits t) (packD (ltBits t) ((List.range (512 / ltBits t)).map f)) i = f i % 2 ^ ltBits t := by
  rw [lane_packD (by rw [List.length_map, List.length_range, ltBits_mul])]
  simp [List.getD, h]

/-- The signed value of a number in range comes back. -/
theorem toSigned_ofSigned {w : Nat} (hw : 0 < w) {x : Int} (h1 : -(2 ^ (w - 1) : Int) ≤ x) (h2 : x < 2 ^ (w - 1)) :
    toSigned w (ofSigned w x) = x := by
  obtain ⟨n, rfl⟩ : ∃ n, w = n + 1 := ⟨w - 1, by omega⟩
  simp only [Nat.add_sub_cancel] at h1 h2
  have hp : (2 : Int) ^ (n + 1) = 2 * 2 ^ n := by rw [pow_succ]; ring
  have hpos : (0 : Int) < 2 ^ n := by positivity
  have hmod0 : 0 ≤ x % (2 ^ (n + 1) : Int) := Int.emod_nonneg _ (by rw [hp]; omega)
  have hmod1 : x % (2 ^ (n + 1) : Int) < 2 ^ (n + 1) := Int.emod_lt_of_pos _ (by rw [hp]; omega)
  have hN : (((x % (2 ^ (n + 1) : Int)).toNat : Nat) : Int) = x % (2 ^ (n + 1) : Int) := Int.toNat_of_nonneg hmod0
  have hlt : (x % (2 ^ (n + 1) : Int)).toNat < 2 ^ (n + 1) := by
    have : (((x % (2 ^ (n + 1) : Int)).toNat : Nat) : Int) < ((2 ^ (n + 1) : Nat) : Int) := by rw [hN]; push_cast; exact hmod1
    exact_mod_cast this
  simp only [toSigned, ofSigned]
  push_cast
  rw [Nat.mod_eq_of_lt hlt]
  have hcond : (2 * (x % (2 ^ (n + 1) : Int)).toNat < 2 ^ (n + 1)) ↔ 2 * (x % (2 ^ (n + 1) : Int)) < 2 ^ (n + 1) := by
    constructor
    · intro h
      have : ((2 * (x % (2 ^ (n + 1) : Int)).toNat : Nat) : Int) < ((2 ^ (n + 1) : Nat) : Int) := by exact_mod_cast h
      push_cast at this; rw [hN] at this; exact this
    · intro h
      have : ((2 * (x % (2 ^ (n + 1) : Int)).toNat : Nat) : Int) < ((2 ^ (n + 1) : Nat) : Int) := by
        push_cast; rw [hN]; exact h
      exact_mod_cast this
  by_cases hx : 0 ≤ x
  · have e : x % (2 ^ (n + 1) : Int) = x := Int.emod_eq_of_lt hx (by omega)
    rw [if_pos (hcond.2 (by omega)), hN, e, e]
  · have e : x % (2 ^ (n + 1) : Int) = x + 2 ^ (n + 1) := by
      rw [← Int.add_emod_right]; exact Int.emod_eq_of_lt (by omega) (by omega)
    rw [if_neg (fun h => by have := hcond.1 h; omega), hN, Int.emod_emod_of_dvd x (dvd_refl ((2 : Int) ^ (n + 1))), e]; ring

end Sys2Proof.Machine
end

