-- ==== Sys2Proof/Laws/PerInstr.lean ====
section
/-! SUPPORT. A family of facts per command: a well-formed command carries as many words as its row's rule gives. -/

namespace Sys2Proof.Laws.WF

set_option Elab.async false

open Sys2Proof

/-- The word lists among a command's operands, each with the number of words that its rule gives it: a command packet's twelve
parameter words (R366), the descriptor of an array operation (R67), a fabric entry (R280) and the description of a coding job (R198). -/
def words (i : Instr) : List (List Word × Nat) :=
  match i with
  | .mma _ _ d => [(d, 16)]
  | .accPreload _ _ d => [(d, 16)]
  | .accDrain _ _ d => [(d, 16)]
  | .getVersion _ k => [(k.w, 12)]
  | .poolAuth _ k => [(k.w, 12)]
  | .spdm _ k => [(k.w, 12)]
  | .timeConfig _ k => [(k.w, 12)]
  | .timeFreerun _ k => [(k.w, 12)]
  | .cloveProgLoad _ k => [(k.w, 12)]
  | .cloveProgCommit _ k => [(k.w, 12)]
  | .partCreate _ k => [(k.w, 12)]
  | .partDestroy _ k => [(k.w, 12)]
  | .partReset _ k => [(k.w, 12)]
  | .partFreeze _ k => [(k.w, 12)]
  | .partThaw _ k => [(k.w, 12)]
  | .partSave _ k => [(k.w, 12)]
  | .partRestore _ k => [(k.w, 12)]
  | .dirtySwap _ k => [(k.w, 12)]
  | .memMap _ k => [(k.w, 12)]
  | .memUnmap _ k => [(k.w, 12)]
  | .descCreate _ k => [(k.w, 12)]
  | .descDestroy _ k => [(k.w, 12)]
  | .cardLoad _ k => [(k.w, 12)]
  | .cspLoad _ k => [(k.w, 12)]
  | .progLoad _ k => [(k.w, 12)]
  | .progUnload _ k => [(k.w, 12)]
  | .taskSubmit _ k => [(k.w, 12)]
  | .launchAt _ k => [(k.w, 12)]
  | .ruAdd _ k => [(k.w, 12)]
  | .ruRemove _ k => [(k.w, 12)]
  | .ruStats _ k => [(k.w, 12)]
  | .cellAdd _ k => [(k.w, 12)]
  | .cellRemove _ k => [(k.w, 12)]
  | .cellExport _ k => [(k.w, 12)]
  | .cellImport _ k => [(k.w, 12)]
  | .radClaim _ k => [(k.w, 12)]
  | .fabDma _ k => [(k.w, 12)]
  | .fabInval _ k => [(k.w, 12)]
  | .fabExport _ k => [(k.w, 12)]
  | .fabUnexport _ k => [(k.w, 12)]
  | .netQpCreate _ k => [(k.w, 12)]
  | .netQpDestroy _ k => [(k.w, 12)]
  | .netMrReg _ k => [(k.w, 12)]
  | .netMrDereg _ k => [(k.w, 12)]
  | .netRawCfg _ k => [(k.w, 12)]
  | .svcClusterTest _ k => [(k.w, 12)]
  | .svcEngineBypass _ k => [(k.w, 12)]
  | .svcPcRetire _ k => [(k.w, 12)]
  | .load _ _ e => [(e, 8)]
  | .store _ _ e => [(e, 8)]
  | .storeWithOrderedFlag _ _ e => [(e, 8)]
  | .atomicAdd _ _ e => [(e, 8)]
  | .atomicMin _ _ e => [(e, 8)]
  | .atomicMax _ _ e => [(e, 8)]
  | .compareAndSwap _ _ e => [(e, 8)]
  | .fabOpInval _ _ e => [(e, 8)]
  | .ldpcJob w => [(w, 16)]
  | .trlJob w => [(w, 16)]
  | _ => []

/-- A well-formed command's word lists have the lengths that their rules give. -/
def Statement (i : Instr) : Prop := i.wf = true → ∀ x ∈ words i, x.1.length = x.2

theorem one_list {l : List Word} {n : Nat} (h : l.length = n) : ∀ x ∈ [(l, n)], x.1.length = x.2 := by
  intro x hx
  rw [List.mem_singleton] at hx
  rw [hx]
  exact h

theorem no_words : ∀ x ∈ ([] : List (List Word × Nat)), x.1.length = x.2 := by
  intro x hx
  exact absurd hx List.not_mem_nil

theorem cloveBoundary (env : BoundaryEnv) : Statement (.cloveBoundary env) := fun _ => no_words
theorem mma (c : Fin 20) (owner : Fin 64) (d : List Word) : Statement (.mma c owner d) := fun h => one_list (by simpa [Instr.wf] using h)
theorem accPreload (c : Fin 20) (owner : Fin 64) (d : List Word) : Statement (.accPreload c owner d) := fun h => one_list (by simpa [Instr.wf] using h)
theorem accDrain (c : Fin 20) (owner : Fin 64) (d : List Word) : Statement (.accDrain c owner d) := fun h => one_list (by simpa [Instr.wf] using h)
theorem drainRowPush (c : Fin 20) (a : Fin 16) (errs : List (Nat × Int)) : Statement (.drainRowPush c a errs) := fun _ => no_words
theorem arrayWatchdog (c : Fin 20) (a : Fin 17) : Statement (.arrayWatchdog c a) := fun _ => no_words
theorem registerParityError (c : Fin 20) (a : Fin 17) : Statement (.registerParityError c a) := fun _ => no_words
theorem spareStart (c : Fin 20) : Statement (.spareStart c) := fun _ => no_words
theorem endInsn (c : Fin 20) (e : Fin 8) : Statement (.endInsn c e) := fun _ => no_words
theorem setx (c : Fin 20) (e : Fin 8) : Statement (.setx c e) := fun _ => no_words
theorem addx (c : Fin 20) (e : Fin 8) : Statement (.addx c e) := fun _ => no_words
theorem addr (c : Fin 20) (e : Fin 8) : Statement (.addr c e) := fun _ => no_words
theorem loop (c : Fin 20) (e : Fin 8) : Statement (.loop c e) := fun _ => no_words
theorem loopx (c : Fin 20) (e : Fin 8) : Statement (.loopx c e) := fun _ => no_words
theorem rd (c : Fin 20) (e : Fin 8) (ecc : List (Nat × Ecc)) : Statement (.rd c e ecc) := fun _ => no_words
theorem wr (c : Fin 20) (e : Fin 8) : Statement (.wr c e) := fun _ => no_words
theorem rds (c : Fin 20) (e : Fin 8) (ecc : List (Nat × Ecc)) : Statement (.rds c e ecc) := fun _ => no_words
theorem rdw (c : Fin 20) (e : Fin 8) (ecc : List (Nat × Ecc)) : Statement (.rdw c e ecc) := fun _ => no_words
theorem wrw (c : Fin 20) (e : Fin 8) : Statement (.wrw c e) := fun _ => no_words
theorem rdt (c : Fin 20) (e : Fin 8) (ecc : List (Nat × Ecc)) : Statement (.rdt c e ecc) := fun _ => no_words
theorem pls (c : Fin 20) (e : Fin 8) : Statement (.pls c e) := fun _ => no_words
theorem dls (c : Fin 20) (e : Fin 8) : Statement (.dls c e) := fun _ => no_words
theorem dla (c : Fin 20) (e : Fin 8) : Statement (.dla c e) := fun _ => no_words
theorem slm (c : Fin 20) (e : Fin 8) : Statement (.slm c e) := fun _ => no_words
theorem waitb (c : Fin 20) (e : Fin 8) : Statement (.waitb c e) := fun _ => no_words
theorem cardEntryComplete (c : Fin 20) (e : Fin 8) (q : Fin 64) (res : Arrival) : Statement (.cardEntryComplete c e q res) := fun _ => no_words
theorem rtSubstitute (c : Fin 20) (q : Fin 64) : Statement (.rtSubstitute c q) := fun _ => no_words
theorem vld (k : Slot) (d : Fin 32) (p m : Fin 16) (circ : Bool) (ecc : Ecc) : Statement (.vld k d p m circ ecc) := fun _ => no_words
theorem vldb (k : Slot) (t : Lt) (d : Fin 32) (p m : Fin 16) (circ : Bool) (ecc : Ecc) : Statement (.vldb k t d p m circ ecc) := fun _ => no_words
theorem vst (k : Slot) (d : Fin 32) (p m : Fin 16) (circ : Bool) : Statement (.vst k d p m circ) := fun _ => no_words
theorem vadd (k : Slot) (t : Lt) (d u v : Fin 32) : Statement (.vadd k t d u v) := fun _ => no_words
theorem vsub (k : Slot) (t : Lt) (d u v : Fin 32) : Statement (.vsub k t d u v) := fun _ => no_words
theorem vadds (k : Slot) (t : Lt) (d u v : Fin 32) : Statement (.vadds k t d u v) := fun _ => no_words
theorem vsubs (k : Slot) (t : Lt) (d u v : Fin 32) : Statement (.vsubs k t d u v) := fun _ => no_words
theorem vmax (k : Slot) (t : Lt) (d u v : Fin 32) : Statement (.vmax k t d u v) := fun _ => no_words
theorem vmin (k : Slot) (t : Lt) (d u v : Fin 32) : Statement (.vmin k t d u v) := fun _ => no_words
theorem vand (k : Slot) (d u v : Fin 32) : Statement (.vand k d u v) := fun _ => no_words
theorem vor (k : Slot) (d u v : Fin 32) : Statement (.vor k d u v) := fun _ => no_words
theorem vxor (k : Slot) (d u v : Fin 32) : Statement (.vxor k d u v) := fun _ => no_words
theorem vsel (k : Slot) (d m u v : Fin 32) : Statement (.vsel k d m u v) := fun _ => no_words
theorem vshl (k : Slot) (t : Lt) (d u : Fin 32) (n : Fin 64) : Statement (.vshl k t d u n) := fun _ => no_words
theorem vshr (k : Slot) (t : Lt) (d u : Fin 32) (n : Fin 64) : Statement (.vshr k t d u n) := fun _ => no_words
theorem vperm (k : Slot) (d u v : Fin 32) : Statement (.vperm k d u v) := fun _ => no_words
theorem vmac (k : Slot) (t : Lt) (a : Fin 8) (u v : Fin 32) : Statement (.vmac k t a u v) := fun _ => no_words
theorem vmacj (k : Slot) (a : Fin 8) (u v : Fin 32) : Statement (.vmacj k a u v) := fun _ => no_words
theorem vclr (k : Slot) (a : Fin 8) : Statement (.vclr k a) := fun _ => no_words
theorem vbias (k : Slot) (a : Fin 8) (n : Nat) : Statement (.vbias k a n) := fun _ => no_words
theorem vshrn (k : Slot) (t : Lt) (d : Fin 32) (a : Fin 8) (n : Nat) (h : Bool) : Statement (.vshrn k t d a n h) := fun _ => no_words
theorem vfadd (k : Slot) (t : Lt) (d u v : Fin 32) : Statement (.vfadd k t d u v) := fun _ => no_words
theorem vfmul (k : Slot) (t : Lt) (d u v : Fin 32) : Statement (.vfmul k t d u v) := fun _ => no_words
theorem vfma (k : Slot) (t : Lt) (d u v : Fin 32) : Statement (.vfma k t d u v) := fun _ => no_words
theorem vcvt (k : Slot) (t : Cvt) (d u : Fin 32) (h : Bool) : Statement (.vcvt k t d u h) := fun _ => no_words
theorem vfunc (k : Slot) (f : Func) (d u : Fin 32) : Statement (.vfunc k f d u) := fun _ => no_words
theorem vrmax (k : Slot) (t : Lt) (d u : Fin 32) : Statement (.vrmax k t d u) := fun _ => no_words
theorem vrsum (k : Slot) (t : Lt) (d u : Fin 32) : Statement (.vrsum k t d u) := fun _ => no_words
theorem movp (k : Slot) (p : Fin 16) (v : Scalar) : Statement (.movp k p v) := fun _ => no_words
theorem addp (k : Slot) (p : Fin 16) (v : Scalar) : Statement (.addp k p v) := fun _ => no_words
theorem movm (k : Slot) (m : Fin 16) (v : Scalar) : Statement (.movm k m v) := fun _ => no_words
theorem setb (k : Slot) (b : Fin 8) (v : Scalar) : Statement (.setb k b v) := fun _ => no_words
theorem setl (k : Slot) (l : Fin 8) (v : Scalar) : Statement (.setl k l v) := fun _ => no_words
theorem vmovs (k : Slot) (m : Fin 16) (u : Fin 32) (i : Fin 16) : Statement (.vmovs k m u i) := fun _ => no_words
theorem dbnz (k : Slot) (m : Fin 16) (t : Fin 1024) : Statement (.dbnz k m t) := fun _ => no_words
theorem rep (k : Slot) (n : Nat) : Statement (.rep k n) := fun _ => no_words
theorem cspWaitb (k : Slot) : Statement (.cspWaitb k) := fun _ => no_words
theorem waitc (k : Slot) (src : Fin 32) (m : Fin 16) : Statement (.waitc k src m) := fun _ => no_words
theorem fset (k : Slot) (f : Fin 8) (p m : Fin 16) : Statement (.fset k f p m) := fun _ => no_words
theorem fclose (k : Slot) (f : Fin 8) : Statement (.fclose k f) := fun _ => no_words
theorem fopen (k : Slot) (f : Fin 8) : Statement (.fopen k f) := fun _ => no_words
theorem halt (k : Slot) (code : BitVec 8) : Statement (.halt k code) := fun _ => no_words
theorem cspTimeslice (c : Fin 20) : Statement (.cspTimeslice c) := fun _ => no_words
theorem cspParityError (c : Fin 20) (users : BitVec 4) : Statement (.cspParityError c users) := fun _ => no_words
theorem getVersion (r : RingId) (k : Pkt) : Statement (.getVersion r k) := fun h => one_list (by simpa [Instr.wf, pktWf] using h)
theorem poolAuth (r : RingId) (k : Pkt) : Statement (.poolAuth r k) := fun h => one_list (by simpa [Instr.wf, pktWf] using h)
theorem spdm (r : RingId) (k : Pkt) : Statement (.spdm r k) := fun h => one_list (by simpa [Instr.wf, pktWf] using h)
theorem spdmDoeRequest (port : Fin 4) (req : List Byte) : Statement (.spdmDoeRequest port req) := fun _ => no_words
theorem timeConfig (r : RingId) (k : Pkt) : Statement (.timeConfig r k) := fun h => one_list (by simpa [Instr.wf, pktWf] using h)
theorem timeFreerun (r : RingId) (k : Pkt) : Statement (.timeFreerun r k) := fun h => one_list (by simpa [Instr.wf, pktWf] using h)
theorem cloveProgLoad (r : RingId) (k : Pkt) : Statement (.cloveProgLoad r k) := fun h => one_list (by simpa [Instr.wf, pktWf] using h)
theorem cloveProgCommit (r : RingId) (k : Pkt) : Statement (.cloveProgCommit r k) := fun h => one_list (by simpa [Instr.wf, pktWf] using h)
theorem partCreate (r : RingId) (k : Pkt) : Statement (.partCreate r k) := fun h => one_list (by simpa [Instr.wf, pktWf] using h)
theorem partDestroy (r : RingId) (k : Pkt) : Statement (.partDestroy r k) := fun h => one_list (by simpa [Instr.wf, pktWf] using h)
theorem partReset (r : RingId) (k : Pkt) : Statement (.partReset r k) := fun h => one_list (by simpa [Instr.wf, pktWf] using h)
theorem partFreeze (r : RingId) (k : Pkt) : Statement (.partFreeze r k) := fun h => one_list (by simpa [Instr.wf, pktWf] using h)
theorem partThaw (r : RingId) (k : Pkt) : Statement (.partThaw r k) := fun h => one_list (by simpa [Instr.wf, pktWf] using h)
theorem partSave (r : RingId) (k : Pkt) : Statement (.partSave r k) := fun h => one_list (by simpa [Instr.wf, pktWf] using h)
theorem partRestore (r : RingId) (k : Pkt) : Statement (.partRestore r k) := fun h => one_list (by simpa [Instr.wf, pktWf] using h)
theorem dirtySwap (r : RingId) (k : Pkt) : Statement (.dirtySwap r k) := fun h => one_list (by simpa [Instr.wf, pktWf] using h)
theorem memMap (r : RingId) (k : Pkt) : Statement (.memMap r k) := fun h => one_list (by simpa [Instr.wf, pktWf] using h)
theorem memUnmap (r : RingId) (k : Pkt) : Statement (.memUnmap r k) := fun h => one_list (by simpa [Instr.wf, pktWf] using h)
theorem descCreate (r : RingId) (k : Pkt) : Statement (.descCreate r k) := fun h => one_list (by simpa [Instr.wf, pktWf] using h)
theorem descDestroy (r : RingId) (k : Pkt) : Statement (.descDestroy r k) := fun h => one_list (by simpa [Instr.wf, pktWf] using h)
theorem cardLoad (r : RingId) (k : Pkt) : Statement (.cardLoad r k) := fun h => one_list (by simpa [Instr.wf, pktWf] using h)
theorem cspLoad (r : RingId) (k : Pkt) : Statement (.cspLoad r k) := fun h => one_list (by simpa [Instr.wf, pktWf] using h)
theorem progLoad (r : RingId) (k : Pkt) : Statement (.progLoad r k) := fun h => one_list (by simpa [Instr.wf, pktWf] using h)
theorem progUnload (r : RingId) (k : Pkt) : Statement (.progUnload r k) := fun h => one_list (by simpa [Instr.wf, pktWf] using h)
theorem taskSubmit (r : RingId) (k : Pkt) : Statement (.taskSubmit r k) := fun h => one_list (by simpa [Instr.wf, pktWf] using h)
theorem taskEnd (p : Fin 64) (task : Nat) : Statement (.taskEnd p task) := fun _ => no_words
theorem launchAt (r : RingId) (k : Pkt) : Statement (.launchAt r k) := fun h => one_list (by simpa [Instr.wf, pktWf] using h)
theorem runEnd (p : Fin 64) : Statement (.runEnd p) := fun _ => no_words
theorem ruAdd (r : RingId) (k : Pkt) : Statement (.ruAdd r k) := fun h => one_list (by simpa [Instr.wf, pktWf] using h)
theorem ruRemove (r : RingId) (k : Pkt) : Statement (.ruRemove r k) := fun h => one_list (by simpa [Instr.wf, pktWf] using h)
theorem ruStats (r : RingId) (k : Pkt) : Statement (.ruStats r k) := fun h => one_list (by simpa [Instr.wf, pktWf] using h)
theorem cellAdd (r : RingId) (k : Pkt) : Statement (.cellAdd r k) := fun h => one_list (by simpa [Instr.wf, pktWf] using h)
theorem cellRemove (r : RingId) (k : Pkt) : Statement (.cellRemove r k) := fun h => one_list (by simpa [Instr.wf, pktWf] using h)
theorem cellExport (r : RingId) (k : Pkt) : Statement (.cellExport r k) := fun h => one_list (by simpa [Instr.wf, pktWf] using h)
theorem cellImport (r : RingId) (k : Pkt) : Statement (.cellImport r k) := fun h => one_list (by simpa [Instr.wf, pktWf] using h)
theorem radClaim (r : RingId) (k : Pkt) : Statement (.radClaim r k) := fun h => one_list (by simpa [Instr.wf, pktWf] using h)
theorem fabDma (r : RingId) (k : Pkt) : Statement (.fabDma r k) := fun h => one_list (by simpa [Instr.wf, pktWf] using h)
theorem dmaSegmentCommit (a : DmaArrive) : Statement (.dmaSegmentCommit a) := fun _ => no_words
theorem fabInval (r : RingId) (k : Pkt) : Statement (.fabInval r k) := fun h => one_list (by simpa [Instr.wf, pktWf] using h)
theorem fabExport (r : RingId) (k : Pkt) : Statement (.fabExport r k) := fun h => one_list (by simpa [Instr.wf, pktWf] using h)
theorem fabUnexport (r : RingId) (k : Pkt) : Statement (.fabUnexport r k) := fun h => one_list (by simpa [Instr.wf, pktWf] using h)
theorem netQpCreate (r : RingId) (k : Pkt) : Statement (.netQpCreate r k) := fun h => one_list (by simpa [Instr.wf, pktWf] using h)
theorem netQpDestroy (r : RingId) (k : Pkt) : Statement (.netQpDestroy r k) := fun h => one_list (by simpa [Instr.wf, pktWf] using h)
theorem netMrReg (r : RingId) (k : Pkt) : Statement (.netMrReg r k) := fun h => one_list (by simpa [Instr.wf, pktWf] using h)
theorem netMrDereg (r : RingId) (k : Pkt) : Statement (.netMrDereg r k) := fun h => one_list (by simpa [Instr.wf, pktWf] using h)
theorem netRawCfg (r : RingId) (k : Pkt) : Statement (.netRawCfg r k) := fun h => one_list (by simpa [Instr.wf, pktWf] using h)
theorem svcClusterTest (r : RingId) (k : Pkt) : Statement (.svcClusterTest r k) := fun h => one_list (by simpa [Instr.wf, pktWf] using h)
theorem clusterTestStart (c : Fin 20) : Statement (.clusterTestStart c) := fun _ => no_words
theorem clusterTestEnd (c : Fin 20) (found : ClusterTest) : Statement (.clusterTestEnd c found) := fun _ => no_words
theorem clusterTestTimeout (c : Fin 20) : Statement (.clusterTestTimeout c) := fun _ => no_words
theorem svcEngineBypass (r : RingId) (k : Pkt) : Statement (.svcEngineBypass r k) := fun h => one_list (by simpa [Instr.wf, pktWf] using h)
theorem svcPcRetire (r : RingId) (k : Pkt) : Statement (.svcPcRetire r k) := fun h => one_list (by simpa [Instr.wf, pktWf] using h)
theorem nonce : Statement (.nonce) := fun _ => no_words
theorem tamperClear : Statement (.tamperClear) := fun _ => no_words
theorem svnRaise : Statement (.svnRaise) := fun _ => no_words
theorem lifeAdvance : Statement (.lifeAdvance) := fun _ => no_words
theorem debugDisable : Statement (.debugDisable) := fun _ => no_words
theorem rootSet : Statement (.rootSet) := fun _ => no_words
theorem sealKey : Statement (.sealKey) := fun _ => no_words
theorem push : Statement (.push) := fun _ => no_words
theorem imageVerified : Statement (.imageVerified) := fun _ => no_words
theorem start : Statement (.start) := fun _ => no_words
theorem bootReady : Statement (.bootReady) := fun _ => no_words
theorem startTimeout : Statement (.startTimeout) := fun _ => no_words
theorem reset (key : BitVec 16) : Statement (.reset key) := fun _ => no_words
theorem functionLevelReset (f : Fn) : Statement (.functionLevelReset f) := fun _ => no_words
theorem perstNLow (port : Fin 4) : Statement (.perstNLow port) := fun _ => no_words
theorem perstNRise (port : Fin 4) : Statement (.perstNRise port) := fun _ => no_words
theorem powerOnReset : Statement (.powerOnReset) := fun _ => no_words
theorem porNRise (pwrOk : Bool) : Statement (.porNRise pwrOk) := fun _ => no_words
theorem pwrOkFall : Statement (.pwrOkFall) := fun _ => no_words
theorem pwrOkRise : Statement (.pwrOkRise) := fun _ => no_words
theorem tamperAlarm (causes : BitVec 5) : Statement (.tamperAlarm causes) := fun _ => no_words
theorem debugAccess : Statement (.debugAccess) := fun _ => no_words
theorem thermalTrip : Statement (.thermalTrip) := fun _ => no_words
theorem clusterIdleOff (c : Fin 20) : Statement (.clusterIdleOff c) := fun _ => no_words
theorem domainIdleOff (d : Domain) : Statement (.domainIdleOff d) := fun _ => no_words
theorem cmdDoorbell (r : RingId) (tail : BitVec 16) : Statement (.cmdDoorbell r tail) := fun _ => no_words
theorem cplHeadWrite (r : RingId) (head : BitVec 16) : Statement (.cplHeadWrite r head) := fun _ => no_words
theorem ringEnable (r : RingId) (en : Bool) : Statement (.ringEnable r en) := fun _ => no_words
theorem ringEnableDeferred (r : RingId) : Statement (.ringEnableDeferred r) := fun _ => no_words
theorem generationWrap (p : Fin 64) : Statement (.generationWrap p) := fun _ => no_words
theorem authLockoutExpiry : Statement (.authLockoutExpiry) := fun _ => no_words
theorem hostLinkDown (port : Fin 4) : Statement (.hostLinkDown port) := fun _ => no_words
theorem hostLinkUp (port : Fin 4) : Statement (.hostLinkUp port) := fun _ => no_words
theorem stepMark (p : Fin 64) (v : Word) : Statement (.stepMark p v) := fun _ => no_words
theorem snap : Statement (.snap) := fun _ => no_words
theorem activeReq (d : Bool) : Statement (.activeReq d) := fun _ => no_words
theorem domainAcquire (d : Bool) (frac : BitVec 16) : Statement (.domainAcquire d frac) := fun _ => no_words
theorem domainLock (d : Bool) : Statement (.domainLock d) := fun _ => no_words
theorem announceTimeout (d : Bool) : Statement (.announceTimeout d) := fun _ => no_words
theorem cloveMarkerRx (link : Fin 24) (m : Marker) : Statement (.cloveMarkerRx link m) := fun _ => no_words
theorem markerTimeout : Statement (.markerTimeout) := fun _ => no_words
theorem ppsInEdge : Statement (.ppsInEdge) := fun _ => no_words
theorem flitRx (link : Fin 24) (f : Flit) : Statement (.flitRx link f) := fun _ => no_words
theorem linkTrainAttempt (link : Fin 24) (o : Training) : Statement (.linkTrainAttempt link o) := fun _ => no_words
theorem trainStageTimeout (link : Fin 24) : Statement (.trainStageTimeout link) := fun _ => no_words
theorem partnerSilence (link : Fin 24) : Statement (.partnerSilence link) := fun _ => no_words
theorem laneLockLoss (link : Fin 24) (lane : Fin 4) : Statement (.laneLockLoss link lane) := fun _ => no_words
theorem laneLockTimeout (link : Fin 24) (locked : BitVec 4) : Statement (.laneLockTimeout link locked) := fun _ => no_words
theorem retrain (link : Fin 24) : Statement (.retrain link) := fun _ => no_words
theorem service (link : Fin 24) : Statement (.service link) := fun _ => no_words
theorem retrainRequestRx (m : RetrainMsg) : Statement (.retrainRequestRx m) := fun _ => no_words
theorem pathDown (plane : Fin 18) (node : Fin 64) : Statement (.pathDown plane node) := fun _ => no_words
theorem linkRekey (link : Fin 24) : Statement (.linkRekey link) := fun _ => no_words
theorem load (c : FabSource) (p : Fin 64) (e : List Word) : Statement (.load c p e) := fun h => one_list (by simpa [Instr.wf] using h)
theorem store (c : FabSource) (p : Fin 64) (e : List Word) : Statement (.store c p e) := fun h => one_list (by simpa [Instr.wf] using h)
theorem storeWithOrderedFlag (c : FabSource) (p : Fin 64) (e : List Word) : Statement (.storeWithOrderedFlag c p e) := fun h => one_list (by simpa [Instr.wf] using h)
theorem atomicAdd (c : FabSource) (p : Fin 64) (e : List Word) : Statement (.atomicAdd c p e) := fun h => one_list (by simpa [Instr.wf] using h)
theorem atomicMin (c : FabSource) (p : Fin 64) (e : List Word) : Statement (.atomicMin c p e) := fun h => one_list (by simpa [Instr.wf] using h)
theorem atomicMax (c : FabSource) (p : Fin 64) (e : List Word) : Statement (.atomicMax c p e) := fun h => one_list (by simpa [Instr.wf] using h)
theorem compareAndSwap (c : FabSource) (p : Fin 64) (e : List Word) : Statement (.compareAndSwap c p e) := fun h => one_list (by simpa [Instr.wf] using h)
theorem fabOpInval (c : FabSource) (p : Fin 64) (e : List Word) : Statement (.fabOpInval c p e) := fun h => one_list (by simpa [Instr.wf] using h)
theorem fabricRouterRx (q : Rx FabReq) : Statement (.fabricRouterRx q) := fun _ => no_words
theorem combineTimeout : Statement (.combineTimeout) := fun _ => no_words
theorem fabricRequestRx (q : Rx FabReq) (ecc : Ecc) : Statement (.fabricRequestRx q ecc) := fun _ => no_words
theorem orderedFlagApply (node : Fin 64) (part : Fin 64) : Statement (.orderedFlagApply node part) := fun _ => no_words
theorem fabricResponseRx (a : Rx FabResp) : Statement (.fabricResponseRx a) := fun _ => no_words
theorem fabTimeout (node : Fin 64) (seq : Word) : Statement (.fabTimeout node seq) := fun _ => no_words
theorem resetNoticeRx (node : Rx (Fin 64)) (part : Fin 64) (gen : BitVec 16) : Statement (.resetNoticeRx node part gen) := fun _ => no_words
theorem resetNoticeAckRx (node : Rx (Fin 64)) (part : Fin 64) : Statement (.resetNoticeAckRx node part) := fun _ => no_words
theorem resetNoticeResend (part : Fin 64) : Statement (.resetNoticeResend part) := fun _ => no_words
theorem twinSignatureRx (p : Fin 64) (m : Rx TwinMsg) : Statement (.twinSignatureRx p m) := fun _ => no_words
theorem twinLost (p : Fin 64) : Statement (.twinLost p) := fun _ => no_words
theorem freezeNoticeRx (p : Fin 64) (runId : Rx Word) : Statement (.freezeNoticeRx p runId) := fun _ => no_words
theorem ethRxFrame (f : RxFrame) : Statement (.ethRxFrame f) := fun _ => no_words
theorem rateIncrease (qp : BitVec 16) : Statement (.rateIncrease qp) := fun _ => no_words
theorem ackTimeout (qp : BitVec 16) : Statement (.ackTimeout qp) := fun _ => no_words
theorem netSqDb (p : Fin 64) (v : Word) : Statement (.netSqDb p v) := fun _ => no_words
theorem netRqDb (p : Fin 64) (v : Word) : Statement (.netRqDb p v) := fun _ => no_words
theorem netCqDb (p : Fin 64) (v : Word) : Statement (.netCqDb p v) := fun _ => no_words
theorem netRawTxTail (p : Fin 64) (v : Word) : Statement (.netRawTxTail p v) := fun _ => no_words
theorem netRawRxTail (p : Fin 64) (v : Word) : Statement (.netRawRxTail p v) := fun _ => no_words
theorem frameTxDone (port : Fin 8) (sub : Fin 4) : Statement (.frameTxDone port sub) := fun _ => no_words
theorem radioFrameDeadline (q : Fin 4096) : Statement (.radioFrameDeadline q) := fun _ => no_words
theorem subportDown (port : Fin 8) (sub : Fin 4) : Statement (.subportDown port sub) := fun _ => no_words
theorem subportUp (port : Fin 8) (sub : Fin 4) : Statement (.subportUp port sub) := fun _ => no_words
theorem holdExpiry (port : Fin 8) (sub : Fin 4) : Statement (.holdExpiry port sub) := fun _ => no_words
theorem rxWindowClose (cell : Fin 512) (stream : Fin 2048) (slot : Nat) (sym : Fin 14) : Statement (.rxWindowClose cell stream slot sym) := fun _ => no_words
theorem dlCplaneSend (cell : Fin 512) (slot : Nat) (msgs : List CpMsg) : Statement (.dlCplaneSend cell slot msgs) := fun _ => no_words
theorem dlUplaneSend (cell : Fin 512) (slot : Nat) (sym : Fin 14) (msgs : List DlSection) : Statement (.dlUplaneSend cell slot sym msgs) := fun _ => no_words
theorem txLate (cell : Fin 512) (slot : Nat) (sym : Fin 14) (part : LateSect) : Statement (.txLate cell slot sym part) := fun _ => no_words
theorem agcUpdate (stream : Fin 2048) (part : SymPart) : Statement (.agcUpdate stream part) := fun _ => no_words
theorem searchDetection (lane : Fin 64) (m : Detection) : Statement (.searchDetection lane m) := fun _ => no_words
theorem ldpcJob (w : List Word) : Statement (.ldpcJob w) := fun h => one_list (by simpa [Instr.wf] using h)
theorem polarJob (j : Polar) : Statement (.polarJob j) := fun _ => no_words
theorem trlJob (w : List Word) : Statement (.trlJob w) := fun h => one_list (by simpa [Instr.wf] using h)
theorem jobDeadline (pool : Fin 4) : Statement (.jobDeadline pool) := fun _ => no_words
theorem codingJobEnd (pool : Fin 4) (n : Fin 16) : Statement (.codingJobEnd pool n) := fun _ => no_words
theorem engineFault (pool : Fin 4) (n : Fin 16) : Statement (.engineFault pool n) := fun _ => no_words
theorem cloveTimer (i : Fin 512) : Statement (.cloveTimer i) := fun _ => no_words
theorem scrubRead (granule : Nat) (found : Ecc) : Statement (.scrubRead granule found) := fun _ => no_words
theorem uartFrameRx (f : UartFrame) : Statement (.uartFrameRx f) := fun _ => no_words
theorem uartRxRead : Statement (.uartRxRead) := fun _ => no_words
theorem registerWrite (f : Fn) (off : BitVec 26) (v : Word) : Statement (.registerWrite f off v) := fun _ => no_words
theorem linkUp (link : Fin 24) : Statement (.linkUp link) := fun _ => no_words
theorem pauseExpiry (port : Fin 8) (sub : Fin 4) (pri : Fin 8) : Statement (.pauseExpiry port sub pri) := fun _ => no_words
theorem shaperCreditZero (q : Fin 4096) : Statement (.shaperCreditZero q) := fun _ => no_words
theorem ppsOutRise : Statement (.ppsOutRise) := fun _ => no_words
theorem ppsOutFall : Statement (.ppsOutFall) := fun _ => no_words

end Sys2Proof.Laws.WF
end

