-- ==== Sys2Proof/Tests/Slice0.lean ====
section
/-! SUPPORT. Tests. Each ill-formed operand is refused; the commands whose words the table would give; and for every statement of
Obligations.lean that has hypotheses a state and operands that meet them. -/

namespace Sys2Proof.Tests

open Sys2Proof Sys2Proof.Machine

set_option Elab.async false

/-! ### Well-formedness -/

/-- A packet with all its parameter words 0. -/
def pkt0 : Pkt :=
  { verMinor := 0, verMajor := 1, fence := false, notify := false, rsv0 := 0, part := 0, rsv1 := 0, gen := 1, tag := 7, rsv3 := 0
    w := List.replicate 12 0 }

/-- A CSP slot of cluster 0, context 0 that ends its bundle. -/
def slot0 : Slot := { c := 0, x := 0, eob := true }

theorem test_wf_packet : (Instr.getVersion .pool { pkt0 with w := [] }).wf = false ∧
    (Instr.getVersion .pool pkt0).wf = true := by decide
theorem test_wf_env : (Instr.cloveBoundary { tj := [], amps := [], pkg := 0, use := [] }).wf = false := by decide
theorem test_wf_env_use : (Instr.cloveBoundary
    { tj := List.replicate 20 0, amps := List.replicate 20 0, pkg := 0, use := [(0, 9, 1)] }).wf = false := by decide
theorem test_wf_arrival : (Instr.cardEntryComplete 0 0 0 (.remote [] [(8, false)])).wf = false ∧
    (Instr.cardEntryComplete 0 0 0 (.remote [(8, 0, false)] [])).wf = false := by decide
theorem test_wf_descriptor : (Instr.mma 0 0 []).wf = false ∧ (Instr.accPreload 0 0 []).wf = false ∧
    (Instr.accDrain 0 0 []).wf = false := by decide
theorem test_wf_circular : (Instr.vld slot0 0 8 0 true .clean).wf = false ∧ (Instr.vst slot0 0 8 0 true).wf = false ∧
    (Instr.vld slot0 0 7 0 true .clean).wf = true := by decide
theorem test_wf_broadcast : (Instr.vldb slot0 .c 0 0 0 false .clean).wf = false := by decide
theorem test_wf_integer_lanes : (Instr.vadd slot0 .f 0 0 0).wf = false ∧ (Instr.vsub slot0 .c 0 0 0).wf = false := by decide
theorem test_wf_saturating_lanes : (Instr.vadds slot0 .l 0 0 0).wf = false ∧ (Instr.vsubs slot0 .l 0 0 0).wf = false := by decide
theorem test_wf_max_lanes : (Instr.vmax slot0 .c 0 0 0).wf = false ∧ (Instr.vmin slot0 .c 0 0 0).wf = false := by decide
theorem test_wf_shift : (Instr.vshl slot0 .h 0 0 16).wf = false ∧ (Instr.vshr slot0 .w 0 0 32).wf = false ∧
    (Instr.vshr slot0 .w 0 0 31).wf = true := by decide
theorem test_wf_mac : (Instr.vmac slot0 .w 0 0 0).wf = false := by decide
theorem test_wf_bias : (Instr.vbias slot0 0 0).wf = false ∧ (Instr.vbias slot0 0 40).wf = false := by decide
theorem test_wf_narrow : (Instr.vshrn slot0 .l 0 0 1 false).wf = false ∧ (Instr.vshrn slot0 .h 0 0 40 false).wf = false ∧
    (Instr.vshrn slot0 .h 0 0 1 true).wf = false := by decide
theorem test_wf_float_lanes : (Instr.vfadd slot0 .w 0 0 0).wf = false ∧ (Instr.vfmul slot0 .h 0 0 0).wf = false ∧
    (Instr.vfma slot0 .l 0 0 0).wf = false := by decide
theorem test_wf_convert : (Instr.vcvt slot0 .ld 0 0 true).wf = false := by decide
theorem test_wf_reduce : (Instr.vrmax slot0 .d 0 0).wf = false ∧ (Instr.vrsum slot0 .h 0 0).wf = false := by decide
theorem test_wf_repeat : (Instr.rep slot0 0).wf = false ∧ (Instr.rep slot0 65537).wf = false := by decide
theorem test_wf_wait_source : (Instr.waitc slot0 8 0).wf = false := by decide
theorem test_wf_flit : (Instr.flitRx 0 { seq := 0, vc := 0, bytes := 0, keyPhase := false, fecOk := true, tagOk := true
                                         corrected := [0, 0, 0, 0, 0], ack := none, nak := none, freed := [] }).wf = false := by decide
theorem test_wf_fabric_entry : (Instr.load ⟨0, 0, false⟩ 0 []).wf = false := by decide
theorem test_wf_job : (Instr.ldpcJob []).wf = false ∧ (Instr.trlJob []).wf = false := by decide

/-- The table gives its rows no bits: no word spells a command. -/
theorem test_no_row_has_bits : decodeTableWord 0 0 = none ∧ decodeTableWord 32 1 = none := by decide

/-! ### States of the tests -/

/-- The state that a command answers; the state after reset where it answers none. -/
def next (o : Host.Outcome State Fault Refusal) : State := match o with
  | .next s => s
  | _ => State.reset

/-- The package runs, in WAIT_IMG. -/
def up : State := { State.reset with
  pwr := { State.reset.pwr with porN := true, pwrOk := true }, boot := { State.reset.boot with st := .waitImg } }

/-- Firmware is ready, and the links of all host ports are up. -/
def ready : State := { up with boot := { up.boot with st := .ready }, hostUp := 15 }

/-- Partition 1 exists and holds cluster 0 whole; the cluster is at P0. -/
def part1 : Part := { ({} : Part) with
  live := true, gen := 1, nring := 2, nexport := 4, version := some (1, 0), pages := [0, 1]
  pt := [(0, { v := true, w := true, c := false, kind := 0, target := 0 })]
  hold := [(0, { saf := true, groups := 15, engines := 255, csp := 15, sram := 0xFFFFFFFFFFFF, eq := 0xFFFFFFFFFFFFFFFF, lss := 0xFFFF })] }

/-- Firmware is ready and partition 1 exists. -/
def busy : State := { ready with
  parts := [(1, part1)], pwr := { ready.pwr with clu := [(0, { ({} : PwrClu) with point := 0 })] } }

/-! ### The CSP -/

/-- Context 0 of cluster 0 runs for partition 1. -/
def csp : State := { busy with
  time := { busy.time with cloveRun := true }
  clusters := [(0, { ({} : Cluster) with csp := [(0, { ({} : CspCtx) with en := true, st := 1, part := 1 })] })] }

theorem witness_CspSlot : SlotIssues slot0 csp := by unfold SlotIssues; decide
theorem witness_CspLanes : ltInt .h = true ∧ ltHw .h = true ∧ ltFloat .f = true ∧ (0 : Fin 64).val < ltBits .h ∧
    (63 : Fin 64).val < ltBits .l ∧ (cvtHalves .ld || !false) = true ∧ (cvtHalves .fd || !true) = true := by decide
/-- The registers of the context, as the running bundle and its slots read them. -/
def withRegs (r : CspRegs) (s : State) : State := modCsp s 0 0 (fun o => { o with regs := r, old := r })

theorem test_vadd_wraps :
    rdD (getCsp (next (exec (.vadd slot0 .h 3 1 2) (withRegs { d := [(1, 0xFFFF), (2, 2)] } csp))) 0 0).regs 3 = 1 := by decide +kernel
theorem test_vadds_clamps :
    let t := next (exec (.vadds slot0 .h 3 1 2) (withRegs { d := [(1, 0x7FFF), (2, 2)] } csp))
    rdD (getCsp t 0 0).regs 3 = 0x7FFF ∧ (getCsp t 0 0).sat = true := by decide +kernel
theorem test_vmax_is_signed :
    rdD (getCsp (next (exec (.vmax slot0 .h 3 1 2) (withRegs { d := [(1, 0xFFFF), (2, 1)] } csp))) 0 0).regs 3 = 1 := by decide +kernel
theorem test_vshr_keeps_sign :
    rdD (getCsp (next (exec (.vshr slot0 .h 3 1 4) (withRegs { d := [(1, 0x8000)] } csp))) 0 0).regs 3 = 0xF800 := by decide +kernel
/-- (1 + 2i) * (3 + 4i) = -5 + 10i, and with the conjugate of the second 11 + 2i (R157). -/
theorem test_vmac_complex :
    let s := withRegs { d := [(1, 0x00020001), (2, 0x00040003)] } csp
    let a := rdAcc (getCsp (next (exec (.vmac slot0 .c 0 1 2) s)) 0 0).regs 0
    let b := rdAcc (getCsp (next (exec (.vmacj slot0 0 1 2) s)) 0 0).regs 0
    accLane a 0 = -5 ∧ accLane a 1 = 10 ∧ accLane b 0 = 11 ∧ accLane b 1 = 2 := by decide +kernel
theorem test_vfadd_rounds :
    rdD (getCsp (next (exec (.vfadd slot0 .f 3 1 2) (withRegs { d := [(1, 0x3F800000), (2, 0x40000000)] } csp))) 0 0).regs 3 % 2 ^ 32
      = 0x40400000 := by decide +kernel
theorem test_setb_clears_low_bits :
    tabGet 0 (getCsp (next (exec (.setb slot0 1 (.imm 0x7F)) csp)) 0 0).regs.b 1 = 0x40 := by decide +kernel

/-- The radio has been delayed in this clove, and the running context is not the radio's. -/
def repHeld : State := modClu csp 0 (fun cl => { cl with cspDelayed := true })
/-- Its next bundle waits wherever the word in its slot S is a REP (the encodings are open, log entry 13). -/
theorem witness_RepWaits (k : Slot) (n : Nat) (h : Config.cspDecode 3 0 = some (some (.rep k n))) :
    mainOn repHeld = true ∧ cspOk repHeld 0 0 = true ∧ repWaits repHeld 0 0 = true := by
  refine ⟨by decide +kernel, by decide +kernel, ?_⟩
  have hw : wd (getCsp repHeld 0 0).prog (4 * (getCsp repHeld 0 0).pc + 3) = 0 := by decide +kernel
  have hb : (repBarred repHeld 0 0 && !(getCsp repHeld 0 0).mid && decide ((getCsp repHeld 0 0).repLeft = 0)) = true := by
    decide +kernel
  simp only [repWaits, holdsRep, hw, h, hb, Bool.and_true]
theorem witness_CspControl : repBarred csp 0 0 = false ∧ repBarred repHeld 0 0 = true ∧
    (let s := modCsp repHeld 0 0 (fun o => { o with mid := true })
     mainOn s = true ∧ cspOk s 0 0 = true ∧ repWaits s 0 0 = false) ∧
    waitHeld (modClu csp 0 (fun cl => { cl with eng := [(0, { ({} : Engine) with part := 1, prog := [0] })] })) 0 1 0 = true ∧
    waitHeld csp 0 1 0 = false ∧ 0 + 0 ≤ 2 ^ 24 ∧ sramMine csp 1 0 0 = true := by decide +kernel
theorem witness_CspMemory : circWf 0 true = true ∧ sramMine csp 1 0 0 = true ∧ sramMine csp 1 0 63 = true ∧ (0 : Nat) % 64 = 0 ∧
    sramMine csp 1 0 (2 ^ 24 - 64) = true ∧ sramMine csp 1 0 (2 ^ 24) = false ∧ (Lt.h ≠ .c) ∧
    sramMine csp 1 0 1 = true := by decide +kernel
theorem test_vld_misaligned_and_outside :
    (getCsp (next (exec (.vld slot0 1 0 0 false .clean) (withRegs { p := [(0, 1)] } csp))) 0 0).cause = 2 ∧
    (getCsp (next (exec (.vld slot0 1 0 0 false .clean) (withRegs { p := [(0, 0x1000001)] } csp))) 0 0).cause = 1 := by decide +kernel
theorem witness_CspBundleEnd : let o := getCsp csp 0 0
    o.st = 1 ∧ o.repLeft = 0 ∧ o.repArm = 0 ∧ o.stores = [] ∧ cspQuiet csp 0 ∧ o.en = true ∧ SlotIssues slot0 csp ∧
    pmemWf (getClu csp 0).sram = true ∧ cspBusy csp (getCsp csp 0 (getClu csp 0).cspRun.val) = false ∧
    (getClu csp 0).cspRun = (getClu csp 0).cspTurn ∧ ((getCsp csp 0 0).radio && cspReady csp (getCsp csp 0 0)) = false ∧
    nextReady csp 0 (getClu csp 0).cspTurn.val = some 0 ∧ (1 : BitVec 4).getLsbD 0 = true ∧ (1 : BitVec 4).getLsbD 1 = false ∧
    (let s := modCsp csp 0 0 (fun o => { o with mid := true })
     cspBusy s (getCsp s 0 (getClu s 0).cspRun.val) = true) := by unfold SlotIssues cspQuiet; decide +kernel
theorem test_halt_stops : (getCsp (next (exec (.halt slot0 5) csp)) 0 0).st = 0 := by decide +kernel

/-! ### The cardamom engines -/

/-- Engine 0 of cluster 0 stands at an instruction, with descriptor 3 in tensor slot 0 and queue 5 in queue slot 0. -/
def eng (w : Word) : State := { csp with
  parts := [(1, { part1 with descs := [(3, { ({} : Desc) with
    live := true, img := [0x2201, 0, 0, 0, 0, 0x10000, 0, 0, 64, 1, 1, 1, 1, 1, 1, 64, 0, 0, 0, 0] })] })]
  clusters := [(0, { ({} : Cluster) with
    eng := [(0, { ({} : Engine) with run := true, part := 1, prog := [w], tslot := [(0, 3)], qslot := [(0, 0x80000005)], x := [(2, 7)] })]
    eq := [(5, { ({} : Eq) with en := true, part := 1, entries := [{ gr := List.replicate 8 { data := 0x4241, pad := false }, mark := false }] })] })] }

theorem witness_CardScalarsAndControl : ∀ op, op < 17 → EngineAt (eng (BitVec.ofNat 32 (op * 2 ^ 26))) 0 0 op := by
  unfold EngineAt; decide +kernel
theorem witness_CardLoopx : 0 < engX (getEng (eng 0x14800001) 0 0) (fld (0x14800001 : Word) 25 22) ∧
    engX (getEng (eng 0x14000001) 0 0) (fld (0x14000001 : Word) 25 22) ≤ 0 := by decide +kernel
/-- The engine stands at SLM with two saves held; it is to stop, and a data instruction still holds its port, as given. -/
def saved (w : Word) (port : Bool) : State := modEng (eng w) 0 0 (fun E =>
  let v : EngSave := { x := [], loops := [], pc := 0, plFirst := 0, plCount := 8, dlOff := 0, dlCycle := 249999, pops := 0, early := false }
  { E with saves := [v, v], stopSlm := port, port := if port then (takePort E).port else none })
theorem witness_CardSlm : (getEng (eng 0) 0 0).stopSlm = false ∧ (getEng (eng 0) 0 0).saves.length < 2 ∧
    (getEng (saved 0x3C000000 false) 0 0).stopSlm = false ∧ (getEng (saved 0x3C000000 false) 0 0).saves.length = 2 ∧
    marksHeld (saved 0x3C000000 false) 0 0 = true ∧
    marksHeld (modEng (saved 0x3C000000 false) 0 0 (fun E => { E with qslot := [(0, 0x80000045)] })) 0 0 = false ∧
    (getEng (saved 0x3C000000 true) 0 0).stopSlm = true ∧ (getEng (saved 0x3C000000 true) 0 0).port.isSome = true ∧
    engAt (saved 0x3C000000 true) 0 0 15 = true := by decide +kernel
theorem test_addx_wraps : tabGet 0 (getEng (next (exec (.addx 0 0) (eng 0x088FFFF8))) 0 0).x 2 = 0xFFFFFFFF := by decide +kernel
theorem test_dla_saturates :
    let t := next (exec (.dla 0 0) (modEng (eng 0x38000001) 0 0 (fun E => { E with dlOff := 3, dlCycle := 249999 })))
    (getEng t 0 0).dlOff = 3 ∧ (getEng t 0 0).dlCycle = 249999 := by decide +kernel
/-- RD of 16 elements of 1 byte from coordinate 0 puts one entry in flight. -/
theorem witness_CardReads : let s := eng 0x1800000F
    let E := getEng s 0 0
    E.port = none ∧ engAt s 0 0 6 = true ∧ mainOn s = true ∧ (takePort E).port.isSome = true ∧ E.stopSlm = false ∧ noFence s 0 ∧
    (getPart s E.part).noticeOpen = false ∧ storeRoomFor s 0 = true ∧
    (∀ P ∈ (takePort E).port, let tn := portTensor s E P
      let es := cutEntries [rdRun tn (portXs tn P) (portLen P)]
      es.length = 1 ∧ tCluster tn = 0 ∧ entryLines s E.part tn es = 0) ∧
    ((getEng (next (exec (.rd 0 0 []) s)) 0 0).flight).length = 1 ∧ (getEng (next (exec (.rd 0 0 []) s)) 0 0).port = none := by
  unfold noFence; decide +kernel
/-- The instruction holds the port from an earlier cycle: it has issued none of its entry yet, and its engine has come to END. -/
theorem witness_PortHeld : let s := modEng (eng 0x1800000F) 0 0 (fun E => { takePort E with prog := [0x1800000F, 0], pc := 1 })
    (getEng s 0 0).port.isSome = true ∧ mainOn s = true ∧ engClocked s 0 0 = true ∧ (getEng s 0 0).prog ≠ [] ∧
    (∀ P ∈ (getEng s 0 0).port, cardOp P.w = 6) ∧ ((getEng (next (exec (.rd 0 0 []) s)) 0 0).flight).length = 1 ∧
    (getEng (next (exec (.rd 0 0 []) s)) 0 0).pc = 1 := by decide +kernel
theorem witness_CardWrites : let s := eng 0x1C00000F
    let E := getEng s 0 0
    let Q := getEq (getClu s 0) (slotQueue E 0)
    E.port = none ∧ engAt s 0 0 7 = true ∧ mainOn s = true ∧ E.stopSlm = false ∧ noFence s 0 ∧
    Q.en = true ∧ Q.idx = false ∧ headGrans Q 1 0 ≠ [] ∧ (∀ x ∈ Q.entries, x.gr.any (fun g => !g.pad) = true) ∧
    (∀ P ∈ (takePort E).port, let tn := portTensor s E P
      portQueue E P = 5 ∧ portNeed tn P - P.done = 1 ∧ tCluster tn = 0 ∧ P.part = [] ∧
      (∀ r ∈ takeGrans 1 Q.entries Q.taken, r.1.length = 1 ∧
        ∀ x ∈ (portItems tn P P.done r.1).1, farGranule s E.part tn (x.addr / 64) = false)) ∧
    (takeGrans 1 Q.entries Q.taken).isSome = true ∧
    (let t := modEq s 0 5 (fun Q => { Q with idx := true })
     (getEq (getClu t 0) 5).side.length < 64 ∧ (getEq (getClu (next (exec (.wr 0 0) t)) 0) 5).side = [0]) ∧
    (getPart s E.part).noticeOpen = false ∧ storeRoomFor s 8 = true ∧
    tSpace (slotTensor s E 0) = 1 ∧ tabWf {} s.clusters = true ∧ pmemWf (getClu s 0).sram = true ∧
    rdByte (getClu (next (exec (.wr 0 0) s)) 0).sram.mem 0 = 0x41 ∧
    rdByte (getClu (next (exec (.wr 0 0) s)) 0).sram.mem 16 = 0 := by
  unfold noFence; decide +kernel
/-- Queue 5 of cluster 0 is real-time, and engine 0 has an entry for it in flight, due in cycle 9 of clove 0. -/
def rtq (skip : Nat) (es : List Entry) : State :=
  let f : Flight :=
    { q := 5, entry := { gr := List.replicate 8 { data := 7, pad := false }, mark := false }, dlClove := 0, dlCycle := 9, far := [], hst := [] }
  let s := modEng (eng 0) 0 0 (fun E => { E with flight := [f] })
  modEq { s with time := { s.time with cycle := 9 } } 0 5 (fun Q => { Q with rt := true, skip := skip, entries := es })

theorem witness_CardEntries :
    (∀ skip, skip < 2 → let s := rtq skip []
      mainOn s = true ∧
      (((getEng s 0 0).flight.find? (fun f => decide (f.q = 5))).bind (fun f => arriveEntry f .ok)).isSome = true ∧
      (getEq (getClu s 0) 5).entries.length < 64) ∧
    (let s := rtq 0 []
     tabWf {} s.clusters = true ∧ tabWf {} (getClu s 0).eng = true ∧ pmemWf (getClu s 0).sram = true ∧ dlReached s 0 10 = false ∧
     ((List.replicate 64 ({ gr := [], mark := false } : Entry)).length = 64)) ∧
    (let s := modEng (rtq 0 []) 0 0 (fun E => { E with port := (takePort { E with prog := [0x1C00000F] }).port })
     let Q := getEq (getClu s 0) 5
     queueWanted s 0 5 = true ∧ queueWanted s 0 6 = false ∧ Q.waitFrom = none ∧
     Q.en = true ∧ Q.rt = true ∧ Q.entries = [] ∧ ((queueFlights s 0 5).drop Q.skip).head?.isSome = true ∧
     dlReached s 0 9 = true ∧
     (getEq (getClu (next (exec (.cardEntryComplete 0 0 5 .ok) s)) 0) 5).entries.length = 1 ∧
     (getEq (getClu (next (exec (.rtSubstitute 0 5) s)) 0) 5).miss = 1) := by decide +kernel

/-! ### The matrix arrays -/

/-- A descriptor of an operation on array 4: INT8 by INT8, FP32 out, one row, two columns, K of 2, flags as given, for partition 1. -/
def desc (op flags wcet : Nat) : List Word :=
  [BitVec.ofNat 32 (op + flags + 0x24210000), 0x04000400, 0x00010202, 0, 0, 0, 0, 0x03020100, 0, 0, 0, BitVec.ofNat 32 wcet, 0x00010001, 0, 0, 0]

/-- Array 4 of cluster 0 is partition 1's; queues 0 and 3 hold an entry of x; the weight buffer holds 2 and 3 in column 0 and 4 and 5
in column 1. -/
def arr (preload : Bool) (x : GranuleBits) : State := { busy with
  time := { busy.time with cloveRun := true }
  parts := [(1, { part1 with preload := preload })]
  clusters := [(0, { ({} : Cluster) with
    la := [(4, { ({} : LArray) with part := some 1 })]
    pa := [(4, { ({} : PArray) with wb := { mem := [⟨0, 2⟩, ⟨1, 4⟩, ⟨128, 3⟩, ⟨129, 5⟩] } })]
    eq := [0, 3].map (fun q => (q, { ({} : Eq) with en := true, part := 1, entries := [{ gr := [{ data := x, pad := false }], mark := false }] })) })] }

/-- INIT and START, first operation of a slice: 3 * 2 + -1 * 3 = 3 and 3 * 4 + -1 * 5 = 7. -/
theorem witness_MmaRow : let d := desc 1 0x440 1000
    let s := arr false 0xFF03
    let l := dArray d % 16
    let Q := getEq (getClu s 0) (dAQ d)
    mainOn s = true ∧ (getPart s 1).live = true ∧ (getLa s 0 l).run = none ∧ (getLa s 0 l).descQ = [] ∧ opErrs s 0 1 d = [] ∧
    canStart s 0 l 1 d = true ∧ dOp d = 1 ∧ dFlow d = 0 ∧ dInit d = true ∧ dLast d = false ∧ dRem d = false ∧ dScale d = 0 ∧
    dSpill d = 0 ∧ dM d = 1 ∧ dA d = 1 ∧ dW d = 1 ∧ Q.en = true ∧ 1 ≤ granAvail Q ∧
    (takeGrans (ceilDiv (dK d) 64) Q.entries Q.taken).isSome = true ∧
    (let t := next (exec (.mma 0 1 d) s)
     accInt (accOf t 0 4 d 0 0 0) = 3 ∧ accInt (accOf t 0 4 d 0 1 0) = 7) ∧
    opErrs s 0 1 [] ≠ [] ∧ (getLa s 0 0).run = none ∧ (getLa s 0 0).descQ = [] ∧
    (let u := modPart s 1 (fun P => { P with st := .frozen })
     opErrs u 0 1 d = [] ∧ canStart u 0 l 1 d = false) := by
  decide +kernel
theorem witness_AccPreload : let d := desc 2 0x400 1000
    let s := arr true 0xFF03
    let l := dArray d % 16
    let Q := getEq (getClu s 0) (dPQ d)
    (getLa s 0 l).run = none ∧ (getLa s 0 l).descQ = [] ∧ opErrs s 0 1 d = [] ∧ canStart s 0 l 1 d = true ∧ dOp d = 2 ∧ dM d = 1 ∧
    1 ≤ granAvail Q ∧ dBcast d = false ∧ dBcast (desc 2 0xC00 1000) = true ∧
    (takeGrans (ceilDiv (8 * dN d * 1) 64) Q.entries Q.taken).isSome = true := by decide +kernel
theorem witness_AccDrain : let d := desc 3 0x480 1000
    let s := arr false 0
    let l := dArray d % 16
    (getLa s 0 l).run = none ∧ (getLa s 0 l).descQ = [] ∧ opErrs s 0 1 d = [] ∧ canStart s 0 l 1 d = true ∧ dOp d = 3 ∧
    dScale d ≠ 2 ∧
    dCi16 d = false ∧ dM d = 1 ∧ dN d = 2 ∧ (accOf s 0 l d 0 0 0).spilled = false ∧ (accOf s 0 l d 0 1 0).spilled = false ∧
    ((getLa (next (exec (.accDrain 0 1 d) s)) 0 l).drains.map (fun r => r.rows.length)) = [1] := by decide +kernel
/-- A drain of one row. -/
def drain4 : Drain :=
  { d := desc 3 0x480 1000, part := 1, row := 0, sums := [[{ chk := 11, col := 11 }]], scales := [], slice := 0, seedLo := 0, seedHi := 0, blank := false
    rows := [[{ form := 0, bits := 5, psn := false }, { form := 0, bits := 6, psn := false }]] }
/-- The drain of array 4 stands at its only row. -/
def draining : State := modLa (arr false 0) 0 4 (fun la => { la with drains := [drain4] })
theorem witness_DrainPushesRow : let s := draining
    let la := getLa s 0 4
    let dr := drain4
    la.drains = dr :: [] ∧ la.part.isSome = true ∧ la.halted = false ∧ (getPart s dr.part).twinState ≠ 3 ∧
    (getPc s 0).point < 4 ∧ dExact dr.d = true ∧ dr.blank = false ∧ (getEq (getClu s 0) (dOQ dr.d)).idx = false ∧
    (∀ x ∈ [la.sl0, la.sl1] ++ la.closing, tabGet 0 x.skip (dOQ dr.d) = 0) ∧ rowChecks dr [] = true ∧
    rowChecks dr [(0, 1)] = false ∧
    drainUntaken s 0 { dr with blank := true } = true ∧
    (let u := modEng s 0 0 (fun E => { E with run := true, part := 1, prog := [0x1C00000F], qslot := [(0, BitVec.ofNat 32 (0x80000040 + dOQ dr.d))] })
     drainUntaken u 0 { dr with blank := true } = false) ∧
    ((getEq (getClu (next (exec (.drainRowPush 0 4 []) s)) 0) (dOQ dr.d)).entries.map
      (fun e => e.gr.map (fun g => g.data))).head? = some (0x40C0000040A00000 :: List.replicate 7 0) := by decide +kernel
theorem witness_ArrayFailure : (getPa busy 0 3).wdog < max 0x1000 (getClu busy 0).wdogLimit.toNat ∧
    (let s := modPa busy 0 3 (fun pa => { pa with wdog := 0xFFFFF })
     max 0x1000 (getClu s 0).wdogLimit.toNat ≤ (getPa s 0 3).wdog ∧ (getClu s 0).failed = 0 ∧ (getClu s 0).subPending = none ∧
     16 ≤ (getClu s 0).spareFor.toNat ∧ tabWf {} (getClu s 0).pa = true) ∧
    (getClu busy 0).failed = 0 ∧ (getClu busy 0).subPending = none ∧ 16 ≤ (getClu busy 0).spareFor.toNat ∧
    tabWf {} (getClu busy 0).pa = true ∧
    (let s := { modClu busy 0 (fun cl => { cl with spareFor := 3, spareStarted := false }) with time := { busy.time with cycle := 1024 } }
     (getClu s 0).spareFor.toNat < 16 ∧ (getClu s 0).spareStarted = false ∧
     (getClu s 0).copyEnd ≤ s.time.now) := by decide +kernel
theorem witness_X56Addition : let a : Acc := { bits := BitVec.ofInt 64 (2 ^ 55 - 1) }
    a.blank = false ∧ accInt a + 0 < 2 ^ 55 ∧ 2 ^ 55 ≤ accInt a + 1 ∧
    accInt ({ bits := BitVec.ofInt 64 (-(2 ^ 55)) } : Acc) + -1 < -(2 ^ 55) ∧
    accInt (accAddInt a 1 1 false) = 2 ^ 55 - 1 ∧ (accAddInt a 0 1 false).psn = false := by decide +kernel

/-! ### Resets, power and tamper -/

theorem witness_Resets : mainOn busy = true ∧ busy.boot.st = .ready ∧ (getPart busy 1).live = true ∧ (getPart busy 1).host = 0 ∧
    (getPart busy 1).wrapWait = false ∧ (0xD1E4 : BitVec 16) ≠ 0xD1E5 ∧ (1 : Fin 4) ≠ 0 ∧ tabWf {} busy.fab.links = true ∧
    (next (exec (.reset 0xD1E5) busy)).parts = [] := by decide +kernel
/-- The package sleeps: pwr_ok has fallen. -/
def asleep : State := next (exec .pwrOkFall busy)
theorem witness_PowerPins : State.reset.pwr.porN = false ∧ State.reset.boot = {} ∧ busy.pwr.porN = true ∧
    tabWf {} busy.fab.links = true ∧
    asleep.pwr.porN = true ∧ asleep.pwr.pwrOk = false ∧ asleep.pwr.slept = true ∧
    (next (exec (.porNRise true) State.reset)).boot.st = .waitImg := by decide +kernel
theorem witness_TamperAndTrip : (1 : BitVec 5) ≠ 0 ∧ up.pwr.porN = true ∧ up.pwr.slept = false ∧ up.boot.st ≠ .ready ∧
    up.sec.tamperLatch = false ∧ ready.boot.st = .ready ∧ ready.pwr.slept = false ∧ mainOn ready = true ∧
    (let s := { ready with sec := { ready.sec with lifecycle := 0 } }
     mainOn s = true ∧ s.sec.lifecycle = 0 ∧ s.sec.debugDis = false ∧ s.sec.dbgSeen = false) := by decide +kernel
/-- Every switched domain has power and has been idle for 80 cloves. -/
def idle : State := { ready with pwr := { ready.pwr with
  clu := [(0, { ({} : PwrClu) with point := 0, idle := 80 })], linkOn := 7, ethOn := 3, radioOn := true, idle := [(0, 80), (1, 80), (2, 80), (3, 80), (4, 80), (5, 80)] } }
theorem witness_IdleSwitchOff : mainOn idle = true ∧ (getPc idle 0).point < 4 ∧ 80 ≤ (getPc idle 0).idle ∧
    cluUnheld idle 0 = true ∧
    cluUnheld { idle with pwr := { idle.pwr with clu := [(0, { ({} : PwrClu) with point := 0, idle := 80, offAt := 1 })] } } 0 = true ∧
    (getPc { idle with pwr := { idle.pwr with clu := [(0, { ({} : PwrClu) with point := 0, idle := 80, offAt := 1 })] } } 0).offAt ≤
      ({ idle.time with clove := 1 } : TimeUnit).clove ∧
    tabGet 0 ({ idle.pwr with domOffAt := [(5, 1), (8, 1)] } : Power).domOffAt 5 = 1 ∧
    tabGet 0 ({ idle.pwr with domOffAt := [(5, 1), (8, 1)] } : Power).domOffAt (6 + 2) = 1 ∧
    (∀ d, d < 14 → tabGet 0 idle.pwr.domOffAt d = 0) ∧
    (∀ d, d < 6 → domOn idle d = true ∧ 80 ≤ tabGet 0 idle.pwr.idle d ∧ domNeeded idle d = false) ∧ cluUnheld busy 0 = false ∧
    (let s := { ready with hbm := { ready.hbm with pcRetired := (List.range 64).map (fun i => (i, true)) } }
     ∀ i, i < 64 → tabGet false s.hbm.pcRetired (64 * 0 + i) = true) := by decide +kernel
/-! ### The commands of the rings -/

/-- Parameter words: word i is x for every entry (i, x), and 0 where there is none. -/
def pw (l : Tab Word) : List Word := (List.range 12).map (tabGet 0 l)

/-- A packet of the pool ring, and one of partition 1. -/
def poolPkt (l : Tab Word) : Pkt := { pkt0 with part := 0xFF, gen := 0, w := pw l }
def partPkt (l : Tab Word) : Pkt := { pkt0 with part := 1, gen := 1, w := pw l }

/-- Ring 0 of partition 1. -/
def ring1 : RingId := .part 1 0

/-- The bytes at consecutive addresses. -/
def memAt (a : Nat) (bs : List Byte) : Mem := wrBytes [] a bs

/-- The pool manager is authenticated and agreed on version 1.0; its memory, and the first pages of the HBM, hold what is given. -/
def cmd (host hbm : Mem) : State := { busy with
  auth := { busy.auth with authed := true }, poolVer := some (1, 0), host := if host = [] then [] else [(0, host)]
  hbm := { busy.hbm with m := { mem := hbm }, owner := [(0, 2), (1, 2)] } }

/-- A command may start on a ring now, and its own checks find nothing. -/
def Starts (s : State) (r : RingId) (op : Nat) (k : Pkt) (own : List Nat) : Prop := FwReady s r op k ∧ own = []

theorem witness_CommandChecks :
    fwCommand 0x11 .pool (poolPkt []) = some (.partDestroy .pool (poolPkt [])) ∧ ringExists busy .pool = true ∧
    mayStart busy .pool 0x11 (poolPkt []) = true ∧ genericErrs busy .pool 0x11 (poolPkt []) ≠ [] ∧
    (getRing busy (ringKey .pool)).fetched.length ≤ 1 ∧
    mayStart (modRing busy 1088 (fun R => { R with fetched := [[0]] })) .pool 0x11 (poolPkt []) = false ∧
    ringExists busy .poolEv = false := by decide +kernel
/-- The pool ring is enabled with its records at 0x1000 of the manager's memory. -/
def poolRing : State := modRing (cmd [] []) 1088 (fun R => { R with en := true, cplBaseAct := 0x1000 })
theorem witness_CompletionRecord : FwReady poolRing .pool 0 (poolPkt []) ∧
    getVersionErrs .pool (poolPkt [(0, 0x01000100)]) poolRing = [] ∧
    FwReady poolRing .pool 0 (poolPkt [(0, 0x01000100)]) ∧ hostLinkUp poolRing 0 = true ∧ (getRing poolRing 1088).en = true ∧
    cplRoom (getRing poolRing 1088) = true ∧ memWf (tabGet [] poolRing.host 0) = true ∧ tabWf [] poolRing.host = true := by
  unfold FwReady; decide +kernel
theorem witness_PoolCommands : let s := cmd [⟨0, 1⟩] []
    FwReady s .pool 0x00 (poolPkt [(0, 0x01000100)]) ∧ getVersionErrs .pool (poolPkt [(0, 0x01000100)]) s = [] ∧
    FwReady s .pool 0x01 (poolPkt [(0, 1), (3, 8)]) ∧ (rdA s .pool 0 8).isSome = true ∧ s.auth.locked = false ∧
    FwReady s .pool 0x01 (poolPkt []) ∧ canWrA s .pool 0 48 = true ∧
    FwReady s .pool 0x02 (poolPkt [(2, 4)]) ∧ (rdA s .pool 0 4).isSome = true ∧
    FwReady s .pool 0x03 (poolPkt [(0, 1)]) ∧ FwReady s .pool 0x04 (poolPkt []) ∧ s.time.cloveRun = false ∧
    FwReady s .pool 0x05 (poolPkt []) ∧ cpLoadErrs .pool 0 s = [] ∧
    (let t := { s with cprog := { s.cprog with inact := some (List.replicate 16 0) } }
     FwReady t .pool 0x06 (poolPkt [(0, 2)]) ∧ cpCommitErrs (poolPkt [(0, 2)]) t = []) := by
  unfold FwReady; decide +kernel
/-- PART_CREATE of partition 2 with one page and one resource-list entry at 0x100: group 0 of cluster 3. -/
def createPkt : Pkt := poolPkt [(0, 0x00010002), (1, 1), (2, 0x100), (4, 0x101), (5, 1), (10, 1)]
/-- The manager's memory holds the resource list of createPkt. -/
def listed : State := cmd [⟨0x100, 1⟩, ⟨0x101, 3⟩, ⟨0x102, 2⟩] []
theorem witness_PartCreate : FwReady listed .pool 0x10 createPkt ∧
    createErrs createPkt listed = [] := by unfold FwReady; decide +kernel
theorem witness_PartDestroy : FwReady listed .pool 0x11 (poolPkt [(0, 1)]) ∧ (getPart listed 1).live = true ∧
    hasCell listed 1 = false ∧
    tabWf {} listed.parts = true := by unfold FwReady; decide +kernel
/-- Partition 1 is at the last generation, before and after its reset. -/
def lastGen (waits : Bool) : State := modPart listed 1 (fun P => { P with gen := 0xFFFF, wrapWait := waits })
theorem witness_PartReset : FwReady listed ring1 0x12 (partPkt [(0, 1)]) ∧ resetErrs ring1 (partPkt [(0, 1)]) listed = [] ∧
    FwReady (lastGen false) ring1 0x12 { partPkt [(0, 1)] with gen := 0xFFFF } ∧
    resetErrs ring1 (partPkt [(0, 1)]) (lastGen false) = [] := by unfold FwReady; decide +kernel
theorem witness_GenerationWrap : (getPart (lastGen true) 1).wrapWait = true ∧
    allConsumed (lastGen true) 1 = true := by decide +kernel
/-- Partition 1 is Sliced, and a seal key is held. -/
def sliced (st : PartSt) : State :=
  let s := modPart (cmd [] []) 1 (fun P => { P with typ := 1, st := st, hold := [], pages := [] })
  { s with sec := { s.sec with sealKey := some 0 } }
theorem witness_FreezeSaveRestore :
    (let s := sliced .running
     FwReady s ring1 0x13 (partPkt [(0, 0x101)]) ∧ freezeErrs ring1 (partPkt [(0, 0x101)]) s = [] ∧ (getPart s 1).typ ≠ 0 ∧
     timingRun (getPart s 1) = false ∧ (getPart s 1).st = .running ∧
     FwReady s ring1 0x17 (partPkt [(0, 1)]) ∧ partParamErrs s ring1 1 = [] ∧ FwReady s ring1 0x16 (partPkt [(0, 1)])) ∧
    (let s := sliced .frozen
     FwReady s ring1 0x14 (partPkt [(0, 0x101)]) ∧ freezeErrs ring1 (partPkt [(0, 0x101)]) s = [] ∧ (getPart s 1).st = .frozen ∧
     (getPart s 1).thawAt = 0 ∧
     FwReady s ring1 0x15 (partPkt [(0, 1)]) ∧ imgLen (partPkt [(0, 1)]) = 0 ∧
     FwReady s ring1 0x15 (partPkt [(0, 1), (3, 0x10000)]) ∧ imgLen (partPkt [(0, 1), (3, 0x10000)]) ≠ 0 ∧
     partParamErrs s ring1 1 = [] ∧ s.sec.sealKey.isSome = true) ∧
    (let s := { modPart (sliced .freezing) 1 (fun P => { P with frozenAt := 3 }) with time := { busy.time with clove := 3 } }
     (getPart s 1).st = .freezing ∧ (getPart s 1).frozenAt ≤ s.time.clove) ∧
    (let s := { modPart (sliced .frozen) 1 (fun P => { P with thawAt := 3 }) with time := { busy.time with clove := 3 } }
     (getPart s 1).live = true ∧ (getPart s 1).st = .frozen ∧ (getPart s 1).thawAt ≠ 0 ∧
     (getPart s 1).thawAt ≤ s.time.clove) := by
  unfold FwReady; decide +kernel
/-- Partition 1 is Sliced and has never run; its memory holds an image of another header, and one that names its header's fields. -/
theorem witness_PartRestore : let s := modPart (cmd [] []) 1 (fun P => { P with typ := 1, everRun := false })
    let s := { s with sec := { s.sec with sealKey := some 0 } }
    let k := partPkt [(0, 1), (1, 0x100), (3, 0x1000)]
    FwReady s ring1 0x16 k ∧ partParamErrs s ring1 1 = [] ∧ (getPart s 1).everRun = false ∧ (getPart s 1).st = .running ∧
    s.sec.sealKey.isSome = true ∧ imgLen k = 0x1000 := by unfold FwReady; decide +kernel
theorem witness_PartSaveReport : saveErrs ring1 (partPkt [(0, 1)]) (sliced .frozen) = [] := by
  have h1 : imgLen (partPkt [(0, 1)]) = 0 := by decide +kernel
  have h2 : ∀ n, 32 ≤ n → partParamErrs (sliced .frozen) ring1 1 ++ errsOf [((getPart (sliced .frozen) 1).live && decide (0 ≠ 0) && decide (0 < n), stNoResource),
      ((getPart (sliced .frozen) 1).live && decide (n ≤ 0) && !canWrVa (sliced .frozen) 1 (fld48 (partPkt [(0, 1)]).w 1) n, stBounds),
      ((sliced .frozen).sec.sealKey.isNone, stDenied),
      ((getPart (sliced .frozen) 1).live && decide ((getPart (sliced .frozen) 1).st ≠ .frozen), stBusy)] = [] := by
    intro n hn
    rw [show decide (n ≤ 0) = false from decide_eq_false (by omega)]
    rfl
  have h3 : fld (wd (partPkt [(0, 1)]).w 0) 7 0 = 1 := by decide +kernel
  unfold saveErrs
  rw [h1, h3]
  exact h2 _ (by unfold neededLength imageLength; omega)
/-- The memory of a partition holds a descriptor image at 0x100: a row-major INT8 vector of 64 elements in cluster SRAM. -/
def descImage : List Byte := bytesOfWords ([0x2101, 0, 0, 0, 0, 0x10000, 0, 0, 64, 0, 0, 0, 0, 0, 1] ++ List.replicate 17 0)
/-- A cardamom image of END alone, and a CSP image of one bundle of HALT, each at its place. -/
theorem witness_MemMap : let s := cmd [] []
    FwReady s ring1 0x18 (partPkt [(0, 0x200000), (2, 1), (3, 1), (4, 1)]) ∧
    memMapErrs 1 (partPkt [(0, 0x200000), (2, 1), (3, 1), (4, 1)]) s = [] ∧
    FwReady s ring1 0x19 (partPkt [(2, 1)]) ∧ memUnmapErrs 1 (partPkt [(2, 1)]) s = [] ∧
    accessOpen s 1 = false ∧
    (let f : Flight := { q := 5, entry := { gr := [], mark := false }, dlClove := 0, dlCycle := 0, far := [], hst := [] }
     accessOpen (modEng s 0 0 (fun E => { E with part := 1, flight := [f] })) 1 = true) := by unfold FwReady; decide +kernel
theorem witness_Desc : let s := cmd [] (memAt 0x100 descImage)
    FwReady s ring1 0x20 (partPkt [(0, 0x100)]) ∧ (imageAt s 1 0x100 32).isSome = true ∧
    descErrs s 1 (imageAt s 1 0x100 32) = [] ∧
    (let t := modPart s 1 (fun P => { P with descs := [(3, { live := true, img := [] })] })
     FwReady t ring1 0x21 (partPkt [(0, 3)]) ∧ (tabGet {} (getPart t 1).descs 3).live = true ∧ descBound t 1 3 = false) := by
  unfold FwReady; decide +kernel
theorem witness_CardLoad : let s := cmd [] []
    FwReady s ring1 0x22 (partPkt [(1, 0x400)]) ∧ cardLoadErrs 1 0 0 0x400 s = [] := by unfold FwReady; decide +kernel
theorem witness_CspLoad : let s := modCsp (cmd [] []) 0 1 (fun o => { o with en := true, part := 1 })
    FwReady s ring1 0x23 (partPkt [(0, 0x100), (1, 0x400)]) ∧ inRep s 0 = false ∧
    inRep (modCsp s 0 1 (fun o => { o with st := 1, repLeft := 2 })) 0 = true := by unfold FwReady; decide +kernel
/-- A binary of one resume section, which the header names. -/
def binary : List Byte := bytesOfWords ([0x42485645, 1, 0x00010001, 64, 0, 100] ++ List.replicate 10 0 ++ [5, 0, 0, 0])
theorem witness_ProgLoad : let s := cmd [] (memAt 0x100 binary)
    FwReady s ring1 0x24 (partPkt [(0, 0x100), (2, 80)]) ∧ (progBytes s 1 (partPkt [(0, 0x100), (2, 80)])).isSome = true ∧
    progLoadErrs 1 (partPkt [(0, 0x100), (2, 80)]) s = [] := by unfold FwReady; decide +kernel
/-- Program 5 is loaded; the partition is Free, Determined and Sealed as given. -/
def loaded (det : Bool) : State := modPart (cmd [] (memAt 0x100 (bytesOfWords [1, 0, 0, 0, 0x04000000, 1]))) 1 (fun P => { P with
  det := det, isSealed := det, progs := [(5, { ({} : Prog) with live := true, nshard := 1 })] })
theorem witness_ProgUnload : FwReady (loaded false) ring1 0x25 (partPkt [(0, 5)]) ∧ (getProg (loaded false) 1 5).live = true ∧
    progUsed (getPart (loaded false) 1) 5 = false := by unfold FwReady; decide +kernel
theorem witness_TaskSubmit : FwReady (loaded false) ring1 0x26 (partPkt [(0, 0x10005)]) ∧
    taskErrs 1 (partPkt [(0, 0x10005)]) (loaded false) = [] := by unfold FwReady; decide +kernel
theorem witness_LaunchAt : FwReady (loaded true) ring1 0x27 (partPkt [(0, 0x10005), (1, 5), (2, 0x100)]) ∧
    launchErrs 1 (partPkt [(0, 0x10005), (1, 5), (2, 0x100)]) (loaded true) = [] := by unfold FwReady; decide +kernel
theorem witness_RadClaim : let s := cmd [] []
    let k := partPkt [(0, 160), (1, 0x81), (2, 1), (3, 0x100), (5, 1)]
    FwReady s ring1 0x37 k ∧ claimErrs ring1 k s = [] := by unfold FwReady; decide +kernel
/-- Page 1 of partition 1 is a fabric window on node 0, page 1 of it; queue 9 is the partition's on port 0. -/
def wide (hbm : Mem) : State :=
  let s := modPart (cmd [] hbm) 1 (fun P => { P with pt := P.pt ++ [(1, { v := true, w := true, c := false, kind := 1, target := 0x200000 })] })
  { s with eth := { s.eth with qs := [(9, { ({} : TmQ) with en := true, part := 1 })]
                               tmp := [(1, { ({} : TmPart) with macs := [(0, 5), (1, 0x80010000)], vlans := [(0, 0x1000)] })] } }
/-- A put of 64 bytes from VA 0x1000 to VA 0x200000, in a list at 0x100. -/
def segBytes : List Byte := bytesOfWords [0x1000, 0, 0x200000, 0, 64, 0, 0, 0, 0, 0, 0, 0]
def dmaPkt : Pkt := partPkt [(0, 1), (1, 0x100), (3, 1)]
theorem witness_FabDma : let s := wide (memAt 0x100 segBytes)
    FwReady s ring1 0x40 dmaPkt ∧ fabDmaErrs ring1 dmaPkt s = [] ∧ (segList s ring1 dmaPkt).getD [] ≠ [] ∧
    (∀ x, x ∈ (segList s ring1 dmaPkt).getD [] → segBad s 1 false x.2 = false) ∧
    (let u := wide (memAt 0x100 (bytesOfWords [0x1000, 0, 0x3000, 0, 64, 0, 0, 0, 0, 0, 0, 0]))
     fabDmaErrs ring1 dmaPkt u = [] ∧ ((segList u ring1 dmaPkt).getD []).length = 1 ∧
     ∀ x, x ∈ (segList u ring1 dmaPkt).getD [] → segBad u 1 false x.2 = true) := by unfold FwReady; decide +kernel
/-- An ordered flag of node 3, partition 2. -/
def held0 : FabReq := { node := 3, part := 2, gen := 1, seq := 0, op := 2, typ := 0, fetch := false, len := 8, addr := 0x200008, data := List.replicate 8 7
                        psn := false, members := [], writes := 0, stage := none }
theorem witness_FabricCommands : let s := wide []
    FwReady s ring1 0x41 (partPkt []) ∧
    FwReady s ring1 0x42 (partPkt [(0, 0x01000000), (1, 1), (4, 1), (5, 0x100)]) ∧
    fabExportErrs ring1 (partPkt [(0, 0x01000000), (1, 1), (4, 1), (5, 0x100)]) s = [] ∧
    FwReady s ring1 0x43 (partPkt [(0, 3)]) ∧ 3 < (getPart s 1).nexport ∧
    (∃ h ∈ [({ q := held0, owner := 1, ent := 3 } : HeldFlag)], h.owner = 1 ∧ h.ent = 3) := by unfold FwReady; decide +kernel
theorem witness_ServiceCommands : let s := wide []
    FwReady s .pool 0x50 (poolPkt [(0, 19)]) ∧ testBlocked s 19 = false ∧
    FwReady s .pool 0x51 (poolPkt [(0, 0x10F)]) ∧ inService s 3 ≠ [3] ∧ FwReady s .pool 0x51 (poolPkt [(0, 3)]) ∧ 3 < poolSize 3 ∧
    (getInst s (instKey 3 0)).faulty = false ∧ s.radio.waiting = [] ∧ tabWf {} s.radio.inst = true ∧
    FwReady s .pool 0x52 (poolPkt [(0, 511)]) ∧ tabGet false s.hbm.pcRetired 511 = false ∧
    (let u := { s with hbm := { s.hbm with retiring := some 511 } }
     canRetire u 511 (pagesOn s 511) = true) ∧
    s.hbm.retiring = none := by unfold FwReady; decide +kernel

/-- An endpoint's image at 0x100: VLAN 1, eight eAxC bits in each of two fields, empty windows. -/
def epBytes : List Byte := bytesOfWords [0x20, 0, 0, 0x88, 0, 0, 0, 0, 0, 0, 0, 0]
/-- A cell's context: LTE, 6 resource blocks, one stream, one layer each way, cluster 0, a report ring in page 0. -/
def ctxBytes : List Byte := bytesOfWords ([0x8180, 0x21] ++ List.replicate 25 0 ++ [0x1000, 0, 0, 0, 0])
/-- The radio domain has power; endpoint 0 is partition 1's; its memory holds a context at 0x200 and one uplink flow at 0x300. -/
def radio : State :=
  let s := wide (wrBytes (wrBytes (memAt 0x100 epBytes) 0x200 ctxBytes) 0x300 (bytesOfWords [1, 0]))
  { s with radio := { s.radio with eps := [(0, { ({} : Endpoint) with live := true, part := 1 })] }, pwr := { s.pwr with radioOn := true } }
def cellPkt : Pkt := partPkt [(0, 0x200), (2, 0x300), (4, 1), (5, 80)]
theorem witness_RuCommands : domUsable radio radio.pwr.radioOn 5 = true ∧ domUsable radio false 5 = false ∧
    FwReady radio ring1 0x30 (partPkt [(0, 0x100)]) ∧ ruAddErrs ring1 (partPkt [(0, 0x100)]) radio = [] ∧
    FwReady radio ring1 0x31 (partPkt []) ∧ epMine radio ring1 0 = true ∧
    radio.radio.cells.any (fun c => c.2.live && c.2.flows.any (fun f => decide (f.ep = 0))) = false ∧
    FwReady radio ring1 0x32 (partPkt [(1, 0x1000)]) ∧ canWrA radio ring1 0x1000 28 = true := by unfold FwReady; decide +kernel
theorem witness_CellAdd : FwReady radio ring1 0x33 cellPkt ∧ FwReady radio ring1 0x36 cellPkt ∧
    cellErrs radio 1 (readCtx radio ring1 cellPkt) (readFlows radio ring1 cellPkt) 1 80 = [] := by unfold FwReady; decide +kernel
/-- Cell 0 runs. -/
def withCell : State := modCell radio 0 (fun _ => { ({} : Cell) with live := true, part := 1, ctx := [0x8180, 0x21], started := true })
theorem witness_CellEnd : futureFrame withCell 80 = some 80 ∧ cellEndErrs withCell ring1 0 80 = [] ∧
    FwReady withCell ring1 0x34 (partPkt [(1, 80)]) ∧ FwReady withCell ring1 0x35 (partPkt [(1, 80), (4, 0x1000)]) ∧
    imageLen withCell (getCell withCell 0) ≤ 0x1000 ∧ canWrA withCell ring1 0 0x1000 = true := by unfold FwReady; decide +kernel
/-- A connection block at 0x100: source MAC 5. -/
def connBytes : List Byte := bytesOfWords (5 :: List.replicate 31 0)
def qpPkt : Pkt := partPkt [(0, 0x900), (1, 0x444), (2, 0x1000), (4, 0x2000), (6, 0x3000), (8, 0x100)]
theorem witness_NetQp : let s := wide (memAt 0x100 connBytes)
    FwReady s ring1 0x60 qpPkt ∧ qpCreateErrs ring1 qpPkt s = [] ∧
    (let t := modQp s 2 (fun q => { q with live := true, part := 1 })
     FwReady t ring1 0x61 (partPkt [(0, 2)]) ∧ (getQp t 2).live = true ∧ (getQp t 2).part = 1 ∧ tabWf {} t.eth.qps = true ∧
     qpInFlight t 2 = false ∧
     (let f : Frame := { bytes := [1], dl := none, radio := none, raw := none, qp := some 2 }
      qpInFlight { t with eth := { t.eth with qs := [(9, { ({} : TmQ) with frames := [f] })] } } 2 = true)) := by
  unfold FwReady; decide +kernel
theorem witness_NetMr : let s := wide []
    FwReady s ring1 0x62 (partPkt [(2, 64), (4, 3)]) ∧ mrRegErrs ring1 (partPkt [(2, 64), (4, 3)]) s = [] ∧
    (let m : Mr := { ({} : Mr) with live := true, part := 1, rkey := 7 }
     let t := { s with eth := { s.eth with mrs := [(7, m)] } }
     FwReady t ring1 0x63 (partPkt [(0, 7)]) ∧ (tabGet {} t.eth.mrs 7).live = true ∧ (tabGet {} t.eth.mrs 7).rkey = 7 ∧
     (tabGet {} t.eth.mrs 7).part = 1 ∧
     keyInUse t 7 = false ∧ keyInUse (modQp t 2 (fun q => { q with live := true, rxKey := some 7 })) 7 = true) := by
  unfold FwReady; decide +kernel
theorem witness_NetRaw : let s := wide []
    FwReady s ring1 0x64 (partPkt []) ∧ rawCfgErrs ring1 (partPkt []) s = [] ∧
    FwReady s ring1 0x64 (partPkt [(0, 0x144), (1, 0x1000), (3, 0x2000)]) ∧
    rawCfgErrs ring1 (partPkt [(0, 0x144), (1, 0x1000), (3, 0x2000)]) s = [] := by unfold FwReady; decide +kernel
/-! ### Rings, links of the hosts and time -/

theorem witness_CommandRings : ringThere poolRing .pool = true ∧ ringIsEvent (ringKey .pool) = false ∧
    tabWf {} poolRing.rings = true ∧
    (let R := getRing poolRing 1088
     (R.en && !R.fault && hostLinkUp poolRing (ringPort poolRing 1088)) = true ∧ ((1 : BitVec 16) - R.cmdHead).toNat ≤ cmdSize R ∧
     cplUsed R ≤ cplSize R ∧ cmdSize R < ((17 : BitVec 16) - R.cmdHead).toNat ∧ cplSize R < (R.cplTail - (1 : BitVec 16)).toNat) ∧
    (getRing ready 1088).en = false ∧ ringIdle ready 1088 = true ∧
    ((getRing ready 1088).en && !(getRing ready 1088).fault) = false ∧
    (let s := modRing ready 1088 (fun R => { R with enWaits := true })
     ringIdle s 1088 = true ∧ (getRing s 1088).enWaits = true) ∧
    (let s := modRing ready 1088 (fun R => { R with fetched := [[0]] })
     (getRing s 1088).en = false ∧ ringIdle s 1088 = false) := by decide +kernel
/-- Seventeen commands in a ring of sixteen stop it. -/
theorem test_doorbell_too_far : (getRing (next (exec (.cmdDoorbell .pool 17) poolRing)) 1088).fault = true ∧
    (getRing (next (exec (.cmdDoorbell .pool 16) poolRing)) 1088).fault = false := by decide +kernel
theorem witness_HostLinks : hostLinkUp ready 3 = true ∧ hostLinkUp up 3 = false ∧ up.pwr.perstN.getLsbD 3 = true ∧
    ({ up.pwr with perstN := 0 } : Power).perstN.getLsbD 3 = false ∧
    (let s := { ready with auth := { ready.auth with locked := true, fails := [0] }, time := { ready.time with now := 120000000000 } }
     s.auth.locked = true ∧ s.auth.fails.getLastD 0 + 120000000000 ≤ s.time.now) := by decide +kernel
theorem witness_TimeMarks : (0 + 2 ^ 31 - 1) % 2 ^ 32 = 2 ^ 31 - 1 ∧ cloveOfField ready (2 ^ 31 - 1) = some (2 ^ 31 - 1) ∧
    (2 ^ 31 + 2 ^ 31) % 2 ^ 32 = ready.time.clove % 2 ^ 32 ∧ cloveOfField ready (2 ^ 31) = none ∧
    (getPart busy 1).live = true ∧ (getPart busy 1).stepAt = none ∧
    (getPart (modPart busy 1 (fun P => { P with stepAt := some 0 })) 1).stepAt = some 0 ∧ ready.time.ppsOutEn = true ∧
    ready.time.ns ≤ 2 := by decide +kernel
/-- Domain 0 is in use with an estimate that has held since cycle 0, and locked as given; the cloves run as given; 16 s have passed. -/
def clocked (run locked : Bool) : State := { ready with time := { ready.time with
  cloveRun := run, now := 32000000000, dom0 := { ready.time.dom0 with en := true, locked := locked, heldFrom := some 0 } } }
theorem witness_TimeDomains : (domOf (clocked false false).time false).en = true ∧
    domNumOk (domOf (clocked false false).time false) = true ∧
    (clocked false false).time.cloveRun = false ∧ (clocked true false).time.cloveRun = true ∧
    (domOf (clocked true false).time false).locked = false ∧ (domOf (clocked true false).time false).heldFrom = some 0 ∧
    0 + 32000000000 ≤ (clocked true false).time.now ∧
    (domOf (clocked true true).time false).locked = true ∧ (domOf (clocked true true).time true).locked = false ∧
    (clocked true true).time.active = false ∧ (clocked true true).time.auto = true ∧ (clocked true true).time.reqAt = none ∧
    (let t := { (clocked true true).time with reqAt := some (32000000000, true), activeReq := false }
     t.reqAt = some (t.now, !false) ∧ t.active = false ∧ t.activeReq = false) ∧
    (let t := { (clocked true false).time with holdover := true, reqWaits := true }
     t.reqWaits = true ∧ t.activeReq = false) := by decide +kernel
/-- The Announce timeout of a profile is a free value: one domain has passed it, whatever it is, and one has not. -/
theorem witness_AnnounceTimeout (n : Nat) : (0 : Nat) + n ≤ n ∧ n < (n + 1) + n := by omega
/-- The loss of domain 0's lock in the cycle of the request that left domain 1 for it goes back to domain 1 (R216). -/
theorem test_loss_wins : let s := clocked true true
    let s := { s with time := { s.time with reqAt := some (32000000000, true) } }
    (loseLock s false).time.active = true ∧ (loseLock s false).time.reqWaits = true := by decide +kernel
/-- Link 0 is up; the marker of clove 9 comes by it. -/
def marker : Marker := { index := 9, sender := 1, master := 2, hop := 1, res := 1000 }
def marked (run : Bool) (good : Nat) : State := { modLink ready 0 (fun k => { k with st := 3, rxUsed := [(2, 1)] }) with time := { ready.time with
  cloveRun := run, clove := if run then 9 else 0, markGood := good, markIndex := 8 } }
theorem witness_CloveMarkers : linkAlive (marked true 0) 0 = true ∧ marker.index.toNat = (marked true 0).time.clove % 2 ^ 32 ∧
    marker.index.toNat ≠ ({ (marked true 0).time with clove := 10 } : TimeUnit).clove % 2 ^ 32 ∧
    (marked true 0).time.rackMaster = false ∧
    marker.hop.val ≠ 15 ∧ (marked true 0).time.master = none ∧ (marked true 0).time.markBest = none ∧
    (marked false 7).time.markGood = 7 ∧ marker.index.toNat = ((marked false 7).time.markIndex + 1) % 2 ^ 32 ∧
    (getLink (marked false 7) 0).delayPs.toNat + marker.res < 125000000 ∧
    marker.index.toNat ≠ (marked false 7).time.markIndex ∧
    (∀ x ∈ [({ (marked true 0).time with markBest := some (1, 0) } : TimeUnit).markBest], x = some (1, 0) ∧ (1 = marker.hop.val ∧
      0 ≤ 0)) ∧
    (({ (marked true 0).time with markSrc := true, markMiss := 8 } : TimeUnit).markMiss = 8) ∧
    (next (exec (.cloveMarkerRx 0 marker) (marked false 7))).time.clove = 9 ∧
    (next (exec (.cloveMarkerRx 0 marker) (marked false 7))).out = [.credit 0 2 1] := by decide +kernel

/-! ### The chip links and the fabric -/

/-- Link 0 is enabled and its group has power; it stands at a state and a stage of training, with its keys. -/
def linked (st stage : Nat) : State :=
  let s := modLink ready 0 (fun k => { k with en := true, st := st, stage := stage, prk := some 0 })
  { s with pwr := { s.pwr with linkOn := 1 }, sec := { s.sec with identKey := true }, fab := { s.fab with node := 0 } }
/-- All stages of an attempt are done, with a partner of the chip ID given, of node 1, which authenticates as given. -/
def training (partner : BitVec 16) (ok : Bool) : Training :=
  { answered := true, equalised := true, locked := some 0xF, ident := some { partner := partner, node := 1, isSwitch := false }
    delayPs := some 100, auth := some ok }
def silentPartner : Training := { answered := false, equalised := false, locked := none, ident := none, delayPs := none, auth := none }
theorem witness_LinkTraining : mainOn (linked 0 0) = true ∧ mayTrain (linked 0 0) 0 = true ∧ silentPartner.answered = false ∧
    (0xF &&& ~~~(getLink (linked 0 0) 0).lanesRet &&& ~~~(getLink (linked 0 0) 0).laneDis : BitVec 4) ≠ 0 ∧
    ownNode (linked 0 0) < 64 ∧ (linked 0 0).sec.identKey = true ∧ (linked 0 0).fab.chipId = 0 ∧ (1 : BitVec 16) ≠ 0 ∧
    (getLink (linked 1 5) 0).st = 1 ∧ (getLink (linked 1 5) 0).prk.isSome = true ∧
    overdue (linked 1 5) (getLink (linked 1 5) 0) = false ∧
    laneSet (getLink (linked 1 5) 0) = some (0, [0, 1, 2, 3]) ∧ (linked 1 5).fab.outst = [] ∧
    (let t := next (exec (.linkTrainAttempt 0 (training 1 true)) (linked 0 0))
     (getLink t 0).stage = 5 ∧ (getLink t 0).st = 1 ∧ (getLink t 0).prk.isSome = true) ∧
    (getLink (next (exec (.linkTrainAttempt 0 (training 0 true)) (linked 0 0))) 0).st = 2 ∧
    (getLink (next (exec (.linkTrainAttempt 0 (training 1 false)) (linked 0 0))) 0).authFail = true ∧
    (let s := { linked 1 1 with time := { ready.time with now := 10000001 } }
     (getLink s 0).stageAt + stageLimit (getLink s 0).stage < s.time.now ∧ (getLink s 0).stage ≠ 0 ∧
     (getLink s 0).heardAt + 2000000 ≤ s.time.now ∧ s.time.now ≤ (getLink s 0).attemptAt + 100000000) := by decide +kernel
/-- Lane 3 of link 0 has been charged three times since cycle 0. -/
def charged3 : State := modLink (linked 3 5) 0 (fun k => { k with charges := List.replicate 3 (3, 0), lanesRet := 0x7 })
theorem witness_FastRetrains : (getLink (linked 3 5) 0).st = 3 ∧ (getLink (linked 4 5) 0).st = 4 ∧
    (getLink (linked 3 5) 0).lanesRet.getLsbD 3 = false ∧ (getLink charged3 0).lanesRet.getLsbD 3 = false ∧
    ((getLink charged3 0).charges.filter (fun x => decide (charged3.time.now ≤ x.2 + 20000000000) && decide (x.1 = 3))).length = 3 ∧
    ((getLink charged3 0).lanesRet ||| BitVec.ofNat 4 (2 ^ 3)) = 0xF ∧
    retrainOver (linked 4 5) (getLink (linked 4 5) 0) 7 = false ∧ retrainOver (linked 4 5) (getLink (linked 4 5) 0) 0xF = true ∧
    retrainOver { linked 4 5 with time := { ready.time with now := 16000 } } (getLink (linked 4 5) 0) 0 = true ∧
    retrainWidth (linked 4 5) (getLink (linked 4 5) 0) = 0 ∧
    laneSet { (getLink (linked 4 5) 0) with locked := 0 } = none ∧
    laneSet { (getLink (linked 4 5) 0) with locked := 8 } = some (2, [3]) ∧
    tabWf {} (linked 4 5).fab.links = true := by decide +kernel
/-- A lane set of lane 1 missing is x2 on lanes 2 and 3 (R259). -/
theorem test_lane_set_upper_half : laneSet { ({} : Link) with locked := 0xD } = some (1, [2, 3]) := by decide
theorem witness_ServiceTrainsAnew : mainOn (linked 5 0) = true ∧ tabWf {} (linked 5 0).fab.links = true ∧
    (getLink (linked 5 0) 0).en = true ∧
    linkPowered (linked 5 0) 0 = true ∧ silentPartner.answered = false := by decide +kernel
def flit (seq : Nat) (fec tag : Bool) (corr : List Nat) : Flit :=
  { seq := seq, vc := 1, bytes := 300, keyPhase := false, fecOk := fec, tagOk := tag, corrected := corr, ack := none, nak := none, freed := [] }
theorem witness_FlitsAndPaths : let k := getLink (linked 3 5) 0
    k.st = 3 ∧ k.prk.isSome = true ∧ k.txq = [] ∧ flitFits k (flit 0 true true []) = true ∧ (flit 0 true true []).seq = k.rxSeq ∧
    flitFits { k with rxUsed := [(1, 480)] } (flit 0 true true []) = false ∧ (flit 1 true true []).seq > k.rxSeq ∧
    (flit 0 true true []).seq < (getLink (modLink (linked 3 5) 0 (fun k => { k with rxSeq := 1 })) 0).rxSeq ∧
    ({ flit 0 true true [] with nak := some 0 } : Flit).nak = some 0 ∧
    ({ flit 0 true true [] with ack := some 0 } : Flit).ack = some 0 ∧
    k.badTags < 16 ∧ (getLink (modLink (linked 3 5) 0 (fun k => { k with badTags := 15 })) 0).badTags = 15 ∧
    tabGet 0 k.fec 0 ≤ k.errThr.toNat ∧ k.errThr.toNat < tabGet 0 k.fec 0 + 1025 ∧ k.lanesRet = 0 ∧
    2 ^ 48 ≤ ({ k with txCtr := 2 ^ 48 - 1 } : Link).txCtr + 1 ∧ k.txCtr + 1 < 2 ^ 48 ∧
    (linked 3 5).time.now < k.keyAt + 7200000000000 ∧
    k.keyAt + 7200000000000 ≤ ({ ready.time with now := 7200000000000 } : TimeUnit).now ∧
    (1 : Fin 64).val ≠ ownNode (linked 3 5) ∧
    tabWf {} (linked 3 5).fab.links = true ∧
    (tabGet 0 (getLink (next (exec (.flitRx 0 (flit 0 true true [])) (linked 3 5))) 0).rxUsed 1) = 2 := by decide +kernel
/-- A FAB_OP entry of an operation on 8 bytes of VA 0x200000 with NC, its local bytes at 0x100. -/
def fabEntry (op len : Nat) : List Word := [BitVec.ofNat 32 (op + 0x80 + 256 * len), 0x200000, 0, 0x100, 0, 0, 0, 0]
/-- The partition runs in running cloves. -/
def sending (hbm : Mem) : State := let s := wide hbm
  { s with time := { s.time with cloveRun := true } }
theorem witness_FabricSources : ∀ op, op < 7 → let e := fabEntry op (if op < 3 then 7 else 0)
    let u := walkAll (sending []) 1 [foRemote e, foLocal e]
    mainOn (sending []) = true ∧ partRuns (sending []) 1 = true ∧ foOp e = op ∧ foErrs u 1 e = [] ∧ foNc e = true ∧
    (foTarget u 1 e).isSome = true ∧
    mayIssue u 1 64 = true ∧ mayIssue (modPart u 1 (fun P => { P with noticeOpen := true })) 1 64 = false ∧
    (let b := fabEntry op 8
     foErrs (walkAll (sending []) 1 [foRemote b, foLocal b]) 1 b ≠ [] ∧
     lowest (foErrs (walkAll (sending []) 1 [foRemote b, foLocal b]) 1 b) ≠ stRefusedMode) := by decide +kernel
/-- A load of a line that the cache holds. -/
theorem witness_FabricCached : let s := modPart (sending []) 1 (fun P => { P with
      pt := P.pt.map (fun x => if x.1 = 1 then (1, { x.2 with c := true }) else x) })
    let s := { s with fab := { s.fab with cache := [{ part := 1, addr := 0x200000 / 64, data := List.replicate 64 9, psn := false }] } }
    let e : List Word := [0x700, 0x200000, 0, 0x100, 0, 0, 0, 0]
    foErrs s 1 e = [] ∧ foNc e = false ∧ (foTarget s 1 e).isSome = true ∧
    (∀ ga ∈ foTarget s 1 e, cacheRead s 1 ga (foLen e) = some (List.replicate 8 9, false)) ∧
    writeLost s 1 (foLocal e) 8 = false := by
  decide +kernel
/-- A Determined partition may not use an atomic on FP32 values (R228). -/
theorem witness_FabricRefused : let s := modPart (sending []) 1 (fun P => { P with det := true })
    let e : List Word := [0x8B, 0x200000, 0, 0x100, 0, 0, 0, 0]
    foErrs s 1 e ≠ [] := by decide +kernel
def inval : List Word := [7, 0x200000, 0, 0, 0, 64, 0, 0]
/-- A request of node 3, partition 2, for this chip, which is node 0. -/
def req (op : Fin 7) (data : List Byte) : FabReq := { held0 with op := op, data := data }
theorem witness_FabricRouter : foOp inval = 7 ∧ foErrs (wide []) 1 inval = [] ∧
    foErrs (wide []) 1 [7, 0, 0x10000, 0, 0, 64, 0, 0] ≠ [] ∧
    268435456 ≤ (wd ([7, 0, 0, 0, 0, 0x10000000, 0, 0] : List Word) 5).toNat ∧
    (wide []).fab.combineEn = true ∧ (wide []).fab.comb = [] ∧ (req 3 []).stage = none ∧ (req 3 []).members = [] ∧
    (5 < 24 ∧ (getLink (wide []) 5).isSwitch = false) ∧
    (let b := bindSource (wide []) 24
     combinable (b (req 3 [1, 0, 0, 0])) = true ∧ (b (req 0 [])).op.val = 0 ∧ combinable (b (req 2 [])) = false ∧
     (b (req 1 [])).op.val = 1 ∧
     reqLine (b (req 1 [])) = reqLine (req 3 [1, 0, 0, 0])) ∧
    (let x : Comb := { req := req 3 [1, 0, 0, 0], members := [req 3 [1, 0, 0, 0]], opened := 0, writers := [] }
     x.req.op.val ≠ 0 ∧ x.opened + 128 ≤ 128 ∧ 127 < x.opened + 128) := by decide +kernel
/-- The chip is node 0, knows the source's generation, and partition 1's entry 0 exports page 1 to it. -/
def target : State :=
  let e : ExportEnt := { ({} : ExportEnt) with used := true, srcNode := 3, srcPart := 255, wr := true, pages := [0x200000] }
  let s := modPart busy 1 (fun P => { P with exps := [(0, e)] })
  { s with fab := { s.fab with node := 0, peerGen := [(64 * 3 + 2, 1)] } }
theorem witness_FabricDestination : let s := target
    let q := bindSource s 24 (req 1 [7, 0, 0, 0, 0, 0, 0, 0])
    let y : Stage := { dma := 1, seg := 0, total := 8 }
    mainOn s = true ∧ fabNode q.addr.toNat = ownNode s ∧
    fabNode (({ q with addr := 0x800000000000 } : FabReq).addr.toNat) ≠ ownNode s ∧
    peerGen s q.node.val q.part.val = q.gen ∧ peerGen s q.node.val q.part.val ≠ 0 ∧
    peerGen s q.node.val q.part.val ≠ ({ q with gen := 2 } : FabReq).gen ∧ repeats s q = false ∧ fabBad q.addr.toNat = false ∧
    sourcesOf q = [(3, 2, 0)] ∧ admitting s q = some (1, 0) ∧ q.stage = none ∧ admitting s (req 0 []) = none ∧
    (∃ m ∈ sourcesOf q, peerGen busy m.1 m.2.1 = 0) ∧
    repeats { s with fab := { s.fab with done := [{ node := 3, seq := 0, resp := { node := 3, seq := 0, status := 0, data := [], psn := false } }] } } q = true ∧
    placeOf s (fabOff q.addr.toNat) = .hbm 0x200008 ∧ memWf s.hbm.m.mem = true ∧ s.fab.staged = [] ∧ stagedUse s + 8 ≤ 33554432 ∧
    admitting s { q with stage := some y } = some (1, 0) ∧ allEarlier s { q with writes := 1 } = false ∧ allEarlier s q = true ∧
    admitting s { q with op := 2, writes := 1 } = some (1, 0) ∧
    rdByte (next (exec (.fabricRequestRx ⟨q, 24⟩ .clean) s)).hbm.m.mem 0x200008 = 7 := by
  decide +kernel
/-- An ordered flag waits for one store of its source, and then for none (R272). -/
def flagWaits (n : Nat) : State :=
  { target with fab := { target.fab with flagsHeld := [{ q := { held0 with writes := n }, owner := 1, ent := 0 }] } }
theorem witness_OrderedFlag : (flagWaits 0).fab.flagsHeld = [{ q := { held0 with writes := 0 }, owner := 1, ent := 0 }] ∧
    allEarlier (flagWaits 0) { held0 with writes := 0 } = true ∧ allEarlier (flagWaits 1) { held0 with writes := 1 } = false ∧
    (tabGet {} (getPart (flagWaits 0) 1).exps 0).used = true ∧
    rdByte (next (exec (.orderedFlagApply 3 2) (flagWaits 0))).hbm.m.mem 0x200008 = 7 ∧
    rdByte (next (exec (.orderedFlagApply 3 2) (flagWaits 1))).hbm.m.mem 0x200008 = 0 := by decide +kernel
/-- One request to node 3 is outstanding; it is a part of a segment with no path, as given. -/
def waits (part : Bool) : State :=
  let o : FabOut :=
    { req := req 1 [], dst := 3, cluster := 0, localVa := 0, issued := 0, path := 25, cacheable := false, kind := if part then 3 else 0
      off := 0, take := 0 }
  { target with fab := { target.fab with outst := [o] } }
theorem witness_FabricReplies : (waits false).fab.comb = [] ∧ ((waits false).fab.outst.map (fun o => o.dst)) = [3] ∧
    ((waits false).fab.outst.map (fun o => (o.req.seq, o.kind))) = [(0, 0)] ∧ (waits false).fab.dma = [] ∧
    ((waits true).fab.outst.map (fun o => (o.kind, o.path, o.noPathAt))) = [(3, 25, 0)] ∧
    0 + fabTimeoutCycles (waits false) ≤ ({ (waits false).time with now := 2000000 } : TimeUnit).now ∧
    (waits false).time.now < 0 + fabTimeoutCycles (waits false) ∧
    (1 : BitVec 16) ≠ 0 ∧ (let s := { target with fab := { target.fab with notices := [(1, 1, [3])] } }
      s.fab.notices = [(1, 1, [3])] ∧ (getPart s 1).live = true) ∧
    (next (exec (.fabricResponseRx ⟨{ node := 3, seq := 0, status := 0, data := [], psn := false }, 24⟩) (waits false))).fab.outst = [] := by
  decide +kernel
/-! ### The step, boot and security -/

theorem witness_StepRunsQueue : State.reset.pending = [] ∧ State.reset.pwr.porN = false ∧ up.pending = [] ∧ up.pwr.porN = true ∧
    ({ up with pending := [.snap] } : State).pending = .snap :: [] := by decide +kernel
theorem test_reset_then_power_up :
    (next (exec .start (next (exec (.porNRise true) State.reset)))).boot.lastStatus = stBadParam := by decide +kernel
theorem witness_SnapshotAndBoundary : mainOn ready = true ∧ ready.boot.st = .ready ∧ bit (0x100000 : Word) 20 = true ∧
    (clocked true true).time.cloveRun = true ∧ (clocked false true).time.cloveRun = false := by decide +kernel
/-- The invariant holds of a state in use, not of the state after reset alone. -/
theorem witness_StepKeepsInv : tabWf {} busy.rings = true ∧ tabWf {} busy.parts = true ∧ tabWf {} csp.clusters = true ∧
    tabWf {} (linked 3 5).fab.links = true ∧ tabWf [] listed.host = true ∧ memWf (tabGet [] listed.host 0) = true ∧
    pmemWf listed.hbm.m = true ∧ listed.time.ns < 1000000000 ∧ listed.time.cycle < 250000 ∧
    listed.sec.lifecycle ≤ 2 := by decide +kernel
theorem witness_FusesOnlyAdvance : exec .snap ready = .next (next (exec .snap ready)) := rfl
theorem witness_PacketRoundTrip : (0x64 : Nat) < 256 ∧ pkt0.w.length = 12 := by decide
/-- Images of all five types are accepted. -/
def images (st : BootSt) : State := { up with boot := { up.boot with
  st := st, accepted := [(1, 1), (2, 1), (3, 1), (4, 1), (5, 1)] }, hostUp := 15 }
theorem witness_BootStates : up.boot.st = .waitImg ∧ allAccepted up = false ∧ allAccepted (images .waitImg) = true ∧
    (images .waitImg).sec.tamperLatch = false ∧ (images .verify).boot.st = .verify ∧ (imgCheck (images .verify) false).1 ≠ [] ∧
    tabWf 0 (images .verify).boot.meas = true ∧ (images .starting).boot.st = .starting ∧ ready.boot.st = .ready ∧
    (images .starting).time.now ≤ (images .starting).boot.startAt + startCycles ∧
    (images .starting).boot.startAt + startCycles ≤ ({ (images .starting).time with now := startCycles } : TimeUnit).now := by decide +kernel
/-- A request block of each kind at address 0 of host 0's memory. -/
def secReq (w0 : Nat) : State := { ready with host := [(0, memAt 0 (bytesOfWords [BitVec.ofNat 32 w0, 1, 1]))] }
theorem witness_SecurityRequests : secBlock up = none ∧
    (∀ kind, kind < 7 → (secBlock (secReq kind)).map secKind = some kind) ∧
    (secBlock { ready with host := [] }).map (secErrs ready) = some [] ∧ tabWf [] ready.host = true ∧
    memWf (tabGet [] ready.host 0) = true := by decide +kernel
theorem witness_LaneSets : (getLink (linked 1 5) 0).st = 1 ∧ (getLink (linked 1 5) 0).stage = 5 ∧
    lanesFree (getLink (linked 1 5) 0) ≠ [] ∧
    (getLink (linked 4 5) 0).st = 4 ∧ lanesFree { (getLink (linked 4 5) 0) with locked := 8 } ≠ [] := by decide +kernel
/-- A put or get of two segments of no bytes, and one of the first segment alone; the local address is not mapped where away is set. -/
def dma2 (get two flag away : Bool) : State :=
  let g : DmaSeg := { n := 0, e := [0, if away then 0x8000 else 0, 0, 0, if flag then 0x80000 else 0] }
  let d : Dma := { id := 1, part := 1, get := get, segs := if two then [g, { n := 63, e := [] }] else [g], map := 0, psn := false, fails := []
                   ring := ring1 }
  { busy with fab := { busy.fab with dma := [d] } }
theorem witness_DmaOwn : ((dma2 false true false false).fab.dma.map (fun d => (d.part, d.segs.length))) = [(1, 2)] ∧
    (∀ x ∈ (dma2 false true false false).fab.dma, ∀ g ∈ x.segs, segLen g ≤ g.got ∧ g.flag = false) ∧
    canWrVa busy 1 0 0 = true ∧ writeLost busy 1 0 0 = false ∧
    (let s := dma2 false true true false
     ∀ x ∈ s.fab.dma, ∀ g ∈ x.segs.take 1, bit (wd g.e 4) 19 = true) ∧
    0 < segLen { n := 0, e := [0, 0, 0, 0, 64] } ∧ canWrVa busy 1 (fld48 [0, 0x8000] 0) 1 = false ∧
    (next (exec (.dmaSegmentCommit (.own 1 1 0)) (dma2 false true false false))).fab.dma.map (fun d => (d.map, d.segs.length)) = [(1, 1)] ∧
    (next (exec (.dmaSegmentCommit (.own 1 1 0)) (dma2 true false false false))).fab.dma = [] := by decide +kernel
/-- A segment of 8 bytes that node 3 puts here, whole, for an entry of partition 1 as given. -/
def staging (wr : Bool) (n : Nat) : State :=
  let q : FabReq := { req 1 (List.replicate n 7) with stage := some { dma := 1, seg := 0, total := 8 } }
  let s := if wr then target else modPart target 1 (fun P => { P with exps := [] })
  { s with fab := { s.fab with staged := [{ node := 3, part := 2, dma := 1, seg := 0, parts := [q] }] } }
theorem witness_DmaIncoming : (staging true 8).fab.staged.all (fun g => isStage 3 2 1 0 g && !g.dead) = true ∧
    mainOn (staging true 8) = true ∧
    ((staging true 8).fab.staged.all (fun g => g.parts.all (fun y => (admitting (staging true 8) y).isSome))) = true ∧
    ((staging false 8).fab.staged.any (fun g => g.parts.any (fun y => (admitting (staging false 8) y).isNone))) = true ∧
    ((staging true 4).fab.staged.map (fun g => (g.parts.map (fun y => y.data.length)).sum)) = [4] ∧
    rdByte (next (exec (.dmaSegmentCommit (.incoming 3 2 1 0)) (staging true 8))).hbm.m.mem 0x200008 = 7 ∧
    (next (exec (.dmaSegmentCommit (.incoming 3 2 1 0)) (staging false 8))).fab.denied = 1 := by decide +kernel
/-! ### Tasks, launches and twin runs -/

/-- A task that holds group 1 of cluster 0, and a launch there. -/
def task1 : Task := { id := 1, prog := 5, ngroup := 1, half := false, place := [], submitted := 0, subAt := 0, waitFrom := 0, promoted := false, held := [1],
                      placedAt := 0, revokeAt := 0, status := 0, safeTo := 0, again := false, descs := [], engs := [], ctxs := [] }
def launch1 (twin : Bool) : Launch :=
  { clove := 1, prog := 5, timing := twin, twin := twin, freeze := false, seedLo := 0, seedHi := 0, runId := 7, twinChip := 1, twinPart := 1
    place := [{ chip := 0, cluster := 0, arrayFirst := 4, ngroup := 1 }], placeAddr := 0, running := true, sigs := [], lastSigs := [(0, 5)]
    sums := [], distNow := false, distLast := false, distEver := false, links := [], freezeAt := 0, compared := 0, ended := false, status := 0
    endClove := 0, endCycle := 0, endedIn := 0, diverged := false, twinRx := none, descs := [], engs := [], ctxs := [] }
def running (ts : List Task) (L : Option Launch) : State :=
  let s := modPart busy 1 (fun P => { P with tasks := ts, launch := L, twinState := 1 })
  { s with time := { s.time with cloveRun := true, clove := 3, cycle := 200000 } }
def twinMsg (id clove : Word) (x : BitVec 64) : TwinMsg := { runId := id, clove := clove, disturb := false, sigs := [(0, x)] }
theorem witness_TasksAndTwinRuns : tabWf {} (running [task1] none).parts = true ∧
    (getPart (running [task1] none) 1).tasks = [task1] ∧
    task1.held ≠ [] ∧ workDone (running [task1] none) 1 task1.held task1.engs task1.ctxs = true ∧
    workDone (modLa (running [task1] none) 0 4 (fun la => { la with descQ := [(1, [])] })) 1 task1.held [] [] = false ∧
    (getPart (running [] (some (launch1 true))) 1).launch = some (launch1 true) ∧
    workDone (running [] (some (launch1 false))) 1 (placeGroups (running [] none) (launch1 false).place) [] [] = true ∧
    (launch1 true).freezeAt = 0 ∧ (launch1 true).running = true ∧ (getPart (running [] (some (launch1 true))) 1).twinState = 1 ∧
    (launch1 true).compared < (running [] none).time.clove ∧ (running [] none).time.cycle < 200001 ∧
    (launch1 true).diverged = false ∧ ({ launch1 true with diverged := true } : Launch).diverged = true ∧
    (launch1 true).distEver = false ∧ (({ launch1 true with distEver := true } : Launch).distEver || false) = true ∧
    (twinMsg 7 3 5).clove = BitVec.ofNat 32 (running [] none).time.clove ∧ 0 < (running [] none).time.clove ∧
    workDone (running [] (some (launch1 true))) 1 (placeGroups (running [] none) (launch1 true).place) [] [] = true ∧
    twinOpen (running [] (some (launch1 true))) 1 = true ∧ (launch1 true).ended = false ∧ 200000 ≤ (running [] none).time.cycle ∧
    (twinMsg 7 2 5).clove = BitVec.ofNat 32 ((running [] none).time.clove - 1) ∧ (twinMsg 8 2 5).runId ≠ (launch1 true).runId ∧
    (∀ c ∈ runClusters (running [] none) (launch1 true), sigOf (twinMsg 7 2 5) c = some (tabGet 0 (launch1 true).lastSigs c)) ∧
    (runClusters (running [] none) (launch1 true)).any (fun c => decide (sigOf (twinMsg 7 2 6) c ≠ some (tabGet 0 (launch1 true).lastSigs c))) = true := by
  decide +kernel

/-! ### Ethernet -/

/-- Port 0 is on, with subport 0 up as given, held as given, priority 0 paused up to the cycle given. -/
def wired (up held : BitVec 4) (paused : Tab Nat) : State :=
  let s := modPort (wide []) 0 (fun P => { P with en := true, up := up, held := held, paused := paused, pfcPri := 0x7F })
  { s with pwr := { s.pwr with ethOn := 3 } }
def rxFrame (etype : List Byte) (n : Nat) : RxFrame :=
  { port := 0, sub := 0, bytes := List.replicate 12 0xEE ++ etype ++ List.replicate n 0, sofNs := 0, full := 0x81 }
theorem witness_EthernetPorts : tabWf {} (wired 1 0 []).eth.ports = true ∧ (getPort (wired 1 0 []) 0).up.getLsbD 0 = true ∧
    (getPort (wired 0 1 []) 0).up.getLsbD 0 = false ∧ (getPort (wired 0 1 []) 0).held.getLsbD 0 = true ∧
    portPowered (wired 0 0 []) 0 = true ∧ 0 < subCount (getPort (wired 0 0 []) 0).modeAct ∧
    tabGet 0 (getPort (wired 1 0 [(0, 9)]) 0).paused 0 = 9 ∧ tabGet 0 (getPort (wired 1 0 []) 0).paused 0 = 0 ∧
    tabWf 0 (getPort (wired 1 0 [(0, 9)]) 0).paused = true ∧ (wired 1 0 []).time.now < 9 ∧
    tabGet 0 (getPort (wired 0 1 []) 0).heldAt 0 + 2000000 * Nat.min 100 (getPort (wired 0 1 []) 0).holdMs.toNat = 20000000 ∧
    (getQ (wired 1 0 []) 9).en = true ∧ (getQ (wired 1 0 []) 9).port.toNat = 0 ∧ (getQ (wired 1 0 []) 9).sub.toNat = 0 ∧
    (let f := rxFrame [0x88, 0x09] 46
     let h := parseEth { f with bytes := List.replicate 12 0 ++ [0x88, 0x09, 0x0A] ++ List.replicate 46 0 }.bytes
     f.bytes.length ≤ 9212 ∧ ptpOf h = none ∧ h.etype = 0x8809 ∧ beAt h.pay 0 1 = 0x0A ∧
     0 = (wired 1 0 []).time.syncePort.toNat) ∧
    (let f := rxFrame [0x08, 0x00] 46
     let h := parseEth f.bytes
     ptpOf h = none ∧ h.etype ≠ 0x8809 ∧ h.etype ≠ 0x8808 ∧ h.etype ≠ 0xAEFE ∧
     roceQp (pfcTx (wired 1 0 []) 0 0 f.full) 0 h = none ∧
     rawPart (pfcTx (wired 1 0 []) 0 0 f.full) 0 h = none ∧ (pfcTx (wired 1 0 []) 0 0 f.full).out = [.pause 0 0 0]) ∧
    9212 < (rxFrame [] 9201).bytes.length ∧ curOf (wired 1 0 []) 0 0 = none ∧ (getQ (wired 1 0 []) 9).radio = false ∧
    shaped (getQ (wired 1 0 []) 9) = false ∧ shaped { (getQ (wired 1 0 []) 9) with idleSlope := 1 } = true := by decide +kernel
theorem witness_FrameTxDone : let f : Frame := { bytes := [1], dl := none, radio := none, raw := none }
    let s := modPort (wired 1 0 []) 0 (fun P => { P with cur := [(0, 9, f)] })
    let t := { s with time := { s.time with now := 1000 } }
    curOf s 0 0 = some (9, f) ∧ s.time.now < tabGet 0 (getPort s 0).beganAt 0 + frameCycles s 0 f ∧
    tabGet 0 (getPort t 0).beganAt 0 + frameCycles t 0 f ≤ t.time.now ∧
    (next (exec (.frameTxDone 0 0) t)).out.head? = some (.frame 0 0 [1]) ∧
    ({ (getQ s 9) with radio := true } : TmQ).radio = true := by decide +kernel
/-- Queue pair 2 of partition 1. -/
def qp2 (q : Qp) : State := modQp (wide []) 2 (fun _ => { q with live := true, part := 1, params := pw [(1, 0x444)] })
theorem witness_QueuePairsAndDoorbells : (getQp (wide []) 2).live = false ∧ (getQp (qp2 {}) 2).live = true ∧
    sqSize (getQp (qp2 {}) 2) = 16 ∧ (fld (0x00110002 : Word) 31 16 = 17) ∧ (fld (0x00100002 : Word) 15 0 = 2) ∧
    rqSize (getQp (qp2 {}) 2) < ((17 : BitVec 16) - (getQp (qp2 {}) 2).rqHead).toNat ∧
    cqSize (getQp (qp2 {}) 2) < ((getQp (qp2 {}) 2).cqTail - (1 : BitVec 16)).toNat ∧ (getQp (qp2 {}) 2).err = false ∧
    (getPart (modPart (wide []) 1 (fun P => { P with rawEn := true })) 1).rawEn = true ∧ (getPart (wide []) 1).rawEn = false ∧
    2 ^ (getPart (wide []) 1).rawTxLog2 = 16 ∧ (getQp (qp2 { rate := some 5 }) 2).rate = some 5 ∧
    (getPart (next (exec (.netSqDb 1 0x00110002) (qp2 {}))) 1).dbBad = 1 ∧
    (getQp (next (exec (.netSqDb 1 0x00100002) (qp2 {}))) 2).sqTail = 16 := by
  decide +kernel
theorem witness_AckTimeout : let f : SendFl := { idx := 0, first := 0, last := 0, w := [] }
    (getQp (qp2 { flight := [f] }) 2).live = true ∧ (getQp (qp2 { flight := [f] }) 2).err = false ∧
    (getQp (qp2 { flight := [f] }) 2).timerAt + 8192 * 2 ^ 14 ≤ ({ (wide []).time with now := 134217728 } : TimeUnit).now ∧
    (wide []).time.now < (getQp (qp2 {}) 2).rateAt + 110000 ∧
    (getQp (qp2 {}) 2).rateAt + 110000 ≤ ({ (wide []).time with now := 110000 } : TimeUnit).now ∧
    (getQp (qp2 { flight := [f], rnrWait := true }) 2).rnrWait = true ∧
    (getQp (qp2 { flight := [f] }) 2).flight ≠ [] ∧ (getQp (qp2 { flight := [f] }) 2).rnrWait = false ∧
    qpRetry (getQp (qp2 { flight := [f] }) 2) ≤ (getQp (qp2 { flight := [f] }) 2).retries ∧
    (getQp (qp2 { flight := [f], conn := List.replicate 16 0 ++ [0xE0] }) 2).retries <
      qpRetry (getQp (qp2 { flight := [f], conn := List.replicate 16 0 ++ [0xE0] }) 2) := by decide +kernel

/-! ### Radio -/

theorem test_agc_factor : agcFactor 0 = 16384 ∧ agcFactor 80 = 163840 ∧ agcPart 163840 0x4000 = 0x7FFF := by decide +kernel
/-- Cell 0 runs with an uplink flow and a downlink flow of endpoint 0, whose windows are 1 ms long; stream 0 and lane 0 are busy, and a
section of slot 8, symbol 0 has arrived. -/
def air : State :=
  let f : Flow := { eaxc := 1, ep := 0, down := false, prach := false, idx := 0, lastSeq := none, queue := 0 }
  let g : Flow := { eaxc := 2, ep := 0, down := true, prach := false, idx := 0, lastSeq := some 255, queue := 9 }
  let u : UpSect := { cell := 0, ep := 0, stream := 0, slot := 8, sym := 0, eaxc := 1, sect := 0, firstPrb := 0, nprb := 1, prach := false
                      raw := List.replicate 12 0x00010001, passed := 0 }
  let s := modCell withCell 0 (fun c => { c with flows := [f, g] })
  let s := modStream s 0 (fun S => { S with en := true })
  let s := modEp s 0 (fun e => { e with img := [0, 0, 0, 0, 0, 1000000, 0, 1000000, 0, 0, 0, 0] })
  { s with radio := { s.radio with sects := [u], lanes := [(0, { ({} : Lane) with busy := true, thresh := 10 })] } }
/-- One millisecond later, at the start of slot 8. -/
def air8 : State := { air with time := { air.time with ns := 1000000 } }
theorem witness_AgcUpdate : (getStream air 0).en = true ∧ cellWorks (getCell air 0) 8 = true ∧
    cellWorks { (getCell air 0) with removeAt := 8 } 8 = false ∧ (getStream air 0).agcEn = true ∧
    (getStream air 0).frozenBy = [] ∧
    gainedPart air 0 0 8 0 0 ≠ [] ∧ gainedPart air 0 0 8 1 0 = [] ∧ (getStream air 0).gainAt ≠ air.time.now + 1 ∧
    (getStream (modStream air 0 (fun S => { S with gainAt := air.time.now + 1 })) 0).gainAt = air.time.now + 1 ∧
    (getStream (modStream air 0 (fun S => { S with agcEn := false })) 0).agcEn = false := by decide +kernel
theorem witness_RadioFrontEnd : (getLane air 0).busy = true ∧ air.time.clove ≤ (getLane air 0).lastClove ∧
    (getLane air 0).thresh < 11 ∧
    (getStream air ((getLane air 0).stream + 0)).freezeEn = true ∧ (getStream air 0).agcAt ≠ air.time.now + 1 ∧
    ((getCell air 0).flows.find? (fun f => !f.down && !f.prach && decide ((getCell air 0).streamFirst + f.idx = 0))).isSome = true ∧
    nowNs air < airTime (getCell air 0).ctx 8 0 + epTa4Max (getEp air 0) ∧
    airTime (getCell air 0).ctx 8 0 + epTa4Max (getEp air 0) ≤ nowNs air8 ∧ air.radio.closed = [] ∧
    (erasedSubs air 0 8 1 0).length = 72 ∧ granMine air 1 0 4096 = true ∧ 8 % slotCloves (getCell air 0).ctx = 0 ∧
    ((getCell air 0).flows[1]?.map (fun f => f.down)) = some true ∧
    (getCell air 0).flows.any (fun f => f.down && decide (f.ep = 0)) = true := by
  decide +kernel
/-- A C-plane message of flow 1, and a U-plane section of it. -/
def cpMsg (ready poisoned : Bool) (secType : Nat) : CpMsg :=
  { flow := 1, sect := 0, secType := secType, exts := [1], up := false, startSym := 0, nsect := 1, ready := ready, poisoned := poisoned
    body := [1, 2, 3] }
def dlSect (act : DlAct) (ready poisoned : Bool) : DlSection :=
  { act := act, flow := 1, sect := 0, first := 0, n := 0, order := 2, ready := ready, poisoned := poisoned, bits := [] }
theorem witness_DownlinkSends : let C := getCell air 0
    let w := C.ctx
    let e := getEp air 0
    cpSupported w (cpMsg true false 1) = true ∧ cpSupported w (cpMsg true false 7) = false ∧ (cpMsg true true 1).poisoned = true ∧
    (cpMsg true false 1).body.length ≤ 9000 ∧ inTxWindow air true e (airTime w 16 0) = false ∧
    nowNs air + epT1aMinCp e ≤ airTime w 8 0 ∧ airTime w 8 0 ≤ nowNs air + epT1aMaxCp e ∧
    inTxWindow air false e (airTime w 16 0) = false ∧ nowNs air + epT1aMinUp e ≤ airTime w 8 0 ∧
    airTime w 8 0 ≤ nowNs air + epT1aMaxUp e ∧
    cCompDl w ≠ 5 ∧ (dlSect .map true false).act = .map ∧ (dlSect .send false false).ready = false ∧
    (C.flows[1]?.map (fun f => (sectPayload air C 8 0 f (dlSect .send true false)).map (fun p => decide (p.length ≤ 9000))))
      = some (some true) ∧
    airTime w 8 0 < nowNs { air8 with time := { air8.time with ns := 1000001 } } + epT1aMinUp e ∧ air.radio.txDone = [] ∧
    (({ cell := 0, slot := 8, sym := 0, cplane := true, flow := 1, sect := 0 } : TxKey) ∈
      (next (exec (.txLate 0 8 0 ⟨true, 1, 0⟩) { air8 with time := { air8.time with ns := 1000001 } })).radio.txDone) ∧
    ((getCell (next (exec (.dlCplaneSend 0 8 [cpMsg true false 1]) air)) 0).flows[1]?.map (fun f => f.lastSeq)) = some (some 0) := by
  decide +kernel
/-- An LDPC encode job of partition 1, its input at 0x1000 and its output at 0x2000. -/
def encodeJob : List Word := [0x2009, 44, 0x00200008, 0, 0x1000, 0, 0x2000, 0, 0, 0, 5, 0, 0x00010001, 0, 0, 0]
theorem witness_CodingJobs : (codingRow (.ldpcJob encodeJob)).isSome = true ∧ (codingRow (.trlJob encodeJob)).isSome = true ∧
    ldpcOk encodeJob = true ∧ ldpcOk [] = false ∧ (getPart air 1).typ = 0 ∧ (getPart air 1).gen.toNat = 1 ∧
    jobMapped air 1 (.ldpc encodeJob) = true ∧ mainOn air = true ∧ air.time.cloveRun = false ∧
    (harqSpan (.ldpc encodeJob)).isNone = true ∧ tabWf {} air.radio.inst = true := by decide +kernel
theorem witness_CodingInstances : dlDone air (jobClove air 5, 0) = false ∧ dlDone air (jobClove air 0, 0) = true ∧
    freeInst air 1 = some 0 ∧ air.radio.waiting = [] ∧
    freeInst { air with radio := { air.radio with inst := (List.range 8).map (fun n => (16 + n, { ({} : Inst) with bypass := true })) } } 1
      = none ∧ (getInst air (instKey 3 7)).bypass = false ∧ 7 < poolSize 3 := by decide +kernel
theorem witness_CodingJobEnd : let j : Job := { kind := .ldpc encodeJob, part := 1, dlClove := 5, dlCycle := 0, harqDone := false, psn := false }
    let s := modInst air (instKey 1 0) (fun x => { x with job := some j })
    (getInst s (instKey 1 0)).job = some j := by decide +kernel

/-! ### Service, the UART and register writes -/

theorem witness_ServiceAndRegisters : cluTasks busy 0 = false ∧ (getClu busy 0).svcFrom ≤ busy.time.clove ∧
    (getClu busy 0).svc = 0 ∧
    (getClu (modClu busy 0 (fun cl => { cl with svc := 1, svcFrom := 5 })) 0).svcFrom > busy.time.clove ∧
    (getClu (modClu busy 19 (fun cl => { cl with selfTest := true })) 19).selfTest = true ∧
    testBlocked (modClu busy 19 (fun cl => { cl with selfTest := true })) 19 = false ∧
    (getClu (modClu busy 0 (fun cl => { cl with svc := 1 })) 0).svc = 1 ∧
    (getClu (modClu busy 0 (fun cl => { cl with svc := 2 })) 0).svc = 2 ∧ tabWf {} busy.clusters = true ∧
    0 + 400 ≤ ({ busy.time with clove := 400 } : TimeUnit).clove ∧ busy.time.clove < 0 + 400 ∧ 6442450943 < 6442450944 ∧
    busy.uart.en = true ∧ hostLinkUp busy 3 = true ∧ up.boot.st ≠ .ready ∧ 0x200000 ≤ (0x200000 : BitVec 26).toNat ∧
    (2 : BitVec 26).toNat % 4 ≠ 0 ∧ (1 : Fin 4) ≠ 0 ∧ (getPart busy 1).host = 0 := by decide +kernel
theorem test_uart_overrun : let f : UartFrame := { startHigh := false, data := 0x41, stopHigh := true }
    let t := next (exec (.uartFrameRx f) (next (exec (.uartFrameRx f) busy)))
    t.uart.overrun = 1 ∧ t.uart.data = 0x41 := by decide +kernel
theorem test_write_of_power_register :
    (next (exec (.registerWrite (.pf 0) 0x200000 0x01500100) ready)).pwr.pkgIlim = 0x100 ∧
    (next (exec (.registerWrite (.pf 0) 0x200000 0x01500100) up)).pwr.pkgIlim = 0x7D0 := by decide +kernel
/-- Timer 3 is armed at boundary 4 with period 2, cycle 9, for the pool. -/
def timed (clove cycle : Nat) : State :=
  let t : Timer := { armed := 5, entry := [0x30002, 9, 0x000700FF, 0] }
  { ready with cprog := { ready.cprog with timers := [(3, t)], act := [4] ++ List.replicate 27 0 ++ [0x30002, 9, 0x000700FF, 0] }
               time := { ready.time with cloveRun := true, clove := clove, cycle := cycle } }
theorem witness_CloveTimers : let t := tabGet {} (timed 5 9).cprog.timers 3
    t.armed = 4 + 1 ∧ t.fired = false ∧ 1 ≤ tmPeriod t.entry ∧ (timed 5 9).time.clove = 4 + tmPeriod t.entry - 1 ∧
    (timed 5 9).time.cycle = tmCycle t.entry ∧ (timed 6 9).time.clove ≠ 4 + tmPeriod t.entry - 1 ∧ t.swapped = false ∧
    t.entry = cpTimer (timed 5 9).cprog.act 3 ∧ tmEn t.entry = true ∧ tabWf {} (timed 5 9).cprog.timers = true ∧
    (tabGet {} (next (exec (.cloveTimer 3) (timed 5 9))).cprog.timers 3).fired = true ∧
    (timerStep (timed 5 9).cprog.act false 6 3 t).armed = 7 := by decide +kernel
/-- Detector 0 watches bit 0 of DEV_ID for a rise, with one sample. -/
def watched : State :=
  let e : List Word := [0, 0x00050101, 0xFF, 0]
  let d : Detector := { lvl := false, k := 0, known := true, entry := e }
  { ready with cprog := { ready.cprog with dets := [(0, d)], act := [0x10000] ++ List.replicate 15 0 ++ e } }
theorem witness_CloveDetectors : let d := tabGet {} watched.cprog.dets 0
    d.entry = cpEdge watched.cprog.act 0 ∧ edEdge d.entry ≠ 0 ∧ d.known = true ∧ tabWf {} watched.cprog.dets = true ∧
    bit (readWindow watched (edSrc d.entry)) (edBit d.entry) = true ∧
    (tabGet {} (edgeStep watched 0).cprog.dets 0).lvl = true ∧ (getPart watched 1).live = false := by decide +kernel

end Sys2Proof.Tests
end

section
/-! PROOFS. The state that a power-on reset leaves. -/

namespace Sys2Proof.Machine

open Sys2Proof

/-! ### What every table reads after reset -/

@[simp] theorem getRing_reset (k : Nat) : getRing State.reset k = {} := rfl
@[simp] theorem getClu_reset (c : Nat) : getClu State.reset c = {} := rfl
@[simp] theorem getPc_reset (c : Nat) : getPc State.reset c = {} := rfl
@[simp] theorem getLink_reset (l : Nat) : getLink State.reset l = {} := rfl
@[simp] theorem getStream_reset (n : Nat) : getStream State.reset n = {} := rfl
@[simp] theorem getQ_reset (q : Nat) : getQ State.reset q = {} := rfl

/-- An execute queue of a cluster as reset leaves it. -/
@[simp] theorem getEq_default (q : Nat) : getEq {} q = {} := rfl

/-! ### The invariant after reset -/

/-- After reset every table and memory is empty, so all are canonical. -/
theorem canon_reset : Canon State.reset :=
  ⟨rfl, rfl, rfl, rfl, rfl, fun _ => rfl, rfl, fun _ => rfl⟩

/-- R24, R211, R391: the clock reads zero and the life cycle is the first one that R391 names. -/
theorem inv_reset : Inv State.reset :=
  ⟨canon_reset, by decide, by decide, by decide⟩

/-- Settles O45: each entry of an empty table reads its default, and what remains is the default of each field. -/
theorem resetState : Obligations.ResetState := by
  unfold Obligations.ResetState
  intro s
  refine ⟨inv_reset, ?_⟩
  simp only [s, getRing_reset, getClu_reset, getPc_reset, getLink_reset, getStream_reset, getQ_reset, getEq_default, forall_const]
  decide

end Sys2Proof.Machine
end

section
/-! PROOFS. The security requests (R391 to R397, R401, R405): once for every kind what serving a block does, then what the passed checks of
each kind establish. -/

namespace Sys2Proof.Machine

open Sys2Proof

/-! ### Statuses -/

/-- No status is reported exactly when every check passes (R20). -/
theorem errsOf_eq_nil_iff (l : List (Bool × Nat)) : errsOf l = [] ↔ ∀ e ∈ l, e.1 = false := by
  simp [errsOf]

/-! ### Byte lists and host memory -/

/-- As many bytes as a list has read as that list where each address holds its byte. -/
theorem rdBytes_eq_of_rdByte (m : Mem) (a : Nat) (bs : List Byte) (h : ∀ i, i < bs.length → rdByte m (a + i) = bs.getD i 0) :
    rdBytes m a bs.length = bs := by
  induction bs generalizing a with
  | nil => rfl
  | cons b bs ih =>
    have hhead : rdByte m a = b := h 0 (by simp)
    have htail : rdBytes m (a + 1) bs.length = bs := ih (a + 1) fun i hi => by
      simpa [Nat.add_assoc, Nat.add_comm 1 i] using h (i + 1) (by simpa using hi)
    simp [rdBytes, hhead, htail]

/-- Written bytes read back in canonical memory. -/
theorem rdBytes_wrBytes {m : Mem} (a : Nat) (bs : List Byte) (hm : memWf m = true) : rdBytes (wrBytes m a bs) a bs.length = bs :=
  rdBytes_eq_of_rdByte _ a bs fun _ hi => rdByte_wrBytes_in bs hm hi

/-- A write to host memory leaves the security core. -/
@[simp] theorem hostWrite_sec (s : State) (port a : Nat) (bs : List Byte) : (hostWrite s port a bs).sec = s.sec := by
  unfold hostWrite; split <;> rfl

/-- A write to host memory leaves the host links. -/
@[simp] theorem hostLinkUp_hostWrite (s : State) (port a : Nat) (bs : List Byte) (port' : Nat) :
    hostLinkUp (hostWrite s port a bs) port' = hostLinkUp s port' := by
  unfold hostWrite; split <;> rfl

/-- What is written over a link that is up reads back from canonical host memory. -/
theorem hostRead_hostWrite (s : State) {port : Nat} (a : Nat) (bs : List Byte) (hup : hostLinkUp s port = true)
    (hhost : tabWf [] s.host = true) (hm : memWf (tabGet [] s.host port) = true) :
    hostRead (hostWrite s port a bs) port a bs.length = some bs := by
  have hmem : tabGet [] (hostWrite s port a bs).host port = wrBytes (tabGet [] s.host port) a bs := by
    simpa [hostWrite, hup, tabMod] using tabGet_tabSet_wf [] hhost port _
  simp [hostRead, hup, hmem, rdBytes_wrBytes a bs hm]

/-! ### Serving a request -/

/-- The state once a request of a kind is answered and before it has its effect: its status is written, and a kind that needs a token has
used up the nonce (R396, R397). -/
def secAnswered (kind : Nat) (s : State) (b : List Word) : State :=
  { s with sec := { s.sec with
      reqStatus := lowest (secErrs s b), nonce := if needsToken kind then none else s.sec.nonce } }

/-- An answered request whose checks pass reports OK. -/
theorem secAnswered_reqStatus_of_nil {s : State} {b : List Word} (kind : Nat) (hok : secErrs s b = []) :
    (secAnswered kind s b).sec.reqStatus = stOk := by
  simp only [secAnswered, hok, lowest]

@[simp] theorem secCapsule_secAnswered (kind : Nat) (s : State) (b b' : List Word) :
    secCapsule (secAnswered kind s b') b = secCapsule s b := rfl

theorem secRun_of_secBlock_none {s : State} (kind : Nat) (act : State → List Word → State) (hb : secBlock s = none) :
    secRun kind s act = { s with sec := { s.sec with reqStatus := stBounds } } := by
  simp [secRun, hb]

theorem secRun_of_secBlock_some {s : State} {b : List Word} (act : State → List Word → State) (hb : secBlock s = some b) :
    secRun (secKind b) s act =
      if secErrs s b = [] then act (secAnswered (secKind b) s b) b else secAnswered (secKind b) s b := by
  simp [secRun, hb, secAnswered]

/-- A block that can be read came over a link that is up. -/
theorem hostLinkUp_of_secBlock {s : State} {b : List Word} (hb : secBlock s = some b) : hostLinkUp s 0 = true := by
  by_contra hdown
  simp [secBlock, hostRead, hdown] at hb

/-- Serving a row's request, for every kind: a block that cannot be read gives BOUNDS; one whose checks fail is answered and no more; one
whose checks pass is answered and then has its effect, of which P is shown. -/
theorem secRequest_outcome {s : State} {i : Instr} {kind : Nat} {act : State → List Word → State} {P : List Word → State → Prop}
    (hexec : exec i s = inRun s (fun s => secRun kind s act)) (hmain : mainOn s = true)
    (hact : ∀ b, secBlock s = some b → secKind b = kind → secErrs s b = [] → P b (act (secAnswered kind s b) b)) :
    (secBlock s = none → exec i s = .next { s with sec := { s.sec with reqStatus := stBounds } }) ∧
    ∀ b, secBlock s = some b → secKind b = kind →
      ∃ t, exec i s = .next t ∧ (secErrs s b ≠ [] → t = secAnswered kind s b) ∧ (secErrs s b = [] → P b t) := by
  have hrun : exec i s = .next (secRun kind s act) := by rw [hexec, inRun, if_pos hmain]
  refine ⟨fun hb => by rw [hrun, secRun_of_secBlock_none kind act hb], fun b hb hk => ⟨_, hrun, ?_, ?_⟩⟩ <;> subst hk
  · intro herr
    rw [secRun_of_secBlock_some act hb, if_neg herr]
  · intro hok
    rw [secRun_of_secBlock_some act hb, if_pos hok]
    exact hact b hb rfl hok

/-! ### What passed checks give -/

/-- R397: the checks that a block with no error has passed, those of a token and a life cycle that every kind shares left out. -/
theorem secErrs_eq_nil {s : State} {b : List Word} (hok : secErrs s b = []) :
    (secKind b = 2 → tabGet 0 s.sec.minSvn (secType b) < secValue b) ∧
    (secKind b = 3 → secValue b = s.sec.lifecycle + 1) ∧
    (secKind b = 5 → s.sec.rootSet = false) ∧
    (secKind b = 6 → ∃ c key, secCapsule s b = some c ∧ Config.openCapsule c = some key) := by
  have hpass := (errsOf_eq_nil_iff _).1 hok
  simp only [List.forall_mem_cons] at hpass
  obtain ⟨-, hsvn, hlife, -, hcap, -, hopen, hroot, -⟩ := hpass
  refine ⟨fun hk => ?_, fun hk => ?_, fun hk => ?_, fun hk => ?_⟩
  · obtain ⟨-, hlt⟩ : (¬ secType b = 0 ∧ secType b ≤ 5) ∧ tabGet 0 s.sec.minSvn (secType b) < secValue b := by
      simpa [hk] using hsvn
    exact hlt
  · obtain ⟨hnext, -⟩ : secValue b = s.sec.lifecycle + 1 ∧ secValue b ≤ 2 := by simpa [hk] using hlife
    exact hnext
  · simpa [hk] using hroot
  · obtain ⟨c, hc⟩ : ∃ c, secCapsule s b = some c := by
      simpa [hk, Option.isSome_iff_exists] using hcap
    obtain ⟨key, hkey⟩ : ∃ key, Config.openCapsule c = some key := by
      simpa [hk, hc, Option.isSome_iff_exists] using hopen
    exact ⟨c, key, hc, hkey⟩

/-- Settles O51: every row serves its request alike (secRequest_outcome), so for each kind it is left to say what its effect does where
the checks pass. -/
theorem securityRequests : Obligations.SecurityRequests := by
  unfold Obligations.SecurityRequests
  intro s i kind hmain hrow
  simp only [List.mem_cons, Prod.mk.injEq, List.not_mem_nil, or_false] at hrow
  rcases hrow with ⟨rfl, rfl⟩ | ⟨rfl, rfl⟩ | ⟨rfl, rfl⟩ | ⟨rfl, rfl⟩ | ⟨rfl, rfl⟩ | ⟨rfl, rfl⟩ | ⟨rfl, rfl⟩ <;>
    refine secRequest_outcome rfl hmain fun b hb hk hok => ?_ <;>
    have hst := fun kind => secAnswered_reqStatus_of_nil kind hok
  · -- NONCE
    have hup : hostLinkUp s 0 = true := hostLinkUp_of_secBlock hb
    refine ⟨?_, fun _ => ⟨(takeFree s 384).1, hostWrite_sec .., fun hm hhost => ?_⟩, nofun, nofun, nofun, nofun, nofun, nofun⟩
    · rw [hostWrite_sec]
      exact hst 0
    · exact hostRead_hostWrite _ _ (hashBytes (takeFree s 384).1) hup hhost hm
  · -- TAMPER_CLEAR
    exact ⟨hst 1, nofun, fun _ => rfl, nofun, nofun, nofun, nofun, nofun⟩
  · -- SVN_RAISE
    obtain ⟨hsvn, -⟩ := secErrs_eq_nil hok
    exact ⟨hst 2, nofun, nofun, fun _ => ⟨rfl, hsvn hk⟩, nofun, nofun, nofun, nofun⟩
  · -- LIFE_ADVANCE
    obtain ⟨-, hlife, -⟩ := secErrs_eq_nil hok
    refine ⟨hst 3, nofun, nofun, nofun, fun _ => ?_, nofun, nofun, nofun⟩
    simp [hlife hk, secAnswered]
  · -- DEBUG_DISABLE
    exact ⟨hst 4, nofun, nofun, nofun, nofun, fun _ => rfl, nofun, nofun⟩
  · -- ROOT_SET
    obtain ⟨-, -, hroot, -⟩ := secErrs_eq_nil hok
    exact ⟨hst 5, nofun, nofun, nofun, nofun, nofun, fun _ => ⟨hroot hk, rfl⟩, nofun⟩
  · -- SEAL_KEY
    obtain ⟨-, -, -, hseal⟩ := secErrs_eq_nil hok
    obtain ⟨c, key, hc, hkey⟩ := hseal hk
    refine ⟨hst 6, nofun, nofun, nofun, nofun, nofun, nofun, fun _ => ⟨c, key, hc, hkey, ?_⟩⟩
    rw [secCapsule_secAnswered, hc, Option.bind_some, hkey]
    rfl

end Sys2Proof.Machine
end
section
/-! PROOFS. The machine's invariant (R24, R211, R391), kept by every step: what tables and memories need to stay canonical, and what it
means that an update keeps the invariant. Every function of the model that leads from a state to a state has below one lemma keeps_…,
which says that it keeps the invariant where its argument does; a row's lemma is keepsNext_…, that of a firmware command keepsFw_…. -/

namespace Sys2Proof.Machine

open Sys2Proof

/-! ### Tables and memories -/

section Tables

variable {α β : Type} [DecidableEq α] {d : α}

/-- Writes one after another keep the canonical form. -/
theorem tabWf_foldl_tabSet (l : List β) (k : β → Nat) (v : β → α) {t : Tab α} (h : tabWf d t = true) :
    tabWf d (l.foldl (fun t x => tabSet d t (k x) (v x)) t) = true :=
  List.foldlRecOn (motive := fun t => tabWf d t = true) l _ h fun _ ht _ _ => tabWf_tabSet d _ _ ht

theorem tabWfFrom_tabMapV (f : α → α) {t : Tab α} {lo : Nat} (h : tabWfFrom d lo t = true) :
    tabWfFrom d lo (tabMapV d t f) = true := by
  induction t generalizing lo with
  | nil => rfl
  | cons e t ih =>
    obtain ⟨k, v⟩ := e
    simp only [tabWfFrom, Bool.and_eq_true, decide_eq_true_eq] at h
    obtain ⟨⟨hlo, -⟩, ht⟩ := h
    have hrest := ih ht
    simp only [tabMapV, List.map_cons, List.filter_cons] at hrest ⊢
    split
    · simp_all [tabWfFrom]
    · exact tabWfFrom_mono d hrest (by omega)

/-- A change of every value keeps the canonical form. -/
theorem tabWf_tabMapV (f : α → α) {t : Tab α} (h : tabWf d t = true) : tabWf d (tabMapV d t f) = true :=
  tabWfFrom_tabMapV f h

/-- After a change of every value of a canonical table a key reads its changed value, or the default where that was dropped. -/
theorem tabGet_tabMapV (f : α → α) {t : Tab α} {lo : Nat} (h : tabWfFrom d lo t = true) (i : Nat) :
    tabGet d (tabMapV d t f) i = d ∨ tabGet d (tabMapV d t f) i = f (tabGet d t i) := by
  induction t generalizing lo with
  | nil => exact .inl rfl
  | cons e t ih =>
    obtain ⟨k, v⟩ := e
    simp only [tabWfFrom, Bool.and_eq_true, decide_eq_true_eq] at h
    have hrest : tabWfFrom d (k + 1) (tabMapV d t f) = true := tabWfFrom_tabMapV f h.2
    have hi := ih h.2
    simp only [tabMapV, List.map_cons, List.filter_cons] at hrest hi ⊢
    by_cases hk : k = i
    · subst hk
      by_cases hd : f v = d
      · simpa [hd] using Or.inl (tabGet_below d hrest (by omega))
      · simp [hd, tabGet]
    · split <;> simpa [tabGet, hk] using hi

end Tables

/-- Writing bytes at several places keeps the canonical form. -/
theorem memWf_foldl_wrByte {β : Type} (l : List β) (a : β → Nat) (b : β → Byte) {m : Mem} (h : memWf m = true) :
    memWf (l.foldl (fun m x => wrByte m (a x) (b x)) m) = true :=
  tabWf_foldl_tabSet l a b h

/-- Clearing several ranges keeps the canonical form. -/
theorem pmemWf_foldl_clearPMem {β : Type} (l : List β) (lo hi : β → Nat) {m : PMem} (h : pmemWf m = true) :
    pmemWf (l.foldl (fun m x => clearPMem m (lo x) (hi x)) m) = true :=
  List.foldlRecOn (motive := fun m => pmemWf m = true) l _ h fun _ hm _ _ => pmemWf_clearPMem _ _ hm

theorem pmemWf_iff (m : PMem) : pmemWf m = true ↔ memWf m.mem = true ∧ tabWf false m.psn = true := by
  simp [pmemWf]

/-- A piece put into a memory leaves it canonical, whatever the piece. -/
theorem pmemWf_pastePMem {m : PMem} (lo n : Nat) (x : PMem) (h : pmemWf m = true) : pmemWf (pastePMem m lo n x) = true := by
  obtain ⟨hmem, hpsn⟩ := (pmemWf_iff _).1 (pmemWf_clearPMem lo (lo + n) h)
  exact (pmemWf_iff _).2 ⟨memWf_foldl_wrByte _ _ _ hmem, tabWf_foldl_tabSet _ _ _ hpsn⟩

/-- Entries moved within a table leave it canonical. -/
theorem tabWf_tabMove {α : Type} [DecidableEq α] {d : α} {t : Tab α} (lo len dest : Nat) (h : tabWf d t = true) :
    tabWf d (tabMove d t lo len dest) = true :=
  tabWf_foldl_tabSet _ _ _ (tabWf_tabKeep d _ h)

/-! ### The fuses -/

/-- R391 to R393, R397: a life cycle, a fuse and a minimum SVN only ever advance, and a root hash that is set stays. -/
def FusesAdvance (x y : Security) : Prop :=
  x.lifecycle ≤ y.lifecycle ∧ (x.debugDis = true → y.debugDis = true) ∧
  (x.rootSet = true → y.rootSet = true ∧ y.root = x.root) ∧
  (∀ u, tabGet 0 x.minSvn u ≤ tabGet 0 y.minSvn u) ∧ (x.identErased = true → y.identErased = true)

theorem FusesAdvance.refl (x : Security) : FusesAdvance x x :=
  ⟨le_rfl, id, fun h => ⟨h, rfl⟩, fun _ => le_rfl, id⟩

theorem FusesAdvance.trans {x y z : Security} (h : FusesAdvance x y) (k : FusesAdvance y z) : FusesAdvance x z := by
  obtain ⟨hl, hd, hr, hm, hi⟩ := h
  obtain ⟨kl, kd, kr, km, ki⟩ := k
  exact ⟨hl.trans kl, kd ∘ hd, fun h => ⟨(kr (hr h).1).1, (kr (hr h).1).2.trans (hr h).2⟩, fun u => (hm u).trans (km u), ki ∘ hi⟩

/-! ### The invariant kept from one state to another -/

/-- From s₀ to s the invariant is kept, the fuses only advance and the queue is as it was. Every update of the machine leads from
states with this property to states with it, from whichever s₀ a command started. -/
structure Keeps (s₀ s : State) : Prop where
  inv : Inv s₀ → Inv s
  fuses : FusesAdvance s₀.sec s.sec
  pending : s.pending = s₀.pending

theorem Keeps.refl (s : State) : Keeps s s := ⟨id, FusesAdvance.refl _, rfl⟩

variable {s₀ s : State}

/-- What a step does to the fields of the invariant, to the fuses and to the queue decides whether it keeps the invariant. -/
theorem Keeps.step {t : State} (h : Keeps s₀ s) (hinv : Inv s → Inv t) (hsec : FusesAdvance s.sec t.sec)
    (hpend : t.pending = s.pending) : Keeps s₀ t :=
  ⟨hinv ∘ h.inv, h.fuses.trans hsec, hpend.trans h.pending⟩

/-- Of the clock, the fuses, HBM and the fabric, what the invariant and FusesAdvance speak of. -/
def unitsCore (t : TimeUnit) (x : Security) (b : Hbm) (f : Fabric) : (Nat × Nat) × (Nat × Bool × Bool × BitVec 384 × Tab Nat × Bool) ×
    PMem × Tab Link :=
  ((t.ns, t.cycle), (x.lifecycle, x.debugDis, x.rootSet, x.root, x.minSvn, x.identErased), b.m, f.links)

/-- Of the states a chain of changes goes through, each keeps the invariant. -/
theorem keeps_foldl {β : Type} {f : State → β → State} {l : List β} (h : Keeps s₀ s) (hf : ∀ s x, Keeps s₀ s → Keeps s₀ (f s x)) :
    Keeps s₀ (l.foldl f s) :=
  List.foldlRecOn (motive := Keeps s₀) l f h fun s hs x _ => hf s x hs

theorem keeps_ite {c : Prop} [Decidable c] {t u : State} (ht : Keeps s₀ t) (hu : Keeps s₀ u) : Keeps s₀ (if c then t else u) := by
  split <;> assumption

/-- An update of other fields keeps the invariant. -/
theorem keeps_update {time pwr boot sec auth uart poolVer outst hostUp lastGen lssHold freed claims nextClaim grants hbm radio fab eth
    cprog health spdm flagsAt fresh out} (h : Keeps s₀ s)
    (hcore : unitsCore time sec hbm fab = unitsCore s.time s.sec s.hbm s.fab) :
    Keeps s₀ ⟨time, pwr, boot, sec, auth, uart, s.rings, poolVer, outst, s.host, hostUp, s.parts, lastGen, lssHold, freed, claims,
      nextClaim, grants, s.clusters, hbm, radio, fab, eth, cprog, health, spdm, flagsAt, fresh, out, s.pending⟩ := by
  simp only [unitsCore, Prod.mk.injEq] at hcore
  obtain ⟨⟨hns, hcycle⟩, ⟨hlife, hdebug, hset, hroot, hsvn, hident⟩, hmem, hlinks⟩ := hcore
  refine h.step (fun hs => ?_) ?_ rfl
  · simpa only [Inv, Canon, getClu, hns, hcycle, hlife, hmem, hlinks] using hs
  · exact ⟨hlife.ge, hdebug.symm ▸ id, fun hr => ⟨hset.trans hr, hroot⟩, fun u => hsvn.symm ▸ le_rfl, hident.symm ▸ id⟩

theorem keeps_ite_fst {γ : Type} {c : Prop} [Decidable c] {a b : State × γ} (ha : Keeps s₀ a.1) (hb : Keeps s₀ b.1) :
    Keeps s₀ (if c then a else b).1 := by
  split <;> assumption

theorem keeps_ite_snd {γ : Type} {c : Prop} [Decidable c] {a b : γ × State} (ha : Keeps s₀ a.2) (hb : Keeps s₀ b.2) :
    Keeps s₀ (if c then a else b).2 := by
  split <;> assumption

/-- The same with a value carried along. -/
theorem keeps_foldl_fst {β γ : Type} {f : State × γ → β → State × γ} {acc : State × γ} {l : List β} (h : Keeps s₀ acc.1)
    (hf : ∀ acc x, Keeps s₀ acc.1 → Keeps s₀ (f acc x).1) : Keeps s₀ (l.foldl f acc).1 :=
  List.foldlRecOn (motive := fun acc => Keeps s₀ acc.1) l f h fun acc hacc x _ => hf acc x hacc

/-! ### Entries -/

theorem keeps_modRing {k : Nat} {f : Ring → Ring} (h : Keeps s₀ s) : Keeps s₀ (modRing s k f) :=
  h.step (fun ⟨⟨hr, hc⟩, ht⟩ => ⟨⟨tabWf_tabMod _ _ _ hr, hc⟩, ht⟩) (FusesAdvance.refl _) rfl

theorem keeps_modPart {p : Nat} {f : Part → Part} (h : Keeps s₀ s) : Keeps s₀ (modPart s p f) :=
  h.step (fun ⟨⟨hr, hp, hc⟩, ht⟩ => ⟨⟨hr, tabWf_tabMod _ _ _ hp, hc⟩, ht⟩) (FusesAdvance.refl _) rfl

theorem keeps_modLink {l : Nat} {f : Link → Link} (h : Keeps s₀ s) : Keeps s₀ (modLink s l f) :=
  h.step (fun ⟨⟨hr, hp, hc, hl, hm⟩, ht⟩ => ⟨⟨hr, hp, hc, tabWf_tabMod _ _ _ hl, hm⟩, ht⟩) (FusesAdvance.refl _) rfl

/-- New clusters keep the invariant where their table and the memory of each are canonical. -/
theorem keeps_clusters {cs : Tab Cluster} (h : Keeps s₀ s) (hwf : tabWf {} s.clusters = true → tabWf {} cs = true)
    (hsram : tabWf {} s.clusters = true → (∀ c, pmemWf (getClu s c).sram = true) → ∀ c, pmemWf (tabGet {} cs c).sram = true) :
    Keeps s₀ { s with clusters := cs } :=
  h.step (fun ⟨⟨hr, hp, hc, hl, hh, hn, hm, hs⟩, ht⟩ => ⟨⟨hr, hp, hwf hc, hl, hh, hn, hm, hsram hc hs⟩, ht⟩) (FusesAdvance.refl _) rfl

/-- A change of a cluster that leaves its memory canonical keeps the invariant. -/
theorem keeps_modClu_sram {c : Nat} {f : Cluster → Cluster} (h : Keeps s₀ s)
    (hf : ∀ cl, pmemWf cl.sram = true → pmemWf (f cl).sram = true) : Keeps s₀ (modClu s c f) :=
  keeps_clusters h (tabWf_tabMod _ _ _) fun hwf hsram i => by
    by_cases hi : c = i
    · subst hi
      rw [tabMod, tabGet_tabSet_wf _ hwf]
      exact hf _ (hsram c)
    · rw [tabGet_tabMod_other _ _ _ hi]
      exact hsram i

theorem keeps_modClu {c : Nat} {f : Cluster → Cluster} (h : Keeps s₀ s) (hf : ∀ cl, (f cl).sram = cl.sram) :
    Keeps s₀ (modClu s c f) :=
  keeps_modClu_sram h fun cl hcl => (hf cl).symm ▸ hcl

/-- A change of every cluster that leaves its memory canonical keeps the invariant. -/
theorem keeps_tabMapV_clusters {f : Cluster → Cluster} (h : Keeps s₀ s)
    (hf : ∀ cl, pmemWf cl.sram = true → pmemWf (f cl).sram = true) :
    Keeps s₀ { s with clusters := tabMapV {} s.clusters f } :=
  keeps_clusters h (tabWf_tabMapV f) fun hwf hsram i => by
    obtain hi | hi := tabGet_tabMapV f hwf i
    · rw [hi]
      rfl
    · rw [hi]
      exact hf _ (hsram i)

theorem keeps_modEq {c q : Nat} {f : Eq → Eq} (h : Keeps s₀ s) : Keeps s₀ (modEq s c q f) := keeps_modClu h fun _ => rfl
theorem keeps_modEng {c e : Nat} {f : Engine → Engine} (h : Keeps s₀ s) : Keeps s₀ (modEng s c e f) := keeps_modClu h fun _ => rfl
theorem keeps_modCsp {c x : Nat} {f : CspCtx → CspCtx} (h : Keeps s₀ s) : Keeps s₀ (modCsp s c x f) := keeps_modClu h fun _ => rfl
theorem keeps_modLa {c l : Nat} {f : LArray → LArray} (h : Keeps s₀ s) : Keeps s₀ (modLa s c l f) := keeps_modClu h fun _ => rfl
theorem keeps_modPa {c a : Nat} {f : PArray → PArray} (h : Keeps s₀ s) : Keeps s₀ (modPa s c a f) := keeps_modClu h fun _ => rfl
theorem keeps_modPort {n : Nat} {f : EthPort → EthPort} (h : Keeps s₀ s) : Keeps s₀ (modPort s n f) := keeps_update h rfl
theorem keeps_modQ {q : Nat} {f : TmQ → TmQ} (h : Keeps s₀ s) : Keeps s₀ (modQ s q f) := keeps_update h rfl
theorem keeps_modTmp {p : Nat} {f : TmPart → TmPart} (h : Keeps s₀ s) : Keeps s₀ (modTmp s p f) := keeps_update h rfl
theorem keeps_modQp {q : Nat} {f : Qp → Qp} (h : Keeps s₀ s) : Keeps s₀ (modQp s q f) := keeps_update h rfl
theorem keeps_modCell {n : Nat} {f : Cell → Cell} (h : Keeps s₀ s) : Keeps s₀ (modCell s n f) := keeps_update h rfl
theorem keeps_modStream {n : Nat} {f : Stream → Stream} (h : Keeps s₀ s) : Keeps s₀ (modStream s n f) := keeps_update h rfl
theorem keeps_modEp {n : Nat} {f : Endpoint → Endpoint} (h : Keeps s₀ s) : Keeps s₀ (modEp s n f) := keeps_update h rfl
theorem keeps_modLane {n : Nat} {f : Lane → Lane} (h : Keeps s₀ s) : Keeps s₀ (modLane s n f) := keeps_update h rfl
theorem keeps_modInst {k : Nat} {f : Inst → Inst} (h : Keeps s₀ s) : Keeps s₀ (modInst s k f) := keeps_update h rfl
theorem keeps_modPc {c : Nat} {f : PwrClu → PwrClu} (h : Keeps s₀ s) : Keeps s₀ (modPc s c f) := keeps_update h rfl
theorem keeps_takeFree {w : Nat} (h : Keeps s₀ s) : Keeps s₀ (takeFree s w).2 := keeps_update h rfl
theorem keeps_emit {o : Out} (h : Keeps s₀ s) : Keeps s₀ (emit s o) := keeps_update h rfl
theorem keeps_noteFlag {b : W1cBit} (h : Keeps s₀ s) : Keeps s₀ (noteFlag s b) := keeps_update h rfl

/-! ### Memories -/

/-- A change of one host's memory that leaves it canonical keeps the invariant. -/
theorem keeps_host {port : Nat} {f : Mem → Mem} (h : Keeps s₀ s) (hf : ∀ m, memWf m = true → memWf (f m) = true) :
    Keeps s₀ { s with host := tabMod [] s.host port f } :=
  h.step (fun ⟨⟨hr, hp, hc, hl, hh, hn, hm, hs⟩, ht⟩ => ⟨⟨hr, hp, hc, hl, tabWf_tabMod _ _ _ hh, fun n => by
    by_cases hi : port = n
    · subst hi
      rw [tabMod, tabGet_tabSet_wf _ hh]
      exact hf _ (hn port)
    · rw [tabGet_tabMod_other _ _ _ hi]
      exact hn n, hm, hs⟩, ht⟩) (FusesAdvance.refl _) rfl

/-- HBM whose memory is canonical where it was keeps the invariant. -/
theorem keeps_hbm (h : Keeps s₀ s) {b : Hbm} (hb : pmemWf s.hbm.m = true → pmemWf b.m = true) : Keeps s₀ { s with hbm := b } :=
  h.step (fun ⟨⟨hr, hp, hc, hl, hh, hn, hm, hs⟩, ht⟩ => ⟨⟨hr, hp, hc, hl, hh, hn, hb hm, hs⟩, ht⟩) (FusesAdvance.refl _) rfl

/-- A change of the links' table that leaves it canonical keeps the invariant. -/
theorem keeps_fab (h : Keeps s₀ s) {b : Fabric} (hb : tabWf {} s.fab.links = true → tabWf {} b.links = true) :
    Keeps s₀ { s with fab := b } :=
  h.step (fun ⟨⟨hr, hp, hc, hl, hh, hn, hm, hs⟩, ht⟩ => ⟨⟨hr, hp, hc, hb hl, hh, hn, hm, hs⟩, ht⟩) (FusesAdvance.refl _) rfl

/-- A clock that reads less than a second of ns and less than a clove of cycles keeps the invariant (R24, R211). -/
theorem keeps_time (h : Keeps s₀ s) {t : TimeUnit} (hns : s.time.ns < 1000000000 → t.ns < 1000000000)
    (hcycle : s.time.cycle < 250000 → t.cycle < 250000) : Keeps s₀ { s with time := t } :=
  h.step (fun ⟨hc, hn, ht, hl⟩ => ⟨hc, hns hn, hcycle ht, hl⟩) (FusesAdvance.refl _) rfl

/-- A clock at zero reads less than a second of ns and less than a clove of cycles. -/
theorem zero_lt_second_and_clove : (0 : Nat) < 1000000000 ∧ (0 : Nat) < 250000 := by decide

/-- Fuses that advance to a life cycle of R391 keep the invariant. -/
theorem keeps_sec (h : Keeps s₀ s) {x : Security} (hx : FusesAdvance s.sec x) (hl : s.sec.lifecycle ≤ 2 → x.lifecycle ≤ 2) :
    Keeps s₀ { s with sec := x } :=
  h.step (fun ⟨hc, hn, ht, hs⟩ => ⟨hc, hn, ht, hl hs⟩) hx rfl

theorem keeps_hostWrite {port a : Nat} {bs : List Byte} (h : Keeps s₀ s) : Keeps s₀ (hostWrite s port a bs) :=
  keeps_ite (keeps_host h fun _ => memWf_wrBytes a bs) h

theorem keeps_logDirty {p a n : Nat} (h : Keeps s₀ s) : Keeps s₀ (logDirty s p a n) := by
  refine keeps_ite (keeps_foldl h fun s g hs => keeps_ite ?_ ?_) h
  · exact keeps_host hs fun _ => memWf_wrByte _ _
  · exact keeps_noteFlag (keeps_modPart hs)

theorem keeps_hostWriteFor {p a : Nat} {bs : List Byte} (h : Keeps s₀ s) : Keeps s₀ (hostWriteFor s p a bs) :=
  keeps_ite (keeps_hostWrite (keeps_logDirty h)) h

theorem keeps_wrRun {p va : Nat} {bs : List Byte} {psn : Bool} (h : Keeps s₀ s) : Keeps s₀ (wrRun s p va bs psn) :=
  keeps_ite (keeps_hbm h (pmemWf_putBytes _ _ _)) (keeps_ite (keeps_hostWriteFor h) h)

theorem keeps_wrVaP {p va : Nat} {bs : List Byte} {psn : Bool} (h : Keeps s₀ s) : Keeps s₀ (wrVaP s p va bs psn) :=
  keeps_ite (keeps_foldl_fst h fun _ _ hs => keeps_wrRun hs) h

/-! ### What a command answers -/

/-- Every next state that a command answers keeps the invariant. -/
def KeepsNext (s₀ : State) (o : Host.Outcome State Fault Refusal) : Prop := ∀ t, o = .next t → Keeps s₀ t

theorem keepsNext_next (h : Keeps s₀ s) : KeepsNext s₀ (.next s) := fun _ ht => Host.Outcome.next.inj ht ▸ h

theorem keepsNext_ite {c : Prop} [Decidable c] {o u : Host.Outcome State Fault Refusal} (ho : KeepsNext s₀ o) (hu : KeepsNext s₀ u) :
    KeepsNext s₀ (if c then o else u) := by
  split <;> assumption

/-- A command of the main domain keeps the invariant where its act does. -/
theorem keepsNext_inRun {f : State → State} (h : Keeps s₀ s) (hf : Keeps s₀ (f s)) : KeepsNext s₀ (inRun s f) :=
  keepsNext_next (keeps_ite hf h)

/-- The state of a firmware command that completes or goes on waiting keeps the invariant. -/
def KeepsFw (s₀ : State) : Fw → Prop
  | .done s _ _ => Keeps s₀ s
  | .wait s _ _ => Keeps s₀ s

theorem keepsFw_done {status : Nat} {res : List Word} (h : Keeps s₀ s) : KeepsFw s₀ (.done s status res) := h

theorem keepsFw_wait {why : Wait} {res : List Word} (h : Keeps s₀ s) : KeepsFw s₀ (.wait s why res) := h

theorem keepsFw_ite {c : Prop} [Decidable c] {a b : Fw} (ha : KeepsFw s₀ a) (hb : KeepsFw s₀ b) : KeepsFw s₀ (if c then a else b) := by
  split <;> assumption

end Sys2Proof.Machine
end

section
/-! PROOFS. What keeps the invariant, 1. The state's own operations: addresses, the clock, domains, rings, events and completions. -/

namespace Sys2Proof.Machine

open Sys2Proof

variable {s₀ s : State}

/-! ### Virtual addresses (R325) -/

theorem keeps_wrVa {p va : Nat} {bs : List Byte} (h : Keeps s₀ s) : Keeps s₀ (wrVa s p va bs) := keeps_wrVaP h

/-! ### The clock (R10, R212, R219) -/

theorem keeps_tick (h : Keeps s₀ s) : Keeps s₀ (tick s) :=
  keeps_time h (fun _ => Nat.mod_lt _ (by decide)) fun _ => lt_of_le_of_lt (Nat.min_le_left _ _) (by decide)

/-! ### Switched domains (R436): link groups 0 to 2, Ethernet groups 3 and 4, the radio engine domain 5 -/

theorem keeps_setDom {d : Nat} {on : Bool} (h : Keeps s₀ s) : Keeps s₀ (setDom s d on) := keeps_update h rfl

theorem keeps_requestOn {d : Nat} (h : Keeps s₀ s) : Keeps s₀ (requestOn s d) :=
  keeps_ite (keeps_update h rfl) (keeps_ite (keeps_setDom (keeps_update h rfl))
    (keeps_ite (keeps_update h rfl) (keeps_update (keeps_update h rfl) rfl)))

/-! ### Rings (R364-R371) -/

theorem keeps_writeRec {k : Nat} {x : Held} (h : Keeps s₀ s) : Keeps s₀ (writeRec s k x) :=
  keeps_ite (keeps_emit (keeps_modRing (keeps_ite (keeps_hostWrite h) (keeps_hostWriteFor h))))
    (keeps_modRing (keeps_ite (keeps_hostWrite h) (keeps_hostWriteFor h)))

theorem keeps_flushHeld {k : Nat} {l : List Held} (h : Keeps s₀ s) : Keeps s₀ (flushHeld s k l) := by
  induction l generalizing s with
  | nil => exact keeps_modRing h
  | cons x l ih =>
    exact keeps_ite (keeps_modRing h) (keeps_ite (ih (keeps_writeRec h)) (keeps_ite (ih (keeps_modRing h)) (keeps_modRing h)))

theorem keeps_deliver {k : Nat} {x : Held} (h : Keeps s₀ s) : Keeps s₀ (deliver s k x) :=
  keeps_ite (keeps_modRing h) (keeps_flushHeld h)

/-! ### Events (R379-R381) -/

theorem keeps_evPool {code : Nat} {items : List (Nat × Nat)} (h : Keeps s₀ s) : Keeps s₀ (evPool s code items) :=
  keeps_deliver h

theorem keeps_evPart {p code : Nat} {items : List (Nat × Nat)} (h : Keeps s₀ s) : Keeps s₀ (evPart s p code items) :=
  keeps_ite (keeps_deliver h) h

theorem keeps_ringFault {k : Nat} (h : Keeps s₀ s) : Keeps s₀ (ringFault s k) :=
  keeps_ite h (keeps_ite (keeps_evPool (keeps_noteFlag (keeps_modRing h))) (keeps_evPart (keeps_noteFlag (keeps_modRing h))))

/-! ### Completions (R368, R375) -/

theorem keeps_complete {x : CmdHead} {status : Nat} {res : List Word} (h : Keeps s₀ s) : Keeps s₀ (complete s x status res) :=
  keeps_deliver h

theorem keeps_completeWhere {pick : Outst → Bool} {f : Outst → Nat × List Word} (h : Keeps s₀ s) :
    Keeps s₀ (completeWhere s pick f) :=
  keeps_foldl (keeps_update h rfl) fun _ _ hs => keeps_complete hs

theorem keeps_completeWait {w : Wait} {status : Nat} (h : Keeps s₀ s) : Keeps s₀ (completeWait s w status) :=
  keeps_completeWhere h

end Sys2Proof.Machine
end

section
/-! PROOFS. What keeps the invariant, 2. The execute engine: queues, slices, accumulators, products, drains and operands. -/

namespace Sys2Proof.Machine

open Sys2Proof

variable {s₀ s : State}

/-! ### Execute queues (R132, R133) -/

theorem keeps_pullQ {c q n : Nat} (h : Keeps s₀ s) : Keeps s₀ (pullQ s c q n).2.2 := by
  unfold pullQ
  extract_lets
  split
  · exact h
  · exact keeps_modEq h

/-- An entry put into its queue's storage leaves the memory canonical. -/
theorem pmemWf_storeEntry {m : PMem} (a : Nat) (e : Entry) (h : pmemWf m = true) : pmemWf (storeEntry m a e) = true :=
  List.foldlRecOn (motive := fun m => pmemWf m = true) _ _ h fun m hm x _ => by
    split
    · exact hm
    · exact pmemWf_putGran _ _ _ hm

theorem keeps_pushQ {c q : Nat} {e : Entry} (h : Keeps s₀ s) : Keeps s₀ (pushQ s c q e) :=
  keeps_modClu_sram h fun _ => pmemWf_storeEntry _ _

/-! ### Slices (R443) -/

theorem keeps_noteSlice {p c l st : Nat} (h : Keeps s₀ s) : Keeps s₀ (noteSlice s p c l st) := keeps_ite h (keeps_modPart h)

theorem keeps_freeCheckpoints {c : Nat} {marks : List Nat} (h : Keeps s₀ s) : Keeps s₀ (freeCheckpoints s c marks) :=
  keeps_ite h (keeps_modClu h fun _ => rfl)

theorem keeps_endSlices {c l : Nat} (h : Keeps s₀ s) : Keeps s₀ (endSlices s c l) :=
  keeps_foldl (keeps_modLa h) fun _ _ hs => keeps_freeCheckpoints (keeps_noteSlice (keeps_emit hs))

theorem keeps_closeSlice {c l : Nat} {ctx : Bool} (h : Keeps s₀ s) : Keeps s₀ (closeSlice s c l ctx) :=
  keeps_ite (keeps_endSlices (keeps_modLa h)) h

theorem keeps_modSlice {c l id : Nat} {f : Slice → Slice} (h : Keeps s₀ s) : Keeps s₀ (modSlice s c l id f) := keeps_modLa h

theorem keeps_openSlice {c l : Nat} {d : List Word} {owner : Nat} (h : Keeps s₀ s) : Keeps s₀ (openSlice s c l d owner) :=
  keeps_modLa (keeps_ite (keeps_update (keeps_closeSlice h) rfl) (keeps_closeSlice h))

theorem keeps_reopenSlice {c l : Nat} {x : Slice} (h : Keeps s₀ s) : Keeps s₀ (reopenSlice s c l x) :=
  keeps_modLa (keeps_closeSlice h)

theorem keeps_joinSlice {c l : Nat} {d : List Word} {owner : Nat} (h : Keeps s₀ s) : Keeps s₀ (joinSlice s c l d owner) := by
  unfold joinSlice
  extract_lets s1
  have h1 : Keeps s₀ s1 := by
    unfold s1
    refine keeps_ite ?_ h
    split
    · exact keeps_reopenSlice h
    · exact keeps_openSlice h
  exact keeps_modLa h1

theorem keeps_opDone {c l id : Nat} (h : Keeps s₀ s) : Keeps s₀ (opDone s c l id) := keeps_endSlices (keeps_modSlice h)

/-! ### Accumulators -/

theorem keeps_runWrote {p c : Nat} {w : Machine.Writer} (h : Keeps s₀ s) : Keeps s₀ (runWrote s p c w) :=
  keeps_ite (keeps_modPart h) h

/-- Bytes written with the poison marks kept leave the memory canonical. -/
theorem pmemWf_wrBytes {m : PMem} (a : Nat) (bs : List Byte) (h : pmemWf m = true) :
    pmemWf { m with mem := wrBytes m.mem a bs } = true := by
  obtain ⟨hmem, hpsn⟩ := (pmemWf_iff _).1 h
  exact (pmemWf_iff _).2 ⟨memWf_wrBytes _ _ hmem, hpsn⟩

theorem keeps_spillAcc {c l : Nat} {r : OpRun} {m n part : Nat} {goOn : Bool} (h : Keeps s₀ s) :
    Keeps s₀ (spillAcc s c l r m n part goOn) :=
  keeps_modClu_sram (keeps_runWrote h) fun _ => pmemWf_wrBytes _ _

theorem keeps_modAcc {c l : Nat} {d : List Word} {m n part : Nat} {f : Machine.Acc → Machine.Acc} (h : Keeps s₀ s) :
    Keeps s₀ (modAcc s c l d m n part f) :=
  keeps_modPa h

theorem keeps_modSums {c l : Nat} {d : List Word} {m part : Nat} {f : RowSum → RowSum} (h : Keeps s₀ s) :
    Keeps s₀ (modSums s c l d m part f) :=
  keeps_modPa h

theorem keeps_addSums {c l : Nat} {d : List Word} {m part : Nat} {chk col : Int} (h : Keeps s₀ s) :
    Keeps s₀ (addSums s c l d m part chk col) :=
  keeps_modSums h

theorem keeps_makeRoom {c l : Nat} {r : OpRun} {m n part cnt : Nat} (h : Keeps s₀ s) :
    Keeps s₀ (makeRoom s c l r m n part cnt) :=
  keeps_ite (keeps_spillAcc h) h

theorem keeps_addSum {c l : Nat} {r : OpRun} {m n part : Nat} {x : Machine.Sum} {cnt : Nat} {psn : Bool} (h : Keeps s₀ s) :
    Keeps s₀ (addSum s c l r m n part x cnt psn) :=
  keeps_modAcc h

theorem keeps_contribute {c l : Nat} {r : OpRun} {m n part : Nat} {x : Machine.Sum} {cnt : Nat} {psn : Bool} (h : Keeps s₀ s) :
    Keeps s₀ (contribute s c l r m n part x cnt psn) :=
  keeps_addSum (keeps_makeRoom h)

theorem keeps_clearSums {c l : Nat} {d : List Word} {rows : List Nat} (h : Keeps s₀ s) : Keeps s₀ (clearSums s c l d rows) :=
  keeps_foldl h fun _ _ hs => keeps_foldl hs fun _ _ hs1 => keeps_modSums hs1

theorem keeps_openAccs {c l : Nat} {d : List Word} {init : Bool} (h : Keeps s₀ s) : Keeps s₀ (openAccs s c l d init) :=
  keeps_foldl (keeps_ite (keeps_clearSums h) h) fun _ _ hs => keeps_modAcc hs

/-! ### Products -/

theorem keeps_wsStep {c l : Nat} {r : OpRun} {gs : List Gran} (h : Keeps s₀ s) : Keeps s₀ (wsStep s c l r gs) :=
  keeps_foldl (keeps_addSums (keeps_addSums h)) fun _ _ hs => keeps_ite
    (keeps_contribute (keeps_contribute (keeps_addSums (keeps_addSums hs))))
    (keeps_ite (keeps_contribute (keeps_addSums hs)) (keeps_ite (keeps_contribute hs) (keeps_contribute hs)))

theorem keeps_osCell {c l : Nat} {r : OpRun} {ga : List Gran} {m n len : Nat} (h : Keeps s₀ s) :
    Keeps s₀ (osCell s c l r ga m n len) :=
  keeps_foldl h fun _ _ hs => keeps_ite (keeps_contribute (keeps_addSums hs))
    (keeps_ite (keeps_contribute hs) (keeps_foldl (keeps_makeRoom hs) fun _ _ hs1 => keeps_addSum hs1))

theorem keeps_osUnit {c l : Nat} {r : OpRun} {ga : List Gran} {len : Nat} (h : Keeps s₀ s) : Keeps s₀ (osUnit s c l r ga len) :=
  keeps_foldl h fun _ _ hs => keeps_foldl (keeps_ite (keeps_addSums hs) hs) fun _ _ hs1 => keeps_osCell hs1

/-! ### The drain -/

theorem keeps_lastSpills {c l : Nat} {r : OpRun} (h : Keeps s₀ s) : Keeps s₀ (lastSpills s c l r) :=
  keeps_foldl h fun _ _ hs => keeps_ite (keeps_spillAcc hs) hs

theorem keeps_startDrain {c l : Nat} {r : OpRun} (h : Keeps s₀ s) : Keeps s₀ (startDrain s c l r) :=
  keeps_modLa (keeps_foldl (keeps_lastSpills h) fun _ _ hs => keeps_modAcc hs)

/-! ### The execute engine's commands -/

theorem keeps_waitDesc {c l owner : Nat} {d : List Word} (h : Keeps s₀ s) : Keeps s₀ (waitDesc s c l owner d) := keeps_modLa h

theorem keeps_popDesc {c l owner : Nat} {d : List Word} (h : Keeps s₀ s) : Keeps s₀ (popDesc s c l owner d) := keeps_modLa h

theorem keeps_noteTaken {c l id q : Nat} {gs : List Gran} {mk : Bool} (h : Keeps s₀ s) :
    Keeps s₀ (noteTaken s c l id q gs mk) :=
  keeps_modSlice h

theorem keeps_beginOp {c l owner : Nat} {d : List Word} (h : Keeps s₀ s) : Keeps s₀ (beginOp s c l owner d).1 :=
  keeps_modLa (keeps_ite (keeps_modPa (keeps_ite (keeps_openAccs (keeps_joinSlice (keeps_popDesc h)))
    (keeps_joinSlice (keeps_popDesc h)))) (keeps_ite (keeps_openAccs (keeps_joinSlice (keeps_popDesc h)))
    (keeps_joinSlice (keeps_popDesc h))))

theorem keeps_preloadRow {c l : Nat} {r : OpRun} {gs : List Gran} (h : Keeps s₀ s) : Keeps s₀ (preloadRow s c l r gs) :=
  keeps_foldl (keeps_clearSums h) fun _ _ hs => keeps_foldl hs fun _ _ hs1 => keeps_foldl hs1 fun _ _ hs2 => keeps_modAcc hs2

/-! ### Operands (R133) -/

theorem keeps_pullFor {c l id q need : Nat} {buf : List Gran} (h : Keeps s₀ s) : Keeps s₀ (pullFor s c l id q need buf).1 :=
  keeps_ite_fst h (keeps_noteTaken (keeps_pullQ h))

theorem keeps_tileDone {c l : Nat} {r : OpRun} (h : Keeps s₀ s) : Keeps s₀ (tileDone s c l r).1 :=
  keeps_ite_fst (keeps_modPa h) h

theorem keeps_takeOperands {c l : Nat} {r : OpRun} (h : Keeps s₀ s) : Keeps s₀ (takeOperands s c l r).1 :=
  keeps_ite_fst (keeps_pullFor h) (keeps_ite_fst (keeps_pullFor (keeps_ite_fst (keeps_pullFor h)
    (keeps_tileDone (keeps_pullFor h)))) (keeps_pullFor (keeps_pullFor
    (keeps_ite_fst (keeps_pullFor h) (keeps_tileDone (keeps_pullFor h))))))

theorem keeps_unitOp {c l : Nat} {r : OpRun} (h : Keeps s₀ s) : Keeps s₀ (unitOp s c l r).1 :=
  keeps_ite_fst (keeps_preloadRow h) (keeps_ite_fst (keeps_osUnit h) (keeps_wsStep h))

theorem keeps_unitsOp {c l n : Nat} {r : OpRun} (h : Keeps s₀ s) : Keeps s₀ (unitsOp s c l r n).1 := by
  induction n generalizing s r with
  | zero => exact h
  | succ n ih => exact keeps_ite_fst (keeps_takeOperands h) (ih (keeps_unitOp (keeps_takeOperands h)))

theorem keeps_pushFor {c l id q : Nat} {es : List Entry} (h : Keeps s₀ s) : Keeps s₀ (pushFor s c l id q es) := by
  unfold pushFor
  refine keeps_foldl h fun s x hs => ?_
  extract_lets _ sl₁
  clear_value sl₁
  split
  · exact keeps_pushQ hs
  · exact keeps_ite (keeps_modSlice hs) (keeps_pushQ (keeps_modSlice hs))

theorem keeps_finishOp {c l : Nat} {r : OpRun} (h : Keeps s₀ s) : Keeps s₀ (finishOp s c l r) := by
  unfold finishOp
  extract_lets _ _ s1 s2 s3
  have h1 : Keeps s₀ s1 := keeps_modLa h
  have h2 : Keeps s₀ s2 := keeps_pushFor h1
  have h3 : Keeps s₀ s3 := keeps_ite (keeps_modSlice h2) h2
  exact keeps_ite (keeps_modLa h) (keeps_ite (keeps_startDrain h3) (keeps_opDone (keeps_emit h3)))

theorem keeps_advanceOp {c l : Nat} {r : OpRun} (h : Keeps s₀ s) : Keeps s₀ (advanceOp s c l r) :=
  keeps_ite (keeps_finishOp (keeps_ite (keeps_modPa (keeps_unitsOp h)) (keeps_unitsOp h)))
    (keeps_modLa (keeps_ite (keeps_modPa (keeps_unitsOp h)) (keeps_unitsOp h)))

theorem keeps_failOp {c l owner : Nat} {d : List Word} {st : Nat} (h : Keeps s₀ s) : Keeps s₀ (failOp s c l owner d st) :=
  keeps_emit (keeps_popDesc h)

theorem keeps_issueOp {c owner : Nat} {d : List Word} (h : Keeps s₀ s) : Keeps s₀ (issueOp s c owner d) := by
  unfold issueOp
  extract_lets
  refine keeps_ite h ?_
  split
  · exact keeps_ite (keeps_ite h (keeps_advanceOp h)) (keeps_waitDesc h)
  · exact keeps_ite (keeps_waitDesc h) (keeps_ite (keeps_failOp h)
      (keeps_ite (keeps_waitDesc h) (keeps_advanceOp (keeps_beginOp h))))

/-! ### The watchdog (R63) -/

theorem keeps_watchCluster {n c : Nat} (h : Keeps s₀ s) : Keeps s₀ (watchCluster n s c) :=
  keeps_foldl h fun _ _ hs => keeps_ite (keeps_modPa hs) (keeps_modPa hs)

theorem keeps_watchArrays {n : Nat} (h : Keeps s₀ s) : Keeps s₀ (watchArrays s n) :=
  keeps_foldl h fun _ _ hs => keeps_watchCluster hs

theorem keepsNext_execMma {c : Fin 20} {owner : Fin 64} {d : List Word} (h : Keeps s₀ s) : KeepsNext s₀ (execMma c owner d s) :=
  keepsNext_inRun h (keeps_issueOp h)

theorem keepsNext_execAccPreload {c : Fin 20} {owner : Fin 64} {d : List Word} (h : Keeps s₀ s) :
    KeepsNext s₀ (execAccPreload c owner d s) :=
  keepsNext_inRun h (keeps_issueOp h)

theorem keepsNext_execAccDrain {c : Fin 20} {owner : Fin 64} {d : List Word} (h : Keeps s₀ s) :
    KeepsNext s₀ (execAccDrain c owner d s) :=
  keepsNext_inRun h (keeps_issueOp h)

end Sys2Proof.Machine
end

section
/-! PROOFS. What keeps the invariant, 3. The array watchdogs, firmware commands, rings, host links and boot. -/

namespace Sys2Proof.Machine

open Sys2Proof

variable {s₀ s : State}

/-! ### Command packets and firmware commands -/

theorem keeps_startCmd {r : RingId} (h : Keeps s₀ s) : Keeps s₀ (startCmd s r) := keeps_modRing h

theorem keeps_parkCmd {r : RingId} {op : Nat} {k : Pkt} (h : Keeps s₀ s) : Keeps s₀ (parkCmd s r op k) :=
  keeps_ite h (keeps_modRing h)

theorem keeps_settle {x : CmdHead} {a : Fw} (h : KeepsFw s₀ a) : Keeps s₀ (settle x a) := by
  cases a with
  | done s status res => exact keeps_complete h
  | wait s why res => exact keeps_update (s := s) h rfl

theorem keeps_sweepUnknown {r : RingId} {n : Nat} (h : Keeps s₀ s) : Keeps s₀ (sweepUnknown s r n) := by
  induction n generalizing s with
  | zero => exact h
  | succ n ih =>
    unfold sweepUnknown
    split
    · exact h
    · exact keeps_ite (ih (keeps_complete (keeps_startCmd h))) h

/-- A firmware command keeps the invariant where its act does, which runs only once none of its checks fails. -/
theorem keeps_fwRun {r : RingId} {op : Nat} {k : Pkt} {errRes : List Word} {errs : State → List Nat} {act : State → Fw}
    (h : Keeps s₀ s) (hact : ∀ s, Keeps s₀ s → errs s = [] → KeepsFw s₀ (act s)) : Keeps s₀ (fwRun s r op k errRes errs act) := by
  unfold fwRun
  extract_lets s1 e t
  have h1 : Keeps s₀ s1 := keeps_startCmd h
  have ht : Keeps s₀ t := by
    unfold t
    split
    · rename_i he
      exact keeps_settle (hact s1 h1 (List.append_eq_nil_iff.1 (List.isEmpty_iff.1 he)).2)
    · exact keeps_complete h1
  exact keeps_ite h (keeps_ite (keeps_parkCmd h) (keeps_sweepUnknown ht))

/-! ### Operands that several commands share -/

theorem keeps_wrA {r : RingId} {a : Nat} {bs : List Byte} (h : Keeps s₀ s) : Keeps s₀ (wrA s r a bs) := by
  unfold wrA
  split
  · exact keeps_ite (keeps_hostWrite h) h
  · exact keeps_wrVa h

theorem keepsFw_writeDone {r : RingId} {a : Nat} {bs : List Byte} {st : Nat} {res : List Word} (h : Keeps s₀ s) :
    KeepsFw s₀ (writeDone s r a bs st res) :=
  keepsFw_done (keeps_wrA h)

/-! ### Doorbells, indices and host links of the rings -/

theorem keeps_fetchEntries {k n : Nat} (h : Keeps s₀ s) : Keeps s₀ (fetchEntries s k n) := by
  induction n generalizing s with
  | zero => exact h
  | succ n ih =>
    unfold fetchEntries
    dsimp only
    split
    · exact keeps_ringFault h
    · exact ih (keeps_modRing h)

theorem keeps_fetchRing {rid : RingId} (h : Keeps s₀ s) : Keeps s₀ (fetchRing s rid) :=
  keeps_ite h (keeps_ite (keeps_ringFault h) (keeps_sweepUnknown (keeps_fetchEntries h)))

theorem keepsNext_execCmdDoorbell {r : RingId} {tail : BitVec 16} (h : Keeps s₀ s) : KeepsNext s₀ (execCmdDoorbell r tail s) :=
  keepsNext_inRun h (keeps_ite h (keeps_fetchRing (keeps_modRing h)))

theorem keepsNext_execCplHeadWrite {r : RingId} {head : BitVec 16} (h : Keeps s₀ s) :
    KeepsNext s₀ (execCplHeadWrite r head s) :=
  keepsNext_inRun h (keeps_ite h (keeps_flushHeld (keeps_ite (keeps_ringFault (keeps_modRing h)) (keeps_modRing h))))

theorem keepsNext_execRingEnable {r : RingId} {en : Bool} (h : Keeps s₀ s) : KeepsNext s₀ (execRingEnable r en s) :=
  keepsNext_inRun h (keeps_ite h (keeps_ite (keeps_modRing h) (keeps_ite h (keeps_ite (keeps_modRing h) (keeps_modRing h)))))

theorem keepsNext_execRingEnableDeferred {r : RingId} (h : Keeps s₀ s) : KeepsNext s₀ (execRingEnableDeferred r s) :=
  keepsNext_inRun h (keeps_ite (keeps_modRing h) h)

theorem keeps_hostLinkLost {port : Nat} (h : Keeps s₀ s) : Keeps s₀ (hostLinkLost s port) :=
  keeps_ite h (keeps_ite (keeps_evPool (keeps_ite (keeps_update (keeps_update h rfl) rfl) (keeps_update h rfl)))
    (keeps_ite (keeps_update (keeps_update h rfl) rfl) (keeps_update h rfl)))

theorem keepsNext_execHostLinkDown {port : Fin 4} (h : Keeps s₀ s) : KeepsNext s₀ (execHostLinkDown port s) :=
  keepsNext_inRun h (keeps_hostLinkLost h)

theorem keepsNext_execHostLinkUp {port : Fin 4} (h : Keeps s₀ s) : KeepsNext s₀ (execHostLinkUp port s) :=
  keepsNext_inRun h (keeps_ite h (keeps_ite (keeps_update h rfl) (keeps_foldl
    (keeps_evPool (keeps_foldl (keeps_update h rfl) fun _ _ hs => keeps_flushHeld hs)) fun _ _ hs => keeps_fetchRing hs)))

theorem keepsNext_execGetVersion {r : RingId} {k : Pkt} (h : Keeps s₀ s) : KeepsNext s₀ (execGetVersion r k s) := by
  unfold execGetVersion
  refine keepsNext_inRun h ?_
  refine keeps_fwRun h fun s hs _ => ?_
  extract_lets s1
  have h1 : Keeps s₀ s1 := by
    unfold s1
    split
    · exact keeps_update hs rfl
    · exact keeps_modPart hs
  exact keepsFw_done h1

theorem keepsNext_execAuthLockoutExpiry (h : Keeps s₀ s) : KeepsNext s₀ (execAuthLockoutExpiry s) :=
  keepsNext_inRun h (keeps_ite (keeps_update h rfl) h)

/-! ### The boot ROM -/

theorem keeps_bootRom (h : Keeps s₀ s) : Keeps s₀ (bootRom s) := keeps_update h rfl

theorem keeps_measure {i typ svn : Nat} {x : BitVec 384} (h : Keeps s₀ s) : Keeps s₀ (Machine.measure s i typ svn x) :=
  keeps_update h rfl

theorem keeps_logReject {typ svn : Nat} {x : BitVec 384} {status : Nat} (h : Keeps s₀ s) :
    Keeps s₀ (logReject s typ svn x status) :=
  keeps_update h rfl

/-! ### Images (R360) -/

theorem keeps_pushOutcome {after : Bool} (h : Keeps s₀ s) : Keeps s₀ (pushOutcome s after) :=
  keeps_ite (keeps_logReject (keeps_update h rfl)) (keeps_measure (keeps_update (keeps_update h rfl) rfl))

theorem keepsNext_execPush (h : Keeps s₀ s) : KeepsNext s₀ (execPush s) := by
  unfold execPush
  refine keepsNext_inRun h ?_
  extract_lets
  split
  · exact h
  · exact keeps_update h rfl
  · exact keeps_update h rfl
  · exact keeps_pushOutcome h
  · exact keeps_pushOutcome h
  · exact h

theorem keepsNext_execImageVerified (h : Keeps s₀ s) : KeepsNext s₀ (execImageVerified s) :=
  keepsNext_inRun h (keeps_ite h (keeps_update (keeps_pushOutcome h) rfl))

theorem keepsNext_execStart (h : Keeps s₀ s) : KeepsNext s₀ (execStart s) :=
  keepsNext_inRun h (keeps_ite h (keeps_ite (keeps_update h rfl) (keeps_ite h (keeps_update h rfl))))

theorem keepsNext_execBootReady (h : Keeps s₀ s) : KeepsNext s₀ (execBootReady s) :=
  keepsNext_inRun h (keeps_ite (keeps_update h rfl) h)

theorem keepsNext_execStartTimeout (h : Keeps s₀ s) : KeepsNext s₀ (execStartTimeout s) :=
  keepsNext_inRun h (keeps_ite (keeps_update h rfl) h)

end Sys2Proof.Machine
end

section
/-! PROOFS. What keeps the invariant, 4. The Ethernet traffic manager: credit, deadlines, frames, spoof checks and policers. -/

namespace Sys2Proof.Machine

open Sys2Proof

variable {s₀ s : State}

/-! ### Credit (R308) -/

theorem keeps_settleCredit {q : Nat} (h : Keeps s₀ s) : Keeps s₀ (settleCredit s q) := keeps_ite h (keeps_modQ h)

theorem keeps_settleSub {port sub : Nat} (h : Keeps s₀ s) : Keeps s₀ (settleSub s port sub) :=
  keeps_foldl h fun _ _ hs => keeps_settleCredit hs

/-! ### Deadlines (R305) -/

theorem keeps_settleNet (h : Keeps s₀ s) : Keeps s₀ (settleNet s) := keeps_completeWhere h

theorem keeps_sendCtrl {port sub : Nat} {bs : List Byte} (h : Keeps s₀ s) : Keeps s₀ (sendCtrl s port sub bs) :=
  keeps_ite (keeps_emit h) h

theorem keeps_sendMiss {ep cell sym : Nat} (h : Keeps s₀ s) : Keeps s₀ (sendMiss s ep cell sym) :=
  keeps_evPart (keeps_update (keeps_modEp h) rfl)

theorem keeps_purgeLate {q : Nat} (h : Keeps s₀ s) : Keeps s₀ (purgeLate s q) := by
  unfold purgeLate
  extract_lets _ _ _ s1
  have h1 : Keeps s₀ s1 := keeps_modQ h
  refine keeps_ite h ?_
  refine keeps_foldl h1 fun s x hs => ?_
  split
  · exact keeps_sendMiss hs
  · exact hs

/-! ### Which frame goes next (R304-R306) -/

theorem keeps_tagQueue {q : Nat} (h : Keeps s₀ s) : Keeps s₀ (tagQueue s q) := by
  unfold tagQueue
  extract_lets
  split
  · exact keeps_ite (keeps_modQ h) h
  · exact keeps_ite (keeps_ite (keeps_modQ h) h) (keeps_ite h (keeps_modQ h))

theorem keeps_tagPart {port sub p : Nat} (h : Keeps s₀ s) : Keeps s₀ (tagPart s port sub p) := by
  unfold tagPart
  extract_lets
  split
  · exact h
  · refine keeps_ite h ?_
    split
    · exact h
    · exact keeps_modTmp h

theorem keeps_refreshSub {port sub : Nat} (h : Keeps s₀ s) : Keeps s₀ (refreshSub s port sub) :=
  keeps_foldl (keeps_foldl h fun _ _ hs => keeps_tagQueue hs) fun _ _ hs => keeps_tagPart hs

theorem keeps_beginFrame {port sub q : Nat} {f : Frame} (h : Keeps s₀ s) : Keeps s₀ (beginFrame s port sub q f) :=
  keeps_modPort (keeps_settleCredit h)

theorem keeps_startNext {port sub : Nat} (h : Keeps s₀ s) : Keeps s₀ (startNext s port sub) := by
  unfold startNext
  extract_lets s1 s2
  have h1 : Keeps s₀ s1 := keeps_settleSub (keeps_foldl h fun _ _ hs => keeps_purgeLate hs)
  have h2 : Keeps s₀ s2 := keeps_refreshSub h1
  refine keeps_ite h ?_
  split
  · exact keeps_beginFrame (keeps_modQ h2)
  · split
    · exact h2
    · extract_lets _ s3
      have h3 : Keeps s₀ s3 := keeps_modPort h2
      split
      · exact h2
      · extract_lets s4 s5
        have h4 : Keeps s₀ s4 := keeps_modTmp h3
        have h5 : Keeps s₀ s5 := keeps_settleCredit h4
        split
        · exact h2
        · exact keeps_refreshSub (keeps_beginFrame (keeps_modQ h5))

/-! ### Enqueue (R303, R316) -/

theorem keeps_enqueue {q : Nat} {f : Frame} (h : Keeps s₀ s) : Keeps s₀ (enqueue s q f) :=
  keeps_ite h (keeps_ite (keeps_modQ h) (keeps_startNext (keeps_refreshSub (keeps_modQ (keeps_settleCredit h)))))

theorem keeps_flushQ {q : Nat} (h : Keeps s₀ s) : Keeps s₀ (flushQ s q) := keeps_modQ (keeps_settleCredit h)

theorem keeps_disableQ {q : Nat} (h : Keeps s₀ s) : Keeps s₀ (disableQ s q) := keeps_modQ (keeps_flushQ h)

theorem keeps_frameLeft {port sub : Nat} (h : Keeps s₀ s) : Keeps s₀ (frameLeft s port sub) := by
  unfold frameLeft
  split
  · exact h
  · extract_lets s1 s2 s3
    have h1 : Keeps s₀ s1 := keeps_settleCredit h
    have h2 : Keeps s₀ s2 := keeps_modPort h1
    have h3 : Keeps s₀ s3 := keeps_emit h2
    split
    · exact keeps_wrVa h3
    · exact h3

/-! ### Spoof checks (R312, R313) -/

theorem keeps_countSpoof {p sub chk : Nat} (h : Keeps s₀ s) : Keeps s₀ (countSpoof s p sub chk) := keeps_modPart h

theorem keeps_sendChecked {q : Nat} {ecpriVlan : Nat → Bool} {f : Frame} (h : Keeps s₀ s) :
    Keeps s₀ (sendChecked s q ecpriVlan f).1 := by
  unfold sendChecked
  extract_lets
  split
  · exact keeps_countSpoof h
  · exact keeps_enqueue h

/-! ### Policers (R309-R311) -/

theorem keeps_police {p port sub : Nat} {raw : Bool} {bs : List Byte} (h : Keeps s₀ s) :
    Keeps s₀ (police s p port sub raw bs).1 := by
  unfold police
  extract_lets
  split
  · exact h
  · exact keeps_update h rfl

end Sys2Proof.Machine
end

section
/-! PROOFS. What keeps the invariant, 5. The radio front ends and fronthaul. -/

namespace Sys2Proof.Machine

open Sys2Proof

variable {s₀ s : State}

/-! ### Symbol buffers (R175, R182, R194) -/

theorem keeps_putSample {p c : Nat} {psn : Bool} {x : Nat × Word} (h : Keeps s₀ s) : Keeps s₀ (putSample p c psn s x) :=
  keeps_ite h (keeps_modClu_sram h fun _ hcl => pmemWf_setGranPsn _ _ (pmemWf_wrBytes _ _ hcl))

theorem keeps_poisonSample {p c g : Nat} (h : Keeps s₀ s) : Keeps s₀ (poisonSample p c s g) :=
  keeps_ite h (keeps_modClu_sram h fun _ => pmemWf_setGranPsn _ _)

/-! ### Uplink front end (R182-R184) -/

theorem keeps_beginSym {stream slot sym : Nat} (h : Keeps s₀ s) : Keeps s₀ (beginSym s stream slot sym) := keeps_modStream h

theorem keeps_passPart {cell stream slot sym part : Nat} (h : Keeps s₀ s) : Keeps s₀ (passPart s cell stream slot sym part) :=
  keeps_update (keeps_foldl (keeps_beginSym h) fun _ _ hs => keeps_foldl hs fun _ _ hs1 => keeps_putSample hs1) rfl

theorem keepsNext_execAgcUpdate {stream : Fin 2048} {part : SymPart} (h : Keeps s₀ s) :
    KeepsNext s₀ (execAgcUpdate stream part s) :=
  keepsNext_inRun h (keeps_ite h (keeps_ite (keeps_passPart h) (keeps_modStream (keeps_passPart h))))

/-! ### Search (R185-R190) -/

theorem keeps_startOccasion {cell cfg : Nat} (h : Keeps s₀ s) : Keeps s₀ (startOccasion s cell cfg) := by
  unfold startOccasion
  extract_lets
  split
  · exact h
  · exact keeps_modLane h

theorem keeps_startOccasions (h : Keeps s₀ s) : Keeps s₀ (startOccasions s) :=
  keeps_foldl h fun _ _ hs => keeps_foldl hs fun _ _ hs1 => keeps_ite (keeps_startOccasion hs1) hs1

theorem keeps_endOccasions (h : Keeps s₀ s) : Keeps s₀ (endOccasions s) :=
  keeps_foldl (keeps_foldl h fun _ _ hs => keeps_foldl hs fun _ _ hs1 => keeps_modStream hs1) fun _ _ hs => keeps_modLane hs

theorem keeps_reportRecord {lane : Nat} {m : Detection} (h : Keeps s₀ s) : Keeps s₀ (reportRecord s lane m) :=
  keeps_ite (keeps_noteFlag (keeps_modCell h)) (keeps_modCell (keeps_wrVa h))

theorem keepsNext_execSearchDetection {lane : Fin 64} {m : Detection} (h : Keeps s₀ s) :
    KeepsNext s₀ (execSearchDetection lane m s) :=
  keepsNext_inRun h (keeps_ite h (keeps_reportRecord (keeps_foldl
    (keeps_modLane (keeps_noteFlag (keeps_ite (keeps_noteFlag (keeps_ite (keeps_takeFree h) h))
    (keeps_ite (keeps_takeFree h) h)))) fun _ _ hs => keeps_modStream hs)))

/-! ### Uplink fronthaul (R170, R171, R174, R175) -/

theorem keeps_setFlow {c i : Nat} {f : Machine.Flow} (h : Keeps s₀ s) : Keeps s₀ (setFlow s c i f) := keeps_modCell h

theorem keeps_uplaneRx {ep c i : Nat} {f : Machine.Flow} {b : List Byte} (h : Keeps s₀ s) :
    Keeps s₀ (uplaneRx s ep c i f b) := by
  unfold uplaneRx
  extract_lets _ _ _ _ s1 s2 _ _ _ _ _ _ _ _ s3
  have h1 : Keeps s₀ s1 := keeps_setFlow h
  have h2 : Keeps s₀ s2 := keeps_ite (keeps_modEp h1) h1
  have h3 : Keeps s₀ s3 := keeps_modEp h2
  exact keeps_ite (keeps_modEp h2) (keeps_ite (keeps_modEp h2) (keeps_ite h2
    (keeps_ite (keeps_modEp h2) (keeps_update h3 rfl))))

theorem keeps_delaySend {ep id act t : Nat} (h : Keeps s₀ s) : Keeps s₀ (delaySend s ep id act t) := keeps_sendCtrl h

theorem keeps_delayRx {ep : Nat} {b : List Byte} (h : Keeps s₀ s) : Keeps s₀ (delayRx s ep b) := by
  unfold delayRx
  extract_lets
  refine keeps_ite (keeps_delaySend h) ?_
  refine keeps_ite (keeps_modEp h) ?_
  refine keeps_ite (keeps_delaySend h) ?_
  refine keeps_ite (keeps_delaySend (keeps_delaySend h)) ?_
  refine keeps_ite ?_ h
  split
  · exact keeps_ite (keeps_delaySend (keeps_modEp h)) h
  · exact h

theorem keeps_fronthaulRx {ep : Nat} {pay : List Byte} (h : Keeps s₀ s) : Keeps s₀ (fronthaulRx s ep pay) := by
  unfold fronthaulRx
  refine keeps_foldl h fun s x hs => ?_
  refine keeps_ite ?_ (keeps_ite (keeps_delayRx hs) (keeps_ite hs (keeps_modEp hs)))
  split
  · exact keeps_uplaneRx hs
  · exact hs

theorem keepsNext_execRxWindowClose {cell : Fin 512} {stream : Fin 2048} {slot : Nat} {sym : Fin 14} (h : Keeps s₀ s) :
    KeepsNext s₀ (execRxWindowClose cell stream slot sym s) := by
  unfold execRxWindowClose
  refine keepsNext_inRun h ?_
  extract_lets _ _ s1
  have h1 : Keeps s₀ s1 := keeps_foldl h fun _ _ hs => keeps_passPart hs
  split
  · exact h
  · exact keeps_ite h (keeps_update (keeps_foldl h1 fun _ _ hs => keeps_poisonSample hs) rfl)

/-! ### Downlink fronthaul (R176, R194) -/

theorem keeps_sendEcpri {c i : Nat} {f : Machine.Flow} {typ y stop : Nat} {body : List Byte} (h : Keeps s₀ s) :
    Keeps s₀ (sendEcpri s c i f typ y stop body).1 :=
  keeps_ite_fst h (keeps_sendChecked (keeps_setFlow h))

theorem keeps_sendSect {k : TxKey} {f : Machine.Flow} {body : List Byte} (h : Keeps s₀ s) : Keeps s₀ (sendSect s k f body) :=
  keeps_ite h (keeps_ite (keeps_update (keeps_sendEcpri h) rfl) (keeps_sendEcpri h))

theorem keepsNext_execDlCplaneSend {cell : Fin 512} {slot : Nat} {msgs : List CpMsg} (h : Keeps s₀ s) :
    KeepsNext s₀ (execDlCplaneSend cell slot msgs s) := by
  unfold execDlCplaneSend
  refine keepsNext_inRun h ?_
  extract_lets
  refine keeps_ite h ?_
  refine keeps_foldl h fun s x hs => ?_
  split
  · exact hs
  · refine keeps_ite hs ?_
    split
    · exact hs
    · exact keeps_sendSect hs

theorem keeps_mapSect {C : Cell} {slot y : Nat} {f : Machine.Flow} {m : DlSection} (h : Keeps s₀ s) :
    Keeps s₀ (mapSect s C slot y f m) :=
  keeps_foldl h fun _ _ hs => keeps_putSample hs

theorem keepsNext_execDlUplaneSend {cell : Fin 512} {slot : Nat} {sym : Fin 14} {msgs : List DlSection} (h : Keeps s₀ s) :
    KeepsNext s₀ (execDlUplaneSend cell slot sym msgs s) := by
  unfold execDlUplaneSend
  refine keepsNext_inRun h ?_
  extract_lets
  refine keeps_ite h ?_
  refine keeps_foldl h fun s x hs => ?_
  split
  · exact hs
  · split
    · exact keeps_ite hs (keeps_mapSect hs)
    · refine keeps_ite hs ?_
      split
      · exact hs
      · exact keeps_sendSect hs

theorem keepsNext_execTxLate {cell : Fin 512} {slot : Nat} {sym : Fin 14} {part : LateSect} (h : Keeps s₀ s) :
    KeepsNext s₀ (execTxLate cell slot sym part s) := by
  unfold execTxLate
  refine keepsNext_inRun h ?_
  extract_lets
  split
  · exact h
  · exact keeps_ite h (keeps_sendMiss (keeps_update h rfl))

end Sys2Proof.Machine
end

section
/-! PROOFS. What keeps the invariant, 6. Queue pairs: completions, sending, receiving and doorbells. -/

namespace Sys2Proof.Machine

open Sys2Proof

variable {s₀ s : State}

/-! ### Fields -/

theorem keeps_qpSend {n op : Nat} {psn : BitVec 24} {ackReq : Bool} {ext payload : List Byte} (h : Keeps s₀ s) :
    Keeps s₀ (qpSend s n op psn ackReq ext payload) :=
  keeps_sendChecked h

/-! ### Completions (R299) -/

theorem keeps_cqWrite {n status op : Nat} {recv : Bool} {imm : Option Nat} {bytes : Nat} {id : List Word} (h : Keeps s₀ s) :
    Keeps s₀ (cqWrite s n status op recv imm bytes id) :=
  keeps_ite h (keeps_modQp (keeps_wrVa h))

theorem keeps_qpFlush {n f : Nat} (h : Keeps s₀ s) : Keeps s₀ (qpFlush s n f) := by
  induction f generalizing s with
  | zero => exact h
  | succ f ih =>
    have hnext {g : Qp → Qp} {st op len : Nat} {rx : Bool} {imm : Option Nat} {id : List Word} :
        Keeps s₀ (qpFlush (cqWrite (modQp s n g) n st op rx imm len id) n f) := ih (keeps_cqWrite (keeps_modQp h))
    unfold qpFlush
    refine keeps_ite h ?_
    dsimp only
    split
    · exact hnext
    · exact keeps_ite hnext (keeps_ite hnext h)

theorem keeps_qpError {n status : Nat} (h : Keeps s₀ s) : Keeps s₀ (qpError s n status) :=
  keeps_qpFlush (keeps_evPart (keeps_modQp h))

theorem keeps_sendDone {n status bytes : Nat} {w : List Word} (h : Keeps s₀ s) : Keeps s₀ (sendDone s n status bytes w) :=
  keeps_ite (keeps_ite (keeps_cqWrite h) h) (keeps_qpError (keeps_ite (keeps_cqWrite h) h))

/-! ### Sending (R296, R297) -/

theorem keeps_sendPackets {n : Nat} {x : SendFl} {from_ : BitVec 24} (h : Keeps s₀ s) : Keeps s₀ (sendPackets s n x from_) := by
  unfold sendPackets
  extract_lets
  refine keeps_ite (keeps_qpSend h) ?_
  split
  · exact h
  · exact keeps_foldl h fun _ _ hs => keeps_qpSend hs

theorem keeps_sqStep {n : Nat} (h : Keeps s₀ s) : Keeps s₀ (sqStep s n).1 := by
  unfold sqStep
  extract_lets _ _ _ _ s1
  have h1 : Keeps s₀ s1 := keeps_modQp h
  refine keeps_ite_fst h ?_
  split
  · exact keeps_ite_fst h (keeps_sendDone (keeps_modQp h))
  · exact keeps_ite_fst h (keeps_sendPackets h1)

theorem keeps_runSq {n f : Nat} (h : Keeps s₀ s) : Keeps s₀ (runSq s n f) := by
  induction f generalizing s with
  | zero => exact h
  | succ f ih => exact keeps_ite (ih (keeps_sqStep h)) (keeps_sqStep h)

theorem keeps_goSq {n : Nat} (h : Keeps s₀ s) : Keeps s₀ (goSq s n) := keeps_runSq h

theorem keeps_restartTimer {n : Nat} (h : Keeps s₀ s) : Keeps s₀ (restartTimer s n) := keeps_modQp h

theorem keeps_ackTo {n f : Nat} {psn : BitVec 24} (h : Keeps s₀ s) : Keeps s₀ (ackTo s n psn f) := by
  induction f generalizing s with
  | zero => exact h
  | succ f ih =>
    unfold ackTo
    dsimp only
    split
    · exact h
    · exact keeps_ite (ih (keeps_sendDone (keeps_modQp h))) (keeps_ite (keeps_modQp h) h)

theorem keeps_failOldest {n status : Nat} (h : Keeps s₀ s) : Keeps s₀ (failOldest s n status) := by
  unfold failOldest
  split
  · exact h
  · exact keeps_sendDone (keeps_modQp h)

theorem keeps_ackRx {n : Nat} {psn : BitVec 24} {syn : Nat} (h : Keeps s₀ s) : Keeps s₀ (ackRx s n psn syn) := by
  unfold ackRx
  extract_lets _ s1 s2
  have h1 : Keeps s₀ s1 := keeps_restartTimer h
  have h2 : Keeps s₀ s2 := keeps_ackTo h1
  exact keeps_ite (keeps_goSq (keeps_ackTo h1)) (keeps_ite (keeps_ite h2 (keeps_ite (keeps_failOldest h2) (keeps_modQp h2)))
    (keeps_ite (keeps_failOldest h2) (keeps_goSq h2)))

theorem keeps_readRx {n : Nat} {psn : BitVec 24} {data : List Byte} (h : Keeps s₀ s) : Keeps s₀ (readRx s n psn data) := by
  unfold readRx
  extract_lets
  split
  · exact h
  · extract_lets s1 _ _ _ s2 s3
    have h1 : Keeps s₀ s1 := keeps_ackTo h
    have h2 : Keeps s₀ s2 := keeps_wrVa h1
    have h3 : Keeps s₀ s3 := keeps_modQp h2
    split
    · exact h1
    · exact keeps_ite h1 (keeps_ite (keeps_failOldest h1) (keeps_ite (keeps_failOldest h1)
        (keeps_ite (keeps_goSq (keeps_sendDone (keeps_modQp h3))) h3)))

theorem keepsNext_execAckTimeout {qp : BitVec 16} (h : Keeps s₀ s) : KeepsNext s₀ (execAckTimeout qp s) :=
  keepsNext_inRun h (keeps_ite h (keeps_ite (keeps_foldl (keeps_restartTimer (keeps_modQp h)) fun _ _ hs => keeps_sendPackets
    hs) (keeps_ite (keeps_failOldest h) (keeps_foldl (keeps_restartTimer (keeps_modQp h)) fun _ _ hs => keeps_sendPackets hs))))

/-! ### Receiving (R297, R298) -/

theorem keeps_sendAck {n : Nat} {psn : BitVec 24} {syn : Nat} (h : Keeps s₀ s) : Keeps s₀ (sendAck s n psn syn) :=
  keeps_qpSend h

theorem keeps_recvDone {n status : Nat} {imm : Option Nat} {bytes : Nat} (h : Keeps s₀ s) :
    Keeps s₀ (recvDone s n status imm bytes) :=
  keeps_ite (keeps_cqWrite (keeps_modQp h)) (keeps_qpError (keeps_cqWrite (keeps_modQp h)))

theorem keeps_took {n : Nat} {psn : BitVec 24} {last : Bool} (h : Keeps s₀ s) : Keeps s₀ (took s n psn last) :=
  keeps_ite (keeps_sendAck (keeps_modQp h)) (keeps_modQp h)

theorem keeps_sendRx {n op : Nat} {psn : BitVec 24} {b : List Byte} (h : Keeps s₀ s) : Keeps s₀ (sendRx s n op psn b) := by
  unfold sendRx
  extract_lets _ _ _ _ _ _ _ s1 s2 s3
  have h1 : Keeps s₀ s1 := keeps_wrVa h
  have h2 : Keeps s₀ s2 := keeps_modQp h1
  have h3 : Keeps s₀ s3 := keeps_took h2
  exact keeps_ite (keeps_sendAck h) (keeps_ite (keeps_recvDone h)
    (keeps_ite (keeps_recvDone h) (keeps_ite (keeps_recvDone h) (keeps_ite (keeps_recvDone h)
    (keeps_ite (keeps_recvDone h3) h3)))))

theorem keeps_writeRx {n op : Nat} {psn : BitVec 24} {b : List Byte} (h : Keeps s₀ s) : Keeps s₀ (writeRx s n op psn b) :=
  keeps_ite (keeps_sendAck h) (keeps_ite (keeps_sendAck h) (keeps_ite
    (keeps_recvDone (keeps_took (keeps_modQp (keeps_wrVa h)))) (keeps_took (keeps_modQp (keeps_wrVa h)))))

theorem keeps_readReq {n : Nat} {psn : BitVec 24} {b : List Byte} {fresh : Bool} (h : Keeps s₀ s) :
    Keeps s₀ (readReq s n psn b fresh) := by
  unfold readReq
  extract_lets _ _ _ _ _ s1
  have h1 : Keeps s₀ s1 := keeps_ite (keeps_modQp h) h
  split
  · exact keeps_sendAck h
  · exact keeps_foldl h1 fun _ _ hs => keeps_qpSend hs

theorem keeps_cnpRx {n : Nat} (h : Keeps s₀ s) : Keeps s₀ (cnpRx s n) := keeps_ite (keeps_modQp (keeps_modQp h)) (keeps_modQp h)

theorem keeps_rocePacketRx {n : Nat} {b : List Byte} (h : Keeps s₀ s) : Keeps s₀ (rocePacketRx s n b) := by
  unfold rocePacketRx
  extract_lets
  refine keeps_ite h ?_
  refine keeps_ite (keeps_cnpRx h) ?_
  exact keeps_ite (keeps_ackRx h) (keeps_ite (keeps_readRx h) (keeps_ite h
    (keeps_ite (keeps_ite (keeps_sendRx h) (keeps_ite (keeps_writeRx h) (keeps_readReq h)))
    (keeps_ite (keeps_sendAck h) (keeps_ite (keeps_readReq h) (keeps_sendAck h))))))

theorem keepsNext_execRateIncrease {qp : BitVec 16} (h : Keeps s₀ s) : KeepsNext s₀ (execRateIncrease qp s) :=
  keepsNext_inRun h (keeps_ite h (keeps_modQp h))

/-! ### Doorbells (R297, R301) -/

theorem keeps_dbBad {p : Nat} (h : Keeps s₀ s) : Keeps s₀ (dbBad s p) := keeps_modPart h

theorem keepsNext_execNetSqDb {p : Fin 64} {v : Word} (h : Keeps s₀ s) : KeepsNext s₀ (execNetSqDb p v s) := by
  unfold execNetSqDb
  refine keepsNext_inRun h ?_
  extract_lets
  refine keeps_ite h ?_
  split
  · exact keeps_dbBad h
  · exact keeps_ite (keeps_dbBad h) (keeps_ite (keeps_qpFlush (keeps_modQp h)) (keeps_goSq (keeps_modQp h)))

theorem keepsNext_execNetRqDb {p : Fin 64} {v : Word} (h : Keeps s₀ s) : KeepsNext s₀ (execNetRqDb p v s) := by
  unfold execNetRqDb
  refine keepsNext_inRun h ?_
  extract_lets
  refine keeps_ite h ?_
  split
  · exact keeps_dbBad h
  · exact keeps_ite (keeps_dbBad h) (keeps_ite (keeps_qpFlush (keeps_modQp h)) (keeps_modQp h))

theorem keepsNext_execNetCqDb {p : Fin 64} {v : Word} (h : Keeps s₀ s) : KeepsNext s₀ (execNetCqDb p v s) := by
  unfold execNetCqDb
  refine keepsNext_inRun h ?_
  extract_lets
  refine keeps_ite h ?_
  split
  · exact keeps_dbBad h
  · exact keeps_ite (keeps_dbBad h) (keeps_ite (keeps_qpFlush (keeps_modQp h)) (keeps_goSq (keeps_modQp h)))

/-! ### Commands (R295, R298) -/

theorem keepsNext_execNetQpCreate {r : RingId} {k : Pkt} (h : Keeps s₀ s) : KeepsNext s₀ (execNetQpCreate r k s) :=
  keepsNext_inRun h (keeps_fwRun h fun _ hs _ => keepsFw_done (keeps_modQp hs))

theorem keeps_dropQp {n : Nat} (h : Keeps s₀ s) : Keeps s₀ (dropQp s n) := keeps_modQp (keeps_qpFlush h)

theorem keepsNext_execNetQpDestroy {r : RingId} {k : Pkt} (h : Keeps s₀ s) : KeepsNext s₀ (execNetQpDestroy r k s) :=
  keepsNext_inRun h (keeps_fwRun h fun _ hs _ => keepsFw_ite (keepsFw_wait (keeps_settleNet (keeps_dropQp hs)))
    (keepsFw_done (keeps_settleNet (keeps_dropQp hs))))

theorem keepsNext_execNetMrReg {r : RingId} {k : Pkt} (h : Keeps s₀ s) : KeepsNext s₀ (execNetMrReg r k s) :=
  keepsNext_inRun h (keeps_fwRun h fun _ hs _ => keepsFw_done (keeps_update (keeps_takeFree hs) rfl))

theorem keepsNext_execNetMrDereg {r : RingId} {k : Pkt} (h : Keeps s₀ s) : KeepsNext s₀ (execNetMrDereg r k s) :=
  keepsNext_inRun h (keeps_fwRun h fun _ hs _ => keepsFw_ite (keepsFw_wait (keeps_update hs rfl))
    (keepsFw_done (keeps_update hs rfl)))

end Sys2Proof.Machine
end

section
/-! PROOFS. What keeps the invariant, 7. Link messages, memory errors, the cache and the contexts of the CSP. -/

namespace Sys2Proof.Machine

open Sys2Proof

variable {s₀ s : State}

/-! ### Messages of a chip link -/

theorem keeps_putFlit {l : Nat} {m : Msg} (h : Keeps s₀ s) : Keeps s₀ (putFlit s l m) := keeps_emit (keeps_modLink h)

theorem keeps_pumpMsgs {l : Nat} {ms : List Msg} {held : List Nat} (h : Keeps s₀ s) : Keeps s₀ (pumpMsgs l ms held s) := by
  induction ms generalizing held s with
  | nil => exact h
  | cons m ms ih => exact keeps_ite (ih (keeps_modLink h)) (ih (keeps_putFlit h))

theorem keeps_pumpLink {l : Nat} (h : Keeps s₀ s) : Keeps s₀ (pumpLink s l) := keeps_pumpMsgs (keeps_modLink h)

theorem keeps_sendOn {path : Nat} {m : Msg} (h : Keeps s₀ s) : Keeps s₀ (sendOn s path m) :=
  keeps_ite (keeps_emit h) (keeps_ite h (keeps_pumpLink (keeps_modLink h)))

theorem keeps_freeRx {link vc bytes : Nat} (h : Keeps s₀ s) : Keeps s₀ (freeRx s link vc bytes) :=
  keeps_ite h (keeps_emit (keeps_modLink h))

theorem keeps_replayFrom {l n : Nat} (h : Keeps s₀ s) : Keeps s₀ (replayFrom s l n) :=
  keeps_ite h (keeps_foldl (keeps_update (keeps_modLink h) rfl) fun _ _ hs => keeps_emit hs)

/-! ### Disturbances and signatures -/

theorem keeps_disturb {p bitNo : Nat} (h : Keeps s₀ s) : Keeps s₀ (disturb s p bitNo) := by
  unfold disturb
  extract_lets
  split
  · exact h
  · exact keeps_ite h (keeps_ite (keeps_evPart (keeps_modPart h)) (keeps_modPart h))

theorem keeps_disturbLink {link bitNo : Nat} (h : Keeps s₀ s) : Keeps s₀ (disturbLink s link bitNo) := by
  unfold disturbLink
  refine keeps_foldl h fun s x hs => ?_
  split
  · exact keeps_ite (keeps_disturb hs) hs
  · exact hs

theorem keeps_sigAdd {p c : Nat} {w : Machine.Writer} {space addr : Nat} {data : GranuleBits} {psn : Bool} (h : Keeps s₀ s) :
    Keeps s₀ (sigAdd s p c w space addr data psn) :=
  keeps_ite h (keeps_modPart (keeps_runWrote h))

/-! ### Memory errors -/

theorem keeps_disturbPc {pc : Nat} (h : Keeps s₀ s) : Keeps s₀ (disturbPc s pc) :=
  keeps_foldl h fun _ _ hs => keeps_ite (keeps_disturb hs) hs

theorem keeps_retirePage {page : Nat} (h : Keeps s₀ s) : Keeps s₀ (retirePage s page) :=
  keeps_ite h (keeps_evPool (keeps_update h rfl))

theorem keeps_hbmUe {addr : Nat} (h : Keeps s₀ s) : Keeps s₀ (hbmUe s addr) := by
  unfold hbmUe
  extract_lets _ _ s1
  have h1 : Keeps s₀ s1 := keeps_disturbPc (keeps_hbm h (pmemWf_setGranPsn _ _))
  split
  · exact keeps_retirePage h1
  · exact keeps_evPool (keeps_evPart (keeps_update h1 rfl))

theorem keeps_hbmCe {addr : Nat} (h : Keeps s₀ s) : Keeps s₀ (hbmCe s addr) :=
  keeps_ite (keeps_evPool (keeps_update (keeps_update (keeps_disturbPc h) rfl) rfl))
    (keeps_update (keeps_update (keeps_disturbPc h) rfl) rfl)

theorem keeps_sramUe {c off : Nat} (h : Keeps s₀ s) : Keeps s₀ (sramUe s c off) := by
  unfold sramUe
  extract_lets s1
  have h1 : Keeps s₀ s1 := keeps_modClu_sram h fun _ => pmemWf_setGranPsn _ _
  split
  · exact keeps_evPart h1
  · exact h1

theorem keeps_wbUe {c a off : Nat} (h : Keeps s₀ s) : Keeps s₀ (wbUe s c a off) := by
  unfold wbUe
  extract_lets _ s1
  have h1 : Keeps s₀ s1 := keeps_modPa h
  split
  · exact keeps_evPart h1
  · exact h1

/-! ### The cache (R274-R276) -/

theorem keeps_cacheKeep {x : CacheLine} (h : Keeps s₀ s) : Keeps s₀ (cacheKeep s x) := by
  have hcache (c : List CacheLine) : Keeps s₀ { s with fab := { s.fab with cache := c } } := keeps_update h rfl
  exact keeps_ite h (hcache _)

theorem keeps_cacheDrop {p : Nat} {pick : Nat → Bool} (h : Keeps s₀ s) : Keeps s₀ (cacheDrop s p pick) := keeps_update h rfl

/-! ### Issue (R273) -/

theorem keeps_linkTraffic {p link : Nat} (h : Keeps s₀ s) : Keeps s₀ (linkTraffic s p link) := by
  unfold linkTraffic
  refine keeps_foldl h fun s x hs => ?_
  refine keeps_ite hs ?_
  split
  · exact keeps_ite (keeps_disturb hs) hs
  · exact hs

theorem keeps_useLink {p link : Nat} (h : Keeps s₀ s) : Keeps s₀ (useLink s p link) := keeps_linkTraffic (keeps_modPart h)

theorem keeps_issueFab {o : FabOut} (h : Keeps s₀ s) : Keeps s₀ (issueFab s o) := by
  unfold issueFab
  extract_lets _ _ _ _ _ _ _ _ s1 s2 s3
  have h1 : Keeps s₀ s1 := keeps_update h rfl
  have h2 : Keeps s₀ s2 := keeps_ite h1 (keeps_cacheDrop h1)
  have h3 : Keeps s₀ s3 := keeps_ite (keeps_cacheDrop h2) h2
  exact keeps_ite h3 (keeps_useLink (keeps_emit h3))

theorem keeps_sigStore {p c : Nat} {w : Machine.Writer} {ga : Nat} {bs : List Byte} {psn : Bool} (h : Keeps s₀ s) :
    Keeps s₀ (sigStore s p c w ga bs psn) :=
  keeps_foldl h fun _ _ hs => keeps_sigAdd hs

/-! ### Contexts -/

theorem keeps_runCsp {c n : Nat} (h : Keeps s₀ s) : Keeps s₀ (runCsp s c n) := keeps_modClu h fun _ => rfl

theorem keeps_turnCsp {c n : Nat} (h : Keeps s₀ s) : Keeps s₀ (turnCsp s c n) := keeps_runCsp (keeps_modClu h fun _ => rfl)

theorem keeps_pickCsp {c : Nat} (h : Keeps s₀ s) : Keeps s₀ (pickCsp s c) := by
  unfold pickCsp
  extract_lets
  refine keeps_ite h ?_
  refine keeps_ite (keeps_runCsp h) ?_
  refine keeps_ite (keeps_runCsp h) ?_
  split
  · exact keeps_turnCsp h
  · exact h

theorem keeps_openFences {c x : Nat} (h : Keeps s₀ s) : Keeps s₀ (openFences s c x) := keeps_modClu h fun _ => rfl

theorem keeps_cspEvent {o : CspCtx} {code : Nat} {items : List (Nat × Nat)} (h : Keeps s₀ s) :
    Keeps s₀ (cspEvent s o code items) :=
  keeps_ite (keeps_evPart h) h

theorem keeps_stopCsp {c x : Nat} (h : Keeps s₀ s) : Keeps s₀ (stopCsp s c x) :=
  keeps_pickCsp (keeps_ite (keeps_modCsp (keeps_openFences h)) (keeps_cspEvent (keeps_modCsp (keeps_openFences h))))

theorem keeps_ownCsp {c x : Nat} {w : Nat × Bool} (h : Keeps s₀ s) : Keeps s₀ (ownCsp s c x w) := keeps_modCsp h

theorem keeps_startCsp {c x longest : Nat} {im : List Word} (h : Keeps s₀ s) : Keeps s₀ (startCsp s c x longest im) :=
  keeps_modCsp (keeps_modPart h)

theorem keeps_cspRelease {c : Nat} (h : Keeps s₀ s) : Keeps s₀ (cspRelease s c) :=
  keeps_pickCsp (keeps_modClu (keeps_foldl h fun _ _ hs => keeps_modCsp hs) fun _ => rfl)

theorem keeps_settleCsp {c x : Nat} (h : Keeps s₀ s) : Keeps s₀ (settleCsp c s x) := by
  unfold settleCsp
  extract_lets s1
  have h1 : Keeps s₀ s1 := keeps_ite (keeps_stopCsp h) h
  refine keeps_ite h ?_
  split
  · exact keeps_ownCsp h1
  · exact h1

theorem keeps_settleLoad {c x : Nat} (h : Keeps s₀ s) : Keeps s₀ (settleLoad c s x) := by
  unfold settleLoad
  split
  · exact h
  · exact keeps_ite h (keeps_completeWait (keeps_startCsp h))

theorem keeps_cspPendings {c : Nat} (h : Keeps s₀ s) : Keeps s₀ (cspPendings s c) :=
  keeps_ite h (keeps_foldl (keeps_ite (keeps_cspRelease (keeps_foldl h fun _ _ hs => keeps_settleCsp hs))
    (keeps_foldl h fun _ _ hs => keeps_settleCsp hs)) fun _ _ hs => keeps_settleLoad hs)

theorem keeps_faultCsp {c x cause : Nat} (h : Keeps s₀ s) : Keeps s₀ (faultCsp s c x cause) :=
  keeps_pickCsp (keeps_cspPendings (keeps_cspEvent (keeps_modCsp (keeps_openFences h))))

theorem keeps_cspBoundary {c : Nat} (h : Keeps s₀ s) : Keeps s₀ (cspBoundary s c) :=
  keeps_cspPendings (keeps_modClu h fun _ => rfl)

theorem keeps_askStop {c x : Nat} (h : Keeps s₀ s) : Keeps s₀ (askStop s c x) := keeps_cspPendings (keeps_modCsp h)

theorem keeps_cspWake {c : Nat} (h : Keeps s₀ s) : Keeps s₀ (cspWake s c) :=
  keeps_pickCsp (keeps_ite (keeps_modClu (keeps_foldl h fun _ _ hs => keeps_ite (keeps_modCsp hs) hs) fun _ => rfl)
    (keeps_foldl h fun _ _ hs => keeps_ite (keeps_modCsp hs) hs))

theorem keeps_cspStore {c p x a : Nat} {d : GranuleBits} {psn : Bool} (h : Keeps s₀ s) : Keeps s₀ (cspStore s c p x a d psn) :=
  keeps_sigAdd (keeps_modClu_sram h fun _ => pmemWf_putGran _ _ _)

theorem keeps_makeStores {c x : Nat} (h : Keeps s₀ s) : Keeps s₀ (makeStores s c x) :=
  keeps_ite (keeps_noteFlag (keeps_modCsp (keeps_foldl h fun _ _ hs => keeps_cspStore hs)))
    (keeps_modCsp (keeps_foldl h fun _ _ hs => keeps_cspStore hs))

theorem keeps_endBundle {c x : Nat} (h : Keeps s₀ s) : Keeps s₀ (endBundle s c x) :=
  keeps_ite (keeps_pickCsp h) (keeps_pickCsp (keeps_cspPendings (keeps_modCsp (keeps_makeStores h))))

theorem keeps_waitRep {c x : Nat} (h : Keeps s₀ s) : Keeps s₀ (waitRep s c x) := keeps_pickCsp (keeps_modCsp h)

/-- A slot of a bundle keeps the invariant where what it does to the running bundle keeps it. -/
theorem keepsNext_cspSlot {k : Slot} {f : State → State} (h : Keeps s₀ s) (hf : ∀ s, Keeps s₀ s → Keeps s₀ (f s)) :
    KeepsNext s₀ (cspSlot k s f) :=
  keepsNext_inRun h (keeps_ite h (keeps_ite (keeps_waitRep h) (keeps_ite (keeps_endBundle (hf _ (keeps_modCsp h)))
    (hf _ (keeps_modCsp h)))))

/-! ### Registers -/

theorem keeps_modRegs {k : Slot} {f : CspRegs → CspRegs} (h : Keeps s₀ s) : Keeps s₀ (modRegs s k f) := keeps_modCsp h

theorem keeps_wrD {k : Slot} {i : Nat} {v : GranuleBits} {psn : Bool} (h : Keeps s₀ s) : Keeps s₀ (wrD s k i v psn) :=
  keeps_modRegs h

theorem keeps_wrAcc {k : Slot} {i : Nat} {v : BitVec 1280} {psn : Bool} (h : Keeps s₀ s) : Keeps s₀ (wrAcc s k i v psn) :=
  keeps_modRegs h

theorem keeps_setSat {k : Slot} {b : Bool} (h : Keeps s₀ s) : Keeps s₀ (setSat s k b) :=
  keeps_ite (keeps_noteFlag (keeps_modCsp h)) h

theorem keepsNext_vec2 {k : Slot} {d u v : Fin 32} {f : GranuleBits → GranuleBits → GranuleBits} (h : Keeps s₀ s) :
    KeepsNext s₀ (vec2 k d u v f s) :=
  keepsNext_cspSlot h fun _ hs => keeps_wrD hs

theorem keepsNext_vec1 {k : Slot} {d u : Fin 32} {f : GranuleBits → GranuleBits} (h : Keeps s₀ s) : KeepsNext s₀ (vec1 k d u f s) :=
  keepsNext_cspSlot h fun _ hs => keeps_wrD hs

theorem keepsNext_scalar {k : Slot} {f : CspRegs → CspRegs → CspRegs} (h : Keeps s₀ s) : KeepsNext s₀ (scalar k f s) :=
  keepsNext_cspSlot h fun _ hs => keeps_modRegs hs

/-! ### Addresses (R151, R152) -/

/-- A load or store keeps the invariant where its access does. -/
theorem keepsNext_cspAccess {k : Slot} {p m : Fin 16} {circ : Bool} {n : Nat} {f : State → Nat → State} (h : Keeps s₀ s)
    (hf : ∀ s a, Keeps s₀ s → Keeps s₀ (f s a)) : KeepsNext s₀ (cspAccess k p m circ n f s) :=
  keepsNext_cspSlot h fun _ hs => keeps_ite (keeps_faultCsp hs) (keeps_modRegs (hf _ _ hs))

theorem keeps_cspEcc {c a : Nat} {x : Ecc} (h : Keeps s₀ s) : Keeps s₀ (cspEcc s c a x) := by
  unfold cspEcc
  split
  · exact h
  · exact h
  · exact keeps_sramUe h

end Sys2Proof.Machine
end

section
/-! PROOFS. What keeps the invariant, 8. Page tables, the cardamom engines and what they write. -/

namespace Sys2Proof.Machine

open Sys2Proof

variable {s₀ s : State}

/-! ### Page tables and HBM -/

theorem keeps_setTable {g v : Nat} (h : Keeps s₀ s) : Keeps s₀ (setTable s g v) := keeps_hbm h (pmemWf_clearPMem _ _)

theorem keeps_addTablePages {p : Nat} (h : Keeps s₀ s) : Keeps s₀ (addTablePages s p) := by
  unfold addTablePages
  split
  · exact h
  · split
    · exact h
    · exact keeps_modPart (keeps_setTable (keeps_setTable h))

theorem keeps_growTables {p : Nat} {keys : List Nat} (h : Keeps s₀ s) : Keeps s₀ (growTables s p keys) :=
  keeps_foldl (keeps_modPart h) fun _ _ hs => keeps_addTablePages hs

theorem keeps_replaceTable {p old new : Nat} (h : Keeps s₀ s) : Keeps s₀ (replaceTable s p old new) :=
  keeps_modPart (keeps_setTable (keeps_setTable h))

theorem keeps_repairTable {p bad good : Nat} (h : Keeps s₀ s) : Keeps s₀ (repairTable s p bad good) := by
  unfold repairTable
  split
  · exact h
  · exact keeps_retirePage (keeps_replaceTable h)

theorem keeps_walkVa {p va : Nat} (h : Keeps s₀ s) : Keeps s₀ (walkVa s p va) := by
  unfold walkVa
  refine keeps_foldl h fun s x hs => ?_
  extract_lets
  split
  · exact keeps_ite (keeps_repairTable hs) hs
  · exact hs

theorem keeps_walkAll {p : Nat} {vas : List Nat} (h : Keeps s₀ s) : Keeps s₀ (walkAll s p vas) :=
  keeps_foldl h fun _ _ hs => keeps_walkVa hs

theorem keeps_tableEcc {ecc : List (Nat × Ecc)} (h : Keeps s₀ s) : Keeps s₀ (tableEcc s ecc) := by
  refine keeps_foldl h fun s x hs => keeps_ite ?_ hs
  split
  · exact hs
  · exact keeps_hbmCe hs
  · exact keeps_hbm hs (pmemWf_setGranPsn _ _)

theorem keeps_dropTables {p : Nat} (h : Keeps s₀ s) : Keeps s₀ (dropTables s p) := keeps_foldl h fun _ _ hs => keeps_setTable hs

/-! ### Reading the bytes of a tensor's space -/

theorem keeps_eccAt {p : Nat} {t : List Word} {g : Nat} {a : Ecc} (h : Keeps s₀ s) : Keeps s₀ (eccAt s p t g a) := by
  unfold eccAt
  extract_lets
  split
  · exact h
  · exact keeps_ite (keeps_hbmCe h) h
  · exact keeps_ite (keeps_sramUe h) (keeps_ite (keeps_wbUe h) (keeps_ite (keeps_hbmUe h) h))

/-! ### Engines -/

theorem keeps_emptyQ {c q : Nat} (h : Keeps s₀ s) : Keeps s₀ (emptyQ s c q) := keeps_modEq h

theorem keeps_flushQs {c : Nat} {qs : List Nat} (h : Keeps s₀ s) : Keeps s₀ (flushQs s c qs) :=
  keeps_foldl h fun _ _ hs => keeps_emptyQ hs

theorem keeps_haltEngine {c e : Nat} (h : Keeps s₀ s) : Keeps s₀ (haltEngine s c e) := keeps_modEng h

theorem keeps_dropEngine {c e : Nat} (h : Keeps s₀ s) : Keeps s₀ (dropEngine s c e) := keeps_flushQs (keeps_haltEngine h)

theorem keeps_stopTaker {c e : Nat} (h : Keeps s₀ s) : Keeps s₀ (stopTaker s c e) := keeps_flushQs (keeps_haltEngine h)

theorem keeps_settleEngine {c e : Nat} (h : Keeps s₀ s) : Keeps s₀ (settleEngine s c e) := keeps_ite (keeps_stopTaker h) h

theorem keeps_engScalar {c e op : Nat} {f : Engine → Word → Engine} (h : Keeps s₀ s) : Keeps s₀ (engScalar s c e op f) :=
  keeps_ite (keeps_settleEngine (keeps_modEng h)) h

theorem keeps_loadLines {c p : Nat} {t : List Word} {rs : List (List Piece)} (h : Keeps s₀ s) :
    Keeps s₀ (loadLines s c p t rs) :=
  keeps_foldl h fun _ _ hs => keeps_issueFab hs

/-! ### The issue port (R129) -/

/-- The state in which an instruction holds its engine's port keeps the invariant. -/
theorem keeps_portAt {c e op : Nat} {P : EngPort} {t : State} (h : Keeps s₀ s) (ht : portAt s c e op = some (P, t)) : Keeps s₀ t := by
  unfold portAt at ht
  split at ht
  · split at ht
    · obtain ⟨rfl, rfl⟩ := Prod.mk.inj (Option.some.inj ht)
      exact h
    · exact absurd ht nofun
  · split at ht
    · obtain ⟨_, -, heq⟩ := Option.map_eq_some_iff.1 ht
      obtain ⟨rfl, rfl⟩ := Prod.mk.inj heq
      exact keeps_modEng h
    · exact absurd ht nofun

theorem keeps_modEngPort {c e : Nat} {f : EngPort → EngPort} (h : Keeps s₀ s) : Keeps s₀ (modEngPort s c e f) := keeps_modEng h

theorem keeps_freePort {c e : Nat} (h : Keeps s₀ s) : Keeps s₀ (freePort s c e) := keeps_settleEngine (keeps_modEng h)

theorem keeps_issueEntry {c e : Nat} {P : EngPort} {t : List Word} {rs : List (List Piece)} {ecc : List (Nat × Ecc)}
    (h : Keeps s₀ s) : Keeps s₀ (issueEntry s c e P t rs ecc) :=
  keeps_modEngPort (keeps_modEng (keeps_loadLines (keeps_foldl (keeps_ite (keeps_walkAll (keeps_tableEcc h)) h) fun _ _ hs =>
    keeps_ite (keeps_eccAt hs) hs)))

theorem keeps_issueAll {c e : Nat} {P : EngPort} {t : List Word} {ecc : List (Nat × Ecc)} {l : List (List (List Piece))}
    (h : Keeps s₀ s) : Keeps s₀ (issueAll s c e P t ecc l) := by
  induction l generalizing s P with
  | nil => exact keeps_freePort h
  | cons r l ih => exact keeps_ite h (ih (keeps_issueEntry h))

theorem keeps_engRead {c e op : Nat} {ecc : List (Nat × Ecc)} {runs : List Word → EngPort → List (List (List Piece))}
    (h : Keeps s₀ s) : Keeps s₀ (engRead s c e op ecc runs) := by
  unfold engRead
  split
  · exact h
  · exact keeps_issueAll (keeps_portAt h ‹_›)

/-! ### Writing -/

theorem keeps_fabGranule {c p : Nat} {wr : Machine.Writer} {ga : Nat} {c' : Bool} {g : GranWr} (h : Keeps s₀ s) :
    Keeps s₀ (fabGranule s c p wr ga c' g) :=
  keeps_ite (keeps_sigStore (keeps_issueFab h)) (keeps_foldl h fun _ _ hs => keeps_ite hs
    (keeps_sigStore (keeps_issueFab (keeps_ite hs (keeps_update hs rfl)))))

theorem keeps_noteStore {p c st : Nat} (h : Keeps s₀ s) : Keeps s₀ (noteStore s p c st) := keeps_ite h (keeps_modPart h)

theorem keeps_writeGranule {c p g : Nat} {wr : Writer} {t : List Word} {w all : GranWr} (h : Keeps s₀ s) :
    Keeps s₀ (writeGranule s c p wr t g w all) := by
  refine keeps_ite ?_ (keeps_ite ?_ (keeps_ite ?_ (keeps_ite ?_ ?_)))
  · exact keeps_sigAdd (keeps_modClu_sram h fun _ => pmemWf_putGran _ _ _)
  · exact keeps_sigAdd (keeps_modPa h)
  · exact keeps_sigAdd (keeps_hbm h (pmemWf_putGran _ _ _))
  · exact keeps_sigAdd (keeps_ite (keeps_foldl h fun _ _ hs => keeps_hostWriteFor hs) (keeps_noteStore h))
  · exact keeps_ite h (keeps_fabGranule h)

theorem keeps_writeItems {c p : Nat} {wr : Machine.Writer} {q : Nat} {t : List Word} {gs : Tab GranWr} {all : Nat → GranWr}
    {told : Bool} {oob : Nat} (h : Keeps s₀ s) : Keeps s₀ (writeItems s c p wr q t gs all told oob) :=
  keeps_ite (keeps_evPart (keeps_modPart (keeps_foldl (keeps_ite (keeps_walkAll h) h) fun _ _ hs => keeps_ite hs
    (keeps_writeGranule hs)))) (keeps_modPart (keeps_foldl (keeps_ite (keeps_walkAll h) h) fun _ _ hs => keeps_ite hs
    (keeps_writeGranule hs)))

theorem keeps_endWrite {c e : Nat} {t : List Word} (h : Keeps s₀ s) : Keeps s₀ (endWrite s c e t) := by
  unfold endWrite
  extract_lets
  split
  · exact h
  · exact keeps_freePort (keeps_foldl h fun _ _ hs => keeps_ite (keeps_writeGranule hs) hs)

theorem keeps_popEntries {c e n : Nat} {t : List Word} (h : Keeps s₀ s) : Keeps s₀ (popEntries c e t n s) := by
  induction n generalizing s with
  | zero => exact h
  | succ n ih =>
    unfold popEntries
    dsimp only
    split
    · exact h
    · refine keeps_ite h (keeps_ite h ?_)
      split
      · exact h
      · exact keeps_ite (keeps_endWrite (keeps_cspWake (keeps_modEng (keeps_writeItems (keeps_modEq h)))))
          (ih (keeps_cspWake (keeps_modEng (keeps_writeItems (keeps_modEq h)))))

theorem keeps_engPop {c e op : Nat} {post : List Word → EngPort → Option Nat} (h : Keeps s₀ s) : Keeps s₀ (engPop s c e op post) := by
  unfold engPop
  split
  · exact h
  · rename_i P s1 hp
    have h1 : Keeps s₀ s1 := keeps_portAt h hp
    exact keeps_ite h1 (keeps_popEntries (keeps_ite (keeps_modEngPort (keeps_modEq h1)) h1))

/-! ### Where a program would still write -/

theorem keeps_poisonGranule {p g : Nat} {t : List Word} (h : Keeps s₀ s) : Keeps s₀ (poisonGranule s p t g) := by
  refine keeps_ite ?_ (keeps_ite (keeps_modPa h) (keeps_ite ?_ h))
  · exact keeps_modClu_sram h fun _ => pmemWf_setGranPsn _ _
  · exact keeps_hbm h (pmemWf_setGranPsn _ _)

theorem keeps_poisonRest {E : Engine} {P : EngPort} (h : Keeps s₀ s) : Keeps s₀ (poisonRest s E P) :=
  keeps_foldl h fun _ _ hs => keeps_poisonGranule hs

theorem keeps_poisonAhead {qs : List Nat} {n : Nat} {E : Engine} (h : Keeps s₀ s) : Keeps s₀ (poisonAhead qs n s E) := by
  induction n generalizing s E with
  | zero => exact h
  | succ n ih =>
    unfold poisonAhead
    extract_lets w wr s1
    have h1 : Keeps s₀ s1 := by
      refine keeps_ite ?_ h
      split
      · exact keeps_poisonRest h
      · exact h
    split
    · exact h1
    · exact ih h1

theorem keeps_poisonOutputs {c e : Nat} {qs : List Nat} (h : Keeps s₀ s) : Keeps s₀ (poisonOutputs s c e qs) := by
  unfold poisonOutputs
  extract_lets _ s1
  have h1 : Keeps s₀ s1 := by
    unfold s1
    split
    · exact keeps_ite (keeps_poisonRest h) h
    · exact h
  exact keeps_poisonAhead h1

theorem keeps_checkUnmap {p : Nat} (h : Keeps s₀ s) : Keeps s₀ (checkUnmap s p) := keeps_ite h (keeps_completeWait h)

end Sys2Proof.Machine
end

section
/-! PROOFS. What keeps the invariant, 9. Coding pools, FAB_OP entries, the router, the destination and responses. -/

namespace Sys2Proof.Machine

open Sys2Proof

variable {s₀ s : State}

/-! ### Pools (R195, R207, R208) -/

theorem keeps_capacityCheck {pool : Nat} (h : Keeps s₀ s) : Keeps s₀ (capacityCheck s pool) :=
  keeps_ite h (keeps_evPool (keeps_foldl h fun _ _ hs => keeps_evPart hs))

/-! ### Jobs (R197) -/

theorem keeps_jobOut {pool n status : Nat} {info : List Nat} (h : Keeps s₀ s) : Keeps s₀ (jobOut s pool n status info) :=
  keeps_emit h

theorem keeps_jobExpire {pool : Nat} {j : Job} (h : Keeps s₀ s) : Keeps s₀ (jobExpire s pool j) := keeps_jobOut (keeps_wrVaP h)

theorem keeps_noteSoft {p a len : Nat} (h : Keeps s₀ s) : Keeps s₀ (noteSoft s p a len) := keeps_ite h (keeps_update h rfl)

theorem keeps_jobStart {pool n : Nat} {j : Job} (h : Keeps s₀ s) : Keeps s₀ (jobStart s pool n j) := by
  unfold jobStart
  split
  · exact keeps_ite (keeps_modInst h) (keeps_modInst (keeps_noteSoft (keeps_wrVa h)))
  · exact keeps_modInst h

theorem keeps_jobFeed {pool f : Nat} (h : Keeps s₀ s) : Keeps s₀ (jobFeed s pool f) := by
  induction f generalizing s with
  | zero => exact h
  | succ f ih =>
    unfold jobFeed
    split
    · exact h
    · refine keeps_ite (ih (keeps_jobExpire (keeps_update h rfl))) ?_
      split
      · exact h
      · exact keeps_ite h (ih (keeps_jobStart (keeps_update h rfl)))

theorem keeps_feedPool {pool : Nat} (h : Keeps s₀ s) : Keeps s₀ (feedPool s pool) := keeps_jobFeed h

theorem keeps_jobPut {pool : Nat} {j : Job} (h : Keeps s₀ s) : Keeps s₀ (jobPut s pool j) := keeps_feedPool (keeps_update h rfl)

theorem keeps_jobTake {pool : Nat} {k : JobKind} {ok : Bool} {part gen dlClove dlCycle : Nat} (h : Keeps s₀ s) :
    Keeps s₀ (jobTake s pool k ok part gen dlClove dlCycle) :=
  keeps_ite (keeps_jobOut h) (keeps_jobPut h)

theorem keepsNext_execLdpcJob {w : List Word} (h : Keeps s₀ s) : KeepsNext s₀ (execLdpcJob w s) :=
  keepsNext_inRun h (keeps_jobTake h)

theorem keepsNext_execPolarJob {j : Polar} (h : Keeps s₀ s) : KeepsNext s₀ (execPolarJob j s) :=
  keepsNext_inRun h (keeps_jobTake h)

theorem keepsNext_execTrlJob {w : List Word} (h : Keeps s₀ s) : KeepsNext s₀ (execTrlJob w s) :=
  keepsNext_inRun h (keeps_jobTake h)

theorem keepsNext_execJobDeadline {pool : Fin 4} (h : Keeps s₀ s) : KeepsNext s₀ (execJobDeadline pool s) :=
  keepsNext_inRun h (keeps_foldl (keeps_update h rfl) fun _ _ hs => keeps_jobExpire hs)

theorem keepsNext_execCodingJobEnd {pool : Fin 4} {n : Fin 16} (h : Keeps s₀ s) : KeepsNext s₀ (execCodingJobEnd pool n s) := by
  unfold execCodingJobEnd
  refine keepsNext_inRun h ?_
  extract_lets
  split
  · exact h
  · exact keeps_jobFeed (keeps_jobOut (keeps_modInst (keeps_wrVa h)))

theorem keepsNext_execEngineFault {pool : Fin 4} {n : Fin 16} (h : Keeps s₀ s) : KeepsNext s₀ (execEngineFault pool n s) := by
  unfold execEngineFault
  refine keepsNext_inRun h ?_
  extract_lets j₁ s1 _ s2 _ s3
  have h1 : Keeps s₀ s1 := keeps_modInst h
  have h2 : Keeps s₀ s2 := keeps_evPool (keeps_foldl h1 fun _ _ hs => keeps_evPart hs)
  have h3 : Keeps s₀ s3 := by
    unfold s3
    clear_value j₁
    split
    · exact h2
    · exact keeps_update h2 rfl
  exact keeps_ite h (keeps_jobFeed (keeps_capacityCheck h3))

theorem keeps_dropJobs {p : Nat} (h : Keeps s₀ s) : Keeps s₀ (dropJobs s p) := keeps_update h rfl

/-! ### FAB_OP entries (R280) -/

theorem keeps_noteOp {p c : Nat} {sl : Option (Nat × Nat)} {st : Nat} (h : Keeps s₀ s) : Keeps s₀ (noteOp s p c sl st) := by
  unfold noteOp
  refine keeps_ite h ?_
  split
  · exact h
  · exact keeps_ite (keeps_modSlice h) (keeps_noteSlice h)

theorem keeps_foDone {p c : Nat} {sl : Option (Nat × Nat)} {st : Nat} (h : Keeps s₀ s) : Keeps s₀ (foDone s p c sl st) :=
  keeps_noteOp (keeps_emit (keeps_update (keeps_takeFree h) rfl))

theorem keeps_wrLocal {p c va : Nat} {bs : List Byte} {psn : Bool} (h : Keeps s₀ s) : Keeps s₀ (wrLocal s p c va bs psn) :=
  keeps_ite h (keeps_wrVaP (keeps_runWrote h))

theorem keeps_foSig {p c : Nat} {e : List Word} {ga : Nat} {d : List Byte × Bool} (h : Keeps s₀ s) :
    Keeps s₀ (foSig s p c e ga d) :=
  keeps_ite h (keeps_ite (keeps_sigAdd h) (keeps_sigStore h))

theorem keeps_issueLines {op ga n : Nat} {d : List Byte × Bool} {o : FabOut} (h : Keeps s₀ s) :
    Keeps s₀ (issueLines s op ga n d o) :=
  keeps_foldl h fun _ _ hs => keeps_issueFab hs

theorem keeps_issueLoads {ga n : Nat} {o : FabOut} (h : Keeps s₀ s) : Keeps s₀ (issueLoads s ga n o) :=
  keeps_foldl h fun _ _ hs => keeps_issueFab hs

theorem keeps_issueOpReqs {c p op ga : Nat} {sl : Option (Nat × Nat)} {e : List Word} (h : Keeps s₀ s) :
    Keeps s₀ (issueOpReqs s c p op ga sl e) :=
  keeps_ite (keeps_issueLoads (keeps_foSig (keeps_update h rfl)))
    (keeps_ite (keeps_issueFab (keeps_foSig (keeps_update h rfl))) (keeps_issueLines (keeps_foSig (keeps_update h rfl))))

theorem keeps_issueFo {c a : Nat} {x : Bool} {p op : Nat} {e : List Word} (h : Keeps s₀ s) :
    Keeps s₀ (issueFo s c a x p op e) := by
  unfold issueFo
  extract_lets s1 _ _ _ s2
  have h1 : Keeps s₀ s1 := keeps_walkAll h
  have h2 : Keeps s₀ s2 := keeps_foDone h1
  refine keeps_ite h ?_
  refine keeps_ite (keeps_ite (keeps_evPart (keeps_modPart h2)) h2) ?_
  split
  · exact keeps_foDone (keeps_wrLocal h1)
  · exact keeps_ite (keeps_issueOpReqs h1) h1

theorem keepsNext_execLoad {c : FabSource} {p : Fin 64} {e : List Word} (h : Keeps s₀ s) : KeepsNext s₀ (execLoad c p e s) :=
  keepsNext_inRun h (keeps_issueFo h)

theorem keepsNext_execStore {c : FabSource} {p : Fin 64} {e : List Word} (h : Keeps s₀ s) : KeepsNext s₀ (execStore c p e s) :=
  keepsNext_inRun h (keeps_issueFo h)

theorem keepsNext_execStoreWithOrderedFlag {c : FabSource} {p : Fin 64} {e : List Word} (h : Keeps s₀ s) :
    KeepsNext s₀ (execStoreWithOrderedFlag c p e s) :=
  keepsNext_inRun h (keeps_issueFo h)

theorem keepsNext_execAtomicAdd {c : FabSource} {p : Fin 64} {e : List Word} (h : Keeps s₀ s) :
    KeepsNext s₀ (execAtomicAdd c p e s) :=
  keepsNext_inRun h (keeps_issueFo h)

theorem keepsNext_execAtomicMin {c : FabSource} {p : Fin 64} {e : List Word} (h : Keeps s₀ s) :
    KeepsNext s₀ (execAtomicMin c p e s) :=
  keepsNext_inRun h (keeps_issueFo h)

theorem keepsNext_execAtomicMax {c : FabSource} {p : Fin 64} {e : List Word} (h : Keeps s₀ s) :
    KeepsNext s₀ (execAtomicMax c p e s) :=
  keepsNext_inRun h (keeps_issueFo h)

theorem keepsNext_execCompareAndSwap {c : FabSource} {p : Fin 64} {e : List Word} (h : Keeps s₀ s) :
    KeepsNext s₀ (execCompareAndSwap c p e s) :=
  keepsNext_inRun h (keeps_issueFo h)

theorem keeps_invalRange {p va n : Nat} (h : Keeps s₀ s) : Keeps s₀ (invalRange s p va n) := by
  unfold invalRange
  refine keeps_ite (keeps_cacheDrop h) ?_
  refine keeps_foldl h fun s x hs => ?_
  split
  · exact hs
  · exact keeps_cacheDrop hs

theorem keepsNext_execFabOpInval {c : FabSource} {p : Fin 64} {e : List Word} (h : Keeps s₀ s) :
    KeepsNext s₀ (execFabOpInval c p e s) :=
  keepsNext_inRun h (keeps_ite h (keeps_ite (keeps_foDone h) (keeps_foDone (keeps_invalRange h))))

/-! ### The router (R277-R279) -/

theorem keeps_forwardReq {q : FabReq} (h : Keeps s₀ s) : Keeps s₀ (forwardReq s q) := keeps_sendOn h

theorem keeps_flushComb {x : Comb} (h : Keeps s₀ s) : Keeps s₀ (flushComb s x) :=
  keeps_ite h (keeps_forwardReq (keeps_update h rfl))

theorem keeps_arrived {via vc bytes p : Nat} (h : Keeps s₀ s) : Keeps s₀ (arrived s via vc bytes p) :=
  keeps_ite (keeps_linkTraffic (keeps_freeRx h)) h

theorem keeps_routeReq {q : FabReq} (h : Keeps s₀ s) : Keeps s₀ (routeReq s q) := by
  unfold routeReq
  extract_lets
  split
  · exact keeps_ite (keeps_flushComb (keeps_update h rfl)) (keeps_update h rfl)
  · exact keeps_ite (keeps_forwardReq (keeps_update h rfl)) (keeps_ite (keeps_update h rfl) (keeps_forwardReq h))

theorem keepsNext_execFabricRouterRx {q : Rx FabReq} (h : Keeps s₀ s) : KeepsNext s₀ (execFabricRouterRx q s) := by
  unfold execFabricRouterRx
  refine keepsNext_inRun h ?_
  extract_lets _ _ s1 _ _ s2 s3
  have h1 : Keeps s₀ s1 := keeps_arrived h
  have h2 : Keeps s₀ s2 := keeps_ite h1 (keeps_update h1 rfl)
  have h3 : Keeps s₀ s3 := keeps_foldl h2 fun _ _ hs => keeps_flushComb hs
  exact keeps_ite (keeps_routeReq h3) (keeps_forwardReq h3)

theorem keepsNext_execCombineTimeout (h : Keeps s₀ s) : KeepsNext s₀ (execCombineTimeout s) :=
  keepsNext_inRun h (keeps_foldl h fun _ _ hs => keeps_flushComb hs)

/-! ### The destination -/

theorem keeps_writeTarget {p ga : Nat} {bs : List Byte} {psn : Bool} (h : Keeps s₀ s) : Keeps s₀ (writeTarget s p ga bs psn) := by
  unfold writeTarget
  split
  · exact keeps_hbm h (pmemWf_putBytes _ _ _)
  · exact keeps_hostWriteFor h

theorem keeps_sendResp {node line : Nat} {r : FabResp} {p : Nat} (h : Keeps s₀ s) : Keeps s₀ (sendResp s node line r p) :=
  keeps_sendOn (keeps_ite (keeps_linkTraffic h) h)

theorem keeps_dropComb {x : Option Comb} (h : Keeps s₀ s) : Keeps s₀ (dropComb s x) := by
  unfold dropComb
  extract_lets
  split
  · exact keeps_update h rfl
  · exact h

theorem keeps_respond {q : FabReq} {status : Nat} {data : List Byte} {psn : Bool} (h : Keeps s₀ s) :
    Keeps s₀ (respond s q status data psn) :=
  keeps_foldl h fun _ _ hs => keeps_foldl (keeps_sendResp (keeps_dropComb (keeps_update hs rfl))) fun _ _ hs1 =>
    keeps_sendResp hs1

theorem keeps_applyReq {p : Nat} {q : FabReq} (h : Keeps s₀ s) : Keeps s₀ (applyReq s p q) :=
  keeps_ite (keeps_respond h) (keeps_ite (keeps_respond h) (keeps_ite (keeps_respond (keeps_writeTarget h))
    (keeps_ite (keeps_respond (keeps_writeTarget h)) (keeps_respond (keeps_writeTarget h)))))

theorem keeps_denyReq {q : FabReq} (h : Keeps s₀ s) : Keeps s₀ (denyReq s q) := keeps_respond (keeps_update h rfl)

theorem keeps_stagePart {q : FabReq} {x : Stage} (h : Keeps s₀ s) : Keeps s₀ (stagePart s q x) :=
  keeps_ite h (keeps_ite (keeps_denyReq h) (keeps_ite (keeps_update h rfl) (keeps_update h rfl)))

theorem keeps_denyPart {q : FabReq} {x : Stage} (h : Keeps s₀ s) : Keeps s₀ (denyPart s q x) :=
  keeps_foldl (keeps_update h rfl) fun _ _ hs => keeps_denyReq hs

theorem keeps_answerAgain {q : FabReq} (h : Keeps s₀ s) : Keeps s₀ (answerAgain s q) := by
  unfold answerAgain
  refine keeps_foldl h fun s x hs => ?_
  split
  · exact keeps_sendResp hs
  · exact hs

theorem keeps_requestEcc {q : FabReq} {ecc : Ecc} (h : Keeps s₀ s) : Keeps s₀ (requestEcc s q ecc) := by
  unfold requestEcc
  refine keeps_ite h ?_
  split
  · exact keeps_hbmUe h
  · exact keeps_hbmCe h
  · exact h

theorem keeps_takeReq {q : FabReq} {ecc : Ecc} (h : Keeps s₀ s) : Keeps s₀ (takeReq s q ecc) := by
  unfold takeReq
  extract_lets
  split
  · split
    · exact keeps_denyPart h
    · exact keeps_denyReq h
  · split
    · exact keeps_stagePart h
    · exact keeps_ite (keeps_update h rfl) (keeps_applyReq (keeps_requestEcc h))

theorem keepsNext_execFabricRequestRx {q : Rx FabReq} {ecc : Ecc} (h : Keeps s₀ s) :
    KeepsNext s₀ (execFabricRequestRx q ecc s) := by
  unfold execFabricRequestRx
  refine keepsNext_inRun h ?_
  extract_lets _ _ _ s1
  have h1 : Keeps s₀ s1 := keeps_arrived h
  refine keeps_ite h ?_
  refine keeps_ite h1 ?_
  refine keeps_ite (keeps_answerAgain h1) ?_
  refine keeps_ite (keeps_respond h1) ?_
  refine keeps_ite ?_ (keeps_takeReq h1)
  split
  · exact keeps_denyReq (keeps_evPart h1)
  · exact keeps_denyReq h1

theorem keeps_dropExport {p ent : Nat} (h : Keeps s₀ s) : Keeps s₀ (dropExport s p ent) :=
  keeps_foldl (keeps_modPart h) fun _ _ hs => keeps_update hs rfl

theorem keeps_closeExports (h : Keeps s₀ s) : Keeps s₀ (closeExports s) :=
  keeps_foldl h fun _ _ hs => keeps_foldl hs fun _ _ hs1 => keeps_ite hs1 (keeps_completeWait (keeps_dropExport hs1))

theorem keepsNext_execOrderedFlagApply {node part : Fin 64} (h : Keeps s₀ s) :
    KeepsNext s₀ (execOrderedFlagApply node part s) := by
  unfold execOrderedFlagApply
  refine keepsNext_inRun h ?_
  extract_lets
  split
  · exact h
  · exact keeps_closeExports (keeps_ite (keeps_applyReq (keeps_update h rfl)) (keeps_denyReq (keeps_update h rfl)))

/-! ### Responses and timeouts (R273, R281) -/

theorem keeps_checkQuiet {p : Nat} (h : Keeps s₀ s) : Keeps s₀ (checkQuiet s p) :=
  keeps_ite (keeps_checkUnmap h) (keeps_ite (keeps_completeWait (keeps_checkUnmap h)) (keeps_checkUnmap h))

theorem keeps_keepLines {p ga : Nat} {bs : List Byte} {psn : Bool} (h : Keeps s₀ s) : Keeps s₀ (keepLines s p ga bs psn) :=
  keeps_foldl h fun _ _ hs => keeps_cacheKeep hs

theorem keeps_modSeg {id seg : Nat} {f : DmaSeg → DmaSeg} (h : Keeps s₀ s) : Keeps s₀ (modSeg s id seg f) := keeps_update h rfl

theorem keeps_finishLine {o : FabOut} {st : Nat} (h : Keeps s₀ s) : Keeps s₀ (finishLine s o st) :=
  keeps_ite (keeps_update h rfl) (keeps_foDone (keeps_update h rfl))

theorem keeps_finishData {o : FabOut} {status : Nat} {data : List Byte} {psn : Bool} (h : Keeps s₀ s) :
    Keeps s₀ (finishData s o status data psn) :=
  keeps_ite (keeps_wrLocal h) (keeps_ite (keeps_wrLocal h) h)

theorem keeps_dmaCheck {d : Dma} (h : Keeps s₀ s) : Keeps s₀ (dmaCheck s d) :=
  keeps_ite (keeps_update h rfl) (keeps_completeWhere (keeps_update h rfl))

theorem keeps_failSeg {id seg status : Nat} (h : Keeps s₀ s) : Keeps s₀ (failSeg s id seg status) := by
  unfold failSeg
  split
  · exact h
  · exact keeps_dmaCheck h

theorem keeps_segPart {o : FabOut} {status : Nat} {data : List Byte} {psn : Bool} (h : Keeps s₀ s) :
    Keeps s₀ (segPart s o status data psn) :=
  keeps_ite (keeps_modSeg h) (keeps_failSeg h)

theorem keeps_issuePart {d : Dma} {g : DmaSeg} (h : Keeps s₀ s) : Keeps s₀ (issuePart s d g) := by
  unfold issuePart
  extract_lets s1
  have h1 : Keeps s₀ s1 := keeps_walkAll h
  split
  · exact keeps_failSeg h1
  · split
    · exact keeps_failSeg h1
    · exact keeps_issueFab (keeps_modSeg h1)

theorem keeps_issueFlag {d : Dma} {g : DmaSeg} (h : Keeps s₀ s) : Keeps s₀ (issueFlag s d g) := by
  unfold issueFlag
  extract_lets s1
  have h1 : Keeps s₀ s1 := by
    unfold s1
    split
    · exact keeps_ite h (keeps_issueFab h)
    · exact h
  exact keeps_dmaCheck h1

theorem keeps_pumpDma {n : Nat} (h : Keeps s₀ s) : Keeps s₀ (pumpDma n s) := by
  induction n generalizing s with
  | zero => exact h
  | succ n ih =>
    unfold pumpDma
    split
    · exact h
    · exact keeps_ite h (ih (keeps_ite (keeps_issueFlag h) (keeps_issuePart h)))

theorem keeps_runDma (h : Keeps s₀ s) : Keeps s₀ (runDma s) := keeps_pumpDma h

theorem keeps_finishOut {o : FabOut} {status : Nat} {data : List Byte} {psn : Bool} (h : Keeps s₀ s) :
    Keeps s₀ (finishOut s o status data psn) := by
  unfold finishOut
  extract_lets _ _ s1 _ s2 _ s3
  have h1 : Keeps s₀ s1 := keeps_update h rfl
  have h2 : Keeps s₀ s2 := keeps_ite (keeps_keepLines h1) h1
  have h3 : Keeps s₀ s3 := keeps_ite h2 (keeps_ite (keeps_finishLine (keeps_finishData h2))
    (keeps_ite (keeps_noteStore h2) (keeps_ite (keeps_segPart h2) h2)))
  exact keeps_runDma (keeps_checkQuiet h3)

theorem keepsNext_execFabricResponseRx {a : Rx FabResp} (h : Keeps s₀ s) : KeepsNext s₀ (execFabricResponseRx a s) := by
  unfold execFabricResponseRx
  refine keepsNext_inRun h ?_
  extract_lets _ _ own₁ s1 _ s2 s3
  have h1 : Keeps s₀ s1 := keeps_arrived h
  have h2 : Keeps s₀ s2 := keeps_dropComb h1
  have h3 : Keeps s₀ s3 := by
    unfold s3
    clear_value own₁
    split
    · exact keeps_finishOut h2
    · exact h2
  refine keeps_foldl h3 fun s x hs => ?_
  refine keeps_ite ?_ (keeps_sendResp hs)
  split
  · exact keeps_finishOut hs
  · exact hs

theorem keeps_checkReach {node : Nat} (h : Keeps s₀ s) : Keeps s₀ (checkReach s node) :=
  keeps_ite (keeps_ite h (keeps_evPool (keeps_update h rfl))) (keeps_update h rfl)

theorem keepsNext_execFabTimeout {node : Fin 64} {seq : Word} (h : Keeps s₀ s) : KeepsNext s₀ (execFabTimeout node seq s) := by
  unfold execFabTimeout
  refine keepsNext_inRun h ?_
  extract_lets _ _ s1
  have h1 : Keeps s₀ s1 := keeps_update h rfl
  split
  · exact h
  · exact keeps_ite h (keeps_finishOut (keeps_checkReach (keeps_evPart h1)))

/-! ### Links that go and come (R271, R285) -/

theorem keeps_repath (h : Keeps s₀ s) : Keeps s₀ (repath s) :=
  keeps_foldl h fun _ _ hs => keeps_ite hs (keeps_ite (keeps_update hs rfl)
    (keeps_sendOn (keeps_useLink (keeps_update hs rfl))))

end Sys2Proof.Machine
end

section
/-! PROOFS. What keeps the invariant, 10. Reset notices, DMA, endpoints, cells and the release of engines. -/

namespace Sys2Proof.Machine

open Sys2Proof

variable {s₀ s : State}

/-! ### Reset notices (R351) -/

theorem keeps_noticeCheck {p : Nat} {late : Bool} (h : Keeps s₀ s) : Keeps s₀ (noticeCheck s p late) :=
  keeps_ite h (keeps_ite (keeps_modPart h) (keeps_completeWait (keeps_modPart h)))

theorem keeps_sendCtl {node : Nat} {m : Msg} (h : Keeps s₀ s) : Keeps s₀ (sendCtl s node m) := keeps_sendOn h

theorem keeps_peerReset {node part : Nat} {gen : BitVec 16} (h : Keeps s₀ s) : Keeps s₀ (peerReset s node part gen) :=
  keeps_closeExports (keeps_update h rfl)

theorem keeps_sendNotice {p : Nat} {gen : BitVec 16} (h : Keeps s₀ s) : Keeps s₀ (sendNotice s p gen) :=
  keeps_foldl (keeps_modPart (keeps_update (keeps_ite (keeps_peerReset h) h) rfl)) fun _ _ hs => keeps_sendCtl hs

theorem keepsNext_execResetNoticeRx {node : Rx (Fin 64)} {part : Fin 64} {gen : BitVec 16} (h : Keeps s₀ s) :
    KeepsNext s₀ (execResetNoticeRx node part gen s) :=
  keepsNext_inRun h (keeps_sendCtl (keeps_peerReset (keeps_ite (keeps_freeRx h) h)))

theorem keepsNext_execResetNoticeAckRx {node : Rx (Fin 64)} {part : Fin 64} (h : Keeps s₀ s) :
    KeepsNext s₀ (execResetNoticeAckRx node part s) :=
  keepsNext_inRun h (keeps_noticeCheck (keeps_update (keeps_ite (keeps_freeRx h) h) rfl))

theorem keepsNext_execResetNoticeResend {part : Fin 64} (h : Keeps s₀ s) : KeepsNext s₀ (execResetNoticeResend part s) := by
  unfold execResetNoticeResend
  refine keepsNext_inRun h ?_
  split
  · exact h
  · exact keeps_noticeCheck (keeps_foldl h fun _ _ hs => keeps_sendCtl hs)

/-! ### FAB_DMA (R282-R284) -/

theorem keepsNext_execFabDma {r : RingId} {k : Pkt} (h : Keeps s₀ s) : KeepsNext s₀ (execFabDma r k s) :=
  keepsNext_inRun h (keeps_fwRun h fun _ hs _ => keepsFw_ite (keepsFw_done hs)
    (keepsFw_wait (keeps_runDma (keeps_update hs rfl))))

theorem keeps_ownSeg {d : Dma} {g : DmaSeg} (h : Keeps s₀ s) : Keeps s₀ (ownSeg s d g) :=
  keeps_ite h (keeps_ite (keeps_failSeg h) (keeps_ite (keeps_failSeg h)
    (keeps_runDma (keeps_dmaCheck (keeps_ite (keeps_wrVaP h) h)))))

theorem keeps_incomingSeg {g : StagedSeg} (h : Keeps s₀ s) : Keeps s₀ (incomingSeg s g) :=
  keeps_ite h (keeps_ite (keeps_foldl (keeps_update h rfl) fun _ _ hs => keeps_denyReq hs)
    (keeps_foldl (keeps_update h rfl) fun _ _ hs => keeps_applyReq hs))

theorem keepsNext_execDmaSegmentCommit {a : DmaArrive} (h : Keeps s₀ s) : KeepsNext s₀ (execDmaSegmentCommit a s) := by
  unfold execDmaSegmentCommit
  refine keepsNext_inRun h ?_
  split
  · split
    · exact h
    · exact keeps_ite (keeps_ownSeg h) h
  · split
    · exact h
    · exact keeps_incomingSeg h

/-! ### FAB_INVAL (R276) -/

theorem keepsNext_execFabInval {r : RingId} {k : Pkt} (h : Keeps s₀ s) : KeepsNext s₀ (execFabInval r k s) :=
  keepsNext_inRun h (keeps_fwRun h fun _ hs _ => keepsFw_done (keeps_invalRange hs))

/-! ### FAB_EXPORT and FAB_UNEXPORT (R268) -/

theorem keepsNext_execFabExport {r : RingId} {k : Pkt} (h : Keeps s₀ s) : KeepsNext s₀ (execFabExport r k s) :=
  keepsNext_inRun h (keeps_fwRun h fun _ hs _ => keepsFw_writeDone
    (keeps_foldl (keeps_modPart hs) fun _ _ hs1 => keeps_update hs1 rfl))

theorem keepsNext_execFabUnexport {r : RingId} {k : Pkt} (h : Keeps s₀ s) : KeepsNext s₀ (execFabUnexport r k s) :=
  keepsNext_inRun h (keeps_fwRun h fun _ hs _ => keepsFw_ite (keepsFw_wait (keeps_modPart hs))
    (keepsFw_done (keeps_dropExport hs)))

/-! ### Endpoints -/

theorem keepsFw_needRadio {res : List Word} (h : Keeps s₀ s) : KeepsFw s₀ (needRadio s res) :=
  keepsFw_ite (keepsFw_done h) (keepsFw_wait (keeps_requestOn h))

theorem keepsNext_execRuAdd {r : RingId} {k : Pkt} (h : Keeps s₀ s) : KeepsNext s₀ (execRuAdd r k s) :=
  keepsNext_inRun h (keeps_fwRun h fun _ hs _ => keepsFw_needRadio (keeps_modEp hs))

theorem keepsNext_execRuRemove {r : RingId} {k : Pkt} (h : Keeps s₀ s) : KeepsNext s₀ (execRuRemove r k s) :=
  keepsNext_inRun h (keeps_fwRun h fun _ hs _ => keepsFw_done (keeps_modEp hs))

theorem keepsNext_execRuStats {r : RingId} {k : Pkt} (h : Keeps s₀ s) : KeepsNext s₀ (execRuStats r k s) :=
  keepsNext_inRun h (keeps_fwRun h fun _ hs _ => keepsFw_writeDone hs)

/-! ### Checks of a cell -/

theorem keeps_reserveCell {n : Nat} {c : Cell} (h : Keeps s₀ s) : Keeps s₀ (reserveCell s n c) :=
  keeps_foldl (keeps_foldl (keeps_modCell h) fun _ _ hs => keeps_modStream hs) fun _ _ hs => keeps_modQ hs

theorem keeps_admitCell {r : RingId} {k : Pkt} {from_ : Nat} (h : Keeps s₀ s) : Keeps s₀ (admitCell s r k from_).2.2 :=
  keeps_reserveCell h

theorem keepsNext_execCellAdd {r : RingId} {k : Pkt} (h : Keeps s₀ s) : KeepsNext s₀ (execCellAdd r k s) :=
  keepsNext_inRun h (keeps_fwRun h fun _ hs _ => keepsFw_needRadio (keeps_admitCell hs))

theorem keepsNext_execCellRemove {r : RingId} {k : Pkt} (h : Keeps s₀ s) : KeepsNext s₀ (execCellRemove r k s) :=
  keepsNext_inRun h (keeps_fwRun h fun _ hs _ => keepsFw_wait (keeps_modCell hs))

/-! ### Cells that leave and arrive -/

theorem keepsNext_execCellExport {r : RingId} {k : Pkt} (h : Keeps s₀ s) : KeepsNext s₀ (execCellExport r k s) :=
  keepsNext_inRun h (keeps_fwRun h fun _ hs _ => keepsFw_wait (keeps_modCell hs))

theorem keepsNext_execCellImport {r : RingId} {k : Pkt} (h : Keeps s₀ s) : KeepsNext s₀ (execCellImport r k s) :=
  keepsNext_inRun h (keeps_fwRun h fun _ hs _ => keepsFw_wait (keeps_admitCell hs))

/-! ### At a boundary -/

theorem keeps_releaseCell {n : Nat} (h : Keeps s₀ s) : Keeps s₀ (releaseCell s n) :=
  keeps_update (keeps_modCell (keeps_foldl (keeps_foldl (keeps_foldl h fun _ _ hs => keeps_modQ (keeps_flushQ hs)) fun _ _ hs
    => keeps_modStream hs) fun _ _ hs => keeps_modLane hs)) rfl

theorem keeps_endCell {n : Nat} (h : Keeps s₀ s) : Keeps s₀ (endCell s n) :=
  keeps_completeWait (keeps_completeWait (keeps_releaseCell (keeps_ite h (keeps_wrVa h))))

theorem keeps_takeImage {n : Nat} {bs : List Byte} {soft : List (Nat × List Byte)} (h : Keeps s₀ s) :
    Keeps s₀ (takeImage s n bs soft) :=
  keeps_modCell (keeps_foldl (keeps_foldl h fun _ _ hs => keeps_modStream hs) fun _ _ hs => keeps_noteSoft (keeps_wrVa hs))

theorem keeps_readImage {n : Nat} (h : Keeps s₀ s) : Keeps s₀ (readImage s n) := by
  unfold readImage
  extract_lets
  split
  · exact keeps_completeWait (keeps_releaseCell h)
  · split
    · exact keeps_completeWait (keeps_releaseCell h)
    · exact keeps_ite (keeps_completeWait (keeps_releaseCell h)) (keeps_completeWait (keeps_takeImage h))

theorem keeps_radioBoundary (h : Keeps s₀ s) : Keeps s₀ (radioBoundary s) :=
  keeps_startOccasions (keeps_endOccasions (keeps_foldl (keeps_foldl (keeps_foldl h fun _ _ hs => keeps_endCell hs) fun _ _ hs
    => keeps_readImage hs) fun _ _ hs => keeps_modCell hs))

theorem keeps_overruns {ended : Nat} {use : List (Nat × Nat × Nat)} (h : Keeps s₀ s) : Keeps s₀ (overruns s ended use) :=
  keeps_foldl h fun _ _ hs => keeps_ite (keeps_evPart hs) hs

theorem keeps_resetAllowances (h : Keeps s₀ s) : Keeps s₀ (resetAllowances s) := keeps_foldl h fun _ _ hs => keeps_modQ hs

theorem keeps_dropCells {p : Nat} (h : Keeps s₀ s) : Keeps s₀ (dropCells s p) := keeps_foldl h fun _ _ hs => keeps_modCell hs

/-! ### Queues of engines -/

theorem keeps_poisonArray {p c l : Nat} (h : Keeps s₀ s) : Keeps s₀ (poisonArray p c s l) :=
  keeps_foldl h fun _ _ hs => keeps_poisonOutputs hs

theorem keeps_stopArray {p c : Nat} {abort : Bool} {l : Nat} (h : Keeps s₀ s) : Keeps s₀ (stopArray p c abort s l) := by
  unfold stopArray
  extract_lets s1 _ s2 s3 s4
  have h1 : Keeps s₀ s1 := keeps_poisonArray h
  have h2 : Keeps s₀ s2 := keeps_foldl h1 fun _ _ hs => keeps_emit hs
  have h3 : Keeps s₀ s3 := keeps_ite (keeps_foldl h2 fun _ _ hs => keeps_emit hs) h2
  have h4 : Keeps s₀ s4 := keeps_ite (keeps_modPa h3) h3
  exact keeps_modLa h4

theorem keeps_stopContexts {p c : Nat} (h : Keeps s₀ s) : Keeps s₀ (stopContexts p c s) :=
  keeps_foldl h fun _ _ hs => keeps_ite (keeps_askStop (keeps_modCsp hs)) hs

theorem keeps_stopCluster {p : Nat} {abort : Bool} {c : Nat} (h : Keeps s₀ s) : Keeps s₀ (stopCluster p abort s c) :=
  keeps_stopContexts (keeps_modClu (keeps_foldl h fun _ _ hs => keeps_stopArray hs) fun _ => rfl)

theorem keeps_dropUnsent {p : Nat} (h : Keeps s₀ s) : Keeps s₀ (dropUnsent s p) :=
  keeps_fab h fun hl => by
    dsimp only
    exact tabWf_tabMapV _ hl

theorem keeps_dropRequests {p : Nat} (h : Keeps s₀ s) : Keeps s₀ (dropRequests s p) := keeps_update (keeps_dropUnsent h) rfl

theorem keeps_dropQps {p : Nat} (h : Keeps s₀ s) : Keeps s₀ (dropQps s p) := keeps_foldl h fun _ _ hs => keeps_dropQp hs

theorem keeps_dropPartJobs {p : Nat} (h : Keeps s₀ s) : Keeps s₀ (dropPartJobs s p) :=
  keeps_foldl (keeps_dropJobs h) fun _ _ hs => keeps_jobFeed hs

theorem keeps_stopWork {p : Nat} {abort : Bool} (h : Keeps s₀ s) : Keeps s₀ (stopWork s p abort) :=
  keeps_dropQps (keeps_dropPartJobs (keeps_dropCells (keeps_dropRequests
    (keeps_modPart (keeps_foldl (keeps_update h rfl) fun _ _ hs => keeps_stopCluster hs)))))

theorem keeps_stopPart {p : Nat} {abort : Bool} (h : Keeps s₀ s) : Keeps s₀ (stopPart s p abort) :=
  keeps_completeWhere (keeps_stopWork h)

theorem keeps_advanceGen {p : Nat} {g : BitVec 16} (h : Keeps s₀ s) : Keeps s₀ (advanceGen s p g) :=
  keeps_noticeCheck (keeps_sendNotice (keeps_update (keeps_modPart h) rfl))

theorem keeps_resetPart {p : Nat} {abort : Bool} (h : Keeps s₀ s) : Keeps s₀ (resetPart s p abort) := by
  unfold resetPart
  exact keeps_ite (keeps_modPart (keeps_stopPart h)) (keeps_advanceGen (keeps_stopPart h))

theorem keeps_faultStop {p cause c a : Nat} (h : Keeps s₀ s) : Keeps s₀ (faultStop s p cause c a) := by
  unfold faultStop
  exact keeps_resetPart (keeps_evPool (keeps_evPart h))

end Sys2Proof.Machine
end

section
/-! PROOFS. What keeps the invariant, 11. Chip links and the time unit. -/

namespace Sys2Proof.Machine

open Sys2Proof

variable {s₀ s : State}

/-! ### Chip links -/

theorem keeps_reachAll (h : Keeps s₀ s) : Keeps s₀ (reachAll s) :=
  keeps_foldl h fun _ _ hs => keeps_ite (keeps_ite (keeps_checkReach hs) hs) (keeps_update hs rfl)

theorem keeps_linkLost {l st : Nat} (h : Keeps s₀ s) : Keeps s₀ (linkLost s l st) :=
  keeps_ite (keeps_modLink h) (keeps_foldl (keeps_repath (keeps_update (keeps_disturbLink (keeps_modLink h)) rfl)) fun _ _ hs
    => keeps_checkReach hs)

theorem keeps_stopCut {node : Nat} (h : Keeps s₀ s) : Keeps s₀ (stopCut s node) :=
  keeps_foldl h fun _ _ hs => keeps_faultStop (keeps_takeFree hs)

theorem keeps_linkFailed {l st : Nat} (h : Keeps s₀ s) : Keeps s₀ (linkFailed s l st) :=
  keeps_foldl (keeps_linkLost h) fun _ _ hs => keeps_stopCut hs

/-! ### Training (R254-R256) -/

theorem keeps_trainFail {l : Nat} (h : Keeps s₀ s) : Keeps s₀ (trainFail s l) :=
  keeps_ite (keeps_evPool (keeps_modLink h)) (keeps_modLink h)

theorem keeps_enterStage {l n : Nat} (h : Keeps s₀ s) : Keeps s₀ (enterStage s l n) := keeps_modLink h

theorem keeps_trainLock {l : Nat} {o : Training} (h : Keeps s₀ s) : Keeps s₀ (trainLock s l o) := by
  unfold trainLock
  split
  · exact h
  · exact keeps_ite (keeps_modLink h) (keeps_enterStage (keeps_modLink h))

theorem keeps_trainIdent {l : Nat} {o : Training} (h : Keeps s₀ s) : Keeps s₀ (trainIdent s l o) := by
  unfold trainIdent
  split
  · exact h
  · exact keeps_ite (keeps_trainFail (keeps_evPool (keeps_modLink h))) (keeps_enterStage (keeps_modLink (keeps_modLink h)))

theorem keeps_trainMeasure {l : Nat} {o : Training} (h : Keeps s₀ s) : Keeps s₀ (trainMeasure s l o) := by
  unfold trainMeasure
  split
  · exact h
  · exact keeps_enterStage (keeps_modLink h)

theorem keeps_trainSecure {l : Nat} {o : Training} (h : Keeps s₀ s) : Keeps s₀ (trainSecure s l o) := by
  unfold trainSecure
  extract_lets
  split
  · exact h
  · exact keeps_ite (keeps_modLink (keeps_takeFree h)) (keeps_evPool (keeps_modLink h))

theorem keeps_train {l : Nat} {o : Training} (h : Keeps s₀ s) : Keeps s₀ (train s l o) := by
  unfold train
  extract_lets s1 s2 s3 s4 s5
  have h1 : Keeps s₀ s1 := keeps_ite (keeps_enterStage h) h
  have h2 : Keeps s₀ s2 := keeps_ite (keeps_enterStage h1) h1
  have h3 : Keeps s₀ s3 := keeps_ite (keeps_trainLock h2) h2
  have h4 : Keeps s₀ s4 := keeps_ite (keeps_trainIdent h3) h3
  have h5 : Keeps s₀ s5 := keeps_ite (keeps_trainMeasure h4) h4
  exact keeps_ite (keeps_trainSecure h5) h5

theorem keeps_hear {l : Nat} {o : Training} (h : Keeps s₀ s) : Keeps s₀ (hear s l o) := keeps_ite (keeps_modLink h) h

theorem keepsNext_execLinkTrainAttempt {link : Fin 24} {o : Training} (h : Keeps s₀ s) :
    KeepsNext s₀ (execLinkTrainAttempt link o s) :=
  keepsNext_inRun h (keeps_ite (keeps_ite (keeps_trainFail h) (keeps_train (keeps_hear h)))
    (keeps_ite (keeps_train (keeps_hear (keeps_modLink h))) h))

theorem keepsNext_execLinkUp {link : Fin 24} (h : Keeps s₀ s) : KeepsNext s₀ (execLinkUp link s) := by
  unfold execLinkUp
  refine keepsNext_inRun h ?_
  extract_lets
  refine keeps_ite h ?_
  refine keeps_ite (keeps_trainFail h) ?_
  split
  · exact h
  · exact keeps_reachAll (keeps_repath (keeps_modLink h))

theorem keepsNext_execTrainStageTimeout {link : Fin 24} (h : Keeps s₀ s) : KeepsNext s₀ (execTrainStageTimeout link s) :=
  keepsNext_inRun h (keeps_ite (keeps_trainFail h) h)

theorem keepsNext_execPartnerSilence {link : Fin 24} (h : Keeps s₀ s) : KeepsNext s₀ (execPartnerSilence link s) :=
  keepsNext_inRun h (keeps_ite (keeps_trainFail h) h)

/-! ### Fast retrains (R253, R257-R261) -/

theorem keeps_chargeLane {l j : Nat} (h : Keeps s₀ s) : Keeps s₀ (chargeLane s l j) :=
  keeps_ite h (keeps_ite (keeps_ite (keeps_linkFailed (keeps_evPool (keeps_modLink (keeps_modLink h))))
    (keeps_evPool (keeps_modLink (keeps_modLink h)))) (keeps_modLink h))

theorem keeps_fastRetrain {l : Nat} {own : Bool} {lane : Option Nat} (h : Keeps s₀ s) :
    Keeps s₀ (fastRetrain s l own lane) := by
  unfold fastRetrain
  extract_lets _ s1 s2 _ s3
  have h1 : Keeps s₀ s1 := keeps_ite (keeps_sendOn h) h
  have h2 : Keeps s₀ s2 := keeps_modLink h1
  have h3 : Keeps s₀ s3 := keeps_ite h (keeps_disturbLink (keeps_update h2 rfl))
  refine keeps_ite h ?_
  split
  · exact keeps_chargeLane h3
  · exact h3

theorem keepsNext_execLaneLockLoss {link : Fin 24} {lane : Fin 4} (h : Keeps s₀ s) :
    KeepsNext s₀ (execLaneLockLoss link lane s) :=
  keepsNext_inRun h (keeps_fastRetrain h)

theorem keepsNext_execLaneLockTimeout {link : Fin 24} {locked : BitVec 4} (h : Keeps s₀ s) :
    KeepsNext s₀ (execLaneLockTimeout link locked s) := by
  unfold execLaneLockTimeout
  refine keepsNext_inRun h ?_
  extract_lets _ _ s1
  have h1 : Keeps s₀ s1 := keeps_modLink h
  refine keeps_ite h ?_
  split
  · exact keeps_linkFailed h1
  · exact keeps_pumpLink (keeps_modLink h1)

theorem keepsNext_execRetrain {link : Fin 24} (h : Keeps s₀ s) : KeepsNext s₀ (execRetrain link s) :=
  keepsNext_inRun h (keeps_fastRetrain h)

theorem keepsNext_execRetrainRequestRx {m : RetrainMsg} (h : Keeps s₀ s) : KeepsNext s₀ (execRetrainRequestRx m s) :=
  keepsNext_inRun h (keeps_ite h (keeps_fastRetrain (keeps_modLink
    (keeps_ite (keeps_modLink (keeps_freeRx h)) (keeps_freeRx h)))))

theorem keepsNext_execService {link : Fin 24} (h : Keeps s₀ s) : KeepsNext s₀ (execService link s) :=
  keepsNext_inRun h (keeps_modLink (keeps_linkLost h))

/-! ### Flits (R253, R264, R400) -/

theorem keeps_fecCount {l : Nat} {r : List (Nat × Nat)} (h : Keeps s₀ s) : Keeps s₀ (fecCount s l r) := by
  induction r generalizing s with
  | nil => exact h
  | cons x r ih => exact ih (keeps_ite (keeps_fastRetrain (keeps_modLink h)) (keeps_modLink h))

theorem keeps_linkControl {l : Nat} {f : Flit} (h : Keeps s₀ s) : Keeps s₀ (linkControl s l f) := by
  unfold linkControl
  extract_lets s1 s2
  have h1 : Keeps s₀ s1 := keeps_modLink h
  have h2 : Keeps s₀ s2 := by
    unfold s2
    split
    · exact keeps_replayFrom h1
    · exact h1
  exact keeps_pumpLink h2

theorem keeps_takeFlit {l : Nat} {f : Flit} (h : Keeps s₀ s) : Keeps s₀ (takeFlit s l f) :=
  keeps_linkControl (keeps_emit (keeps_modLink h))

theorem keepsNext_execFlitRx {link : Fin 24} {f : Flit} (h : Keeps s₀ s) : KeepsNext s₀ (execFlitRx link f s) := by
  unfold execFlitRx
  refine keepsNext_inRun h ?_
  exact keeps_ite h (keeps_fecCount (keeps_ite (keeps_ite (keeps_takeFlit (keeps_modLink h))
    (keeps_ite (keeps_emit (keeps_modLink h)) (keeps_emit (keeps_modLink h))))
    (keeps_ite (keeps_evPool (keeps_linkFailed (keeps_modLink h))) (keeps_emit (keeps_modLink h)))))

theorem keepsNext_execLinkRekey {link : Fin 24} (h : Keeps s₀ s) : KeepsNext s₀ (execLinkRekey link s) :=
  keepsNext_inRun h (keeps_ite h (keeps_pumpLink (keeps_emit (keeps_modLink h))))

theorem keepsNext_execPathDown {plane : Fin 18} {node : Fin 64} (h : Keeps s₀ s) :
    KeepsNext s₀ (execPathDown plane node s) := by
  unfold execPathDown
  refine keepsNext_inRun h ?_
  extract_lets _ s1 _ _ s2 s3
  have h1 : Keeps s₀ s1 := keeps_freeRx h
  have h2 : Keeps s₀ s2 := keeps_update h1 rfl
  have h3 : Keeps s₀ s3 := keeps_repath (keeps_ite (keeps_disturbLink h2) h2)
  exact keeps_ite h1 (keeps_ite (keeps_ite (keeps_stopCut (keeps_checkReach h3)) (keeps_checkReach h3)) h3)

/-! ### The time unit -/

/-- A change of the clock that leaves its ns and its cycle keeps the invariant. -/
theorem keeps_modTime {f : TimeUnit → TimeUnit} (h : Keeps s₀ s) (hns : (f s.time).ns = s.time.ns)
    (hcycle : (f s.time).cycle = s.time.cycle) : Keeps s₀ (modTime s f) :=
  keeps_time h (fun hn => hns ▸ hn) fun hc => hcycle ▸ hc

theorem keeps_modDom {d : Bool} {f : PtpDom → PtpDom} (h : Keeps s₀ s) : Keeps s₀ (modDom s d f) :=
  keeps_modTime h (by split <;> rfl) (by split <;> rfl)

theorem keeps_setHoldover (h : Keeps s₀ s) : Keeps s₀ (setHoldover s) := keeps_modTime h rfl rfl

/-- A clock started at a time in ns below a second stands in a cycle of the clove (R24, R211). -/
theorem keeps_startCloves {sec : BitVec 48} {ns : Nat} {frac : BitVec 16} (h : Keeps s₀ s) (hns : ns < 1000000000) :
    Keeps s₀ (startCloves s sec ns frac) := by
  have hcycle : ns % 125000 * 2 + frac.toNat / 32768 < 250000 := by
    have := frac.isLt
    omega
  exact keeps_setHoldover (keeps_time h (fun _ => hns) fun _ => hcycle)

theorem keeps_offsetCheck (h : Keeps s₀ s) : Keeps s₀ (offsetCheck s) :=
  keeps_ite (keeps_evPool (keeps_foldl (keeps_modTime h rfl rfl) fun _ _ hs => keeps_evPart hs)) h

theorem keeps_switchDomain {d : Bool} (h : Keeps s₀ s) : Keeps s₀ (switchDomain s d) :=
  keeps_offsetCheck (keeps_modTime h rfl rfl)

theorem keeps_undoRequest {d : Bool} (h : Keeps s₀ s) : Keeps s₀ (undoRequest s d) := by
  unfold undoRequest
  split
  · exact h
  · exact keeps_ite (keeps_modTime (keeps_switchDomain h) rfl rfl) h

theorem keeps_loseLock {d : Bool} (h : Keeps s₀ s) : Keeps s₀ (loseLock s d) := by
  unfold loseLock
  extract_lets _ s1 s2 _ s3 s4
  have h1 : Keeps s₀ s1 := keeps_modDom h
  have h2 : Keeps s₀ s2 := keeps_undoRequest h1
  have h3 : Keeps s₀ s3 := keeps_ite (keeps_switchDomain h2) h2
  have h4 : Keeps s₀ s4 := keeps_setHoldover h3
  exact keeps_ite h1 (keeps_ite (keeps_modTime h4 rfl rfl) h4)

theorem keeps_gainLock {d : Bool} (h : Keeps s₀ s) : Keeps s₀ (gainLock s d) :=
  keeps_ite (keeps_switchDomain (keeps_setHoldover (keeps_modDom h))) (keeps_setHoldover (keeps_modDom h))

theorem keeps_newEstimate {d : Bool} {o f : Int} (h : Keeps s₀ s) : Keeps s₀ (newEstimate s d o f) :=
  keeps_ite (keeps_loseLock (keeps_ite (keeps_modTime (keeps_offsetCheck (keeps_modDom h)) rfl rfl)
    (keeps_offsetCheck (keeps_modDom h)))) (keeps_ite (keeps_modTime (keeps_offsetCheck (keeps_modDom h)) rfl rfl)
    (keeps_offsetCheck (keeps_modDom h)))

theorem keepsNext_execSnap (h : Keeps s₀ s) : KeepsNext s₀ (execSnap s) := keepsNext_inRun h (keeps_modTime h rfl rfl)

theorem keeps_requestDomain {d : Bool} (h : Keeps s₀ s) : Keeps s₀ (requestDomain s d) :=
  keeps_ite (keeps_modTime h rfl rfl) (keeps_ite (keeps_modTime (keeps_switchDomain (keeps_modTime h rfl rfl)) rfl rfl)
    (keeps_modTime (keeps_modTime h rfl rfl) rfl rfl))

theorem keepsNext_execActiveReq {d : Bool} (h : Keeps s₀ s) : KeepsNext s₀ (execActiveReq d s) :=
  keepsNext_inRun h (keeps_requestDomain h)

theorem keepsNext_execDomainAcquire {d : Bool} {frac : BitVec 16} (h : Keeps s₀ s) : KeepsNext s₀ (execDomainAcquire d frac s) :=
  keepsNext_inRun h (keeps_ite h (keeps_startCloves (keeps_modTime (keeps_modDom h) rfl rfl) (Nat.mod_lt _ (by decide))))

theorem keepsNext_execDomainLock {d : Bool} (h : Keeps s₀ s) : KeepsNext s₀ (execDomainLock d s) :=
  keepsNext_inRun h (keeps_ite (keeps_gainLock h) h)

theorem keepsNext_execAnnounceTimeout {d : Bool} (h : Keeps s₀ s) : KeepsNext s₀ (execAnnounceTimeout d s) :=
  keepsNext_inRun h (keeps_ite h (keeps_loseLock h))

theorem keeps_markMismatch {l : Nat} {m : Marker} (h : Keeps s₀ s) : Keeps s₀ (markMismatch s l m) := keeps_evPool h

theorem keeps_markStart {l : Nat} {m : Marker} (h : Keeps s₀ s) : Keeps s₀ (markStart s l m) := by
  unfold markStart
  extract_lets t i n s1 ps ns
  have h1 : Keeps s₀ s1 := keeps_modTime h rfl rfl
  exact keeps_ite h1 (keeps_startCloves (keeps_modTime h1 rfl rfl) (Nat.mod_lt _ (by decide)))

theorem keepsNext_execCloveMarkerRx {link : Fin 24} {m : Marker} (h : Keeps s₀ s) :
    KeepsNext s₀ (execCloveMarkerRx link m s) := by
  unfold execCloveMarkerRx
  refine keepsNext_inRun h ?_
  extract_lets _ s1 _ s2 _ s3
  have h1 : Keeps s₀ s1 := keeps_freeRx h
  have h2 : Keeps s₀ s2 := keeps_modTime h1 rfl rfl
  have h3 : Keeps s₀ s3 := keeps_modTime h2 rfl rfl
  exact keeps_ite h1 (keeps_ite (keeps_markMismatch h1) (keeps_ite h1
    (keeps_ite (keeps_markMismatch h1) (keeps_ite h1 (keeps_ite (keeps_markStart h2)
    (keeps_ite (keeps_modTime h3 rfl rfl) h3))))))

theorem keepsNext_execMarkerTimeout (h : Keeps s₀ s) : KeepsNext s₀ (execMarkerTimeout s) :=
  keepsNext_inRun h (keeps_ite h (keeps_modTime h rfl rfl))

theorem keepsNext_execPpsInEdge (h : Keeps s₀ s) : KeepsNext s₀ (execPpsInEdge s) := keepsNext_inRun h (keeps_modTime h rfl rfl)

theorem keepsNext_execPpsOutRise (h : Keeps s₀ s) : KeepsNext s₀ (execPpsOutRise s) :=
  keepsNext_inRun h (keeps_ite (keeps_modTime h rfl rfl) h)

theorem keepsNext_execPpsOutFall (h : Keeps s₀ s) : KeepsNext s₀ (execPpsOutFall s) :=
  keepsNext_inRun h (keeps_modTime h rfl rfl)

theorem keepsNext_execTimeConfig {r : RingId} {k : Pkt} (h : Keeps s₀ s) : KeepsNext s₀ (execTimeConfig r k s) :=
  keepsNext_inRun h (keeps_fwRun h fun _ hs _ => keepsFw_done (keeps_loseLock (keeps_modDom hs)))

/-- The ns of a free-running start are below a second, which its checks establish. -/
theorem lt_of_freerunErrs_eq_nil {k : Pkt} (h : freerunErrs k s = []) : fld (wd k.w 2) 29 0 < 1000000000 := by
  have hpass := (errsOf_eq_nil_iff _).1 h
  simp only [List.forall_mem_cons, decide_eq_false_iff_not, Nat.not_le] at hpass
  exact hpass.2.1

theorem keepsNext_execTimeFreerun {r : RingId} {k : Pkt} (h : Keeps s₀ s) : KeepsNext s₀ (execTimeFreerun r k s) :=
  keepsNext_inRun h (keeps_fwRun h fun _ hs herrs => keepsFw_done (keeps_startCloves hs (lt_of_freerunErrs_eq_nil herrs)))

theorem keeps_sendMarkers (h : Keeps s₀ s) : Keeps s₀ (sendMarkers s) :=
  keeps_ite h (keeps_foldl (keeps_ite h (keeps_takeFree h)) fun _ _ hs => keeps_sendOn hs)

theorem keepsNext_execStepMark {p : Fin 64} {_v : Word} (h : Keeps s₀ s) : KeepsNext s₀ (execStepMark p _v s) :=
  keepsNext_inRun h (keeps_ite h (keeps_modPart h))

end Sys2Proof.Machine
end

section
/-! PROOFS. What keeps the invariant, 12. Frames that arrive and leave, and the subports. -/

namespace Sys2Proof.Machine

open Sys2Proof

variable {s₀ s : State}

/-! ### Frames that arrive -/

theorem keeps_refreshSynce (h : Keeps s₀ s) : Keeps s₀ (refreshSynce s) := keeps_modTime h rfl rfl

/-! ### Raw rings (R300, R301) -/

theorem keeps_rawTxOne {p : Nat} (h : Keeps s₀ s) : Keeps s₀ (rawTxOne s p) := by
  unfold rawTxOne
  extract_lets _ _ s1
  have h1 : Keeps s₀ s1 := keeps_modPart h
  split
  · exact h1
  · extract_lets
    refine keeps_ite (keeps_wrVa h1) ?_
    split
    · exact keeps_wrVa h1
    · exact keeps_wrVa (keeps_sendChecked h1)

theorem keeps_rawTxRun {p n : Nat} (h : Keeps s₀ s) : Keeps s₀ (rawTxRun s p n) := by
  induction n generalizing s with
  | zero => exact h
  | succ n ih => exact ih (keeps_rawTxOne h)

theorem keeps_rawTxGo {p : Nat} (h : Keeps s₀ s) : Keeps s₀ (rawTxGo s p) := keeps_ite (keeps_rawTxRun h) h

theorem keepsNext_execNetRawTxTail {p : Fin 64} {v : Word} (h : Keeps s₀ s) : KeepsNext s₀ (execNetRawTxTail p v s) :=
  keepsNext_inRun h (keeps_ite h (keeps_ite (keeps_dbBad h) (keeps_rawTxGo (keeps_modPart h))))

theorem keepsNext_execNetRawRxTail {p : Fin 64} {v : Word} (h : Keeps s₀ s) : KeepsNext s₀ (execNetRawRxTail p v s) :=
  keepsNext_inRun h (keeps_ite h (keeps_ite (keeps_dbBad h) (keeps_modPart h)))

theorem keepsNext_execNetRawCfg {r : RingId} {k : Pkt} (h : Keeps s₀ s) : KeepsNext s₀ (execNetRawCfg r k s) :=
  keepsNext_inRun h (keeps_fwRun h fun _ hs _ => keepsFw_done (keeps_ite (keeps_rawTxGo (keeps_modPart hs)) (keeps_modPart hs)))

theorem keeps_rawFrameRx {p port sub : Nat} {bs : List Byte} (h : Keeps s₀ s) : Keeps s₀ (rawFrameRx s p port sub bs) := by
  unfold rawFrameRx
  extract_lets
  refine keeps_ite (keeps_modPart h) ?_
  split
  · exact keeps_modPart h
  · exact keeps_ite (keeps_modPart h) (keeps_modPart (keeps_wrVa (keeps_wrVa h)))

/-! ### Arrival (R290, R291, R294) -/

theorem keeps_rxErr {port : Nat} (h : Keeps s₀ s) : Keeps s₀ (rxErr s port) := keeps_modPort h

theorem keeps_rxNoMatch {port : Nat} (h : Keeps s₀ s) : Keeps s₀ (rxNoMatch s port) := keeps_modPort h

theorem keeps_delayAsk {d : Bool} (h : Keeps s₀ s) : Keeps s₀ (delayAsk s d) := by
  unfold delayAsk
  exact keeps_modDom (keeps_sendCtrl h)

theorem keeps_ptpDomRx {port sub sofNs : Nat} {x : EthHdr} {m : List Byte} {d : Bool} (h : Keeps s₀ s) :
    Keeps s₀ (ptpDomRx s port sub sofNs x m d) :=
  keeps_ite h (keeps_ite (keeps_modDom h) (keeps_ite (keeps_ite (keeps_delayAsk (keeps_newEstimate h))
    (keeps_newEstimate h)) h))

theorem keeps_pfcRx {port sub : Nat} {pay : List Byte} (h : Keeps s₀ s) : Keeps s₀ (pfcRx s port sub pay) := by
  unfold pfcRx
  extract_lets _ s1
  have h1 : Keeps s₀ s1 := keeps_foldl h fun _ _ hs => keeps_ite (keeps_modPort hs) hs
  exact keeps_startNext (keeps_ite (keeps_rxErr h1) h1)

theorem keeps_classify {port sub sofNs : Nat} {bs : List Byte} (h : Keeps s₀ s) : Keeps s₀ (classify s port sub sofNs bs) := by
  unfold classify
  extract_lets
  split
  · exact keeps_ptpDomRx (keeps_ptpDomRx h)
  · refine keeps_ite (keeps_ite (keeps_modTime h rfl rfl) h) ?_
    refine keeps_ite (keeps_pfcRx h) ?_
    refine keeps_ite ?_ ?_
    · split
      · exact keeps_fronthaulRx h
      · exact keeps_rxNoMatch h
    · split
      · exact keeps_ite (keeps_rocePacketRx (keeps_police h)) (keeps_police h)
      · split
        · exact keeps_rxNoMatch h
        · extract_lets
          split
          · exact keeps_police h
          · exact keeps_rawFrameRx (keeps_police h)

theorem keeps_pfcTx {port sub : Nat} {full : BitVec 8} (h : Keeps s₀ s) : Keeps s₀ (pfcTx s port sub full) :=
  keeps_foldl h fun _ _ hs => keeps_ite (keeps_emit hs) hs

theorem keepsNext_execEthRxFrame {f : RxFrame} (h : Keeps s₀ s) : KeepsNext s₀ (execEthRxFrame f s) :=
  keepsNext_inRun h (keeps_ite h (keeps_ite (keeps_rxErr (keeps_pfcTx h)) (keeps_settleNet (keeps_classify (keeps_pfcTx h)))))

/-! ### Departure (R294, R304, R305, R308) -/

theorem keepsNext_execFrameTxDone {port : Fin 8} {sub : Fin 4} (h : Keeps s₀ s) : KeepsNext s₀ (execFrameTxDone port sub s) :=
  keepsNext_inRun h (keeps_ite (keeps_settleNet (keeps_startNext (keeps_frameLeft h))) h)

theorem keepsNext_execRadioFrameDeadline {q : Fin 4096} (h : Keeps s₀ s) : KeepsNext s₀ (execRadioFrameDeadline q s) :=
  keepsNext_inRun h (keeps_purgeLate h)

theorem keepsNext_execPauseExpiry {port : Fin 8} {sub : Fin 4} {pri : Fin 8} (h : Keeps s₀ s) :
    KeepsNext s₀ (execPauseExpiry port sub pri s) :=
  keepsNext_inRun h (keeps_ite h (keeps_startNext (keeps_modPort h)))

theorem keepsNext_execShaperCreditZero {q : Fin 4096} (h : Keeps s₀ s) : KeepsNext s₀ (execShaperCreditZero q s) :=
  keepsNext_inRun h (keeps_ite h (keeps_startNext (keeps_settleCredit h)))

/-! ### Subports (R288, R289, R314-R316) -/

theorem keeps_subEvent {port sub code : Nat} (h : Keeps s₀ s) : Keeps s₀ (subEvent s port sub code) :=
  keeps_evPool (keeps_foldl h fun _ _ hs => keeps_evPart hs)

theorem keeps_zeroCredits {port sub : Nat} (h : Keeps s₀ s) : Keeps s₀ (zeroCredits s port sub) :=
  keeps_foldl h fun _ _ hs => keeps_modQ hs

theorem keeps_subDown {port sub : Nat} (h : Keeps s₀ s) : Keeps s₀ (subDown s port sub) := by
  unfold subDown
  extract_lets _ s1 s2
  have h1 : Keeps s₀ s1 := by
    unfold s1
    split
    · exact h
    · exact keeps_modQ h
  have h2 : Keeps s₀ s2 := keeps_modPort h1
  exact keeps_ite h (keeps_settleNet (keeps_refreshSynce (keeps_subEvent (keeps_zeroCredits h2))))

theorem keepsNext_execSubportDown {port : Fin 8} {sub : Fin 4} (h : Keeps s₀ s) : KeepsNext s₀ (execSubportDown port sub s) :=
  keepsNext_inRun h (keeps_subDown h)

theorem keepsNext_execSubportUp {port : Fin 8} {sub : Fin 4} (h : Keeps s₀ s) : KeepsNext s₀ (execSubportUp port sub s) :=
  keepsNext_inRun h (keeps_ite h (keeps_startNext (keeps_refreshSynce (keeps_subEvent (keeps_zeroCredits (keeps_modPort h))))))

theorem keepsNext_execHoldExpiry {port : Fin 8} {sub : Fin 4} (h : Keeps s₀ s) : KeepsNext s₀ (execHoldExpiry port sub s) :=
  keepsNext_inRun h (keeps_ite h (keeps_settleNet (keeps_foldl (keeps_modPort h) fun _ _ hs => keeps_flushQ hs)))

theorem keeps_portOn {n : Nat} (h : Keeps s₀ s) : Keeps s₀ (portOn s n) :=
  keeps_settleNet (keeps_foldl (keeps_modPort h) fun _ _ hs => keeps_disableQ hs)

theorem keeps_portOff {n : Nat} (h : Keeps s₀ s) : Keeps s₀ (portOff s n) :=
  keeps_foldl (keeps_modPort h) fun _ _ hs => keeps_subDown hs

end Sys2Proof.Machine
end

section
/-! PROOFS. What keeps the invariant, 13. Management: images, timers and the health exchange; memory and program commands of partitions. -/

namespace Sys2Proof.Machine

open Sys2Proof

variable {s₀ s : State}

/-! ### The image (R387) -/

theorem keepsNext_execCloveProgLoad {r : RingId} {k : Pkt} (h : Keeps s₀ s) : KeepsNext s₀ (execCloveProgLoad r k s) :=
  keepsNext_inRun h (keeps_fwRun h fun _ hs _ => keepsFw_done (keeps_update hs rfl))

theorem keepsNext_execCloveProgCommit {r : RingId} {k : Pkt} (h : Keeps s₀ s) : KeepsNext s₀ (execCloveProgCommit r k s) :=
  keepsNext_inRun h (keeps_fwRun h fun _ hs _ => keepsFw_wait (keeps_update hs rfl))

/-! ### Timers (R388, R390) -/

theorem keeps_evTarget {t code : Nat} {items : List (Nat × Nat)} (h : Keeps s₀ s) : Keeps s₀ (evTarget s t code items) :=
  keeps_ite (keeps_evPool h) (keeps_evPart h)

theorem keepsNext_execCloveTimer {i : Fin 512} (h : Keeps s₀ s) : KeepsNext s₀ (execCloveTimer i s) :=
  keepsNext_inRun h (keeps_ite (keeps_evTarget (keeps_update h rfl)) h)

theorem keeps_timersStep {swap : Bool} {b : Nat} (h : Keeps s₀ s) : Keeps s₀ (timersStep s swap b) :=
  keeps_foldl h fun _ _ hs => keeps_ite hs (keeps_update hs rfl)

/-! ### Detectors (R388, R390) -/

theorem keeps_edgeStep {i : Nat} (h : Keeps s₀ s) : Keeps s₀ (edgeStep s i) :=
  keeps_ite (keeps_ite h (keeps_update h rfl)) (keeps_ite (keeps_evTarget (keeps_ite h (keeps_update h rfl)))
    (keeps_ite h (keeps_update h rfl)))

theorem keeps_edgesStep (h : Keeps s₀ s) : Keeps s₀ (edgesStep s) := keeps_foldl h fun _ _ hs => keeps_edgeStep hs

/-! ### The exchange (R27, R362, R389, R390) -/

theorem keeps_exchange (h : Keeps s₀ s) : Keeps s₀ (exchange s).1 := by
  unfold exchange
  split
  · exact keeps_ite_fst h (keeps_completeWait (keeps_update (keeps_measure h) rfl))
  · exact h

theorem keeps_programStep (h : Keeps s₀ s) : Keeps s₀ (programStep s) := keeps_edgesStep (keeps_timersStep (keeps_exchange h))

/-! ### MEM_MAP and MEM_UNMAP (R326) -/

theorem keepsNext_execMemMap {r : RingId} {k : Pkt} (h : Keeps s₀ s) : KeepsNext s₀ (execMemMap r k s) :=
  keepsNext_inRun h (keeps_fwRun h fun _ hs _ => keepsFw_done (keeps_growTables (keeps_modPart hs)))

theorem keepsNext_execMemUnmap {r : RingId} {k : Pkt} (h : Keeps s₀ s) : KeepsNext s₀ (execMemUnmap r k s) :=
  keepsNext_inRun h (keeps_fwRun h fun _ hs _ => keepsFw_ite (keepsFw_wait (keeps_modPart hs))
    (keepsFw_done (keeps_modPart hs)))

/-! ### Descriptors (R113-R122) -/

theorem keeps_addDesc {p : Nat} {t : List Word} (h : Keeps s₀ s) : Keeps s₀ (addDesc s p t).2 := keeps_modPart h

theorem keepsNext_execDescCreate {r : RingId} {k : Pkt} (h : Keeps s₀ s) : KeepsNext s₀ (execDescCreate r k s) :=
  keepsNext_inRun h (keeps_fwRun h fun _ hs _ => keepsFw_done (keeps_addDesc hs))

theorem keepsNext_execDescDestroy {r : RingId} {k : Pkt} (h : Keeps s₀ s) : KeepsNext s₀ (execDescDestroy r k s) := by
  unfold execDescDestroy
  exact keepsNext_inRun h (keeps_fwRun h fun _ hs _ => keepsFw_done (keeps_modPart hs))

/-! ### CARD_IMAGE (R125, R126, R131) -/

theorem keeps_loadCard {p c e : Nat} {im : List Word} {hs : Tab Nat} (h : Keeps s₀ s) : Keeps s₀ (loadCard s p c e im hs) :=
  keeps_foldl (keeps_modPart (keeps_modEng h)) fun _ _ hs => keeps_modEq hs

theorem keepsNext_execCardLoad {r : RingId} {k : Pkt} (h : Keeps s₀ s) : KeepsNext s₀ (execCardLoad r k s) := by
  unfold execCardLoad
  exact keepsNext_inRun h (keeps_fwRun h fun _ hs _ => keepsFw_done (keeps_loadCard hs))

/-! ### CSP images (R154, R157, R158, R160, R167) -/

theorem keepsNext_execCspLoad {r : RingId} {k : Pkt} (h : Keeps s₀ s) : KeepsNext s₀ (execCspLoad r k s) := by
  unfold execCspLoad
  exact keepsNext_inRun h (keeps_fwRun h fun _ hs _ => keepsFw_ite (keepsFw_wait (keeps_modCsp hs))
    (keepsFw_done (keeps_startCsp hs)))

/-! ### Program binaries -/

theorem keepsNext_execProgLoad {r : RingId} {k : Pkt} (h : Keeps s₀ s) : KeepsNext s₀ (execProgLoad r k s) :=
  keepsNext_inRun h (keeps_fwRun h fun _ hs _ => keepsFw_done (keeps_modPart hs))

theorem keepsNext_execProgUnload {r : RingId} {k : Pkt} (h : Keeps s₀ s) : KeepsNext s₀ (execProgUnload r k s) := by
  unfold execProgUnload
  exact keepsNext_inRun h (keeps_fwRun h fun _ hs _ => keepsFw_done (keeps_modPart hs))

/-! ### Placing shards (R447) -/

theorem keeps_placeDescs {x : Placing} {p c first : Nat} {ss : List Section} (h : Keeps s₀ x.s) :
    Keeps s₀ (placeDescs x p c first ss).1.s :=
  List.foldlRecOn (motive := fun acc : Placing × Tab Nat => Keeps s₀ acc.1.s) ss _ h fun _ hacc _ _ => by
    dsimp only
    split
    · exact keeps_addDesc hacc
    · exact hacc

theorem keeps_placeCard {x : Placing} {p c : Nat} {hs : Tab Nat} {y : Section} (h : Keeps s₀ x.s) :
    Keeps s₀ (placeCard x p c hs y).s := by
  unfold placeCard
  extract_lets
  split
  · exact keeps_loadCard h
  · exact h

theorem keeps_placeCsp {x : Placing} {p c : Nat} {y : Section} (h : Keeps s₀ x.s) : Keeps s₀ (placeCsp x p c y).s := by
  unfold placeCsp
  extract_lets
  split
  · exact keeps_startCsp h
  · exact h

theorem keeps_placeStream {x : Placing} {p c first : Nat} {y : Section} (h : Keeps s₀ x.s) :
    Keeps s₀ (placeStream x p c first y).s := by
  unfold placeStream
  extract_lets
  split
  · exact h
  · exact keeps_modLa h

/-- Of the pieces of a program placed one after another, each keeps the invariant. -/
theorem keeps_foldl_placing {β : Type} {f : Placing → β → Placing} {x : Placing} {l : List β} (h : Keeps s₀ x.s)
    (hf : ∀ x y, Keeps s₀ x.s → Keeps s₀ (f x y).s) : Keeps s₀ (l.foldl f x).s :=
  List.foldlRecOn (motive := fun x => Keeps s₀ x.s) l f h fun x hx y _ => hf x y hx

theorem keeps_placeShard {x : Placing} {p shard c first : Nat} {g : Prog} {again : Bool} (h : Keeps s₀ x.s) :
    Keeps s₀ (placeShard x p g again shard c first).s := by
  refine keeps_foldl_placing (keeps_foldl_placing (keeps_foldl_placing (keeps_placeDescs h) ?_) ?_) ?_
  · exact fun _ _ hx => keeps_placeCard hx
  · exact fun _ _ hx => keeps_placeCsp hx
  · exact fun _ _ hx => keeps_placeStream hx

theorem keeps_dropPlaced {p : Nat} {hs : List Nat} (h : Keeps s₀ s) : Keeps s₀ (dropPlaced s p hs) :=
  keeps_foldl h fun _ _ hs => keeps_ite hs (keeps_modPart hs)

end Sys2Proof.Machine
end

section
/-! PROOFS. What keeps the invariant, 14. Partitions: resources given and taken, resets and freezes. -/

namespace Sys2Proof.Machine

open Sys2Proof

variable {s₀ s : State}

/-! ### Giving and taking resources -/

theorem keeps_giveCsp {c p : Nat} {radio : Bool} {x : Nat} (h : Keeps s₀ s) : Keeps s₀ (giveCsp c p radio s x) :=
  keeps_ite (keeps_modCsp h) (keeps_ownCsp (keeps_openFences h))

theorem keeps_giveCluster {p typ : Nat} {e : List Word} (h : Keeps s₀ s) : Keeps s₀ (giveCluster s p typ e) := by
  unfold giveCluster
  extract_lets
  exact keeps_foldl (keeps_modClu_sram h fun _ hcl => pmemWf_foldl_clearPMem _ _ _ hcl) fun _ _ hs => keeps_giveCsp hs

theorem keeps_holdCreation {p : Nat} {cs : List Nat} (h : Keeps s₀ s) : Keeps s₀ (holdCreation s p cs) :=
  keeps_foldl h fun _ _ hs => keeps_ite (keeps_update (keeps_modPc (keeps_ite (keeps_modPc hs) hs)) rfl)
    (keeps_modPc (keeps_ite (keeps_modPc hs) hs))

theorem keepsFw_noticeWait {p : Nat} {res : List Word} (h : Keeps s₀ s) : KeepsFw s₀ (noticeWait s p res) :=
  keepsFw_ite (keepsFw_wait h) (keepsFw_done h)

/-- Entries left out of the rings' table keep the invariant. -/
theorem keeps_dropRings {p : Nat} (h : Keeps s₀ s) : Keeps s₀ (dropRings s p) := by
  refine h.step (fun ⟨⟨hr, hc⟩, ht⟩ => ⟨⟨?_, hc⟩, ht⟩) (FusesAdvance.refl _) rfl
  unfold dropRings tabDrop
  dsimp only
  exact tabWf_tabKeep _ _ hr

theorem keepsNext_execPartCreate {r : RingId} {k : Pkt} (h : Keeps s₀ s) : KeepsNext s₀ (execPartCreate r k s) := by
  refine keepsNext_inRun h (keeps_fwRun h fun s hs _ => ?_)
  extract_lets p l pages key s1 _ s2 _ s3 _ s4 s5 s6 s7 s8
  have h2 : Keeps s₀ s2 := keeps_update (keeps_takeFree (w := 512) hs) rfl
  have h3 : Keeps s₀ s3 := keeps_hbm h2 fun hm => pmemWf_foldl_clearPMem _ _ _ hm
  have h4 : Keeps s₀ s4 := keeps_modPart (keeps_dropRings h3)
  have h5 : Keeps s₀ s5 := keeps_update h4 rfl
  have h6 : Keeps s₀ s6 := keeps_foldl h5 fun _ _ ht => keeps_giveCluster ht
  have h8 : Keeps s₀ s8 := keeps_growTables (keeps_holdCreation h6)
  clear_value s8
  exact keepsFw_noticeWait (keeps_noticeCheck (keeps_sendNotice h8))

theorem keeps_returnPages {pages : List Nat} (h : Keeps s₀ s) : Keeps s₀ (returnPages s pages) :=
  keeps_foldl h fun _ _ hs => keeps_ite (keeps_retirePage (keeps_update hs rfl)) (keeps_update hs rfl)

theorem keeps_leaveEth {p : Nat} (h : Keeps s₀ s) : Keeps s₀ (leaveEth s p) :=
  keeps_update (keeps_foldl h fun _ _ hs => keeps_disableQ hs) rfl

theorem keepsNext_execPartDestroy {r : RingId} {k : Pkt} (h : Keeps s₀ s) : KeepsNext s₀ (execPartDestroy r k s) := by
  unfold execPartDestroy
  extract_lets p
  refine keepsNext_inRun h (keeps_fwRun h fun s hs _ => ?_)
  extract_lets P cs s1 s2 s3 _ _ _ s4 s5 s6
  have h2 : Keeps s₀ s2 := keeps_foldl (keeps_stopPart hs) fun _ _ ht => keeps_dropExport ht
  have h3 : Keeps s₀ s3 := keeps_leaveEth (keeps_dropTables (keeps_returnPages h2))
  clear_value s3
  have h4 : Keeps s₀ s4 :=
    (keeps_tabMapV_clusters (f := leaveCluster p) h3 fun _ hcl => hcl).step id (FusesAdvance.refl _) rfl
  have h6 : Keeps s₀ s6 := keeps_holdCreation (keeps_dropRings (keeps_modPart h4))
  clear_value s6
  exact keepsFw_noticeWait (keeps_noticeCheck (keeps_sendNotice h6))

/-! ### PART_RESET (R341-R343) -/

theorem keepsNext_execPartReset {r : RingId} {k : Pkt} (h : Keeps s₀ s) : KeepsNext s₀ (execPartReset r k s) := by
  unfold execPartReset
  extract_lets p
  refine keepsNext_inRun h (keeps_fwRun h fun s hs _ => ?_)
  have h1 : Keeps s₀ (resetPart s p false) := keeps_resetPart hs
  generalize resetPart s p false = s1 at h1 ⊢
  exact keepsFw_ite (keepsFw_wait h1) (keepsFw_noticeWait h1)

theorem keepsNext_execGenerationWrap {p : Fin 64} (h : Keeps s₀ s) : KeepsNext s₀ (execGenerationWrap p s) :=
  keepsNext_inRun h (keeps_ite h (keeps_advanceGen (keeps_update h rfl)))

/-! ### PART_FREEZE, PART_THAW, DIRTY_SWAP (R345, R346) -/

theorem keepsNext_execPartFreeze {r : RingId} {k : Pkt} (h : Keeps s₀ s) : KeepsNext s₀ (execPartFreeze r k s) := by
  unfold execPartFreeze
  exact keepsNext_inRun h (keeps_fwRun h fun _ hs _ => keepsFw_wait (keeps_modPart hs))

theorem keepsNext_execPartThaw {r : RingId} {k : Pkt} (h : Keeps s₀ s) : KeepsNext s₀ (execPartThaw r k s) := by
  unfold execPartThaw
  exact keepsNext_inRun h (keeps_fwRun h fun _ hs _ => keepsFw_wait (keeps_modPart hs))

theorem keepsNext_execDirtySwap {r : RingId} {k : Pkt} (h : Keeps s₀ s) : KeepsNext s₀ (execDirtySwap r k s) := by
  unfold execDirtySwap
  exact keepsNext_inRun h (keeps_fwRun h fun _ hs _ => keepsFw_wait hs)

end Sys2Proof.Machine
end

section
/-! PROOFS. What keeps the invariant, 15. Array groups: failures, substitution, tasks, launches, twins and claims. -/

namespace Sys2Proof.Machine

open Sys2Proof

variable {s₀ s : State}

/-! ### Array groups -/

theorem keeps_dropWork {p : Nat} {engs ctxs descs : List Nat} (h : Keeps s₀ s) : Keeps s₀ (dropWork s p engs ctxs descs) :=
  keeps_dropPlaced (keeps_foldl (keeps_foldl h fun _ _ hs => keeps_dropEngine hs) fun _ _ hs => keeps_askStop hs)

/-! ### Array failures -/

theorem keeps_arrayLost {c l cause : Nat} (h : Keeps s₀ s) : Keeps s₀ (arrayLost s c l cause) :=
  keeps_foldl (keeps_modLa (keeps_modClu h fun _ => rfl)) fun _ _ hs => keeps_faultStop hs

theorem keeps_spareFailed {c l cause : Nat} (h : Keeps s₀ s) : Keeps s₀ (spareFailed s c l cause) :=
  keeps_evPool (keeps_foldl (keeps_update (keeps_modPa (keeps_modLa (keeps_modClu h fun _ => rfl))) rfl) fun _ _ hs =>
    keeps_evPart (keeps_disturb hs))

theorem keeps_spareTakesLower {c l l' cause : Nat} (h : Keeps s₀ s) : Keeps s₀ (spareTakesLower s c l l' cause) :=
  keeps_arrayLost (keeps_spareFailed (keeps_modClu (keeps_modPa h) fun _ => rfl))

theorem keeps_absorbFailure {c a cause : Nat} (h : Keeps s₀ s) : Keeps s₀ (absorbFailure s c a cause) := by
  unfold absorbFailure
  extract_lets
  refine keeps_ite ?_ ?_
  · split
    · exact keeps_arrayLost h
    · exact h
  · split
    · exact keeps_ite (keeps_arrayLost h) (keeps_spareFailed h)
    · exact keeps_ite h (keeps_ite (keeps_spareTakesLower h) (keeps_arrayLost h))

theorem keeps_recordFailure {c a cause : Nat} (h : Keeps s₀ s) : Keeps s₀ (recordFailure s c a cause) :=
  keeps_ite (keeps_modClu h fun _ => rfl) (keeps_absorbFailure (keeps_modClu h fun _ => rfl))

theorem keepsNext_execArrayWatchdog {c : Fin 20} {a : Fin 17} (h : Keeps s₀ s) : KeepsNext s₀ (execArrayWatchdog c a s) :=
  keepsNext_inRun h (keeps_ite (keeps_recordFailure (keeps_modPa h)) h)

theorem keepsNext_execRegisterParityError {c : Fin 20} {a : Fin 17} (h : Keeps s₀ s) :
    KeepsNext s₀ (execRegisterParityError c a s) :=
  keepsNext_inRun h (keeps_recordFailure h)

theorem keepsNext_execSpareStart {c : Fin 20} (h : Keeps s₀ s) : KeepsNext s₀ (execSpareStart c s) :=
  keepsNext_inRun h (keeps_ite (keeps_modClu h fun _ => rfl) h)

/-! ### The substitution at a boundary -/

theorem keeps_restoreEngine {c e : Nat} {sv : EngSave} {saves : List EngSave} (h : Keeps s₀ s) :
    Keeps s₀ (restoreEngine s c e sv saves) :=
  keeps_modEng h

theorem keeps_replayEngine {qs : List Nat} {c e : Nat} (h : Keeps s₀ s) : Keeps s₀ (replayEngine qs c s e) := by
  unfold replayEngine
  extract_lets
  split
  · exact h
  · exact keeps_restoreEngine (keeps_flushQs h)

theorem keeps_takeBack {sls : List Slice} {c q : Nat} (h : Keeps s₀ s) : Keeps s₀ (takeBack sls c s q) := keeps_modEq h

theorem keeps_portBack {c e q : Nat} (h : Keeps s₀ s) : Keeps s₀ (portBack s c e q) := by
  unfold portBack
  extract_lets
  split
  · exact keeps_ite (keeps_modEngPort h) h
  · exact h

theorem keeps_replayTaker {sls : List Slice} {outs : List Nat} {c e : Nat} {acc : State × Tab Nat} (h : Keeps s₀ acc.1) :
    Keeps s₀ (replayTaker sls outs c acc e).1 := by
  unfold replayTaker
  extract_lets
  refine keeps_ite_fst (keeps_foldl h fun _ _ hs => keeps_ite (keeps_portBack hs) hs) ?_
  split
  · exact keeps_restoreEngine h
  · exact h

theorem keeps_substitute {c : Nat} (h : Keeps s₀ s) : Keeps s₀ (substitute s c) := by
  unfold substitute
  split
  · exact h
  · refine keeps_foldl (keeps_modClu (keeps_modPa (keeps_modLa (keeps_foldl ?_ fun _ _ hs => keeps_takeBack hs))) fun _ => rfl)
      fun _ _ hs => keeps_replayEngine hs
    exact keeps_foldl_fst h fun _ _ hacc => keeps_replayTaker hacc

/-! ### Slices that outlast their array (R70) -/

theorem keeps_abortOp {c l p id : Nat} {d : List Word} (h : Keeps s₀ s) : Keeps s₀ (abortOp s c l p id d) :=
  keeps_ite (keeps_modLa h) (keeps_opDone (keeps_emit h))

theorem keeps_stopFeeders {c p : Nat} {ops : List (List Word)} (h : Keeps s₀ s) : Keeps s₀ (stopFeeders s c p ops) :=
  keeps_flushQs (keeps_foldl (keeps_foldl h fun _ _ hs => keeps_modEng hs) fun _ _ hs => keeps_haltEngine hs)

theorem keeps_stopSlice {c l p : Nat} {ctx : Bool} (h : Keeps s₀ s) : Keeps s₀ (stopSlice s c l p ctx) :=
  keeps_closeSlice (keeps_stopFeeders (keeps_foldl (keeps_modSlice (keeps_modLa h)) fun _ _ hs => keeps_abortOp hs))

theorem keeps_stopClosing {c l p : Nat} (h : Keeps s₀ s) : Keeps s₀ (stopClosing s c l p) :=
  keeps_foldl (keeps_modLa (keeps_foldl h fun _ _ hs => keeps_modSlice hs)) fun _ _ hs => keeps_stopFeeders hs

theorem keeps_takeArray {p c l : Nat} (h : Keeps s₀ s) : Keeps s₀ (takeArray s p c l) :=
  keeps_ite (keeps_emit (keeps_foldl (keeps_stopClosing h) fun _ _ hs => keeps_ite (keeps_stopSlice hs)
    (keeps_ite (keeps_closeSlice hs) hs))) (keeps_foldl (keeps_stopClosing h) fun _ _ hs => keeps_ite (keeps_stopSlice hs)
    (keeps_ite (keeps_closeSlice hs) hs))

/-! ### The drain -/

theorem keeps_drainBytes {dr : Drain} {base : Nat} (h : Keeps s₀ s) : Keeps s₀ (drainBytes s dr base).2 :=
  keeps_ite_snd (keeps_update h rfl) h

theorem keeps_rowDone {c l : Nat} {dr : Drain} (h : Keeps s₀ s) : Keeps s₀ (rowDone s c l dr) :=
  keeps_ite (keeps_modLa h) (keeps_opDone (keeps_emit (keeps_cspWake (keeps_modLa h))))

theorem keeps_pushRow {c l : Nat} {dr : Drain} (h : Keeps s₀ s) : Keeps s₀ (pushRow s c l dr) := by
  unfold pushRow
  extract_lets _ _ _ _ _ s1 s2 s3
  have h1 : Keeps s₀ s1 := keeps_ite (keeps_modEq (keeps_drainBytes h)) (keeps_drainBytes h)
  have h2 : Keeps s₀ s2 := keeps_pushFor h1
  have h3 : Keeps s₀ s3 := keeps_ite (keeps_modSlice h2) h2
  exact keeps_ite (keeps_rowDone h) (keeps_ite h (keeps_ite h (keeps_rowDone h3)))

theorem keepsNext_execDrainRowPush {c : Fin 20} {a : Fin 16} {errs : List (Nat × Int)} (h : Keeps s₀ s) :
    KeepsNext s₀ (execDrainRowPush c a errs s) := by
  unfold execDrainRowPush
  refine keepsNext_inRun h ?_
  extract_lets
  split
  · exact h
  · exact keeps_ite h (keeps_ite (keeps_ite (keeps_pushRow h) (keeps_recordFailure h)) (keeps_pushRow h))

/-! ### Tasks (R329, R333) -/

theorem keepsNext_execTaskSubmit {r : RingId} {k : Pkt} (h : Keeps s₀ s) : KeepsNext s₀ (execTaskSubmit r k s) :=
  keepsNext_inRun h (keeps_fwRun h fun _ hs _ => keepsFw_wait (keeps_modPart hs))

theorem keeps_closeGroups {p : Nat} {groups : List Nat} (h : Keeps s₀ s) : Keeps s₀ (closeGroups s p groups) :=
  keeps_foldl h fun _ _ hs => keeps_foldl hs fun _ _ hs1 => keeps_foldl hs1 fun _ _ hs2 => keeps_ite (keeps_closeSlice hs2) hs2

theorem keeps_finishTask {p : Nat} {t : Machine.Task} {status : Nat} (h : Keeps s₀ s) : Keeps s₀ (finishTask s p t status) :=
  keeps_completeWhere (keeps_update (keeps_modPart (keeps_dropWork h)) rfl)

theorem keepsNext_execTaskEnd {p : Fin 64} {task : Nat} (h : Keeps s₀ s) : KeepsNext s₀ (execTaskEnd p task s) := by
  unfold execTaskEnd
  refine keepsNext_inRun h ?_
  split
  · exact h
  · extract_lets s1
    have h1 : Keeps s₀ s1 := keeps_closeGroups h
    refine keeps_ite h ?_
    split
    · exact h1
    · exact keeps_finishTask h1

/-! ### Announced revocations (R28) -/

theorem keeps_revokeGroups {ks : List Nat} {b : Nat} (h : Keeps s₀ s) : Keeps s₀ (revokeGroups s ks b) :=
  keeps_foldl h fun _ _ hs => keeps_ite hs (keeps_modPart hs)

theorem keeps_announce (h : Keeps s₀ s) : Keeps s₀ (announce s) :=
  keeps_foldl h fun _ _ hs => keeps_foldl hs fun _ _ hs1 => keeps_foldl hs1 fun _ _ hs2 => keeps_modLa hs2

/-! ### Launches (R240-R242, R249) -/

theorem keepsNext_execLaunchAt {r : RingId} {k : Pkt} (h : Keeps s₀ s) : KeepsNext s₀ (execLaunchAt r k s) :=
  keepsNext_inRun h (keeps_fwRun h fun _ hs _ => keepsFw_wait (keeps_ite
    (keeps_announce (keeps_revokeGroups (keeps_modPart hs))) (keeps_modPart hs)))

theorem keeps_finishRun {p status : Nat} (h : Keeps s₀ s) : Keeps s₀ (finishRun s p status) :=
  keeps_completeWhere (keeps_modPart (keeps_update h rfl))

theorem keeps_checkRunEnd {p : Nat} (h : Keeps s₀ s) : Keeps s₀ (checkRunEnd s p) := by
  unfold checkRunEnd
  split
  · exact h
  · exact keeps_ite (keeps_finishRun h) h

theorem keepsNext_execRunEnd {p : Fin 64} (h : Keeps s₀ s) : KeepsNext s₀ (execRunEnd p s) := by
  unfold execRunEnd
  refine keepsNext_inRun h ?_
  split
  · exact h
  · exact keeps_ite h (keeps_checkRunEnd (keeps_modPart (keeps_ite (keeps_dropWork (keeps_closeGroups h))
      (keeps_update (keeps_dropWork (keeps_closeGroups h)) rfl))))

/-! ### Twin comparison (R245-R247) -/

theorem keeps_compareTwin {p : Nat} {m : TwinMsg} (h : Keeps s₀ s) : Keeps s₀ (compareTwin s p m) := by
  unfold compareTwin
  extract_lets
  split
  · exact h
  · extract_lets _ diff₁ s1 s2
    have h1 : Keeps s₀ s1 := keeps_modPart h
    have h2 : Keeps s₀ s2 := keeps_modPart h1
    clear_value diff₁
    split
    · exact keeps_checkRunEnd h1
    · extract_lets _ _ s3
      have h3 : Keeps s₀ s3 := keeps_evPool (keeps_evPart (keeps_noteFlag (keeps_modPart h2)))
      exact keeps_ite (keeps_checkRunEnd (keeps_modPart h1)) (keeps_ite
        (keeps_checkRunEnd (keeps_evPool (keeps_evPart (keeps_noteFlag (keeps_modPart h2)))))
        (keeps_ite (keeps_sendOn (keeps_modPart h3)) (keeps_checkRunEnd h3)))

theorem keeps_loseTwin {p : Nat} (h : Keeps s₀ s) : Keeps s₀ (loseTwin s p) :=
  keeps_checkRunEnd (keeps_evPart (keeps_noteFlag (keeps_modPart h)))

theorem keepsNext_execTwinSignatureRx {p : Fin 64} {m : Rx TwinMsg} (h : Keeps s₀ s) :
    KeepsNext s₀ (execTwinSignatureRx p m s) := by
  unfold execTwinSignatureRx
  refine keepsNext_inRun h ?_
  extract_lets s1
  have h1 : Keeps s₀ s1 := keeps_ite (keeps_freeRx h) h
  split
  · exact h1
  · exact keeps_ite h1 (keeps_ite (keeps_ite h1 (keeps_ite (keeps_loseTwin h1) (keeps_compareTwin h1)))
      (keeps_ite (keeps_modPart h1) h1))

theorem keeps_loseOpen {p : Nat} (h : Keeps s₀ s) : Keeps s₀ (loseOpen s p) := keeps_ite (keeps_loseTwin h) h

theorem keepsNext_execTwinLost {p : Fin 64} (h : Keeps s₀ s) : KeepsNext s₀ (execTwinLost p s) :=
  keepsNext_inRun h (keeps_ite (keeps_loseTwin h) h)

theorem keepsNext_execFreezeNoticeRx {p : Fin 64} {runId : Rx Word} (h : Keeps s₀ s) :
    KeepsNext s₀ (execFreezeNoticeRx p runId s) := by
  unfold execFreezeNoticeRx
  refine keepsNext_inRun h ?_
  extract_lets s1
  have h1 : Keeps s₀ s1 := keeps_ite (keeps_freeRx h) h
  split
  · exact h1
  · exact keeps_ite (keeps_modPart h1) h1

/-! ### RAD_CLAIM (R337) -/

theorem keepsNext_execRadClaim {r : RingId} {k : Pkt} (h : Keeps s₀ s) : KeepsNext s₀ (execRadClaim r k s) :=
  keepsNext_inRun h (keeps_fwRun h fun _ hs _ => keepsFw_wait (keeps_update hs rfl))

/-! ### Charges (R332) -/

theorem keeps_chargeAll {l : List (Nat × Nat)} (h : Keeps s₀ s) : Keeps s₀ (chargeAll s l) :=
  keeps_foldl h fun _ _ hs => keeps_ite hs (keeps_modPart hs)

/-! ### Revocations -/

theorem keeps_takeArrays {p : Nat} {ks : List Nat} (h : Keeps s₀ s) : Keeps s₀ (takeArrays s p ks) :=
  keeps_foldl h fun _ _ hs => keeps_takeArray hs

theorem keeps_dropStreams {p : Nat} {ks : List Nat} (h : Keeps s₀ s) : Keeps s₀ (dropStreams s p ks) :=
  keeps_foldl h fun _ _ hs => keeps_modLa hs

theorem keeps_takeTask {p : Nat} {t : Machine.Task} (h : Keeps s₀ s) : Keeps s₀ (takeTask s p t) :=
  keeps_modPart (keeps_dropWork (keeps_dropStreams (keeps_takeArrays h)))

theorem keeps_takeWhere {pick : Machine.Part → Machine.Task → Bool} (h : Keeps s₀ s) : Keeps s₀ (takeWhere s pick) :=
  keeps_foldl h fun _ _ hs => keeps_foldl hs fun _ _ hs1 => keeps_takeTask hs1

/-! ### Freezes and thaws (R248, R346) -/

theorem keeps_freezeStep {p : Nat} (h : Keeps s₀ s) : Keeps s₀ (freezeStep s p) :=
  keeps_ite (keeps_checkQuiet (keeps_modPart (keeps_takeArrays h))) (keeps_ite (keeps_completeWait (keeps_modPart h)) h)

theorem keeps_twinFreeze {p : Nat} (h : Keeps s₀ s) : Keeps s₀ (twinFreeze s p) := by
  unfold twinFreeze
  split
  · exact h
  · exact keeps_ite h (keeps_completeWhere (keeps_modPart h))

/-! ### Launches (R224, R239, R242) -/

theorem keeps_placeLocal {x : Placing} {p : Nat} {g : Prog} {again : Bool} {l : List Shard} (h : Keeps s₀ x.s) :
    Keeps s₀ (placeLocal x p g again l).s :=
  keeps_foldl_placing h fun _ _ hx => by
    split
    · exact keeps_placeShard hx
    · exact hx

theorem keeps_failLaunch {p status : Nat} (h : Keeps s₀ s) : Keeps s₀ (failLaunch s p status) :=
  keeps_completeWhere (keeps_modPart h)

theorem keeps_startLaunch {p : Nat} {L : Launch} (h : Keeps s₀ s) : Keeps s₀ (startLaunch s p L) := by
  unfold startLaunch
  extract_lets ks s0 s1 s2 x
  have h0 : Keeps s₀ s0 := keeps_takeWhere h
  have h1 : Keeps s₀ s1 := keeps_modPart h0
  have hx : Keeps s₀ x.s := keeps_placeLocal (keeps_ite (keeps_disturb h1) h1)
  exact keeps_ite (keeps_failLaunch h) (keeps_ite (keeps_modPart hx) (keeps_failLaunch h0))

theorem keeps_launchStep {p : Nat} (h : Keeps s₀ s) : Keeps s₀ (launchStep s p) := by
  unfold launchStep
  split
  · exact h
  · exact keeps_ite (keeps_startLaunch h) h

/-! ### Radio claims (R337-R339) -/

theorem keeps_decideClaim {c : Claim} (h : Keeps s₀ s) : Keeps s₀ (decideClaim s c) :=
  keeps_ite (keeps_completeWait (keeps_update h rfl)) (keeps_completeWait (keeps_wrA (keeps_update (keeps_update h rfl) rfl)))

theorem keeps_claimStep (h : Keeps s₀ s) : Keeps s₀ (claimStep s) :=
  keeps_foldl (keeps_update h rfl) fun _ _ hs => keeps_decideClaim hs

/-! ### Placing tasks (R330, R334, R335) -/

theorem keeps_dealShards {x : Placing} {p : Nat} {g : Prog} {again : Bool} {ks : List Nat} (h : Keeps s₀ x.s) :
    Keeps s₀ (dealShards x p g again ks).s :=
  keeps_foldl_placing h fun _ _ hx => keeps_placeShard hx

theorem keeps_placeTask {p : Nat} {t : Machine.Task} {ks : List Nat} (h : Keeps s₀ s) : Keeps s₀ (placeTask s p t ks) := by
  unfold placeTask
  extract_lets s1 g x
  have h1 : Keeps s₀ s1 := keeps_modPart h
  have hx : Keeps s₀ x.s := by
    unfold x
    split
    · exact keeps_dealShards h1
    · exact keeps_placeLocal h1
  exact keeps_ite (keeps_modPart hx) (keeps_finishTask h)

theorem keeps_promote (h : Keeps s₀ s) : Keeps s₀ (promote s) := keeps_foldl h fun _ _ hs => keeps_ite hs (keeps_modPart hs)

theorem keeps_revokeUntil {p need n : Nat} {ks taken : List Nat} (h : Keeps s₀ s) : Keeps s₀ (revokeUntil s p ks taken need n) := by
  induction n generalizing s with
  | zero => exact h
  | succ n ih =>
    unfold revokeUntil
    refine keeps_ite h ?_
    split
    · exact h
    · exact ih (keeps_modPart h)

theorem keeps_considerTask {acc : State × List Nat} {x : Nat × Machine.Task} (h : Keeps s₀ acc.1) :
    Keeps s₀ (considerTask acc x).1 :=
  keeps_ite_fst (keeps_placeTask h) (keeps_ite_fst h (keeps_revokeUntil h))

theorem keeps_taskStep (h : Keeps s₀ s) : Keeps s₀ (taskStep s) :=
  keeps_foldl_fst (keeps_promote h) fun _ _ hacc => keeps_considerTask hacc

/-! ### What the next boundary takes -/

theorem keeps_noticeStep (h : Keeps s₀ s) : Keeps s₀ (noticeStep s) :=
  keeps_foldl (keeps_revokeGroups h) fun _ _ hs => keeps_modPart hs

/-! ### Who holds each array -/

theorem keeps_giveArray {c l : Nat} {new : Option Nat} (h : Keeps s₀ s) : Keeps s₀ (giveArray s c l new) := by
  unfold giveArray
  extract_lets _ s1 _ _ s2
  have h1 : Keeps s₀ s1 := by
    unfold s1
    split
    · exact keeps_takeArray h
    · exact h
  have h2 : Keeps s₀ s2 := keeps_ite (keeps_modClu h1 fun _ => rfl) h1
  refine keeps_ite h ?_
  split
  · exact keeps_modLa h1
  · exact keeps_modLa (keeps_ite h2 (keeps_modPa h2))

theorem keeps_giveGroup {k : Nat} (h : Keeps s₀ s) : Keeps s₀ (giveGroup s k) := keeps_foldl h fun _ _ hs => keeps_giveArray hs

theorem keeps_giveSaffron {c : Nat} (h : Keeps s₀ s) : Keeps s₀ (giveSaffron s c) := keeps_giveArray (keeps_giveArray h)

theorem keeps_assignStep (h : Keeps s₀ s) : Keeps s₀ (assignStep s) := by
  refine keeps_update (keeps_foldl (keeps_foldl (keeps_tabMapV_clusters h fun _ hcl => hcl) ?_) ?_) rfl
  · exact fun _ _ hs => keeps_giveGroup hs
  · exact fun _ _ hs => keeps_giveSaffron hs

theorem keeps_scheduleStep {charges : List (Nat × Nat)} (h : Keeps s₀ s) : Keeps s₀ (scheduleStep s charges) := by
  unfold scheduleStep
  extract_lets s1 s2 s3 s4 s5
  have h1 : Keeps s₀ s1 := keeps_takeWhere h
  have h2 : Keeps s₀ s2 := keeps_foldl h1 fun _ _ hs => keeps_freezeStep hs
  have h3 : Keeps s₀ s3 := keeps_foldl h2 fun _ _ hs => keeps_twinFreeze hs
  have h4 : Keeps s₀ s4 := keeps_foldl h3 fun _ _ hs => keeps_launchStep hs
  have h5 : Keeps s₀ s5 := keeps_taskStep (keeps_claimStep h4)
  exact keeps_announce (keeps_assignStep (keeps_chargeAll (keeps_noticeStep h5)))

end Sys2Proof.Machine
end

section
/-! PROOFS. What keeps the invariant, 16. Power, cluster tests, service commands and the UART. -/

namespace Sys2Proof.Machine

open Sys2Proof

variable {s₀ s : State}

/-! ### Throttling (R383, R384) -/

theorem keeps_applyAction {a : Option PwrAction} (h : Keeps s₀ s) : Keeps s₀ (applyAction s a) := by
  unfold applyAction
  extract_lets
  split
  · exact keeps_ite h (keeps_update (keeps_modPc h) rfl)
  · exact keeps_ite h (keeps_update (keeps_modPart h) rfl)
  · split
    · exact h
    · extract_lets s1
      have h1 : Keeps s₀ s1 := keeps_update h rfl
      split
      · exact keeps_modPc h1
      · exact keeps_modPart h1

theorem keeps_throttleRuns {a : Option PwrAction} (h : Keeps s₀ s) : Keeps s₀ (throttleRuns s a) := by
  unfold throttleRuns
  split
  · exact keeps_foldl h fun _ _ hs => keeps_disturb hs
  · exact keeps_disturb h
  · exact h

theorem keeps_pruneActions (h : Keeps s₀ s) : Keeps s₀ (pruneActions s) := keeps_update h rfl

theorem keeps_applyDue (h : Keeps s₀ s) : Keeps s₀ (applyDue s) :=
  keeps_foldl (keeps_update h rfl) fun _ _ hs => keeps_throttleRuns (keeps_applyAction hs)

theorem keeps_throttleEvents {old : State} (h : Keeps s₀ s) : Keeps s₀ (throttleEvents old s) := by
  unfold throttleEvents
  extract_lets s1
  have h1 : Keeps s₀ s1 := keeps_foldl h fun _ _ hs => keeps_ite (keeps_evPart hs) hs
  exact keeps_ite (keeps_evPool h1) h1

theorem keeps_decidePower {env : BoundaryEnv} (h : Keeps s₀ s) : Keeps s₀ (decidePower s env) := by
  unfold decidePower
  extract_lets _ _ _ _ _ _ s1 _ s2 _ s3
  have h1 : Keeps s₀ s1 := keeps_foldl h fun _ _ hs => keeps_applyAction hs
  have h2 : Keeps s₀ s2 := keeps_update h rfl
  have h3 : Keeps s₀ s3 := keeps_update h2 rfl
  refine keeps_ite ?_ (keeps_ite (keeps_update h rfl) (keeps_ite (keeps_update h rfl) (keeps_ite h (keeps_update h rfl))))
  split
  · exact keeps_update h2 rfl
  · exact keeps_ite h2 (keeps_evPool (keeps_foldl h3 fun _ _ hs => keeps_evPart hs))

/-! ### Switching on and off (R385, R436) -/

theorem keeps_domOffStep {d : Nat} (h : Keeps s₀ s) : Keeps s₀ (domOffStep s d) :=
  keeps_ite h (keeps_update (keeps_setDom (keeps_update h rfl)) rfl)

theorem keeps_hbmOffStep {n : Nat} (h : Keeps s₀ s) : Keeps s₀ (hbmOffStep s n) := keeps_ite h (keeps_update h rfl)

theorem keeps_domStep {d : Nat} (h : Keeps s₀ s) : Keeps s₀ (domStep s d) :=
  keeps_update (keeps_ite (keeps_completeWait (keeps_ite (keeps_setDom (keeps_update (keeps_domOffStep h) rfl))
    (keeps_domOffStep h))) (keeps_ite (keeps_setDom (keeps_update (keeps_domOffStep h) rfl)) (keeps_domOffStep h))) rfl

theorem keeps_cluPower {env : BoundaryEnv} {c : Nat} (h : Keeps s₀ s) : Keeps s₀ (cluPower env s c) := keeps_modPc h

theorem keeps_powerStep {env : BoundaryEnv} (h : Keeps s₀ s) : Keeps s₀ (powerStep s env) := by
  unfold powerStep
  extract_lets old _ s1 s2 s3
  have h2 : Keeps s₀ s2 := keeps_foldl (keeps_update h rfl) fun _ _ hs => keeps_cluPower hs
  have h3 : Keeps s₀ s3 := keeps_throttleEvents (keeps_applyDue (keeps_pruneActions h2))
  exact keeps_decidePower (keeps_foldl (keeps_foldl h3 fun _ _ hs => keeps_domStep hs) fun _ _ hs => keeps_hbmOffStep hs)

theorem keepsNext_execClusterIdleOff {c : Fin 20} (h : Keeps s₀ s) : KeepsNext s₀ (execClusterIdleOff c s) :=
  keepsNext_inRun h (keeps_ite (keeps_modPc h) h)

theorem keeps_switchOff {d : Nat} (h : Keeps s₀ s) : Keeps s₀ (switchOff s d) := keeps_update h rfl

theorem keeps_idleOff {d : Nat} (h : Keeps s₀ s) : Keeps s₀ (idleOff s d) := keeps_ite (keeps_switchOff h) h

theorem keepsNext_execDomainIdleOff {d : Domain} (h : Keeps s₀ s) : KeepsNext s₀ (execDomainIdleOff d s) := by
  unfold execDomainIdleOff
  refine keepsNext_inRun h ?_
  split
  · exact keeps_ite (keeps_switchOff h) h
  · exact keeps_idleOff h
  · exact keeps_idleOff h
  · exact h
  · exact keeps_idleOff h

/-! ### Cluster tests -/

theorem keeps_askTest {c : Nat} (h : Keeps s₀ s) : Keeps s₀ (askTest s c) := keeps_modClu h fun _ => rfl

theorem keeps_beginTest {c : Nat} (h : Keeps s₀ s) : Keeps s₀ (beginTest s c) := keeps_ite (keeps_modClu h fun _ => rfl) h

theorem keeps_testStep {c : Nat} (h : Keeps s₀ s) : Keeps s₀ (testStep s c) :=
  keeps_ite (keeps_announce (keeps_revokeGroups h)) (keeps_beginTest h)

theorem keepsNext_execSvcClusterTest {r : RingId} {k : Pkt} (h : Keeps s₀ s) : KeepsNext s₀ (execSvcClusterTest r k s) :=
  keepsNext_inRun h (keeps_fwRun h fun _ hs _ => keepsFw_wait (keeps_askTest hs))

theorem keepsNext_execClusterTestStart {c : Fin 20} (h : Keeps s₀ s) : KeepsNext s₀ (execClusterTestStart c s) :=
  keepsNext_inRun h (keeps_beginTest (keeps_ite (keeps_askTest h) h))

theorem keeps_testArrays {c : Nat} {f : ClusterTest} (h : Keeps s₀ s) : Keeps s₀ (testArrays s c f) :=
  keeps_modClu (keeps_foldl (keeps_modClu h fun _ => rfl) fun _ _ hs => keeps_recordFailure hs) fun _ => rfl

theorem keeps_finishTest {c : Nat} {f : ClusterTest} (h : Keeps s₀ s) : Keeps s₀ (finishTest s c f) := by
  unfold finishTest
  extract_lets _ s1 s2 s3 s4
  have h1 : Keeps s₀ s1 := keeps_modClu_sram h fun _ _ => rfl
  have h4 : Keeps s₀ s4 := keeps_completeWhere (keeps_testArrays (keeps_ite (keeps_modPc h1) h1))
  exact keeps_ite (keeps_evPool h4) h4

theorem keepsNext_execClusterTestEnd {c : Fin 20} {found : ClusterTest} (h : Keeps s₀ s) :
    KeepsNext s₀ (execClusterTestEnd c found s) :=
  keepsNext_inRun h (keeps_ite (keeps_finishTest h) h)

theorem keepsNext_execClusterTestTimeout {c : Fin 20} (h : Keeps s₀ s) : KeepsNext s₀ (execClusterTestTimeout c s) :=
  keepsNext_inRun h (keeps_ite h (keeps_ite (keeps_evPool (keeps_takeFree (keeps_completeWait (keeps_modClu h fun _ => rfl))))
    (keeps_completeWait (keeps_modClu h fun _ => rfl))))

/-! ### SVC_ENGINE_BYPASS (R416) -/

theorem keepsNext_execSvcEngineBypass {r : RingId} {k : Pkt} (h : Keeps s₀ s) : KeepsNext s₀ (execSvcEngineBypass r k s) :=
  keepsNext_inRun h (keeps_fwRun h fun _ hs _ => keepsFw_done (keeps_ite (keeps_capacityCheck (keeps_modInst hs))
    (keeps_jobFeed (keeps_modInst hs))))

/-! ### SVC_PC_RETIRE (R418) -/

theorem keeps_movePage {g n : Nat} (h : Keeps s₀ s) : Keeps s₀ (movePage s g n) := by
  refine keeps_modPart (keeps_hbm h fun hm => ?_)
  obtain ⟨hmem, hpsn⟩ := (pmemWf_iff _).1 hm
  exact (pmemWf_iff _).2 ⟨tabWf_tabMove _ _ _ hmem, tabWf_tabMove _ _ _ hpsn⟩

theorem keeps_moveTable {g : Nat} (h : Keeps s₀ s) : Keeps s₀ (moveTable s g) := by
  unfold moveTable
  split
  · exact h
  · exact keeps_replaceTable h

theorem keeps_movePages {pc : Nat} {gs : List Nat} (h : Keeps s₀ s) : Keeps s₀ (movePages s pc gs) := by
  induction gs generalizing s with
  | nil => exact h
  | cons g gs ih =>
    unfold movePages
    split
    · exact h
    · exact ih (keeps_movePage h)

theorem keepsNext_execSvcPcRetire {r : RingId} {k : Pkt} (h : Keeps s₀ s) : KeepsNext s₀ (execSvcPcRetire r k s) :=
  keepsNext_inRun h (keeps_fwRun h fun _ hs _ => keepsFw_wait (keeps_update hs rfl))

theorem keeps_retireStep (h : Keeps s₀ s) : Keeps s₀ (retireStep s) := by
  unfold retireStep
  split
  · exact h
  · exact keeps_ite (keeps_foldl (keeps_movePages (keeps_disturbPc h)) fun _ _ hs => keeps_moveTable hs)
      (keeps_completeWait (keeps_update (keeps_foldl (keeps_movePages (keeps_disturbPc h)) fun _ _ hs =>
      keeps_moveTable hs) rfl))

/-! ### The scrubber -/

theorem keepsNext_execScrubRead {granule : Nat} {found : Ecc} (h : Keeps s₀ s) :
    KeepsNext s₀ (execScrubRead granule found s) := by
  unfold execScrubRead
  refine keepsNext_inRun h ?_
  extract_lets
  refine keeps_ite h ?_
  split
  · exact h
  · exact keeps_hbmCe h
  · exact keeps_hbmUe (keeps_update h rfl)

/-! ### The UART -/

theorem keepsNext_execUartFrameRx {f : UartFrame} (h : Keeps s₀ s) : KeepsNext s₀ (execUartFrameRx f s) :=
  keepsNext_next (keeps_ite h (keeps_ite (keeps_update h rfl) (keeps_update h rfl)))

theorem keepsNext_execUartRxRead (h : Keeps s₀ s) : KeepsNext s₀ (execUartRxRead s) := keepsNext_inRun h (keeps_update h rfl)

end Sys2Proof.Machine
end

section
/-! PROOFS. What keeps the invariant, 17. The cardamom instructions, the passing of time and the boundary. -/

namespace Sys2Proof.Machine

open Sys2Proof

variable {s₀ s : State}

/-! ### The cardamom instructions -/

theorem keepsNext_execEndInsn {c : Fin 20} {e : Fin 8} (h : Keeps s₀ s) : KeepsNext s₀ (execEndInsn c e s) :=
  keepsNext_inRun h (keeps_ite (keeps_settleEngine (keeps_modEng h)) h)

theorem keepsNext_execSetx {c : Fin 20} {e : Fin 8} (h : Keeps s₀ s) : KeepsNext s₀ (execSetx c e s) :=
  keepsNext_inRun h (keeps_engScalar h)

theorem keepsNext_execAddx {c : Fin 20} {e : Fin 8} (h : Keeps s₀ s) : KeepsNext s₀ (execAddx c e s) :=
  keepsNext_inRun h (keeps_engScalar h)

theorem keepsNext_execAddr {c : Fin 20} {e : Fin 8} (h : Keeps s₀ s) : KeepsNext s₀ (execAddr c e s) :=
  keepsNext_inRun h (keeps_engScalar h)

theorem keepsNext_execLoop {c : Fin 20} {e : Fin 8} (h : Keeps s₀ s) : KeepsNext s₀ (execLoop c e s) :=
  keepsNext_inRun h (keeps_ite (keeps_modEng h) h)

theorem keepsNext_execLoopx {c : Fin 20} {e : Fin 8} (h : Keeps s₀ s) : KeepsNext s₀ (execLoopx c e s) :=
  keepsNext_inRun h (keeps_ite (keeps_modEng h) h)

theorem keepsNext_execRd {c : Fin 20} {e : Fin 8} {ecc : List (Nat × Ecc)} (h : Keeps s₀ s) : KeepsNext s₀ (execRd c e ecc s) :=
  keepsNext_inRun h (keeps_engRead h)

theorem keepsNext_execWr {c : Fin 20} {e : Fin 8} (h : Keeps s₀ s) : KeepsNext s₀ (execWr c e s) :=
  keepsNext_inRun h (keeps_engPop h)

theorem keepsNext_execRds {c : Fin 20} {e : Fin 8} {ecc : List (Nat × Ecc)} (h : Keeps s₀ s) :
    KeepsNext s₀ (execRds c e ecc s) :=
  keepsNext_inRun h (keeps_engRead h)

theorem keepsNext_execRdw {c : Fin 20} {e : Fin 8} {ecc : List (Nat × Ecc)} (h : Keeps s₀ s) :
    KeepsNext s₀ (execRdw c e ecc s) :=
  keepsNext_inRun h (keeps_engRead h)

theorem keepsNext_execWrw {c : Fin 20} {e : Fin 8} (h : Keeps s₀ s) : KeepsNext s₀ (execWrw c e s) :=
  keepsNext_inRun h (keeps_engPop h)

theorem keepsNext_execRdt {c : Fin 20} {e : Fin 8} {ecc : List (Nat × Ecc)} (h : Keeps s₀ s) :
    KeepsNext s₀ (execRdt c e ecc s) :=
  keepsNext_inRun h (keeps_engRead h)

theorem keepsNext_execPls {c : Fin 20} {e : Fin 8} (h : Keeps s₀ s) : KeepsNext s₀ (execPls c e s) :=
  keepsNext_inRun h (keeps_engScalar h)

theorem keepsNext_execDls {c : Fin 20} {e : Fin 8} (h : Keeps s₀ s) : KeepsNext s₀ (execDls c e s) :=
  keepsNext_inRun h (keeps_engScalar h)

theorem keepsNext_execDla {c : Fin 20} {e : Fin 8} (h : Keeps s₀ s) : KeepsNext s₀ (execDla c e s) :=
  keepsNext_inRun h (keeps_engScalar h)

theorem keepsNext_execSlm {c : Fin 20} {e : Fin 8} (h : Keeps s₀ s) : KeepsNext s₀ (execSlm c e s) :=
  keepsNext_inRun h (keeps_ite h (keeps_ite (keeps_ite h (keeps_stopTaker h)) (keeps_ite h (keeps_modEng h))))

theorem keepsNext_execWaitb {c : Fin 20} {e : Fin 8} (h : Keeps s₀ s) : KeepsNext s₀ (execWaitb c e s) :=
  keepsNext_inRun h (keeps_ite (keeps_modEng h) h)

/-! ### Completion of entries -/

theorem keepsNext_execCardEntryComplete {c : Fin 20} {e : Fin 8} {q : Fin 64} {res : Arrival} (h : Keeps s₀ s) :
    KeepsNext s₀ (execCardEntryComplete c e q res s) := by
  unfold execCardEntryComplete
  refine keepsNext_inRun h ?_
  extract_lets
  split
  · exact h
  · split
    · exact h
    · exact keeps_ite (keeps_modEq (keeps_checkUnmap (keeps_modEng h)))
        (keeps_ite h (keeps_modEq (keeps_pushQ (keeps_checkUnmap (keeps_modEng h)))))

theorem keepsNext_execRtSubstitute {c : Fin 20} {q : Fin 64} (h : Keeps s₀ s) : KeepsNext s₀ (execRtSubstitute c q s) :=
  keepsNext_inRun h (keeps_ite h (keeps_ite (keeps_modEq h) (keeps_update (keeps_modEq (keeps_pushQ h)) rfl)))

/-! ### What passes with time -/

theorem keeps_noteWait {c q : Nat} (h : Keeps s₀ s) : Keeps s₀ (noteWait c s q) := keeps_ite (keeps_modEq h) h

theorem keeps_noteWaits (h : Keeps s₀ s) : Keeps s₀ (noteWaits s) :=
  keeps_foldl h fun _ _ hs => keeps_foldl hs fun _ _ hs1 => keeps_noteWait hs1

theorem keeps_cyclesPass {n : Nat} (h : Keeps s₀ s) : Keeps s₀ (cyclesPass s n) :=
  keeps_ite (keeps_noteWaits (keeps_watchArrays h)) h

theorem keeps_passCycle (h : Keeps s₀ s) : Keeps s₀ (passCycle s) := keeps_ite h (keeps_tick (keeps_cyclesPass h))

/-! ### The clove that ends -/

theorem keeps_spoofEvent {p : Nat} (h : Keeps s₀ s) : Keeps s₀ (spoofEvent s p) := keeps_ite h (keeps_modPart (keeps_evPart h))

theorem keeps_missEvent {c q : Nat} (h : Keeps s₀ s) : Keeps s₀ (missEvent s c q) := keeps_ite h (keeps_modEq (keeps_evPart h))

theorem keeps_missEvents {c : Nat} (h : Keeps s₀ s) : Keeps s₀ (missEvents s c) :=
  keeps_foldl h fun _ _ hs => keeps_missEvent hs

theorem keeps_rollRun {p : Nat} (h : Keeps s₀ s) : Keeps s₀ (rollRun s p) := by
  unfold rollRun
  split
  · exact h
  · exact keeps_ite h (keeps_modPart h)

theorem keeps_endClove {env : BoundaryEnv} (h : Keeps s₀ s) : Keeps s₀ (endClove s env) :=
  keeps_overruns (keeps_foldl (keeps_foldl (keeps_foldl (keeps_foldl (keeps_cyclesPass h) fun _ _ hs => keeps_spoofEvent hs)
    fun _ _ hs => keeps_missEvents hs) fun _ _ hs => keeps_loseOpen hs) fun _ _ hs => keeps_rollRun hs)

/-! ### What the boundary releases -/

theorem keeps_releaseEngines {c : Nat} (h : Keeps s₀ s) : Keeps s₀ (releaseEngines s c) := keeps_modClu h fun _ => rfl

theorem keeps_releaseCsp {c : Nat} (h : Keeps s₀ s) : Keeps s₀ (releaseCsp s c) :=
  keeps_cspBoundary (keeps_modClu h fun _ => rfl)

theorem keeps_linkStep {l : Nat} (h : Keeps s₀ s) : Keeps s₀ (linkStep s l) :=
  keeps_ite (keeps_ite (keeps_modLink (keeps_modLink h)) (keeps_fastRetrain (keeps_modLink h))) (keeps_modLink h)

theorem keeps_lssResize {c : Nat} (h : Keeps s₀ s) : Keeps s₀ (lssResize s c) := keeps_ite h (keeps_modClu h fun _ => rfl)

theorem keeps_holdRelease {x : Nat × Nat} (h : Keeps s₀ s) : Keeps s₀ (holdRelease s x) :=
  keeps_ite (keeps_noticeCheck (keeps_update (keeps_lssResize h) rfl)) (keeps_lssResize h)

theorem keeps_swapStep {p : Nat} (h : Keeps s₀ s) : Keeps s₀ (swapStep s p) :=
  keeps_ite (keeps_completeWhere (keeps_modPart h)) h

theorem keeps_twinStep {p : Nat} (h : Keeps s₀ s) : Keeps s₀ (twinStep s p) := by
  unfold twinStep
  extract_lets
  split
  · exact h
  · extract_lets _ s1
    have h1 : Keeps s₀ s1 := keeps_sendOn h
    refine keeps_ite h ?_
    split
    · exact h1
    · exact keeps_ite h1 (keeps_ite (keeps_loseTwin h1) (keeps_compareTwin h1))

theorem keeps_healthStep (h : Keeps s₀ s) : Keeps s₀ (healthStep s) := keeps_ite h (keeps_evPool (keeps_update h rfl))

theorem keeps_releaseStep (h : Keeps s₀ s) : Keeps s₀ (releaseStep s) := by
  unfold releaseStep
  extract_lets _ s1 s2 s3 s4 s5 s6 s7 s8 s9 s10
  have h1 : Keeps s₀ s1 := keeps_foldl h fun _ _ hs => keeps_releaseEngines hs
  have h2 : Keeps s₀ s2 := keeps_foldl h1 fun _ _ hs => keeps_releaseCsp hs
  have h3 : Keeps s₀ s3 := keeps_foldl h2 fun _ _ hs => keeps_feedPool hs
  have h4 : Keeps s₀ s4 := keeps_runDma (keeps_foldl h3 fun _ _ hs => keeps_linkStep hs)
  have h5 : Keeps s₀ s5 := keeps_resetAllowances (keeps_radioBoundary h4)
  have h6 : Keeps s₀ s6 := keeps_foldl h5 fun _ _ hs => keeps_holdRelease hs
  have h7 : Keeps s₀ s7 := keeps_foldl h6 fun _ _ hs => keeps_swapStep hs
  have h8 : Keeps s₀ s8 := keeps_foldl h7 fun _ _ hs => keeps_checkUnmap hs
  have h9 : Keeps s₀ s9 := keeps_foldl h8 fun _ _ hs => keeps_twinStep hs
  have h10 : Keeps s₀ s10 := keeps_foldl (keeps_retireStep h9) fun _ _ hs => keeps_testStep hs
  exact keeps_healthStep (keeps_offsetCheck (keeps_sendMarkers h10))

/-- The clock of the next clove keeps its ns below a second and begins at cycle 0 (R24, R211). -/
theorem keeps_advanceClock (h : Keeps s₀ s) : Keeps s₀ { s with time := advanceClock s.time } :=
  keeps_time h (fun _ => Nat.mod_lt _ (by decide)) fun _ => zero_lt_second_and_clove.2

theorem keeps_boundary {env : BoundaryEnv} (h : Keeps s₀ s) : Keeps s₀ (boundary s env) := by
  unfold boundary
  extract_lets charges s1 s2 s3 s4 s5
  have h2 : Keeps s₀ s2 := keeps_advanceClock (keeps_endClove h)
  have h3 : Keeps s₀ s3 := keeps_foldl h2 fun _ _ hs => keeps_substitute hs
  exact keeps_releaseStep (keeps_powerStep (keeps_scheduleStep (keeps_programStep h3)))

theorem keepsNext_execCloveBoundary {env : BoundaryEnv} (h : Keeps s₀ s) : KeepsNext s₀ (execCloveBoundary env s) :=
  keepsNext_inRun h (keeps_ite (keeps_boundary h) h)

end Sys2Proof.Machine
end

section
/-! PROOFS. What keeps the invariant, 18. The instructions of the CSP, and images of partitions. -/

namespace Sys2Proof.Machine

open Sys2Proof

variable {s₀ s : State}

/-! ### Loads and stores -/

theorem keepsNext_execVld {k : Slot} {d : Fin 32} {p m : Fin 16} {circ : Bool} {ecc : Ecc} (h : Keeps s₀ s) :
    KeepsNext s₀ (execVld k d p m circ ecc s) :=
  keepsNext_cspAccess h fun _ _ hs => keeps_wrD (keeps_cspEcc hs)

theorem keepsNext_execVldb {k : Slot} {t : Lt} {d : Fin 32} {p m : Fin 16} {circ : Bool} {ecc : Ecc} (h : Keeps s₀ s) :
    KeepsNext s₀ (execVldb k t d p m circ ecc s) :=
  keepsNext_cspAccess h fun _ _ hs => keeps_wrD (keeps_cspEcc hs)

theorem keepsNext_execVst {k : Slot} {d : Fin 32} {p m : Fin 16} {circ : Bool} (h : Keeps s₀ s) :
    KeepsNext s₀ (execVst k d p m circ s) :=
  keepsNext_cspAccess h fun _ _ hs => keeps_modCsp hs

/-! ### Lane arithmetic -/

theorem keepsNext_execVadd {k : Slot} {t : Lt} {d u v : Fin 32} (h : Keeps s₀ s) : KeepsNext s₀ (execVadd k t d u v s) :=
  keepsNext_vec2 h

theorem keepsNext_execVsub {k : Slot} {t : Lt} {d u v : Fin 32} (h : Keeps s₀ s) : KeepsNext s₀ (execVsub k t d u v s) :=
  keepsNext_vec2 h

theorem keepsNext_vecSat {k : Slot} {t : Lt} {d u v : Fin 32} {f : Int → Int → Int} (h : Keeps s₀ s) :
    KeepsNext s₀ (vecSat k t d u v f s) :=
  keepsNext_cspSlot h fun _ hs => keeps_wrD (keeps_setSat hs)

theorem keepsNext_execVadds {k : Slot} {t : Lt} {d u v : Fin 32} (h : Keeps s₀ s) : KeepsNext s₀ (execVadds k t d u v s) :=
  keepsNext_vecSat h

theorem keepsNext_execVsubs {k : Slot} {t : Lt} {d u v : Fin 32} (h : Keeps s₀ s) : KeepsNext s₀ (execVsubs k t d u v s) :=
  keepsNext_vecSat h

theorem keepsNext_execVmax {k : Slot} {t : Lt} {d u v : Fin 32} (h : Keeps s₀ s) : KeepsNext s₀ (execVmax k t d u v s) :=
  keepsNext_vec2 h

theorem keepsNext_execVmin {k : Slot} {t : Lt} {d u v : Fin 32} (h : Keeps s₀ s) : KeepsNext s₀ (execVmin k t d u v s) :=
  keepsNext_vec2 h

theorem keepsNext_execVand {k : Slot} {d u v : Fin 32} (h : Keeps s₀ s) : KeepsNext s₀ (execVand k d u v s) := keepsNext_vec2 h

theorem keepsNext_execVor {k : Slot} {d u v : Fin 32} (h : Keeps s₀ s) : KeepsNext s₀ (execVor k d u v s) := keepsNext_vec2 h

theorem keepsNext_execVxor {k : Slot} {d u v : Fin 32} (h : Keeps s₀ s) : KeepsNext s₀ (execVxor k d u v s) := keepsNext_vec2 h

theorem keepsNext_execVsel {k : Slot} {d m u v : Fin 32} (h : Keeps s₀ s) : KeepsNext s₀ (execVsel k d m u v s) :=
  keepsNext_cspSlot h fun _ hs => keeps_wrD hs

theorem keepsNext_execVshl {k : Slot} {t : Lt} {d u : Fin 32} {n : Fin 64} (h : Keeps s₀ s) :
    KeepsNext s₀ (execVshl k t d u n s) :=
  keepsNext_vec1 h

theorem keepsNext_execVshr {k : Slot} {t : Lt} {d u : Fin 32} {n : Fin 64} (h : Keeps s₀ s) :
    KeepsNext s₀ (execVshr k t d u n s) :=
  keepsNext_vec1 h

theorem keepsNext_execVperm {k : Slot} {d u v : Fin 32} (h : Keeps s₀ s) : KeepsNext s₀ (execVperm k d u v s) :=
  keepsNext_vec2 h

/-! ### Multiply-accumulate -/

theorem keeps_accAdd {k : Slot} {a : Fin 8} {psn : Bool} {xs : Nat → Int} (h : Keeps s₀ s) : Keeps s₀ (accAdd k a psn xs s) :=
  keeps_wrAcc (keeps_setSat h)

theorem keepsNext_execVmac {k : Slot} {t : Lt} {a : Fin 8} {u v : Fin 32} (h : Keeps s₀ s) :
    KeepsNext s₀ (execVmac k t a u v s) :=
  keepsNext_cspSlot h fun _ hs => keeps_accAdd hs

theorem keepsNext_execVmacj {k : Slot} {a : Fin 8} {u v : Fin 32} (h : Keeps s₀ s) : KeepsNext s₀ (execVmacj k a u v s) :=
  keepsNext_cspSlot h fun _ hs => keeps_accAdd hs

theorem keepsNext_execVclr {k : Slot} {a : Fin 8} (h : Keeps s₀ s) : KeepsNext s₀ (execVclr k a s) :=
  keepsNext_cspSlot h fun _ hs => keeps_wrAcc hs

theorem keepsNext_execVbias {k : Slot} {a : Fin 8} {n : Nat} (h : Keeps s₀ s) : KeepsNext s₀ (execVbias k a n s) :=
  keepsNext_cspSlot h fun _ hs => keeps_accAdd hs

theorem keepsNext_execVshrn {k : Slot} {t : Lt} {d : Fin 32} {a : Fin 8} {n : Nat} {x : Bool} (h : Keeps s₀ s) :
    KeepsNext s₀ (execVshrn k t d a n x s) :=
  keepsNext_cspSlot h fun _ hs => keeps_wrD (keeps_setSat hs)

/-! ### Floating lanes -/

theorem keepsNext_execVfadd {k : Slot} {t : Lt} {d u v : Fin 32} (h : Keeps s₀ s) : KeepsNext s₀ (execVfadd k t d u v s) :=
  keepsNext_vec2 h

theorem keepsNext_execVfmul {k : Slot} {t : Lt} {d u v : Fin 32} (h : Keeps s₀ s) : KeepsNext s₀ (execVfmul k t d u v s) :=
  keepsNext_vec2 h

theorem keepsNext_execVfma {k : Slot} {t : Lt} {d u v : Fin 32} (h : Keeps s₀ s) : KeepsNext s₀ (execVfma k t d u v s) :=
  keepsNext_cspSlot h fun _ hs => keeps_wrD hs

theorem keepsNext_execVcvt {k : Slot} {t : Cvt} {d u : Fin 32} {x : Bool} (h : Keeps s₀ s) :
    KeepsNext s₀ (execVcvt k t d u x s) :=
  keepsNext_cspSlot h fun _ hs => keeps_wrD (keeps_setSat hs)

theorem keepsNext_execVfunc {k : Slot} {f : Func} {d u : Fin 32} (h : Keeps s₀ s) : KeepsNext s₀ (execVfunc k f d u s) :=
  keepsNext_vec1 h

theorem keepsNext_execVrmax {k : Slot} {t : Lt} {d u : Fin 32} (h : Keeps s₀ s) : KeepsNext s₀ (execVrmax k t d u s) :=
  keepsNext_vec1 h

theorem keepsNext_execVrsum {k : Slot} {t : Lt} {d u : Fin 32} (h : Keeps s₀ s) : KeepsNext s₀ (execVrsum k t d u s) :=
  keepsNext_cspSlot h fun _ hs => keeps_wrD hs

/-! ### Scalars and control -/

theorem keepsNext_execMovp {k : Slot} {p : Fin 16} {v : Scalar} (h : Keeps s₀ s) : KeepsNext s₀ (execMovp k p v s) :=
  keepsNext_scalar h

theorem keepsNext_execAddp {k : Slot} {p : Fin 16} {v : Scalar} (h : Keeps s₀ s) : KeepsNext s₀ (execAddp k p v s) :=
  keepsNext_scalar h

theorem keepsNext_execMovm {k : Slot} {m : Fin 16} {v : Scalar} (h : Keeps s₀ s) : KeepsNext s₀ (execMovm k m v s) :=
  keepsNext_scalar h

theorem keepsNext_execSetb {k : Slot} {b : Fin 8} {v : Scalar} (h : Keeps s₀ s) : KeepsNext s₀ (execSetb k b v s) :=
  keepsNext_scalar h

theorem keepsNext_execSetl {k : Slot} {l : Fin 8} {v : Scalar} (h : Keeps s₀ s) : KeepsNext s₀ (execSetl k l v s) :=
  keepsNext_scalar h

theorem keepsNext_execVmovs {k : Slot} {m : Fin 16} {u : Fin 32} {i : Fin 16} (h : Keeps s₀ s) :
    KeepsNext s₀ (execVmovs k m u i s) :=
  keepsNext_cspSlot h fun _ hs => keeps_ite (keeps_faultCsp hs) (keeps_modRegs hs)

theorem keepsNext_execDbnz {k : Slot} {m : Fin 16} {t : Fin 1024} (h : Keeps s₀ s) : KeepsNext s₀ (execDbnz k m t s) :=
  keepsNext_cspSlot h fun _ hs => keeps_ite (keeps_modRegs hs) (keeps_modCsp (keeps_modRegs hs))

theorem keepsNext_execRep {k : Slot} {n : Nat} (h : Keeps s₀ s) : KeepsNext s₀ (execRep k n s) :=
  keepsNext_cspSlot h fun _ hs => keeps_ite (keeps_waitRep hs) (keeps_modCsp hs)

theorem keepsNext_execCspWaitb {k : Slot} (h : Keeps s₀ s) : KeepsNext s₀ (execCspWaitb k s) :=
  keepsNext_cspSlot h fun _ hs => keeps_modCsp hs

theorem keepsNext_execWaitc {k : Slot} {src : Fin 32} {m : Fin 16} (h : Keeps s₀ s) : KeepsNext s₀ (execWaitc k src m s) :=
  keepsNext_cspSlot h fun _ hs => keeps_ite (keeps_faultCsp hs) (keeps_ite hs (keeps_modCsp hs))

theorem keepsNext_execFset {k : Slot} {f : Fin 8} {p m : Fin 16} (h : Keeps s₀ s) : KeepsNext s₀ (execFset k f p m s) :=
  keepsNext_cspSlot h fun _ hs => keeps_ite (keeps_faultCsp hs) (keeps_ite (keeps_faultCsp hs) (keeps_modClu hs fun _ => rfl))

theorem keepsNext_execFclose {k : Slot} {f : Fin 8} (h : Keeps s₀ s) : KeepsNext s₀ (execFclose k f s) :=
  keepsNext_cspSlot h fun _ hs => keeps_modClu hs fun _ => rfl

theorem keepsNext_execFopen {k : Slot} {f : Fin 8} (h : Keeps s₀ s) : KeepsNext s₀ (execFopen k f s) :=
  keepsNext_cspSlot h fun _ hs => keeps_modClu hs fun _ => rfl

theorem keepsNext_execHalt {k : Slot} {code : BitVec 8} (h : Keeps s₀ s) : KeepsNext s₀ (execHalt k code s) :=
  keepsNext_cspSlot h fun _ hs => keeps_pickCsp (keeps_cspPendings (keeps_cspEvent (keeps_modCsp (keeps_makeStores hs))))

theorem keepsNext_execCspTimeslice {c : Fin 20} (h : Keeps s₀ s) : KeepsNext s₀ (execCspTimeslice c s) :=
  keepsNext_inRun h (keeps_pickCsp (keeps_modClu h fun _ => by split <;> rfl))

theorem keepsNext_execCspParityError {c : Fin 20} {users : BitVec 4} (h : Keeps s₀ s) :
    KeepsNext s₀ (execCspParityError c users s) :=
  keepsNext_inRun h (keeps_pickCsp (keeps_modClu (keeps_foldl h fun _ _ hs => keeps_ite (keeps_faultCsp hs) hs) fun _ => rfl))

/-! ### Cutting and pasting -/

theorem keepsNext_execPartSave {r : RingId} {k : Pkt} (h : Keeps s₀ s) : KeepsNext s₀ (execPartSave r k s) := by
  unfold execPartSave
  exact keepsNext_inRun h (keeps_fwRun h fun _ hs _ => keepsFw_ite (keepsFw_done hs) (keepsFw_done (keeps_wrVa (keeps_takeFree hs))))

/-! ### PART_RESTORE (R348) -/

theorem keeps_putArrays {p c : Nat} {hd : Holding} {x : CluImage} {groups : List Nat} (h : Keeps s₀ s) :
    Keeps s₀ (putArrays s p c hd x groups) :=
  keeps_foldl h fun _ _ hs => keeps_ite (keeps_modPa (keeps_modLa (keeps_modLa hs))) (keeps_modLa hs)

/-- Pieces put into a memory leave it canonical. -/
theorem pmemWf_foldl_pastePMem {β : Type} (l : List β) (lo : β → Nat) (n : Nat) (x : β → PMem) {m : PMem} (h : pmemWf m = true) :
    pmemWf (l.foldl (fun m y => pastePMem m (lo y) n (x y)) m) = true :=
  List.foldlRecOn (motive := fun m => pmemWf m = true) l _ h fun _ hm _ _ => pmemWf_pastePMem _ _ _ hm

/-- A cluster restored from an image has a canonical memory. -/
theorem pmemWf_putCluster {p : Nat} {hs hd : Holding} {x : CluImage} {cl : Cluster} (h : pmemWf cl.sram = true) :
    pmemWf (putCluster p hs hd x cl).sram = true :=
  pmemWf_foldl_pastePMem _ _ _ _ (pmemWf_foldl_pastePMem _ _ _ _ h)

theorem keepsNext_execPartRestore {r : RingId} {k : Pkt} (h : Keeps s₀ s) : KeepsNext s₀ (execPartRestore r k s) := by
  unfold execPartRestore
  extract_lets p
  refine keepsNext_inRun h (keeps_fwRun h fun s hs _ => ?_)
  split
  · exact hs
  · extract_lets dst P s0 s1 s2 groups s3 lost s4
    have h1 : Keeps s₀ s1 := keeps_growTables (keeps_modPart hs)
    have h2 : Keeps s₀ s2 := keeps_foldl h1 fun _ _ ht => keeps_hbm ht (pmemWf_pastePMem _ _ _)
    have h3 : Keeps s₀ s3 := keeps_foldl h2 fun _ _ ht => keeps_putArrays (keeps_modClu_sram ht fun _ => pmemWf_putCluster)
    have h4 : Keeps s₀ s4 := keeps_foldl h3 fun _ _ ht => keeps_dropWork ht
    exact keepsFw_done h4

end Sys2Proof.Machine
end

section
/-! PROOFS. What keeps the invariant, 19. Keys, resets, pins, tamper and security requests. -/

namespace Sys2Proof.Machine

open Sys2Proof

variable {s₀ s : State}

/-! ### The key store (R399, R401) -/

/-- A change of every link keeps the invariant. -/
theorem keeps_tabMapV_links {f : Link → Link} (h : Keeps s₀ s) :
    Keeps s₀ { s with fab := { s.fab with links := tabMapV {} s.fab.links f } } :=
  keeps_fab h fun hl => by
    dsimp only
    exact tabWf_tabMapV _ hl

/-- Zeroisation clears keys, which are no part of the invariant. -/
theorem keeps_zeroise {keepSeal : Bool} (h : Keeps s₀ s) : Keeps s₀ (zeroise s keepSeal) :=
  keeps_emit ((keeps_tabMapV_links h).step id (FusesAdvance.refl _) rfl)

/-! ### What a reset keeps (R77, R261, R357, R409, R414) -/

/-- The main domain's reset leaves empty tables and memories and a clock at zero; the fuses and the hosts' memories stay. -/
theorem keeps_mainReset (h : Keeps s₀ s) : Keeps s₀ (mainReset s) := by
  refine h.step (fun ⟨⟨_, _, hc, hl, hh, hn, _, _⟩, _, _, hlife⟩ => ?_) (FusesAdvance.refl _) rfl
  have hsram (c : Nat) : pmemWf (tabGet {} (tabMapV {} s.clusters cluKept) c).sram = true := by
    obtain hi | hi := tabGet_tabMapV cluKept hc c <;> rw [hi] <;> rfl
  have hlinks : tabWf {} (tabMapV {} s.fab.links linkKept) = true := tabWf_tabMapV _ hl
  exact ⟨⟨rfl, rfl, tabWf_tabMapV cluKept hc, hlinks, hh, hn, rfl, hsram⟩, zero_lt_second_and_clove.1, zero_lt_second_and_clove.2, hlife⟩

theorem keeps_deviceReset (h : Keeps s₀ s) : Keeps s₀ (deviceReset s) :=
  keeps_bootRom (keeps_noteFlag (keeps_update (keeps_mainReset (keeps_zeroise h)) rfl))

theorem keeps_hostReset {port : Nat} (h : Keeps s₀ s) : Keeps s₀ (hostReset s port) :=
  keeps_ite h (keeps_foldl h fun _ _ hs => keeps_ite hs (keeps_resetPart hs))

theorem keepsNext_execReset {key : BitVec 16} (h : Keeps s₀ s) : KeepsNext s₀ (execReset key s) :=
  keepsNext_inRun h (keeps_ite (keeps_deviceReset h) h)

theorem keepsNext_execFunctionLevelReset {f : Fn} (h : Keeps s₀ s) : KeepsNext s₀ (execFunctionLevelReset f s) := by
  unfold execFunctionLevelReset
  refine keepsNext_inRun h ?_
  split
  · exact keeps_ite (keeps_deviceReset h) (keeps_hostReset h)
  · exact keeps_ite (keeps_resetPart h) h

/-! ### Pins (R432-R435) -/

theorem keepsNext_execPerstNLow {port : Fin 4} (h : Keeps s₀ s) : KeepsNext s₀ (execPerstNLow port s) :=
  keepsNext_next (keeps_ite (keeps_update h rfl) (keeps_ite (keeps_deviceReset (keeps_hostLinkLost (keeps_update h rfl)))
    (keeps_hostReset (keeps_hostLinkLost (keeps_update h rfl)))))

theorem keepsNext_execPerstNRise {port : Fin 4} (h : Keeps s₀ s) : KeepsNext s₀ (execPerstNRise port s) :=
  keepsNext_next (keeps_update h rfl)

theorem keepsNext_execPowerOnReset (h : Keeps s₀ s) : KeepsNext s₀ (execPowerOnReset s) :=
  keepsNext_next (h.step (fun ⟨⟨_, _, _, _, hh, hn, _, _⟩, _, _, hlife⟩ =>
    ⟨⟨rfl, rfl, rfl, rfl, hh, hn, rfl, fun _ => rfl⟩, zero_lt_second_and_clove.1, zero_lt_second_and_clove.2, hlife⟩) (FusesAdvance.refl _) rfl)

theorem keeps_enterRun (h : Keeps s₀ s) : Keeps s₀ (enterRun s) := keeps_ite h (keeps_bootRom h)

theorem keepsNext_execPorNRise {pwrOk : Bool} (h : Keeps s₀ s) : KeepsNext s₀ (execPorNRise pwrOk s) :=
  keepsNext_next (keeps_ite h (keeps_ite (keeps_enterRun (keeps_update h rfl)) (keeps_update h rfl)))

theorem keepsNext_execPwrOkFall (h : Keeps s₀ s) : KeepsNext s₀ (execPwrOkFall s) := by
  refine keepsNext_next ?_
  extract_lets _ s1 t
  have h1 : Keeps s₀ s1 := keeps_update h rfl
  have ht : Keeps s₀ t := keeps_mainReset (keeps_zeroise h1)
  refine keeps_ite h1 ⟨fun h0 => ?_, ht.fuses, ht.pending⟩
  obtain ⟨-, hns, hcycle, -⟩ := h1.inv h0
  obtain ⟨hcanon, -, -, hlife⟩ := ht.inv h0
  exact ⟨hcanon, hns, hcycle, hlife⟩

theorem keepsNext_execPwrOkRise (h : Keeps s₀ s) : KeepsNext s₀ (execPwrOkRise s) := by
  refine keepsNext_next (keeps_ite h ?_)
  extract_lets _ s1
  have h1 : Keeps s₀ s1 := keeps_update h rfl
  have hwake : Keeps s₀ { s1 with time := { now := s1.time.now } } :=
    keeps_time h1 (fun _ => zero_lt_second_and_clove.1) fun _ => zero_lt_second_and_clove.2
  exact keeps_ite h1 (keeps_ite (keeps_bootRom (keeps_noteFlag (hwake.step id (FusesAdvance.refl _) rfl))) (keeps_enterRun h1))

/-! ### Tamper (R392, R403-R406) -/

theorem keeps_latchTamper {causes : BitVec 5} (h : Keeps s₀ s) : Keeps s₀ (latchTamper s causes) := keeps_update h rfl

theorem keeps_haltReps (h : Keeps s₀ s) : Keeps s₀ (haltReps s) := keeps_tabMapV_clusters h fun _ hcl => hcl

theorem keeps_tamperReady {word : Nat} (h : Keeps s₀ s) : Keeps s₀ (tamperReady s word) := by
  unfold tamperReady
  extract_lets s1 ps s2 s3 s4
  have h2 : Keeps s₀ s2 := keeps_foldl (keeps_haltReps (keeps_zeroise h)) fun _ _ hs => keeps_stopPart hs
  have h4 : Keeps s₀ s4 := keeps_evPool (keeps_foldl (keeps_completeWhere h2) fun _ _ hs => keeps_evPart hs)
  exact (keeps_tabMapV_links h4).step id (FusesAdvance.refl _) rfl

theorem keeps_tamperResponse {word : Nat} {latch : Option (BitVec 5)} (h : Keeps s₀ s) :
    Keeps s₀ (tamperResponse s word latch) := by
  unfold tamperResponse
  extract_lets mark
  have hmark {t : State} (ht : Keeps s₀ t) : Keeps s₀ (mark t) := by
    unfold mark
    split
    · exact keeps_latchTamper ht
    · exact ht
  have hzero : Keeps s₀ (zeroise s false) := keeps_zeroise h
  refine keeps_ite h (keeps_ite (hmark hzero) (keeps_ite (keeps_tamperReady (hmark h)) (keeps_ite ?_ (keeps_ite ?_ ?_))))
  · exact keeps_update (hmark hzero) rfl
  · exact keeps_ite hzero (hmark h)
  · exact keeps_update (keeps_ite hzero h) rfl

theorem keepsNext_execTamperAlarm {causes : BitVec 5} (h : Keeps s₀ s) : KeepsNext s₀ (execTamperAlarm causes s) :=
  keepsNext_next (keeps_ite h (keeps_tamperResponse h))

theorem keepsNext_execDebugAccess (h : Keeps s₀ s) : KeepsNext s₀ (execDebugAccess s) :=
  keepsNext_inRun h (keeps_ite h (keeps_tamperResponse (keeps_update h rfl)))

theorem keepsNext_execThermalTrip (h : Keeps s₀ s) : KeepsNext s₀ (execThermalTrip s) :=
  keepsNext_inRun h (keeps_noteFlag (keeps_update (keeps_zeroise h) rfl))

/-! ### Security requests (R395-R397) -/

/-- R391, R397: of a block whose checks pass, the kind is one of those there are and a life cycle asked for is one of R391. -/
theorem le_of_secErrs_eq_nil {b : List Word} (hok : secErrs s b = []) :
    secKind b ≤ 6 ∧ (secKind b = 3 → secValue b ≤ 2) := by
  have hpass := (errsOf_eq_nil_iff _).1 hok
  simp only [List.forall_mem_cons] at hpass
  obtain ⟨hkind, -, hlife, -⟩ := hpass
  refine ⟨?_, fun hk => ?_⟩
  · have := (Bool.or_eq_false_iff.1 hkind).2
    simpa using this
  · obtain ⟨-, hle⟩ : secValue b = s.sec.lifecycle + 1 ∧ secValue b ≤ 2 := by simpa [hk] using hlife
    exact hle

/-- A security request keeps the invariant where its effect does, which it has only once none of its checks fails. -/
theorem keeps_secRun {kind : Nat} {act : State → List Word → State} (h : Keeps s₀ s)
    (hact : ∀ b, secKind b = kind → secErrs s b = [] → Keeps s₀ (secAnswered kind s b) → Keeps s₀ (act (secAnswered kind s b) b)) :
    Keeps s₀ (secRun kind s act) := by
  have hans {kind : Nat} {b : List Word} : Keeps s₀ (secAnswered kind s b) := keeps_update h rfl
  cases hb : secBlock s with
  | none =>
    rw [secRun_of_secBlock_none kind act hb]
    exact keeps_update h rfl
  | some b =>
    by_cases hk : secKind b = kind
    · subst hk
      rw [secRun_of_secBlock_some act hb]
      split
      · exact hact b rfl ‹_› hans
      · exact hans
    · unfold secRun
      simp only [hb, List.isEmpty_iff]
      split
      · exact h
      · rename_i hkind
        split
        · rename_i hok
          exact absurd ⟨hk, (le_of_secErrs_eq_nil hok).1⟩ hkind
        · exact hans

theorem keepsNext_execNonce (h : Keeps s₀ s) : KeepsNext s₀ (execNonce s) :=
  keepsNext_inRun h (keeps_secRun h fun _ _ _ hs => keeps_hostWrite (keeps_update (keeps_takeFree (w := 384) hs) rfl))

theorem keepsNext_execTamperClear (h : Keeps s₀ s) : KeepsNext s₀ (execTamperClear s) :=
  keepsNext_inRun h (keeps_secRun h fun _ _ _ hs => keeps_update hs rfl)

theorem keepsNext_execSvnRaise (h : Keeps s₀ s) : KeepsNext s₀ (execSvnRaise s) := by
  refine keepsNext_inRun h (keeps_secRun h fun b hk hok hs => keeps_sec hs ?_ id)
  obtain ⟨hsvn, -⟩ := secErrs_eq_nil hok
  have hraise : tabGet 0 s.sec.minSvn (secType b) < secValue b := hsvn hk
  refine ⟨le_rfl, id, fun hr => ⟨hr, rfl⟩, fun u => ?_, id⟩
  by_cases hu : secType b = u
  · subst hu
    exact (tabGet_tabSet_self (d := 0) s.sec.minSvn (secType b) (Nat.ne_of_gt (Nat.zero_lt_of_lt hraise))).symm ▸ hraise.le
  · exact (tabGet_tabSet_other (d := 0) s.sec.minSvn (secValue b) hu).ge

theorem keepsNext_execLifeAdvance (h : Keeps s₀ s) : KeepsNext s₀ (execLifeAdvance s) := by
  refine keepsNext_inRun h (keeps_secRun h fun b hk hok hs => keeps_sec hs ?_ fun _ => (le_of_secErrs_eq_nil hok).2 hk)
  obtain ⟨-, hlife, -⟩ := secErrs_eq_nil hok
  have hnext : secValue b = s.sec.lifecycle + 1 := hlife hk
  exact ⟨hnext ▸ Nat.le_succ _, id, fun hr => ⟨hr, rfl⟩, fun _ => le_rfl, fun hi => by simp [hi]⟩

theorem keepsNext_execDebugDisable (h : Keeps s₀ s) : KeepsNext s₀ (execDebugDisable s) :=
  keepsNext_inRun h (keeps_secRun h fun _ _ _ hs =>
    keeps_sec hs ⟨le_rfl, fun _ => rfl, fun hr => ⟨hr, rfl⟩, fun _ => le_rfl, id⟩ id)

theorem keepsNext_execRootSet (h : Keeps s₀ s) : KeepsNext s₀ (execRootSet s) := by
  refine keepsNext_inRun h (keeps_secRun h fun b hk hok hs => keeps_sec hs ?_ id)
  obtain ⟨-, -, hroot, -⟩ := secErrs_eq_nil hok
  have hunset : s.sec.rootSet = false := hroot hk
  exact ⟨le_rfl, id, fun hr => absurd (hunset.symm.trans hr) nofun, fun _ => le_rfl, id⟩

theorem keepsNext_execSealKey (h : Keeps s₀ s) : KeepsNext s₀ (execSealKey s) :=
  keepsNext_inRun h (keeps_secRun h fun _ _ _ hs => keeps_update hs rfl)

/-! ### POOL_AUTH (R363) -/

theorem keeps_authFailed (h : Keeps s₀ s) : Keeps s₀ (authFailed s) := keeps_update h rfl

theorem keepsNext_execPoolAuth {r : RingId} {k : Pkt} (h : Keeps s₀ s) : KeepsNext s₀ (execPoolAuth r k s) :=
  keepsNext_inRun h (keeps_fwRun h fun _ hs _ => keepsFw_ite (keepsFw_ite (keepsFw_done (keeps_update hs rfl))
    (keepsFw_done (keeps_authFailed hs))) (keepsFw_writeDone (keeps_update (keeps_takeFree hs) rfl)))

/-! ### SPDM (R378) -/

theorem keepsNext_execSpdm {r : RingId} {k : Pkt} (h : Keeps s₀ s) : KeepsNext s₀ (execSpdm r k s) := by
  unfold execSpdm
  refine keepsNext_inRun h ?_
  extract_lets
  refine keeps_fwRun h fun s hs _ => ?_
  split
  · exact keepsFw_done hs
  · exact keepsFw_writeDone (keeps_update hs rfl)

theorem keepsNext_execSpdmDoeRequest {port : Fin 4} {req : List Byte} (h : Keeps s₀ s) :
    KeepsNext s₀ (execSpdmDoeRequest port req s) :=
  keepsNext_inRun h (keeps_ite h (keeps_emit (keeps_update h rfl)))

end Sys2Proof.Machine
end

section
/-! PROOFS. What keeps the invariant, 20. Register writes. -/

namespace Sys2Proof.Machine

open Sys2Proof

variable {s₀ s : State}

/-! ### Register writes -/

/-- A row acting within a register write keeps the invariant. -/
theorem keeps_within {f : State → Host.Outcome State Fault Refusal} (h : Keeps s₀ s) (hf : KeepsNext s₀ (f s)) :
    Keeps s₀ (within s f) := by
  unfold within
  split
  · exact hf _ ‹_›
  · exact h
  · exact h

/-! ### Boot, security and UART -/

theorem keeps_writeBootCtl {v : Word} (h : Keeps s₀ s) : Keeps s₀ (writeBootCtl s v) := by
  unfold writeBootCtl
  extract_lets s1 s2
  have h1 : Keeps s₀ s1 := keeps_ite (keeps_within h (keepsNext_execPush h)) h
  have h2 : Keeps s₀ s2 := keeps_ite (keeps_within h1 (keepsNext_execStart h1)) h1
  exact keeps_ite (keeps_within h2 (keepsNext_execReset h2)) h2

theorem keeps_secGo (h : Keeps s₀ s) : Keeps s₀ (secGo s) := by
  unfold secGo
  split
  · exact keeps_within h (keepsNext_execNonce h)
  · extract_lets
    refine keeps_ite (keeps_within h (keepsNext_execTamperClear h)) ?_
    refine keeps_ite (keeps_within h (keepsNext_execSvnRaise h)) ?_
    refine keeps_ite (keeps_within h (keepsNext_execLifeAdvance h)) ?_
    exact keeps_ite (keeps_within h (keepsNext_execDebugDisable h))
      (keeps_ite (keeps_within h (keepsNext_execRootSet h)) (keeps_ite (keeps_within h (keepsNext_execSealKey h))
      (keeps_within h (keepsNext_execNonce h))))

theorem keeps_writeBoot {o : Nat} {v : Word} (h : Keeps s₀ s) : Keeps s₀ (writeBoot s o v) := by
  unfold writeBoot
  extract_lets
  refine keeps_ite (keeps_writeBootCtl h) ?_
  exact keeps_ite (keeps_update h rfl) (keeps_ite (keeps_update h rfl)
    (keeps_ite (keeps_update h rfl) (keeps_ite (keeps_update h rfl)
    (keeps_ite (keeps_update h rfl) (keeps_ite (keeps_ite (keeps_secGo h) h) (keeps_ite (keeps_update h rfl) h))))))

/-! ### Power and time -/

theorem keeps_writePower {o : Nat} {v : Word} (h : Keeps s₀ s) : Keeps s₀ (writePower s o v) :=
  keeps_ite (keeps_update h rfl) (keeps_ite (keeps_update h rfl) h)

theorem keeps_requestTime (h : Keeps s₀ s) : Keeps s₀ (requestTime s) :=
  keeps_ite (keeps_requestOn (keeps_ite (keeps_requestOn (keeps_ite (keeps_requestOn h) h)) (keeps_ite (keeps_requestOn h) h)))
    (keeps_ite (keeps_requestOn (keeps_ite (keeps_requestOn h) h)) (keeps_ite (keeps_requestOn h) h))

theorem keeps_writeTimeCtl {v : Word} (h : Keeps s₀ s) : Keeps s₀ (writeTimeCtl s v) := by
  unfold writeTimeCtl
  extract_lets s1 s2
  have h1 : Keeps s₀ s1 := keeps_modTime h rfl rfl
  have h2 : Keeps s₀ s2 := keeps_requestTime (keeps_refreshSynce (keeps_requestDomain h1))
  exact keeps_ite (keeps_within h2 (keepsNext_execSnap h2)) h2

theorem keeps_writeDom {d : Bool} {v : Word} (h : Keeps s₀ s) : Keeps s₀ (writeDom s d v) :=
  keeps_requestTime (keeps_ite (keeps_modDom h) (keeps_loseLock (keeps_modDom h)))

theorem keeps_writeTime {o : Nat} {v : Word} (h : Keeps s₀ s) : Keeps s₀ (writeTime s o v) :=
  keeps_ite (keeps_writeTimeCtl h) (keeps_ite (keeps_writeDom h) (keeps_ite (keeps_writeDom h) h))

/-! ### Ethernet and traffic manager -/

theorem keeps_writePort {n : Nat} {v : Word} (h : Keeps s₀ s) : Keeps s₀ (writePort s n v) := by
  unfold writePort
  extract_lets _ _ s1 s2
  have h1 : Keeps s₀ s1 := keeps_modPort h
  have h2 : Keeps s₀ s2 := keeps_foldl h1 fun _ _ hs => keeps_startNext hs
  exact keeps_ite (keeps_requestOn (keeps_portOn h2)) (keeps_ite (keeps_portOff h2) h2)

theorem keeps_writeQcfg {q : Nat} {v : Word} (h : Keeps s₀ s) : Keeps s₀ (writeQcfg s q v) :=
  keeps_ite h (keeps_modQ (keeps_ite (keeps_disableQ h) h))

theorem keeps_writeQshape {q : Nat} {v : Word} (h : Keeps s₀ s) : Keeps s₀ (writeQshape s q v) :=
  keeps_modQ (keeps_settleCredit h)

theorem keeps_writePol {i o : Nat} {v : Word} (h : Keeps s₀ s) : Keeps s₀ (writePol s i o v) := keeps_update h rfl

theorem keeps_writeTmPart {p i : Nat} {v : Word} (h : Keeps s₀ s) : Keeps s₀ (writeTmPart s p i v) := keeps_modTmp h

theorem keeps_writeEth {o : Nat} {v : Word} (h : Keeps s₀ s) : Keeps s₀ (writeEth s o v) :=
  keeps_ite (keeps_ite (keeps_writePort h) h) (keeps_ite h (keeps_ite
    (keeps_ite (keeps_writeQcfg h) (keeps_ite (keeps_writeQshape h) h))
    (keeps_ite (keeps_writePol h) (keeps_ite (keeps_writeTmPart h) h))))

/-! ### Fabric -/

theorem keeps_lockViolation {off : Nat} (h : Keeps s₀ s) : Keeps s₀ (lockViolation s off) := keeps_evPool (keeps_update h rfl)

theorem keeps_writeFabId {v : Word} (h : Keeps s₀ s) : Keeps s₀ (writeFabId s v) :=
  keeps_ite (keeps_lockViolation h) (keeps_update h rfl)

theorem keeps_writeLink {l : Fin 24} {v : Word} (h : Keeps s₀ s) : Keeps s₀ (writeLink s l v) := by
  unfold writeLink
  extract_lets _ s1 _ s2 s3
  have h1 : Keeps s₀ s1 := keeps_modLink h
  have h2 : Keeps s₀ s2 := keeps_ite (keeps_requestOn (keeps_update h1 rfl)) (keeps_ite (keeps_linkLost h1) h1)
  have h3 : Keeps s₀ s3 := keeps_ite (keeps_within h2 (keepsNext_execService h2)) h2
  exact keeps_ite (keeps_within h3 (keepsNext_execRetrain h3)) h3

theorem keeps_writeFab {o : Nat} {v : Word} (h : Keeps s₀ s) : Keeps s₀ (writeFab s o v) := by
  refine keeps_ite (keeps_writeFabId h) (keeps_ite (keeps_update h rfl) ?_)
  split
  · exact keeps_ite (keeps_writeLink h) h
  · exact h

/-! ### Radio and clusters -/

theorem keeps_writeStream {n o : Nat} {v : Word} (h : Keeps s₀ s) : Keeps s₀ (writeStream s n o v) := keeps_modStream h

theorem keeps_writeLane {n o : Nat} {v : Word} (h : Keeps s₀ s) : Keeps s₀ (writeLane s n o v) := keeps_ite (keeps_modLane h) h

theorem keeps_writeCell {n o : Nat} {v : Word} (h : Keeps s₀ s) : Keeps s₀ (writeCell s n o v) :=
  keeps_ite (keeps_modCell h) (keeps_ite (keeps_modCell h) h)

theorem keeps_writeRadio {o : Nat} {v : Word} (h : Keeps s₀ s) : Keeps s₀ (writeRadio s o v) :=
  keeps_ite (keeps_writeStream h) (keeps_ite (keeps_writeLane h) (keeps_ite (keeps_writeCell h) h))

theorem keeps_writeCluster {c o : Nat} {v : Word} (h : Keeps s₀ s) : Keeps s₀ (writeCluster s c o v) :=
  keeps_ite (keeps_modClu h fun _ => rfl) (keeps_ite (keeps_modCsp h) h)

/-! ### Rings and pages -/

theorem keeps_writeRing {r : RingId} {o : Nat} {v : Word} (h : Keeps s₀ s) : Keeps s₀ (writeRing s r o v) := by
  unfold writeRing
  extract_lets _ _ _ s1
  have h1 : Keeps s₀ s1 := keeps_modRing h
  refine keeps_ite (keeps_ite (keeps_within h1 (keepsNext_execRingEnable h1)) h1) ?_
  exact keeps_ite (keeps_modRing h) (keeps_ite (keeps_modRing h) (keeps_ite (keeps_modRing h)
    (keeps_ite (keeps_modRing h) (keeps_ite (keeps_within h (keepsNext_execCmdDoorbell h))
    (keeps_ite (keeps_within h (keepsNext_execCplHeadWrite h)) h)))))

theorem keeps_writeNet {p : Fin 64} {o : Nat} {v : Word} (h : Keeps s₀ s) : Keeps s₀ (writeNet s p o v) := by
  unfold writeNet
  refine keeps_ite (keeps_within h (keepsNext_execNetSqDb h)) ?_
  exact keeps_ite (keeps_within h (keepsNext_execNetRqDb h)) (keeps_ite (keeps_within h (keepsNext_execNetCqDb h))
    (keeps_ite (keeps_within h (keepsNext_execNetRawTxTail h)) (keeps_ite (keeps_within h (keepsNext_execNetRawRxTail h)) h)))

theorem keeps_writePage {p : Fin 64} {o : Nat} {v : Word} (h : Keeps s₀ s) : Keeps s₀ (writePage s p o v) := by
  unfold writePage
  refine keeps_ite h ?_
  refine keeps_ite (keeps_modPart h) ?_
  refine keeps_ite (keeps_modPart h) ?_
  refine keeps_ite (keeps_modPart h) ?_
  refine keeps_ite (keeps_modPart h) ?_
  refine keeps_ite (keeps_modPart h) ?_
  refine keeps_ite (keeps_modPart h) ?_
  refine keeps_ite (keeps_within h (keepsNext_execStepMark h)) ?_
  refine keeps_ite (keeps_modPart h) ?_
  exact keeps_ite (keeps_writeRing h) (keeps_ite (keeps_writeRing h)
    (keeps_ite (keeps_writeNet h) (keeps_ite (keeps_ite (keeps_writeStream h) h)
    (keeps_ite (keeps_ite (keeps_writeLane h) h) (keeps_ite (keeps_ite (keeps_writeCell h) h) h)))))

theorem keeps_writePool {o : Nat} {v : Word} (h : Keeps s₀ s) : Keeps s₀ (writePool s o v) :=
  keeps_ite (keeps_writeRing h) (keeps_ite (keeps_writeRing h) (keeps_ite (keeps_writePage h) h))

theorem keeps_writeWindow {a : Nat} {v : Word} (h : Keeps s₀ s) : Keeps s₀ (writeWindow s a v) := by
  unfold writeWindow
  refine keeps_ite (keeps_writeBoot h) ?_
  exact keeps_ite h (keeps_ite (keeps_writePower h) (keeps_ite (keeps_writeTime h)
    (keeps_ite (keeps_writeEth h) (keeps_ite (keeps_writeFab h) (keeps_ite (keeps_writeRadio h)
    (keeps_ite (keeps_writeCluster h) (keeps_ite (keeps_writePool h) h)))))))

theorem keepsNext_execRegisterWrite {f : Fn} {off : BitVec 26} {v : Word} (h : Keeps s₀ s) :
    KeepsNext s₀ (execRegisterWrite f off v s) := by
  unfold execRegisterWrite
  refine keepsNext_inRun h ?_
  refine keeps_ite h ?_
  split
  · exact keeps_ite (keeps_writeWindow h) h
  · exact keeps_ite (keeps_writePage h) h

end Sys2Proof.Machine
end

section
/-! PROOFS. Every command keeps the invariant, and so does every step. -/

namespace Sys2Proof.Machine

open Sys2Proof

/-- Every command keeps the invariant, lets the fuses only advance and leaves the queue. -/
theorem exec_keeps (i : Instr) (s : State) : KeepsNext s (exec i s) :=
  match i with
  | .cloveBoundary .. => keepsNext_execCloveBoundary (Keeps.refl s)
  | .mma .. => keepsNext_execMma (Keeps.refl s)
  | .accPreload .. => keepsNext_execAccPreload (Keeps.refl s)
  | .accDrain .. => keepsNext_execAccDrain (Keeps.refl s)
  | .drainRowPush .. => keepsNext_execDrainRowPush (Keeps.refl s)
  | .arrayWatchdog .. => keepsNext_execArrayWatchdog (Keeps.refl s)
  | .registerParityError .. => keepsNext_execRegisterParityError (Keeps.refl s)
  | .spareStart .. => keepsNext_execSpareStart (Keeps.refl s)
  | .endInsn .. => keepsNext_execEndInsn (Keeps.refl s)
  | .setx .. => keepsNext_execSetx (Keeps.refl s)
  | .addx .. => keepsNext_execAddx (Keeps.refl s)
  | .addr .. => keepsNext_execAddr (Keeps.refl s)
  | .loop .. => keepsNext_execLoop (Keeps.refl s)
  | .loopx .. => keepsNext_execLoopx (Keeps.refl s)
  | .rd .. => keepsNext_execRd (Keeps.refl s)
  | .wr .. => keepsNext_execWr (Keeps.refl s)
  | .rds .. => keepsNext_execRds (Keeps.refl s)
  | .rdw .. => keepsNext_execRdw (Keeps.refl s)
  | .wrw .. => keepsNext_execWrw (Keeps.refl s)
  | .rdt .. => keepsNext_execRdt (Keeps.refl s)
  | .pls .. => keepsNext_execPls (Keeps.refl s)
  | .dls .. => keepsNext_execDls (Keeps.refl s)
  | .dla .. => keepsNext_execDla (Keeps.refl s)
  | .slm .. => keepsNext_execSlm (Keeps.refl s)
  | .waitb .. => keepsNext_execWaitb (Keeps.refl s)
  | .cardEntryComplete .. => keepsNext_execCardEntryComplete (Keeps.refl s)
  | .rtSubstitute .. => keepsNext_execRtSubstitute (Keeps.refl s)
  | .vld .. => keepsNext_execVld (Keeps.refl s)
  | .vldb .. => keepsNext_execVldb (Keeps.refl s)
  | .vst .. => keepsNext_execVst (Keeps.refl s)
  | .vadd .. => keepsNext_execVadd (Keeps.refl s)
  | .vsub .. => keepsNext_execVsub (Keeps.refl s)
  | .vadds .. => keepsNext_execVadds (Keeps.refl s)
  | .vsubs .. => keepsNext_execVsubs (Keeps.refl s)
  | .vmax .. => keepsNext_execVmax (Keeps.refl s)
  | .vmin .. => keepsNext_execVmin (Keeps.refl s)
  | .vand .. => keepsNext_execVand (Keeps.refl s)
  | .vor .. => keepsNext_execVor (Keeps.refl s)
  | .vxor .. => keepsNext_execVxor (Keeps.refl s)
  | .vsel .. => keepsNext_execVsel (Keeps.refl s)
  | .vshl .. => keepsNext_execVshl (Keeps.refl s)
  | .vshr .. => keepsNext_execVshr (Keeps.refl s)
  | .vperm .. => keepsNext_execVperm (Keeps.refl s)
  | .vmac .. => keepsNext_execVmac (Keeps.refl s)
  | .vmacj .. => keepsNext_execVmacj (Keeps.refl s)
  | .vclr .. => keepsNext_execVclr (Keeps.refl s)
  | .vbias .. => keepsNext_execVbias (Keeps.refl s)
  | .vshrn .. => keepsNext_execVshrn (Keeps.refl s)
  | .vfadd .. => keepsNext_execVfadd (Keeps.refl s)
  | .vfmul .. => keepsNext_execVfmul (Keeps.refl s)
  | .vfma .. => keepsNext_execVfma (Keeps.refl s)
  | .vcvt .. => keepsNext_execVcvt (Keeps.refl s)
  | .vfunc .. => keepsNext_execVfunc (Keeps.refl s)
  | .vrmax .. => keepsNext_execVrmax (Keeps.refl s)
  | .vrsum .. => keepsNext_execVrsum (Keeps.refl s)
  | .movp .. => keepsNext_execMovp (Keeps.refl s)
  | .addp .. => keepsNext_execAddp (Keeps.refl s)
  | .movm .. => keepsNext_execMovm (Keeps.refl s)
  | .setb .. => keepsNext_execSetb (Keeps.refl s)
  | .setl .. => keepsNext_execSetl (Keeps.refl s)
  | .vmovs .. => keepsNext_execVmovs (Keeps.refl s)
  | .dbnz .. => keepsNext_execDbnz (Keeps.refl s)
  | .rep .. => keepsNext_execRep (Keeps.refl s)
  | .cspWaitb .. => keepsNext_execCspWaitb (Keeps.refl s)
  | .waitc .. => keepsNext_execWaitc (Keeps.refl s)
  | .fset .. => keepsNext_execFset (Keeps.refl s)
  | .fclose .. => keepsNext_execFclose (Keeps.refl s)
  | .fopen .. => keepsNext_execFopen (Keeps.refl s)
  | .halt .. => keepsNext_execHalt (Keeps.refl s)
  | .cspTimeslice .. => keepsNext_execCspTimeslice (Keeps.refl s)
  | .cspParityError .. => keepsNext_execCspParityError (Keeps.refl s)
  | .getVersion .. => keepsNext_execGetVersion (Keeps.refl s)
  | .poolAuth .. => keepsNext_execPoolAuth (Keeps.refl s)
  | .spdm .. => keepsNext_execSpdm (Keeps.refl s)
  | .spdmDoeRequest .. => keepsNext_execSpdmDoeRequest (Keeps.refl s)
  | .timeConfig .. => keepsNext_execTimeConfig (Keeps.refl s)
  | .timeFreerun .. => keepsNext_execTimeFreerun (Keeps.refl s)
  | .cloveProgLoad .. => keepsNext_execCloveProgLoad (Keeps.refl s)
  | .cloveProgCommit .. => keepsNext_execCloveProgCommit (Keeps.refl s)
  | .partCreate .. => keepsNext_execPartCreate (Keeps.refl s)
  | .partDestroy .. => keepsNext_execPartDestroy (Keeps.refl s)
  | .partReset .. => keepsNext_execPartReset (Keeps.refl s)
  | .partFreeze .. => keepsNext_execPartFreeze (Keeps.refl s)
  | .partThaw .. => keepsNext_execPartThaw (Keeps.refl s)
  | .partSave .. => keepsNext_execPartSave (Keeps.refl s)
  | .partRestore .. => keepsNext_execPartRestore (Keeps.refl s)
  | .dirtySwap .. => keepsNext_execDirtySwap (Keeps.refl s)
  | .memMap .. => keepsNext_execMemMap (Keeps.refl s)
  | .memUnmap .. => keepsNext_execMemUnmap (Keeps.refl s)
  | .descCreate .. => keepsNext_execDescCreate (Keeps.refl s)
  | .descDestroy .. => keepsNext_execDescDestroy (Keeps.refl s)
  | .cardLoad .. => keepsNext_execCardLoad (Keeps.refl s)
  | .cspLoad .. => keepsNext_execCspLoad (Keeps.refl s)
  | .progLoad .. => keepsNext_execProgLoad (Keeps.refl s)
  | .progUnload .. => keepsNext_execProgUnload (Keeps.refl s)
  | .taskSubmit .. => keepsNext_execTaskSubmit (Keeps.refl s)
  | .taskEnd .. => keepsNext_execTaskEnd (Keeps.refl s)
  | .launchAt .. => keepsNext_execLaunchAt (Keeps.refl s)
  | .runEnd .. => keepsNext_execRunEnd (Keeps.refl s)
  | .ruAdd .. => keepsNext_execRuAdd (Keeps.refl s)
  | .ruRemove .. => keepsNext_execRuRemove (Keeps.refl s)
  | .ruStats .. => keepsNext_execRuStats (Keeps.refl s)
  | .cellAdd .. => keepsNext_execCellAdd (Keeps.refl s)
  | .cellRemove .. => keepsNext_execCellRemove (Keeps.refl s)
  | .cellExport .. => keepsNext_execCellExport (Keeps.refl s)
  | .cellImport .. => keepsNext_execCellImport (Keeps.refl s)
  | .radClaim .. => keepsNext_execRadClaim (Keeps.refl s)
  | .fabDma .. => keepsNext_execFabDma (Keeps.refl s)
  | .dmaSegmentCommit .. => keepsNext_execDmaSegmentCommit (Keeps.refl s)
  | .fabInval .. => keepsNext_execFabInval (Keeps.refl s)
  | .fabExport .. => keepsNext_execFabExport (Keeps.refl s)
  | .fabUnexport .. => keepsNext_execFabUnexport (Keeps.refl s)
  | .netQpCreate .. => keepsNext_execNetQpCreate (Keeps.refl s)
  | .netQpDestroy .. => keepsNext_execNetQpDestroy (Keeps.refl s)
  | .netMrReg .. => keepsNext_execNetMrReg (Keeps.refl s)
  | .netMrDereg .. => keepsNext_execNetMrDereg (Keeps.refl s)
  | .netRawCfg .. => keepsNext_execNetRawCfg (Keeps.refl s)
  | .svcClusterTest .. => keepsNext_execSvcClusterTest (Keeps.refl s)
  | .clusterTestStart .. => keepsNext_execClusterTestStart (Keeps.refl s)
  | .clusterTestEnd .. => keepsNext_execClusterTestEnd (Keeps.refl s)
  | .clusterTestTimeout .. => keepsNext_execClusterTestTimeout (Keeps.refl s)
  | .svcEngineBypass .. => keepsNext_execSvcEngineBypass (Keeps.refl s)
  | .svcPcRetire .. => keepsNext_execSvcPcRetire (Keeps.refl s)
  | .nonce .. => keepsNext_execNonce (Keeps.refl s)
  | .tamperClear .. => keepsNext_execTamperClear (Keeps.refl s)
  | .svnRaise .. => keepsNext_execSvnRaise (Keeps.refl s)
  | .lifeAdvance .. => keepsNext_execLifeAdvance (Keeps.refl s)
  | .debugDisable .. => keepsNext_execDebugDisable (Keeps.refl s)
  | .rootSet .. => keepsNext_execRootSet (Keeps.refl s)
  | .sealKey .. => keepsNext_execSealKey (Keeps.refl s)
  | .push .. => keepsNext_execPush (Keeps.refl s)
  | .imageVerified .. => keepsNext_execImageVerified (Keeps.refl s)
  | .start .. => keepsNext_execStart (Keeps.refl s)
  | .bootReady .. => keepsNext_execBootReady (Keeps.refl s)
  | .startTimeout .. => keepsNext_execStartTimeout (Keeps.refl s)
  | .reset .. => keepsNext_execReset (Keeps.refl s)
  | .functionLevelReset .. => keepsNext_execFunctionLevelReset (Keeps.refl s)
  | .perstNLow .. => keepsNext_execPerstNLow (Keeps.refl s)
  | .perstNRise .. => keepsNext_execPerstNRise (Keeps.refl s)
  | .powerOnReset .. => keepsNext_execPowerOnReset (Keeps.refl s)
  | .porNRise .. => keepsNext_execPorNRise (Keeps.refl s)
  | .pwrOkFall .. => keepsNext_execPwrOkFall (Keeps.refl s)
  | .pwrOkRise .. => keepsNext_execPwrOkRise (Keeps.refl s)
  | .tamperAlarm .. => keepsNext_execTamperAlarm (Keeps.refl s)
  | .debugAccess .. => keepsNext_execDebugAccess (Keeps.refl s)
  | .thermalTrip .. => keepsNext_execThermalTrip (Keeps.refl s)
  | .clusterIdleOff .. => keepsNext_execClusterIdleOff (Keeps.refl s)
  | .domainIdleOff .. => keepsNext_execDomainIdleOff (Keeps.refl s)
  | .cmdDoorbell .. => keepsNext_execCmdDoorbell (Keeps.refl s)
  | .cplHeadWrite .. => keepsNext_execCplHeadWrite (Keeps.refl s)
  | .ringEnable .. => keepsNext_execRingEnable (Keeps.refl s)
  | .ringEnableDeferred .. => keepsNext_execRingEnableDeferred (Keeps.refl s)
  | .generationWrap .. => keepsNext_execGenerationWrap (Keeps.refl s)
  | .authLockoutExpiry .. => keepsNext_execAuthLockoutExpiry (Keeps.refl s)
  | .hostLinkDown .. => keepsNext_execHostLinkDown (Keeps.refl s)
  | .hostLinkUp .. => keepsNext_execHostLinkUp (Keeps.refl s)
  | .stepMark _ v => keepsNext_execStepMark (_v := v) (Keeps.refl s)
  | .snap .. => keepsNext_execSnap (Keeps.refl s)
  | .activeReq .. => keepsNext_execActiveReq (Keeps.refl s)
  | .domainAcquire .. => keepsNext_execDomainAcquire (Keeps.refl s)
  | .domainLock .. => keepsNext_execDomainLock (Keeps.refl s)
  | .announceTimeout .. => keepsNext_execAnnounceTimeout (Keeps.refl s)
  | .cloveMarkerRx .. => keepsNext_execCloveMarkerRx (Keeps.refl s)
  | .markerTimeout .. => keepsNext_execMarkerTimeout (Keeps.refl s)
  | .ppsInEdge .. => keepsNext_execPpsInEdge (Keeps.refl s)
  | .flitRx .. => keepsNext_execFlitRx (Keeps.refl s)
  | .linkTrainAttempt .. => keepsNext_execLinkTrainAttempt (Keeps.refl s)
  | .trainStageTimeout .. => keepsNext_execTrainStageTimeout (Keeps.refl s)
  | .partnerSilence .. => keepsNext_execPartnerSilence (Keeps.refl s)
  | .laneLockLoss .. => keepsNext_execLaneLockLoss (Keeps.refl s)
  | .laneLockTimeout .. => keepsNext_execLaneLockTimeout (Keeps.refl s)
  | .retrain .. => keepsNext_execRetrain (Keeps.refl s)
  | .service .. => keepsNext_execService (Keeps.refl s)
  | .retrainRequestRx .. => keepsNext_execRetrainRequestRx (Keeps.refl s)
  | .pathDown .. => keepsNext_execPathDown (Keeps.refl s)
  | .linkRekey .. => keepsNext_execLinkRekey (Keeps.refl s)
  | .load .. => keepsNext_execLoad (Keeps.refl s)
  | .store .. => keepsNext_execStore (Keeps.refl s)
  | .storeWithOrderedFlag .. => keepsNext_execStoreWithOrderedFlag (Keeps.refl s)
  | .atomicAdd .. => keepsNext_execAtomicAdd (Keeps.refl s)
  | .atomicMin .. => keepsNext_execAtomicMin (Keeps.refl s)
  | .atomicMax .. => keepsNext_execAtomicMax (Keeps.refl s)
  | .compareAndSwap .. => keepsNext_execCompareAndSwap (Keeps.refl s)
  | .fabOpInval .. => keepsNext_execFabOpInval (Keeps.refl s)
  | .fabricRouterRx .. => keepsNext_execFabricRouterRx (Keeps.refl s)
  | .combineTimeout .. => keepsNext_execCombineTimeout (Keeps.refl s)
  | .fabricRequestRx .. => keepsNext_execFabricRequestRx (Keeps.refl s)
  | .orderedFlagApply .. => keepsNext_execOrderedFlagApply (Keeps.refl s)
  | .fabricResponseRx .. => keepsNext_execFabricResponseRx (Keeps.refl s)
  | .fabTimeout .. => keepsNext_execFabTimeout (Keeps.refl s)
  | .resetNoticeRx .. => keepsNext_execResetNoticeRx (Keeps.refl s)
  | .resetNoticeAckRx .. => keepsNext_execResetNoticeAckRx (Keeps.refl s)
  | .resetNoticeResend .. => keepsNext_execResetNoticeResend (Keeps.refl s)
  | .twinSignatureRx .. => keepsNext_execTwinSignatureRx (Keeps.refl s)
  | .twinLost .. => keepsNext_execTwinLost (Keeps.refl s)
  | .freezeNoticeRx .. => keepsNext_execFreezeNoticeRx (Keeps.refl s)
  | .ethRxFrame .. => keepsNext_execEthRxFrame (Keeps.refl s)
  | .rateIncrease .. => keepsNext_execRateIncrease (Keeps.refl s)
  | .ackTimeout .. => keepsNext_execAckTimeout (Keeps.refl s)
  | .netSqDb .. => keepsNext_execNetSqDb (Keeps.refl s)
  | .netRqDb .. => keepsNext_execNetRqDb (Keeps.refl s)
  | .netCqDb .. => keepsNext_execNetCqDb (Keeps.refl s)
  | .netRawTxTail .. => keepsNext_execNetRawTxTail (Keeps.refl s)
  | .netRawRxTail .. => keepsNext_execNetRawRxTail (Keeps.refl s)
  | .frameTxDone .. => keepsNext_execFrameTxDone (Keeps.refl s)
  | .radioFrameDeadline .. => keepsNext_execRadioFrameDeadline (Keeps.refl s)
  | .subportDown .. => keepsNext_execSubportDown (Keeps.refl s)
  | .subportUp .. => keepsNext_execSubportUp (Keeps.refl s)
  | .holdExpiry .. => keepsNext_execHoldExpiry (Keeps.refl s)
  | .rxWindowClose .. => keepsNext_execRxWindowClose (Keeps.refl s)
  | .dlCplaneSend .. => keepsNext_execDlCplaneSend (Keeps.refl s)
  | .dlUplaneSend .. => keepsNext_execDlUplaneSend (Keeps.refl s)
  | .txLate .. => keepsNext_execTxLate (Keeps.refl s)
  | .agcUpdate .. => keepsNext_execAgcUpdate (Keeps.refl s)
  | .searchDetection .. => keepsNext_execSearchDetection (Keeps.refl s)
  | .ldpcJob .. => keepsNext_execLdpcJob (Keeps.refl s)
  | .polarJob .. => keepsNext_execPolarJob (Keeps.refl s)
  | .trlJob .. => keepsNext_execTrlJob (Keeps.refl s)
  | .jobDeadline .. => keepsNext_execJobDeadline (Keeps.refl s)
  | .codingJobEnd .. => keepsNext_execCodingJobEnd (Keeps.refl s)
  | .engineFault .. => keepsNext_execEngineFault (Keeps.refl s)
  | .cloveTimer .. => keepsNext_execCloveTimer (Keeps.refl s)
  | .scrubRead .. => keepsNext_execScrubRead (Keeps.refl s)
  | .uartFrameRx .. => keepsNext_execUartFrameRx (Keeps.refl s)
  | .uartRxRead .. => keepsNext_execUartRxRead (Keeps.refl s)
  | .registerWrite .. => keepsNext_execRegisterWrite (Keeps.refl s)
  | .linkUp .. => keepsNext_execLinkUp (Keeps.refl s)
  | .pauseExpiry .. => keepsNext_execPauseExpiry (Keeps.refl s)
  | .shaperCreditZero .. => keepsNext_execShaperCreditZero (Keeps.refl s)
  | .ppsOutRise .. => keepsNext_execPpsOutRise (Keeps.refl s)
  | .ppsOutFall .. => keepsNext_execPpsOutFall (Keeps.refl s)

/-- On an empty queue time passes, which keeps the invariant. -/
theorem keeps_idle (s : State) : Keeps s (idle s) := keeps_ite (keeps_passCycle (Keeps.refl s)) (Keeps.refl s)

/-- Settles O47: on an empty queue the clock goes on by a cycle (keeps_idle); otherwise the first command runs (exec_keeps), on a state
whose shorter queue is no part of the invariant. -/
theorem stepKeepsInv : Obligations.StepKeepsInv := by
  unfold Obligations.StepKeepsInv step
  intro s t hs ht
  cases hq : s.pending with
  | nil =>
    obtain rfl : idle s = t := by simpa [hq] using ht
    exact (keeps_idle s).inv hs
  | cons c rest =>
    have hexec : exec c { s with pending := rest } = .next t := by simpa [hq] using ht
    exact (exec_keeps c _ t hexec).inv hs

end Sys2Proof.Machine
end

section
/-! PROOFS. Switching off what nothing needs (R25, R385, R436): once each for the power core's decision and for the boundary at which it
takes effect, for clusters, for the switched domains and for the HBM groups. -/

namespace Sys2Proof.Machine

open Sys2Proof

/-! ### Deciding -/

/-- A row of the main domain that runs answers what its act leaves. -/
theorem inRun_of_mainOn {s : State} (f : State → State) (h : mainOn s = true) : inRun s f = .next (f s) := by
  rw [inRun, if_pos h]

/-- The next boundary that can be committed is not boundary 0, which stands for none. -/
theorem nextCommit_ne_zero (s : State) : nextCommit s ≠ 0 := by
  unfold nextCommit
  split <;> omega

/-- A decision to switch a domain off is the one read back for it, and no other domain's. -/
theorem tabGet_domOffAt_switchOff (s : State) (d e : Nat) :
    tabGet 0 (switchOff s d).pwr.domOffAt e = if e = d then nextCommit s else tabGet 0 s.pwr.domOffAt e := by
  split
  · subst e
    exact tabGet_tabSet_self 0 s.pwr.domOffAt d (nextCommit_ne_zero s)
  · exact tabGet_tabSet_other 0 s.pwr.domOffAt _ (Ne.symm ‹_›)

theorem idleOff_of_unneeded {s : State} {d : Nat} (hon : domOn s d = true) (hidle : 80 ≤ tabGet 0 s.pwr.idle d)
    (hneed : domNeeded s d = false) (hoff : tabGet 0 s.pwr.domOffAt d = 0) : idleOff s d = switchOff s d := by
  simp [idleOff, hon, hidle, hneed, hoff]

theorem idleOff_of_needed {s : State} {d : Nat} (h : domOn s d = false ∨ tabGet 0 s.pwr.idle d < 80 ∨ domNeeded s d = true) :
    idleOff s d = s := by
  rcases h with hoff | hidle | hneed
  · simp [idleOff, hoff]
  · simp [idleOff, Nat.not_le.2 hidle]
  · simp [idleOff, hneed]

/-- Every row that switches a domain off when it is idle, other than one of an HBM group, acts alike. -/
theorem exec_domainIdleOff {s : State} {i : Instr} {d : Nat} (hmain : mainOn s = true)
    (hrow : (∃ g : Fin 3, i = .domainIdleOff (.link g) ∧ d = g.val) ∨ (∃ g : Fin 2, i = .domainIdleOff (.eth g) ∧ d = 3 + g.val) ∨
      (i = .domainIdleOff .radio ∧ d = 5)) : exec i s = .next (idleOff s d) := by
  rcases hrow with ⟨g, rfl, rfl⟩ | ⟨g, rfl, rfl⟩ | ⟨rfl, rfl⟩ <;> exact inRun_of_mainOn _ hmain

theorem exec_domainIdleOff_hbm {s : State} (n : Fin 8) (hmain : mainOn s = true) : exec (.domainIdleOff (.hbm n)) s =
    .next (if (List.range 64).all (fun i => tabGet false s.hbm.pcRetired (64 * n.val + i)) &&
      decide (tabGet 0 s.pwr.domOffAt (6 + n.val) = 0) then switchOff s (6 + n.val) else s) :=
  inRun_of_mainOn _ hmain

/-- A cluster that nobody has held for 80 cloves is set to go off. -/
theorem exec_clusterIdleOff_of_unheld {s : State} {c : Fin 20} (hmain : mainOn s = true) (hpoint : (getPc s c.val).point < 4)
    (hidle : 80 ≤ (getPc s c.val).idle) (hfree : cluUnheld s c.val = true) :
    exec (.clusterIdleOff c) s = .next (modPc s c.val fun x => { x with offAt := nextCommit s }) :=
  (inRun_of_mainOn _ hmain).trans (by simp [hpoint, hidle, hfree])

theorem exec_clusterIdleOff_of_held {s : State} {c : Fin 20} (hmain : mainOn s = true)
    (h : (getPc s c.val).idle < 80 ∨ cluUnheld s c.val = false) : exec (.clusterIdleOff c) s = .next s :=
  (inRun_of_mainOn _ hmain).trans (by
    rcases h with hidle | hheld
    · simp [Nat.not_le.2 hidle]
    · simp [hheld])

/-- The boundary at which a cluster is to go off reads back. -/
theorem getPc_modPc_offAt (s : State) (c : Nat) :
    getPc (modPc s c fun x => { x with offAt := nextCommit s }) c = { getPc s c with offAt := nextCommit s } :=
  getPc_modPc_self s c _ fun heq => nextCommit_ne_zero s (congrArg PwrClu.offAt heq)

/-! ### Going off -/

/-- A cleared bit is off, and every other one is as it was. -/
theorem getLsbD_and_not_two_pow {w : Nat} (v : BitVec w) (i j : Nat) :
    (v &&& ~~~BitVec.ofNat w (2 ^ i)).getLsbD j = (v.getLsbD j && decide (j ≠ i)) := by
  rw [BitVec.getLsbD_and, BitVec.getLsbD_not, BitVec.getLsbD_ofNat, Nat.testBit_two_pow]
  by_cases hj : j < w
  · simp [hj, eq_comm]
  · simp [BitVec.getLsbD_of_ge v j (Nat.not_lt.1 hj)]

/-- A domain set off is off, and every other of the six is as it was. -/
theorem domOn_setDom_false (s : State) {d e : Nat} (hd : d < 6) (he : e < 6) :
    domOn (setDom s d false) e = (domOn s e && decide (e ≠ d)) := by
  simp only [domOn, setDom, Bool.false_eq_true, if_false]
  have hother (x : Bool) (h : e ≠ d) : x = (x && decide (e ≠ d)) := by simp [h]
  by_cases hd3 : d < 3
  · simp only [hd3, if_true]
    split
    · exact getLsbD_and_not_two_pow _ _ _
    · exact hother _ (by omega)
  by_cases hd5 : d < 5
  · simp only [hd3, hd5, if_true, if_false]
    split
    · exact hother _ (by omega)
    split
    · rw [getLsbD_and_not_two_pow, decide_eq_decide.2 (by omega : e - 3 ≠ d - 3 ↔ e ≠ d)]
    · exact hother _ (by omega)
  · simp only [hd3, hd5, if_false]
    split
    · exact hother _ (by omega)
    split
    · exact hother _ (by omega)
    · have heq : e = d := by omega
      simp [heq]

/-- A domain whose switch-off was committed for a clove that has come goes off. -/
theorem domOn_domOffStep {s : State} {d e : Nat} (hd : d < 6) (he : e < 6) (hset : tabGet 0 s.pwr.domOffAt d ≠ 0)
    (hdue : tabGet 0 s.pwr.domOffAt d ≤ s.time.clove) : domOn (domOffStep s d) e = (domOn s e && decide (e ≠ d)) := by
  have hstep : (decide (tabGet 0 s.pwr.domOffAt d = 0) || decide (s.time.clove < tabGet 0 s.pwr.domOffAt d)) = false := by
    simp [hset, hdue]
  simp only [domOffStep, hstep, Bool.false_eq_true, if_false]
  exact domOn_setDom_false { s with pwr := { s.pwr with domOffAt := tabSet 0 s.pwr.domOffAt d 0 } } hd he

/-- An HBM group whose switch-off was committed for a clove that has come goes off. -/
theorem hbmOn_hbmOffStep {s : State} {n : Nat} (m : Nat) (hset : tabGet 0 s.pwr.domOffAt (6 + n) ≠ 0)
    (hdue : tabGet 0 s.pwr.domOffAt (6 + n) ≤ s.time.clove) :
    (hbmOffStep s n).pwr.hbmOn.getLsbD m = (s.pwr.hbmOn.getLsbD m && decide (m ≠ n)) := by
  have hstep : (decide (tabGet 0 s.pwr.domOffAt (6 + n) = 0) || decide (s.time.clove < tabGet 0 s.pwr.domOffAt (6 + n))) = false := by
    simp [hset, hdue]
  simp only [hbmOffStep, hstep, Bool.false_eq_true, if_false]
  exact getLsbD_and_not_two_pow _ _ _

/-- A cluster that nobody holds carries no radio reservation. -/
theorem cluRadio_of_cluUnheld {s : State} {c : Nat} (h : cluUnheld s c = true) : cluRadio s c = false := by
  simp only [cluUnheld, List.all_eq_true, decide_eq_true_eq] at h
  simp only [cluRadio, radioParts, List.any_eq_false, List.mem_filter, decide_eq_true_eq, ne_eq, not_not]
  exact fun p hp => h p hp.1

/-- A cluster that is to go off at a boundary that has come, and which nobody held for 80 cloves, is off after it. -/
theorem point_cluPower_of_due (env : BoundaryEnv) {s : State} {c : Nat} (hpoint : (getPc s c).point < 4) (hset : (getPc s c).offAt ≠ 0)
    (hdue : (getPc s c).offAt ≤ s.time.clove) (hidle : 80 ≤ (getPc s c).idle) (hfree : cluUnheld s c = true) :
    (getPc (cluPower env s c) c).point = 4 := by
  unfold cluPower
  extract_lets n radio x on due off y
  have hon : on = false := by
    have hne : x.point ≠ 4 := Nat.ne_of_lt hpoint
    simp [on, hne]
  have hradio : radio = false := cluRadio_of_cluUnheld hfree
  have hoff : off = true := by simp [off, due, x, n, hset, hdue, hidle, hfree]
  have hy : y.point = 4 := by simp [y, hon, hradio, hoff]
  have hkept : y ≠ {} := by
    intro heq
    have hzero : y.idle = 0 := congrArg PwrClu.idle heq
    simp [y, hfree] at hzero
  rw [getPc_modPc_self s c (fun _ => y) hkept, hy]

/-- Settles O20: each row and each of the boundary's steps by its lemma above. -/
theorem idleSwitchOff : Obligations.IdleSwitchOff := by
  unfold Obligations.IdleSwitchOff
  refine ⟨fun s c hmain hpoint => ⟨fun hidle hfree => ?_, fun h => exec_clusterIdleOff_of_held hmain h,
    fun env hset hdue hidle hfree => point_cluPower_of_due env hpoint hset hdue hidle hfree⟩,
    fun s i d hmain hrow => ⟨fun hon hidle hneed hoff => ?_, fun h => ?_, fun hset hdue => ?_⟩, fun s => ?_,
    fun s n hmain => ⟨fun hret hoff => ?_, fun hret => ?_, fun hset hdue => ?_⟩⟩
  · -- a cluster that is idle
    refine ⟨_, exec_clusterIdleOff_of_unheld hmain hpoint hidle hfree, ?_, ?_, fun d hd => getPc_modPc_other s _ (Ne.symm hd)⟩ <;>
      rw [getPc_modPc_offAt]
  · -- a domain that is idle
    refine ⟨switchOff s d, ?_, ?_, fun _ => rfl, fun e he => ?_⟩
    · rw [exec_domainIdleOff hmain hrow, idleOff_of_unneeded hon hidle hneed hoff]
    · rw [tabGet_domOffAt_switchOff, if_pos rfl]
    · rw [tabGet_domOffAt_switchOff, if_neg he]
  · -- a domain that is off or needed
    rw [exec_domainIdleOff hmain hrow, idleOff_of_needed h]
  · -- a domain at its boundary
    have hd : d < 6 := by
      rcases hrow with ⟨g, -, rfl⟩ | ⟨g, -, rfl⟩ | ⟨-, rfl⟩ <;> omega
    refine ⟨?_, fun e he hne => ?_⟩
    · rw [domOn_domOffStep hd hd hset hdue]
      simp
    · rw [domOn_domOffStep hd he hset hdue, decide_eq_true hne, Bool.and_true]
  · -- the host-interface group
    exact congrArg Host.Outcome.next (ite_self s)
  · -- an HBM group whose pseudo-channels are all retired
    refine ⟨switchOff s (6 + n.val), ?_, ?_, rfl⟩
    · rw [exec_domainIdleOff_hbm n hmain, if_pos]
      simpa [hoff] using hret
    · rw [tabGet_domOffAt_switchOff, if_pos rfl]
  · -- an HBM group with a pseudo-channel in use
    obtain ⟨i, hi, huse⟩ := hret
    rw [exec_domainIdleOff_hbm n hmain, if_neg]
    simp only [Bool.and_eq_true, List.all_eq_true, List.mem_range, not_and]
    exact fun hall => absurd ((hall i hi).symm.trans huse) nofun
  · -- an HBM group at its boundary
    refine ⟨?_, fun m _ hne => ?_⟩
    · rw [hbmOn_hbmOffStep n.val hset hdue]
      simp
    · rw [hbmOn_hbmOffStep m hset hdue, decide_eq_true hne, Bool.and_true]

end Sys2Proof.Machine
end

section
/-! PROOFS. The failures of arrays (R36, R63, R71, R74). The statement asks a canonical table of the arrays of a cluster, but not of the
clusters: outside the invariant (Inv, which O47 keeps) a cluster that goes back to its reset value uncovers another entry of its key. -/

namespace Sys2Proof.Machine

open Sys2Proof

/-- A running machine whose table of clusters has two entries of cluster 0. The first is read: in it nothing but the watchdog of array 3,
which has reached its limit, differs from a cluster at reset. Behind it stands one in which array 0 has failed. -/
def twiceClustered : State := { State.reset with
  pwr := { porN := true, pwrOk := true }
  clusters := [(0, { pa := [(3, { wdog := 0x10000 })] }), (0, { failed := 1 })] }

/-- The watchdog of array 3 goes back to 0 as it expires, so the first entry is as at reset and leaves the table. The failure is then
recorded in the second one. -/
theorem failed_watchdog_twiceClustered :
    ∀ t, exec (.arrayWatchdog 0 3) twiceClustered = .next t → (getClu t 0).failed = 9 := by
  intro t ht
  obtain rfl := Host.Outcome.next.inj ht
  decide +kernel

/-- Refutes O15: in twiceClustered, whose clusters are not canonical, the watchdog of array 3 finds the first failure of the cluster that
is read, and after it two arrays have failed. -/
theorem not_arrayFailure : ¬ Obligations.ArrayFailure := by
  unfold Obligations.ArrayFailure
  intro h
  obtain ⟨-, hfail⟩ := h.1 0 3 twiceClustered (by decide)
  obtain ⟨t, ht, hfailed, -⟩ := hfail (by decide) (by decide) (by decide) (by decide) (by decide) (.arrayWatchdog 0 3) 3
    (.inl ⟨rfl, by decide, rfl⟩)
  exact absurd ((failed_watchdog_twiceClustered t ht).symm.trans hfailed) (by decide)

end Sys2Proof.Machine
end

section
/-! PROOFS. The sums of an MMA (R45, R49, R58). The statement asks no canonical table of the physical arrays: outside the invariant (Inv,
which O47 keeps) an array that goes back to its reset value uncovers another entry of its key, with another weight buffer. -/

namespace Sys2Proof.Machine

open Sys2Proof

/-- An MMA of one INT8 row of one element by one INT8 column, on array 4, for partition 1: WS with INIT and SLICE_START. -/
def oneProduct : List Word :=
  [0x24210441, 0x04000400, 0x00010101, 0, 0, 0, 0, 0x03020100, 0, 0, 0, 1000, 0x00010001, 0, 0, 0]

/-- A running machine whose partition 1 holds array 4 of cluster 0, with an operand of 1 in queue 0. The table of physical arrays has two
entries of array 4. The first is read: only the checksum of its row 0 differs from an array at reset. The weight buffer of the one behind
it starts with a weight of 1. -/
def twiceArrayed : State := { State.reset with
  pwr := { porN := true, pwrOk := true, clu := [(0, { point := 0 })] }
  time := { State.reset.time with cloveRun := true }
  parts := [(1, { live := true, gen := 1, hold := [(0, { groups := 15 })] })]
  clusters := [(0, {
    la := [(4, { part := some 1 })]
    pa := [(4, { sums := [(0, { chk := 1 })] }), (4, { wb := { mem := [(0, 1)] } })]
    eq := [(0, { en := true, entries := [{ gr := [{ data := 1, pad := false }], mark := false }] })] })] }

/-- The MMA passes its checks and may start. -/
theorem mma_starts_twiceArrayed : let s := twiceArrayed
    let l := dArray oneProduct % 16
    mainOn s = true ∧ (getPart s 1).live = true ∧ (getLa s 0 l).run = none ∧ (getLa s 0 l).descQ = [] ∧
      opErrs s 0 1 oneProduct = [] ∧ canStart s 0 l 1 oneProduct = true := by
  decide +kernel

/-- INIT = 1 clears the checksum of row 0, so the first entry is as at reset and leaves the table. The tile is then read from the second
one, and the operand meets its weight of 1. -/
theorem accInt_mma_twiceArrayed :
    ∀ t, exec (.mma 0 1 oneProduct) twiceArrayed = .next t → accInt (accOf t 0 (dArray oneProduct % 16) oneProduct 0 0 0) = 1 := by
  intro t ht
  obtain rfl := Host.Outcome.next.inj ht
  decide +kernel

/-- Refutes O12: in twiceArrayed, whose physical arrays are not canonical, the tile that is held when the MMA starts has a weight of 0,
so the sum of its one product is 0; the MMA leaves 1. -/
theorem not_mmaRow : ¬ Obligations.MmaRow := by
  unfold Obligations.MmaRow
  intro h
  obtain ⟨hmain, hlive, hrun, hdescQ, herrs, hstart⟩ := mma_starts_twiceArrayed
  obtain ⟨t, ht, -, -, hsum⟩ := h.1 0 1 oneProduct twiceArrayed hmain hlive hrun hdescQ herrs hstart (by decide) (by decide) (by decide)
    (by decide) (by decide) (by decide) (by decide) (by decide) (by decide) (by decide) (by decide)
    [{ data := 1, pad := false }] [] 0 false (by decide +kernel)
  have hzero := hsum 0 0 (by decide) (by decide)
  exact absurd ((accInt_mma_twiceArrayed t ht).symm.trans hzero) (by decide +kernel)

end Sys2Proof.Machine
end

section
/-! PROOFS. What the operations and drains of an array read and write of its cluster (R42, R67, R133, R443), as far as the proofs about them
follow it: the view of an array. While a partition holds the array, neither its entry nor that of its cluster can leave its table, so
every change of one reads back. -/

namespace Sys2Proof.Machine

open Sys2Proof

/-- What the proofs below follow of an array and its cluster: the physical arrays and the spare's index, the queues, and of the logical
array all but its slices and waiting descriptors. -/
structure ArrayView where
  pa : Tab PArray
  eq : Tab Eq
  spareFor : BitVec 6
  part : Option Nat
  run : Option OpRun
  drains : List Drain
  drnCnt : BitVec 32

/-- The view of logical array l of cluster c. -/
def arrayView (s : State) (c l : Nat) : ArrayView :=
  { pa := (getClu s c).pa, eq := (getClu s c).eq, spareFor := (getClu s c).spareFor, part := (getLa s c l).part
    run := (getLa s c l).run, drains := (getLa s c l).drains, drnCnt := (getLa s c l).drnCnt }

variable {s : State} {c l : Nat} {V : ArrayView}

theorem arrayView_run (s : State) (c l : Nat) : (arrayView s c l).run = (getLa s c l).run := rfl

theorem arrayView_drains (s : State) (c l : Nat) : (arrayView s c l).drains = (getLa s c l).drains := rfl

theorem arrayView_drnCnt (s : State) (c l : Nat) : (arrayView s c l).drnCnt = (getLa s c l).drnCnt := rfl

/-- A cluster with an array that a partition holds reads back. -/
theorem getClu_modClu_held {f : Cluster → Cluster} (hf : (tabGet {} (f (getClu s c)).la l).part.isSome = true) :
    getClu (modClu s c f) c = f (getClu s c) :=
  getClu_modClu_self s c f fun e => by
    rw [e] at hf
    exact absurd hf nofun

/-- An array that a partition holds reads back. -/
theorem getLa_modLa_held {f : LArray → LArray} (hf : (f (getLa s c l)).part.isSome = true) :
    getLa (modLa s c l f) c l = f (getLa s c l) :=
  getLa_modLa_self s c l f fun e => by
    rw [e] at hf
    exact absurd hf nofun

theorem getClu_modLa_held {f : LArray → LArray} (hf : (f (getLa s c l)).part.isSome = true) :
    getClu (modLa s c l f) c = { getClu s c with la := tabMod {} (getClu s c).la l f } := by
  refine getClu_modClu_held (l := l) ?_
  have hne : f (tabGet {} (getClu s c).la l) ≠ {} := fun e => by
    rw [getLa, e] at hf
    exact absurd hf nofun
  rwa [tabGet_tabMod_self _ _ _ _ hne]

/-- The view after a change of the array that leaves it to its partition. -/
theorem arrayView_modLa {f : LArray → LArray} (hf : (f (getLa s c l)).part.isSome = true) :
    arrayView (modLa s c l f) c l = { arrayView s c l with
      part := (f (getLa s c l)).part, run := (f (getLa s c l)).run, drains := (f (getLa s c l)).drains
      drnCnt := (f (getLa s c l)).drnCnt } := by
  simp only [arrayView, getLa_modLa_held hf, getClu_modLa_held hf]

theorem arrayView_setRun (r : Option OpRun) (hpart : (arrayView s c l).part.isSome = true) :
    arrayView (modLa s c l fun la => { la with run := r }) c l = { arrayView s c l with run := r } :=
  arrayView_modLa hpart

theorem arrayView_setDrains (f : List Drain → List Drain) (hpart : (arrayView s c l).part.isSome = true) :
    arrayView (modLa s c l fun la => { la with drains := f la.drains }) c l =
      { arrayView s c l with drains := f (arrayView s c l).drains } :=
  arrayView_modLa hpart

/-- A change of the cluster that leaves its logical arrays alone reads back. -/
theorem getClu_modClu_la {f : Cluster → Cluster} (hpart : (getLa s c l).part.isSome = true) (hf : ∀ cl, (f cl).la = cl.la) :
    getClu (modClu s c f) c = f (getClu s c) :=
  getClu_modClu_held (l := l) (by rw [hf]; exact hpart)

/-- The view after a change of the cluster that leaves its logical arrays alone. -/
theorem arrayView_modClu {f : Cluster → Cluster} (hpart : (getLa s c l).part.isSome = true) (hf : ∀ cl, (f cl).la = cl.la) :
    arrayView (modClu s c f) c l = { arrayView s c l with
      pa := (f (getClu s c)).pa, eq := (f (getClu s c)).eq, spareFor := (f (getClu s c)).spareFor } := by
  simp only [arrayView, getLa, getClu_modClu_la hpart hf, hf]

theorem getLa_modClu_la {f : Cluster → Cluster} (hpart : (getLa s c l).part.isSome = true) (hf : ∀ cl, (f cl).la = cl.la) :
    getLa (modClu s c f) c l = getLa s c l := by
  simp only [getLa, getClu_modClu_la hpart hf, hf]

theorem arrayView_modEq {q : Nat} {f : Eq → Eq} (hpart : (arrayView s c l).part.isSome = true) :
    arrayView (modEq s c q f) c l = { arrayView s c l with eq := tabMod {} (arrayView s c l).eq q f } :=
  arrayView_modClu hpart fun _ => rfl

theorem arrayView_modPa {a : Nat} {f : PArray → PArray} (hpart : (arrayView s c l).part.isSome = true) :
    arrayView (modPa s c a f) c l = { arrayView s c l with pa := tabMod {} (arrayView s c l).pa a f } :=
  arrayView_modClu hpart fun _ => rfl

/-! ### What leaves the view alone -/

theorem views_foldl {β : Type} {f : State → β → State} {xs : List β} (h : arrayView s c l = V)
    (hf : ∀ s x, arrayView s c l = V → arrayView (f s x) c l = V) : arrayView (xs.foldl f s) c l = V :=
  List.foldlRecOn (motive := fun s => arrayView s c l = V) xs f h fun s hs x _ => hf s x hs

theorem views_noteSlice {p st : Nat} (h : arrayView s c l = V) : arrayView (noteSlice s p c l st) c l = V := by
  unfold noteSlice
  split <;> exact h

theorem putSlice_work (la : LArray) (ctx : Bool) (x : Slice) : (putSlice la ctx x).part = la.part ∧ (putSlice la ctx x).run = la.run ∧
    (putSlice la ctx x).drains = la.drains ∧ (putSlice la ctx x).drnCnt = la.drnCnt := by
  unfold putSlice
  split <;> exact ⟨rfl, rfl, rfl, rfl⟩

section

variable (hV : V.part.isSome = true)
include hV

/-- Bookkeeping of slices and descriptors leaves the view of an array alone. -/
theorem views_modLa {f : LArray → LArray} (h : arrayView s c l = V)
    (hf : ∀ la, (f la).part = la.part ∧ (f la).run = la.run ∧ (f la).drains = la.drains ∧ (f la).drnCnt = la.drnCnt) :
    arrayView (modLa s c l f) c l = V := by
  obtain ⟨hpart, hrun, hdrains, hcnt⟩ := hf (getLa s c l)
  subst h
  rw [arrayView_modLa (by rw [hpart]; exact hV), hpart, hrun, hdrains, hcnt]
  rfl

theorem views_modClu {f : Cluster → Cluster} (h : arrayView s c l = V)
    (hf : ∀ cl, (f cl).la = cl.la ∧ (f cl).pa = cl.pa ∧ (f cl).eq = cl.eq ∧ (f cl).spareFor = cl.spareFor) :
    arrayView (modClu s c f) c l = V := by
  obtain ⟨-, hpa, heq, hspare⟩ := hf (getClu s c)
  subst h
  rw [arrayView_modClu hV fun cl => (hf cl).1, hpa, heq, hspare]
  rfl

theorem views_freeCheckpoints {marks : List Nat} (h : arrayView s c l = V) : arrayView (freeCheckpoints s c marks) c l = V := by
  unfold freeCheckpoints
  split
  · exact h
  · exact views_modClu hV h fun _ => ⟨rfl, rfl, rfl, rfl⟩

theorem views_endSlices (h : arrayView s c l = V) : arrayView (endSlices s c l) c l = V := by
  unfold endSlices
  extract_lets la fin s1
  have h1 : arrayView s1 c l = V := views_modLa hV h fun _ => ⟨rfl, rfl, rfl, rfl⟩
  exact views_foldl h1 fun s x hs => views_freeCheckpoints hV (views_noteSlice hs)

theorem views_closeSlice {ctx : Bool} (h : arrayView s c l = V) : arrayView (closeSlice s c l ctx) c l = V := by
  unfold closeSlice
  extract_lets la
  split
  · exact views_endSlices hV (views_modLa hV h fun _ => putSlice_work _ _ _)
  · exact h

theorem views_modSlice {id : Nat} {f : Slice → Slice} (h : arrayView s c l = V) : arrayView (modSlice s c l id f) c l = V :=
  views_modLa hV h fun _ => ⟨rfl, rfl, rfl, rfl⟩

theorem views_openSlice {d : List Word} {owner : Nat} (h : arrayView s c l = V) : arrayView (openSlice s c l d owner) c l = V := by
  unfold openSlice
  extract_lets s1 P draw lo hi s2
  have h1 : arrayView s1 c l = V := views_closeSlice hV h
  have h2 : arrayView s2 c l = V := by
    show arrayView (if draw then _ else _) c l = V
    split <;> exact h1
  exact views_modLa hV h2 fun _ => putSlice_work _ _ _

theorem views_reopenSlice {x : Slice} (h : arrayView s c l = V) : arrayView (reopenSlice s c l x) c l = V :=
  views_modLa hV (views_closeSlice hV h) fun _ => putSlice_work _ _ _

theorem views_joinSlice {d : List Word} {owner : Nat} (h : arrayView s c l = V) : arrayView (joinSlice s c l d owner) c l = V := by
  unfold joinSlice
  extract_lets s1
  have h1 : arrayView s1 c l = V := by
    show arrayView (if dStart d then _ else s) c l = V
    split
    · split
      · exact views_reopenSlice hV h
      · exact views_openSlice hV h
    · exact h
  exact views_modLa hV h1 fun _ => putSlice_work _ _ _

theorem views_popDesc {d : List Word} {owner : Nat} (h : arrayView s c l = V) : arrayView (popDesc s c l owner d) c l = V :=
  views_modLa hV h fun _ => ⟨rfl, rfl, rfl, rfl⟩

theorem views_opDone {id : Nat} (h : arrayView s c l = V) : arrayView (opDone s c l id) c l = V :=
  views_endSlices hV (views_modSlice hV h)

theorem views_noteTaken {id q : Nat} {gs : List Gran} {mk : Bool} (h : arrayView s c l = V) :
    arrayView (noteTaken s c l id q gs mk) c l = V :=
  views_modSlice hV h

end

end Sys2Proof.Machine
end

section
/-! PROOFS. Granules taken from a queue (R133): what a take gives and leaves, and that a take of m + n granules is one of m and then one
of n. -/

namespace Sys2Proof.Machine

open Sys2Proof

/-- The granules that are not padding. -/
def unpadded (gs : List Gran) : List Gran := gs.filter (fun g => !g.pad)

@[simp] theorem unpadded_nil : unpadded [] = [] := rfl

theorem unpadded_cons_pad {g : Gran} (h : g.pad = true) (gs : List Gran) : unpadded (g :: gs) = unpadded gs := by
  simp [unpadded, h]

theorem unpadded_cons_data {g : Gran} (h : g.pad = false) (gs : List Gran) : unpadded (g :: gs) = g :: unpadded gs := by
  simp [unpadded, h]

/-- Picking passes over a granule of padding. -/
theorem pickGrans_cons_pad {g : Gran} (h : g.pad = true) (n : Nat) (gs : List Gran) :
    pickGrans (n + 1) (g :: gs) = ((pickGrans (n + 1) gs).1, (pickGrans (n + 1) gs).2 + 1) := by
  simp [pickGrans, h]

theorem pickGrans_cons_data {g : Gran} (h : g.pad = false) (n : Nat) (gs : List Gran) :
    pickGrans (n + 1) (g :: gs) = (g :: (pickGrans n gs).1, (pickGrans n gs).2 + 1) := by
  simp [pickGrans, h]

@[simp] theorem pickGrans_zero (gs : List Gran) : pickGrans 0 gs = ([], 0) := by
  cases gs <;> rfl

@[simp] theorem pickGrans_nil (n : Nat) : pickGrans n [] = ([], 0) := by
  cases n <;> rfl

/-- What n picked granules are, how far they stretch at most, and what stands behind them. -/
theorem pickGrans_spec (n : Nat) (gs : List Gran) : (pickGrans n gs).1 = (unpadded gs).take n ∧ (pickGrans n gs).2 ≤ gs.length ∧
    unpadded (gs.drop (pickGrans n gs).2) = (unpadded gs).drop n := by
  induction gs generalizing n with
  | nil => simp
  | cons g gs ih =>
    cases n with
    | zero => simp
    | succ n =>
      cases hg : g.pad with
      | true => simpa [pickGrans_cons_pad hg, unpadded_cons_pad hg] using ih (n + 1)
      | false => simpa [pickGrans_cons_data hg, unpadded_cons_data hg] using ih n

/-- Where m granules and then n more are picked, all m + n are picked in one. -/
theorem pickGrans_snd_add {m n : Nat} {gs : List Gran} (h : m + n ≤ (unpadded gs).length) :
    (pickGrans m gs).2 + (pickGrans n (gs.drop (pickGrans m gs).2)).2 = (pickGrans (m + n) gs).2 := by
  induction gs generalizing m with
  | nil => simp
  | cons g gs ih =>
    cases m with
    | zero => simp
    | succ m =>
      cases hg : g.pad with
      | true =>
        rw [unpadded_cons_pad hg] at h
        have := ih h
        rw [Nat.add_right_comm m 1 n] at this ⊢
        simp only [pickGrans_cons_pad hg, List.drop_succ_cons]
        omega
      | false =>
        rw [unpadded_cons_data hg, List.length_cons] at h
        have := ih (m := m) (by omega)
        rw [Nat.add_right_comm m 1 n]
        simp only [pickGrans_cons_data hg, List.drop_succ_cons]
        omega

@[simp] theorem takeGrans_zero (es : List Entry) (k : Nat) : takeGrans 0 es k = some ([], es, k, false) := by
  cases es <;> rfl

theorem takeGrans_nil {n : Nat} (hn : 0 < n) (k : Nat) : takeGrans n [] k = none := by
  obtain ⟨n, rfl⟩ : ∃ m, n = m + 1 := ⟨n - 1, by omega⟩
  rfl

/-- A take of granules, at least one, from an entry that holds fewer goes on with the next. -/
theorem takeGrans_cons_lt {n : Nat} {e : Entry} {k : Nat} (h : (unpadded (e.gr.drop k)).length < n) (es : List Entry) :
    takeGrans n (e :: es) k = (takeGrans (n - (unpadded (e.gr.drop k)).length) es 0).map (fun x =>
      (unpadded (e.gr.drop k) ++ x.1, x.2.1, x.2.2.1, x.2.2.2 || e.mark)) := by
  obtain ⟨n, rfl⟩ : ∃ m, n = m + 1 := ⟨n - 1, by omega⟩
  obtain ⟨hfst, -, -⟩ := pickGrans_spec (n + 1) (e.gr.drop k)
  rw [List.take_of_length_le (by omega)] at hfst
  simp only [takeGrans, hfst]
  rw [if_pos h]
  cases takeGrans (n + 1 - (unpadded (e.gr.drop k)).length) es 0 <;> rfl

/-- An entry leaves its queue with its last granule that is not padding. -/
theorem takeGrans_cons_eq {n : Nat} (hn : 0 < n) {e : Entry} {k : Nat} (h : (unpadded (e.gr.drop k)).length = n) (es : List Entry) :
    takeGrans n (e :: es) k = some (unpadded (e.gr.drop k), es, 0, e.mark) := by
  obtain ⟨n, rfl⟩ : ∃ m, n = m + 1 := ⟨n - 1, by omega⟩
  obtain ⟨hfst, -, hrest⟩ := pickGrans_spec (n + 1) (e.gr.drop k)
  rw [List.take_of_length_le (by omega)] at hfst
  have hnone := hrest.trans (List.drop_of_length_le (by omega))
  rw [unpadded, List.filter_eq_nil_iff] at hnone
  simp only [takeGrans, hfst]
  rw [if_neg (by omega), if_pos (by simpa using hnone)]

/-- An entry that holds more stays. -/
theorem takeGrans_cons_gt {n : Nat} (hn : 0 < n) {e : Entry} {k : Nat} (h : n < (unpadded (e.gr.drop k)).length) (es : List Entry) :
    takeGrans n (e :: es) k = some ((unpadded (e.gr.drop k)).take n, e :: es, k + (pickGrans n (e.gr.drop k)).2, e.mark) := by
  obtain ⟨n, rfl⟩ : ∃ m, n = m + 1 := ⟨n - 1, by omega⟩
  obtain ⟨hfst, -, hrest⟩ := pickGrans_spec (n + 1) (e.gr.drop k)
  have hmore : unpadded ((e.gr.drop k).drop (pickGrans (n + 1) (e.gr.drop k)).2) ≠ [] := by
    rw [hrest, ne_eq, List.drop_eq_nil_iff]
    omega
  rw [unpadded, ne_eq, List.filter_eq_nil_iff] at hmore
  simp only [takeGrans, hfst]
  rw [if_neg (by rw [List.length_take]; omega), if_neg (by simpa using hmore)]

theorem takeGrans_length {n : Nat} {es : List Entry} {k : Nat} {x : List Gran × List Entry × Nat × Bool}
    (h : takeGrans n es k = some x) : x.1.length = n := by
  induction es generalizing n k x with
  | nil =>
    obtain rfl | hn := Nat.eq_zero_or_pos n
    · rw [takeGrans_zero] at h
      obtain rfl := Option.some.inj h
      rfl
    · simp [takeGrans_nil hn] at h
  | cons e es ih =>
    obtain rfl | hn := Nat.eq_zero_or_pos n
    · rw [takeGrans_zero] at h
      obtain rfl := Option.some.inj h
      rfl
    obtain hlt | heq | hgt := Nat.lt_trichotomy (unpadded (e.gr.drop k)).length n
    · rw [takeGrans_cons_lt hlt] at h
      obtain ⟨y, hy, rfl⟩ := Option.map_eq_some_iff.1 h
      have := ih hy
      simp only [List.length_append]
      omega
    · rw [takeGrans_cons_eq hn heq] at h
      obtain rfl := Option.some.inj h
      exact heq
    · rw [takeGrans_cons_gt hn hgt] at h
      obtain rfl := Option.some.inj h
      simp only [List.length_take]
      omega

/-- A take of m + n granules is one of m and then one of n. -/
theorem takeGrans_add {m n : Nat} {es es' : List Entry} {k k' : Nat} {gs : List Gran} {mk : Bool}
    (h : takeGrans (m + n) es k = some (gs, es', k', mk)) (hm : 0 < m) :
    ∃ es₁ k₁ mk₁ mk₂, takeGrans m es k = some (gs.take m, es₁, k₁, mk₁) ∧ takeGrans n es₁ k₁ = some (gs.drop m, es', k', mk₂) := by
  obtain rfl | hn := Nat.eq_zero_or_pos n
  · have hlen : gs.length = m := takeGrans_length h
    refine ⟨es', k', mk, false, ?_, ?_⟩
    · rwa [List.take_of_length_le hlen.le]
    · rw [takeGrans_zero, List.drop_of_length_le hlen.le]
  induction es generalizing m k gs mk with
  | nil => simp [takeGrans_nil (show 0 < m + n by omega)] at h
  | cons e es ih =>
    obtain ⟨-, -, hrest⟩ := pickGrans_spec m (e.gr.drop k)
    rw [List.drop_drop] at hrest
    generalize hp : k + (pickGrans m (e.gr.drop k)).2 = p at hrest
    have hlen := congrArg List.length hrest
    rw [List.length_drop] at hlen
    obtain hlt | hge := Nat.lt_or_ge (unpadded (e.gr.drop k)).length (m + n)
    · -- the m + n granules reach into the next entries
      rw [takeGrans_cons_lt hlt] at h
      obtain ⟨⟨gs₂, es₂, k₂, mk₂⟩, hrec, heq⟩ := Option.map_eq_some_iff.1 h
      obtain ⟨rfl, rfl, rfl, -⟩ := by simpa only [Prod.mk.injEq] using heq
      obtain hm' | hm' | hm' := Nat.lt_trichotomy (unpadded (e.gr.drop k)).length m
      · rw [show m + n - (unpadded (e.gr.drop k)).length = (m - (unpadded (e.gr.drop k)).length) + n by omega] at hrec
        obtain ⟨es₁, k₁, mk₁, mk₃, h1, h2⟩ := ih hrec (by omega)
        refine ⟨es₁, k₁, mk₁ || e.mark, mk₃, ?_, ?_⟩
        · rw [takeGrans_cons_lt hm', h1, List.take_append, List.take_of_length_le (Nat.le_of_lt hm')]
          rfl
        · rwa [List.drop_append, List.drop_of_length_le (Nat.le_of_lt hm'), List.nil_append]
      · refine ⟨es, 0, e.mark, mk₂, ?_, ?_⟩
        · rw [takeGrans_cons_eq hm hm', ← hm', List.take_left]
        · rwa [← hm', List.drop_left, ← show m + n - (unpadded (e.gr.drop k)).length = n by omega]
      · refine ⟨e :: es, p, e.mark, mk₂ || e.mark, ?_, ?_⟩
        · rw [takeGrans_cons_gt hm hm', hp, List.take_append_of_le_length (by omega)]
        · rw [takeGrans_cons_lt (by omega), hrest, List.length_drop,
            show n - ((unpadded (e.gr.drop k)).length - m) = m + n - (unpadded (e.gr.drop k)).length by omega, hrec,
            List.drop_append_of_le_length (by omega)]
          rfl
    · -- the entry holds them all
      have hadd := pickGrans_snd_add hge
      rw [List.drop_drop, hp] at hadd
      obtain hn' | hn' := Nat.eq_or_lt_of_le hge
      · rw [takeGrans_cons_eq (by omega) hn'.symm] at h
        obtain ⟨rfl, rfl, rfl, -⟩ := by simpa only [Option.some.injEq, Prod.mk.injEq] using h
        refine ⟨e :: es, p, e.mark, e.mark, ?_, ?_⟩
        · rw [takeGrans_cons_gt hm (by omega), hp]
        · rw [takeGrans_cons_eq hn (by omega), hrest]
      · rw [takeGrans_cons_gt (by omega) hn'] at h
        obtain ⟨rfl, rfl, rfl, -⟩ := by simpa only [Option.some.injEq, Prod.mk.injEq] using h
        refine ⟨e :: es, p, e.mark, e.mark, ?_, ?_⟩
        · rw [takeGrans_cons_gt hm (by omega), hp, List.take_take, Nat.min_eq_left (by omega)]
        · rw [takeGrans_cons_gt hn (by omega), hrest, List.drop_take, Nat.add_sub_cancel_left, ← hadd, ← hp]
          congr 4
          omega

/-- Granules that are not padding, in the entries behind the first k granules. -/
def granCount (es : List Entry) (k : Nat) : Nat := (unpadded ((es.flatMap (fun e => e.gr)).drop k)).length

theorem granAvail_eq (Q : Eq) : granAvail Q = granCount Q.entries Q.taken := by
  rw [granAvail, granCount, unpadded, List.countP_eq_length_filter]

/-- A granule count is that of the head's rest and of the next entries, where the head is taken no further than its end. -/
theorem granCount_cons {e : Entry} {k : Nat} (h : k ≤ e.gr.length) (es : List Entry) :
    granCount (e :: es) k = (unpadded (e.gr.drop k)).length + granCount es 0 := by
  simp [granCount, unpadded, List.drop_append_of_le_length h]

theorem granCount_cons_past {e : Entry} {k : Nat} (h : e.gr.length ≤ k) (es : List Entry) : granCount (e :: es) k ≤ granCount es 0 := by
  simp only [granCount, unpadded, List.flatMap_cons, List.drop_append, List.drop_of_length_le h, List.nil_append, List.drop_zero]
  exact ((List.drop_sublist _ _).filter _).length_le

/-- As many granules as a queue holds can be taken. -/
theorem takeGrans_isSome {n : Nat} {es : List Entry} {k : Nat} (h : n ≤ granCount es k) : (takeGrans n es k).isSome = true := by
  induction es generalizing n k with
  | nil =>
    obtain rfl : n = 0 := by simpa [granCount] using h
    simp
  | cons e es ih =>
    obtain rfl | hn := Nat.eq_zero_or_pos n
    · simp
    obtain hlt | heq | hgt := Nat.lt_trichotomy (unpadded (e.gr.drop k)).length n
    · rw [takeGrans_cons_lt hlt, Option.isSome_map]
      refine ih ?_
      obtain hk | hk := Nat.le_total k e.gr.length
      · rw [granCount_cons hk] at h
        omega
      · have := granCount_cons_past hk es
        omega
    · rw [takeGrans_cons_eq hn heq]
      rfl
    · rw [takeGrans_cons_gt hn hgt]
      rfl

/-- What can be taken is there, where the head is taken no further than its end. -/
theorem le_granCount {n : Nat} {es : List Entry} {k : Nat} (h : (takeGrans n es k).isSome = true)
    (hk : ∀ e ∈ es.head?, k ≤ e.gr.length) : n ≤ granCount es k := by
  induction es generalizing n k with
  | nil =>
    obtain rfl | hn := Nat.eq_zero_or_pos n
    · exact Nat.zero_le _
    · rw [takeGrans_nil hn] at h
      exact absurd h nofun
  | cons e es ih =>
    rw [granCount_cons (hk e rfl)]
    obtain hlt | hge := Nat.lt_or_ge (unpadded (e.gr.drop k)).length n
    · rw [takeGrans_cons_lt hlt, Option.isSome_map] at h
      have := ih h fun _ _ => Nat.zero_le _
      omega
    · omega

/-- After a take the head is taken no further than its end. -/
theorem takeGrans_taken_le {n : Nat} {es es' : List Entry} {k k' : Nat} {gs : List Gran} {mk : Bool} (hn : 0 < n)
    (h : takeGrans n es k = some (gs, es', k', mk)) : ∀ e ∈ es'.head?, k' ≤ e.gr.length := by
  induction es generalizing n k gs mk with
  | nil => simp [takeGrans_nil hn] at h
  | cons e es ih =>
    obtain hlt | heq | hgt := Nat.lt_trichotomy (unpadded (e.gr.drop k)).length n
    · rw [takeGrans_cons_lt hlt] at h
      obtain ⟨⟨gs₂, es₂, k₂, mk₂⟩, hrec, heq⟩ := Option.map_eq_some_iff.1 h
      obtain ⟨-, rfl, rfl, -⟩ := by simpa only [Prod.mk.injEq] using heq
      exact ih (by omega) hrec
    · rw [takeGrans_cons_eq hn heq] at h
      obtain ⟨-, -, rfl, -⟩ := by simpa only [Option.some.injEq, Prod.mk.injEq] using h
      exact fun _ _ => Nat.zero_le _
    · rw [takeGrans_cons_gt hn hgt] at h
      obtain ⟨-, rfl, rfl, -⟩ := by simpa only [Option.some.injEq, Prod.mk.injEq] using h
      obtain ⟨-, hle, -⟩ := pickGrans_spec n (e.gr.drop k)
      have hk : k < e.gr.length := by
        by_contra hk
        rw [List.drop_of_length_le (by omega)] at hgt
        exact absurd hgt (by simp)
      rw [List.length_drop] at hle
      rintro _ ⟨⟩
      omega

end Sys2Proof.Machine
end

section
/-! PROOFS. ACC_PRELOAD and ACC_DRAIN (R55, R56, R67, R68, R133): a descriptor that passes its checks starts, takes its granules, and writes
or reads the accumulators of its array. -/

namespace Sys2Proof.Machine

open Sys2Proof

variable {s : State} {c l owner : Nat} {d : List Word}

/-! ### The checks (R68) -/

theorem errsOf_eq_nil {es : List (Bool × Nat)} : errsOf es = [] ↔ ∀ e ∈ es, e.1 = false := by
  simp [errsOf]

/-- What the proofs use of the checks that an operation has passed. -/
structure ChecksPassed (d : List Word) : Prop where
  last_of_preload : dOp d = 2 → dLast d = false
  last_of_drain : dOp d = 3 → dLast d = true
  cols_pos : 0 < dN d
  cols_le : dN d ≤ 128
  rows_pos : 0 < dM d
  rows_le : dM d ≤ 128
  rows_ci16 : dCi16 d = true → dM d ≤ 64
  flow_ci16 : dCi16 d = true → dFlow d = 0

theorem checksPassed_of_opErrs (h : opErrs s c owner d = []) : ChecksPassed d := by
  simp only [opErrs, errsOf_eq_nil, List.forall_mem_cons] at h
  obtain ⟨-, -, -, -, hdims, -, -, -, -, -, -, -, -, -, -, -, hpreload, hdrain, -, -, -, -, -, -, -, hmode, -⟩ := h
  simp only [Bool.or_eq_false_iff, Bool.and_eq_false_iff, decide_eq_false_iff_not, Bool.not_eq_false'] at hdims hpreload hdrain hmode
  obtain ⟨⟨⟨⟨hn, hn'⟩, hm⟩, hm'⟩, hci⟩ := hdims
  obtain ⟨⟨hflow, hsaf⟩, -⟩ := hmode
  constructor
  · intro hop
    exact hpreload.resolve_left (not_not.2 hop)
  · intro hop
    exact hdrain.resolve_left (not_not.2 hop)
  · omega
  · omega
  · omega
  · omega
  · intro h16
    simp only [dCi16, Bool.and_eq_true, decide_eq_true_eq] at h16
    omega
  · intro h16
    simp only [dCi16, Bool.and_eq_true, decide_eq_true_eq] at h16
    simp_all

/-! ### The start (R67, R133) -/

/-- A preload or a drain as it starts: it has taken nothing yet. -/
def newRun (d : List Word) (owner : Nat) (sl : Slice) : OpRun :=
  { d := d, part := owner, pos := 0, bufA := [], bufW := [], bufS := [], tileIn := false, scalesIn := false, wts := [], scales := []
    cols := [], bounds := [], slice := sl.id, seedLo := sl.seedLo, seedHi := sl.seedHi }

/-- Of what the view shows, the start of a preload or a drain changes only which operation runs. -/
theorem beginOp_of_not_mma (hop : dOp d ≠ 1) (hpart : (arrayView s c l).part.isSome = true) :
    ∃ t sl, beginOp s c l owner d = (t, newRun d owner sl) ∧
      arrayView t c l = { arrayView s c l with run := some (newRun d owner sl) } := by
  let s1 := joinSlice (popDesc s c l owner d) c l d owner
  let r := newRun d owner (sliceOf (getLa s1 c l) (dCtx d))
  have h1 : arrayView s1 c l = arrayView s c l := views_joinSlice hpart (views_popDesc hpart rfl)
  refine ⟨modLa s1 c l fun la => { la with run := some r, lastCtx := dCtx d }, sliceOf (getLa s1 c l) (dCtx d), ?_, ?_⟩
  · simp only [beginOp, hop, decide_false, Bool.false_and, if_false, Bool.false_eq_true, and_false]
    rfl
  · rw [arrayView_modLa (show (arrayView s1 c l).part.isSome = true by rw [h1]; exact hpart), ← h1]
    rfl

theorem part_of_canStart (h : canStart s c l owner d = true) : (getLa s c l).part = some owner := by
  simp only [canStart, headReady, headFree, Bool.and_eq_true, decide_eq_true_eq] at h
  exact h.1.1.1.1.1.1.1.1.1.1.2

/-- A descriptor that comes to an idle array, passes its checks and may start does so and goes on as far as it can. -/
theorem issueOp_starts (hlive : (getPart s owner).live = true) (hrun : (getLa s c (dArray d % 16)).run = none)
    (hdescQ : (getLa s c (dArray d % 16)).descQ = []) (herrs : opErrs s c owner d = [])
    (hstart : canStart s c (dArray d % 16) owner d = true) :
    issueOp s c owner d = advanceOp (beginOp s c (dArray d % 16) owner d).1 c (dArray d % 16) (beginOp s c (dArray d % 16) owner d).2 := by
  simp only [issueOp, hlive, hrun, ctxHead, hdescQ, herrs, hstart, List.find?_nil, List.isEmpty_nil, Bool.not_true, Bool.false_eq_true,
    if_false]

theorem exec_accPreload (c : Fin 20) (owner : Fin 64) (hmain : mainOn s = true) :
    exec (.accPreload c owner d) s = .next (issueOp s c.val owner.val d) :=
  congrArg Host.Outcome.next (if_pos hmain)

theorem exec_accDrain (c : Fin 20) (owner : Fin 64) (hmain : mainOn s = true) :
    exec (.accDrain c owner d) s = .next (issueOp s c.val owner.val d) :=
  congrArg Host.Outcome.next (if_pos hmain)

/-! ### The operands (R133) -/

theorem pullFor_enough {id q need : Nat} {buf : List Gran} (h : need ≤ buf.length) : pullFor s c l id q need buf = (s, buf) :=
  if_pos h

/-- What a queue holds of the granules that are needed is taken, and of what the view shows only the queue changes. -/
theorem pullFor_all {id q need : Nat} {gs : List Gran} {es : List Entry} {k : Nat} {mk : Bool}
    (hpart : (arrayView s c l).part.isSome = true) (hneed : 0 < need) (havail : need ≤ granAvail (getEq (getClu s c) q))
    (htake : takeGrans need (getEq (getClu s c) q).entries (getEq (getClu s c) q).taken = some (gs, es, k, mk)) :
    ∃ t, pullFor s c l id q need [] = (t, gs) ∧
      arrayView t c l = { arrayView s c l with
        eq := tabMod {} (arrayView s c l).eq q (fun Q => { Q with entries := es, taken := k }) } := by
  refine ⟨noteTaken (modEq s c q fun Q => { Q with entries := es, taken := k }) c l id q gs mk, ?_, ?_⟩
  · have hmin : Nat.min need (granAvail (getEq (getClu s c) q)) = need := Nat.min_eq_left havail
    simp only [pullFor, pullQ, List.length_nil, Nat.sub_zero, hmin, htake, List.nil_append]
    rw [if_neg (by omega)]
  · exact views_noteTaken (by exact hpart) (arrayView_modEq hpart)

/-- An operation other than an MMA takes no W-tile. -/
theorem needW_of_not_mma {r : OpRun} (hop : dOp r.d ≠ 1) : needW r = 0 := by
  simp [needW, hop]

/-- The scales, and once they are complete the row operand, of an operation that takes no W-tile. -/
theorem takeOperands_no_tile {r : OpRun} (hop : dOp r.d ≠ 1) (hW : r.bufW = []) {t : State} {gs : List Gran}
    (hpull : pullFor s c l r.slice (dSQ r.d) (needS r) r.bufS = (t, gs)) (hgs : needS r ≤ gs.length) :
    takeOperands s c l r =
      let r' := if needS r = 0 then { r with bufS := gs } else scalesDone { r with bufS := gs }
      ((pullFor t c l r.slice (rowQ r.d) (needA r') r'.bufA).1,
        { r' with bufA := (pullFor t c l r.slice (rowQ r.d) (needA r') r'.bufA).2 }) := by
  obtain ⟨rd, part, pos, bufA, bufW, bufS, tileIn, scalesIn, wts, scales, cols, bounds, slice, seedLo, seedHi⟩ := r
  obtain rfl : bufW = [] := hW
  have hS : needS ⟨rd, part, pos, bufA, [], gs, tileIn, scalesIn, wts, scales, cols, bounds, slice, seedLo, seedHi⟩ =
    needS ⟨rd, part, pos, bufA, [], bufS, tileIn, scalesIn, wts, scales, cols, bounds, slice, seedLo, seedHi⟩ := rfl
  simp only [takeOperands, needW_of_not_mma hop, pullFor_enough (Nat.zero_le _), Nat.not_lt_zero, if_false, if_true, hpull, hS]
  exact if_neg (Nat.not_lt.2 hgs)

/-- The operands of an operation that takes no W-tile and no scales are its row's. -/
theorem takeOperands_row {r : OpRun} (hop : dOp r.d ≠ 1) (hW : r.bufW = []) (hS : needS r = 0) :
    takeOperands s c l r =
      ((pullFor s c l r.slice (rowQ r.d) (needA r) r.bufA).1,
        { r with bufA := (pullFor s c l r.slice (rowQ r.d) (needA r) r.bufA).2 }) := by
  rw [takeOperands_no_tile hop hW (pullFor_enough (by rw [hS]; exact Nat.zero_le _)) (by rw [hS]; exact Nat.zero_le _), if_pos hS]

/-- An operation that takes scales and no row has its scales. -/
theorem takeOperands_scales {r : OpRun} (hop : dOp r.d ≠ 1) (hW : r.bufW = []) (hA : needA r = 0) (hneed : 0 < needS r) {t : State}
    {gs : List Gran} (hpull : pullFor s c l r.slice (dSQ r.d) (needS r) r.bufS = (t, gs)) (hgs : needS r ≤ gs.length) :
    takeOperands s c l r = (t, scalesDone { r with bufS := gs }) := by
  have hA' : needA (scalesDone { r with bufS := gs }) = 0 := by
    unfold scalesDone
    split <;> exact hA
  rw [takeOperands_no_tile hop hW hpull hgs, if_neg (by omega)]
  dsimp only
  rw [pullFor_enough (by rw [hA']; exact Nat.zero_le _)]

/-- An operation that has taken its rows takes nothing more. -/
theorem opWants_done {r : OpRun} (hop : dOp r.d ≠ 1) (hS : needS r = 0) (hA : needA r ≤ r.bufA.length) : opWants r = none := by
  simp only [opWants, needW_of_not_mma hop, hS, Nat.not_lt_zero, if_false]
  exact if_neg (by omega)

/-! ### The end -/

/-- An operation that puts out no bounds begins its final drain or completes. -/
theorem finishOp_no_bounds {r : OpRun} (h : r.bounds = []) :
    finishOp s c l r = if dLast r.d then startDrain (modLa s c l fun la => { la with run := none }) c l r
      else opDone (emit (modLa s c l fun la => { la with run := none }) (.op c l (b2n (dCtx r.d)) stOk)) c l r.slice := by
  have hes : boundEntries r = [] := by
    rw [boundEntries, h]
    rfl
  simp only [finishOp, hes, h, pushFor, List.isEmpty_nil, List.any_nil, List.foldl_nil, Bool.not_true, Bool.false_and, Bool.false_eq_true,
    if_false]

/-! ### Accumulators in the view -/

/-- The physical array that logical array l maps to (R42). -/
def ArrayView.array (V : ArrayView) (l : Nat) : PArray := tabGet {} V.pa (if V.spareFor.toNat = l then 16 else l)

theorem accOf_eq (s : State) (c l : Nat) (d : List Word) (m n i : Nat) : accOf s c l d m n i =
    tabGet {} ((arrayView s c l).array l).accs (accKey ((arrayView s c l).array l) d m n i) := rfl

/-- A change of the physical array. -/
theorem arrayView_modArray {f : PArray → PArray} (hpart : (arrayView s c l).part.isSome = true) :
    arrayView (modPa s c (physOf (getClu s c) l) f) c l = { arrayView s c l with
      pa := tabMod {} (arrayView s c l).pa (if (arrayView s c l).spareFor.toNat = l then 16 else l) f } :=
  arrayView_modPa hpart

/-- A physical array reads back where it does not go back to its reset value. -/
theorem array_modArray {f : PArray → PArray} (hpart : (arrayView s c l).part.isSome = true)
    (hne : f ((arrayView s c l).array l) ≠ {}) :
    (arrayView (modPa s c (physOf (getClu s c) l) f) c l).array l = f ((arrayView s c l).array l) := by
  rw [arrayView_modArray hpart]
  exact tabGet_tabMod_self _ _ _ _ hne

/-- An array with an accumulator that has a value is not at reset. -/
theorem ne_reset_of_accs {A : PArray} (h : A.accs ≠ []) : A ≠ {} := fun e => h (e ▸ rfl)

/-- Of what the view shows, only physical arrays change from s to t. -/
def OnlyArrays (c l : Nat) (s t : State) : Prop := arrayView t c l = { arrayView s c l with pa := (arrayView t c l).pa }

theorem OnlyArrays.refl (s : State) : OnlyArrays c l s s := rfl

theorem OnlyArrays.trans {s t u : State} (h : OnlyArrays c l s t) (k : OnlyArrays c l t u) : OnlyArrays c l s u := by
  unfold OnlyArrays at *
  rw [k, h]

theorem OnlyArrays.part {s t : State} (h : OnlyArrays c l s t) : (arrayView t c l).part = (arrayView s c l).part := by
  rw [h]

theorem onlyArrays_modPa {a : Nat} {f : PArray → PArray} (hpart : (arrayView s c l).part.isSome = true) :
    OnlyArrays c l s (modPa s c a f) := by
  unfold OnlyArrays
  rw [arrayView_modPa hpart]

theorem onlyArrays_foldl {β : Type} {f : State → β → State} (xs : List β) (hpart : (arrayView s c l).part.isSome = true)
    (hf : ∀ t x, (arrayView t c l).part.isSome = true → OnlyArrays c l t (f t x)) : OnlyArrays c l s (xs.foldl f s) :=
  List.foldlRecOn (motive := OnlyArrays c l s) xs f (OnlyArrays.refl s) fun t ht x _ => ht.trans (hf t x (by rw [ht.part]; exact hpart))

theorem onlyArrays_clearSums (rows : List Nat) (hpart : (arrayView s c l).part.isSome = true) :
    OnlyArrays c l s (clearSums s c l d rows) :=
  onlyArrays_foldl _ hpart fun _ _ ht => onlyArrays_foldl _ ht fun _ _ hu => onlyArrays_modPa hu

end Sys2Proof.Machine
end

section
/-! PROOFS. What a preload leaves in the accumulators (R55, R101 to R103): a row writes its accumulators one after another, each at its own
key, and a row after it leaves them alone. -/

namespace Sys2Proof.Machine

open Sys2Proof

variable {s : State} {c l : Nat} {d : List Word}

/-! ### Several accumulators -/

/-- The key of the accumulator of a row, column and part. -/
def keyAt (A : PArray) (d : List Word) (x : Nat × Nat × Nat) : Nat := accKey A d x.1 x.2.1 x.2.2

/-- Write some accumulators of an operation, each given by row, column and part. -/
def writeAccs (s : State) (c l : Nat) (d : List Word) (xs : List (Nat × Nat × Nat)) (g : Nat × Nat × Nat → Acc) : State :=
  xs.foldl (fun s x => modAcc s c l d x.1 x.2.1 x.2.2 (fun _ => g x)) s

theorem onlyArrays_modAcc {m n i : Nat} {f : Acc → Acc} (hpart : (arrayView s c l).part.isSome = true) :
    OnlyArrays c l s (modAcc s c l d m n i f) :=
  onlyArrays_modPa hpart

theorem onlyArrays_writeAccs (xs : List (Nat × Nat × Nat)) (g : Nat × Nat × Nat → Acc)
    (hpart : (arrayView s c l).part.isSome = true) : OnlyArrays c l s (writeAccs s c l d xs g) :=
  onlyArrays_foldl _ hpart fun _ _ ht => onlyArrays_modAcc ht

/-- A table with a value other than the default is not empty. -/
theorem tabSet_ne_nil {α : Type} [DecidableEq α] {e v : α} (hv : v ≠ e) (t : Tab α) (i : Nat) : tabSet e t i v ≠ [] := fun hnil => hv <| by
  rw [← tabGet_tabSet_self e t i hv, hnil]
  rfl

/-- The array after some accumulators were written, none of them with its value at reset. -/
theorem array_writeAccs (xs : List (Nat × Nat × Nat)) {g : Nat × Nat × Nat → Acc} (hg : ∀ x, g x ≠ {})
    (hpart : (arrayView s c l).part.isSome = true) :
    (arrayView (writeAccs s c l d xs g) c l).array l = { (arrayView s c l).array l with
      accs := xs.foldl (fun t x => tabSet {} t (keyAt ((arrayView s c l).array l) d x) (g x))
        ((arrayView s c l).array l).accs } := by
  induction xs generalizing s with
  | nil => rfl
  | cons x xs ih =>
    have hA : (arrayView (modAcc s c l d x.1 x.2.1 x.2.2 fun _ => g x) c l).array l = { (arrayView s c l).array l with
        accs := tabSet {} ((arrayView s c l).array l).accs (keyAt ((arrayView s c l).array l) d x) (g x) } :=
      array_modArray hpart (ne_reset_of_accs (tabSet_ne_nil (hg x) _ _))
    have hp : (arrayView (modAcc s c l d x.1 x.2.1 x.2.2 fun _ => g x) c l).part.isSome = true := by
      rw [(onlyArrays_modAcc hpart).part]
      exact hpart
    exact (ih hp).trans (by rw [hA]; rfl)

theorem accOf_writeAccs (xs : List (Nat × Nat × Nat)) {g : Nat × Nat × Nat → Acc} (hg : ∀ x, g x ≠ {})
    (hpart : (arrayView s c l).part.isSome = true) (m n i : Nat) : accOf (writeAccs s c l d xs g) c l d m n i =
    tabGet {} (xs.foldl (fun t x => tabSet {} t (keyAt ((arrayView s c l).array l) d x) (g x))
      ((arrayView s c l).array l).accs) (keyAt ((arrayView s c l).array l) d (m, n, i)) := by
  rw [accOf_eq, array_writeAccs _ hg hpart]
  rfl

/-- A key that is not written reads as before. -/
theorem tabGet_foldl_tabSet_of_ne {α β : Type} [DecidableEq α] {e : α} {key : β → Nat} {v : β → α} {xs : List β} {k : Nat}
    (hk : ∀ x ∈ xs, key x ≠ k) (t : Tab α) : tabGet e (xs.foldl (fun t x => tabSet e t (key x) (v x)) t) k = tabGet e t k := by
  induction xs generalizing t with
  | nil => rfl
  | cons x xs ih =>
    rw [List.foldl_cons, ih fun y hy => hk y (List.mem_cons_of_mem _ hy), tabGet_tabSet_other _ _ _ (hk x List.mem_cons_self)]

/-- Of several writes of a table at different keys, each reads back. -/
theorem tabGet_foldl_tabSet_mem {α β : Type} [DecidableEq α] {e : α} {key : β → Nat} {v : β → α} (hv : ∀ x, v x ≠ e) {xs : List β}
    {x : β} (hx : x ∈ xs) (hinj : ∀ y ∈ xs, key y = key x → y = x) (t : Tab α) :
    tabGet e (xs.foldl (fun t x => tabSet e t (key x) (v x)) t) (key x) = v x := by
  induction xs generalizing t with
  | nil => exact absurd hx List.not_mem_nil
  | cons y ys ih =>
    have hinj' : ∀ z ∈ ys, key z = key x → z = x := fun z hz => hinj z (List.mem_cons_of_mem _ hz)
    by_cases hys : x ∈ ys
    · exact ih hys hinj' _
    · obtain rfl : x = y := (List.mem_cons.1 hx).resolve_right hys
      rw [List.foldl_cons, tabGet_foldl_tabSet_of_ne fun z hz hk => hys (hinj' z hz hk ▸ hz)]
      exact tabGet_tabSet_self _ _ _ (hv x)

/-! ### The keys of an operation's accumulators -/

/-- The parts of an accumulator: two in CI16, real and imaginary. -/
abbrev accParts (d : List Word) : Nat := if dCi16 d then 2 else 1

/-- Accumulators of an operation that passed its checks have keys of their own (R52, R53). -/
theorem accKey_inj (hd : ChecksPassed d) {A : PArray} {m n i m' n' i' : Nat} (hm : m < dM d) (hn : n < dN d) (hi : i < accParts d)
    (hm' : m' < dM d) (hn' : n' < dN d) (hi' : i' < accParts d) (h : accKey A d m n i = accKey A d m' n' i') :
    (m, n, i) = (m', n', i') := by
  have hcols := hd.cols_le
  have hrows := hd.rows_le
  simp only [Prod.mk.injEq]
  cases hci : dCi16 d with
  | true =>
    have hflow := hd.flow_ci16 hci
    simp only [accParts, hci, if_true] at hi hi'
    simp only [accKey, hflow, hci, Nat.zero_ne_one, if_false, if_true] at h
    omega
  | false =>
    simp only [accParts, hci, Bool.false_eq_true, if_false] at hi hi'
    simp only [accKey, hci, Bool.false_eq_true, if_false] at h
    split at h <;> omega

/-- The accumulators of some rows of an operation. -/
def rowAccs (d : List Word) (rows : List Nat) : List (Nat × Nat × Nat) :=
  rows.flatMap fun m => (List.range (dN d)).flatMap fun n => (List.range (accParts d)).map fun i => (m, n, i)

theorem mem_rowAccs {rows : List Nat} {m n i : Nat} : (m, n, i) ∈ rowAccs d rows ↔ m ∈ rows ∧ n < dN d ∧ i < accParts d := by
  simp [rowAccs]

/-- An accumulator of some rows that has the key of another accumulator of the operation is that one. -/
theorem rowAccs_key_inj (hd : ChecksPassed d) {rows : List Nat} (hrows : ∀ m ∈ rows, m < dM d) {A : PArray} {m n i : Nat}
    (hm : m < dM d) (hn : n < dN d) (hi : i < accParts d) :
    ∀ y ∈ rowAccs d rows, keyAt A d y = keyAt A d (m, n, i) → y = (m, n, i) := fun y hy hk => by
  obtain ⟨hym, hyn, hyi⟩ := mem_rowAccs.1 hy
  exact accKey_inj hd (hrows _ hym) hyn hyi hm hn hi hk

section

variable {rows : List Nat} {g : Nat × Nat × Nat → Acc} (hd : ChecksPassed d) (hrows : ∀ m ∈ rows, m < dM d) (hg : ∀ x, g x ≠ {})
  (hpart : (arrayView s c l).part.isSome = true)
include hd hrows hg hpart

/-- Each written accumulator reads back. -/
theorem accOf_writeAccs_mem {m n i : Nat} (hm : m ∈ rows) (hn : n < dN d) (hi : i < accParts d) :
    accOf (writeAccs s c l d (rowAccs d rows) g) c l d m n i = g (m, n, i) := by
  have hmem : (m, n, i) ∈ rowAccs d rows := mem_rowAccs.2 ⟨hm, hn, hi⟩
  rw [accOf_writeAccs _ hg hpart]
  exact tabGet_foldl_tabSet_mem (key := keyAt ((arrayView s c l).array l) d) hg hmem
    (rowAccs_key_inj hd hrows (hrows _ hm) hn hi) _

/-- An accumulator of another row reads as before. -/
theorem accOf_writeAccs_other {m n i : Nat} (hm : m ∉ rows) (hmd : m < dM d) (hn : n < dN d) (hi : i < accParts d) :
    accOf (writeAccs s c l d (rowAccs d rows) g) c l d m n i = accOf s c l d m n i := by
  rw [accOf_writeAccs _ hg hpart]
  refine tabGet_foldl_tabSet_of_ne (fun y hy hk => ?_) _
  obtain rfl := rowAccs_key_inj hd hrows hmd hn hi y hy hk
  exact hm (mem_rowAccs.1 hy).1

theorem accs_writeAccs_ne_nil (hne : rows ≠ []) : ((arrayView (writeAccs s c l d (rowAccs d rows) g) c l).array l).accs ≠ [] := by
  obtain ⟨m, hm⟩ := List.exists_mem_of_ne_nil _ hne
  have hi : 0 < accParts d := by
    unfold accParts
    split <;> decide
  intro hnil
  apply hg (m, 0, 0)
  rw [← accOf_writeAccs_mem hd hrows hg hpart hm hd.cols_pos hi, accOf_eq, hnil]
  rfl

end

/-! ### One row (R55, R102) -/

/-- The accumulator that a preload writes from the entry at a byte of its row (R102, R103). -/
def preloadAcc (d : List Word) (gs : List Gran) (at_ : Nat) : Acc :=
  { ({} : Acc) with
    bits := preloadBits d (granNum gs at_ 8), psn := granBad gs at_, first := true, mark := decide (dSpill d ≠ 0)
    openBy := 1 + b2n (dCtx d) }

theorem preloadAcc_ne_reset (gs : List Gran) (at_ : Nat) : preloadAcc d gs at_ ≠ {} := fun e =>
  absurd (congrArg Acc.first e) nofun

/-- The rows of accumulators that a row of the preload writes. -/
def preloadRows (d : List Word) (pos : Nat) : List Nat := if dBcast d then List.range (dM d) else [pos]

theorem preloadRow_eq (r : OpRun) (gs : List Gran) : preloadRow s c l r gs =
    writeAccs (clearSums s c l r.d (preloadRows r.d r.pos)) c l r.d (rowAccs r.d (preloadRows r.d r.pos))
      (fun x => preloadAcc r.d gs (8 * (x.2.1 * accParts r.d + x.2.2))) := by
  simp only [preloadRow, writeAccs, rowAccs, List.foldl_flatMap, List.foldl_map]
  rfl

/-- Of what the view shows, only the sums of R58 of the array change from s to t, and other arrays. -/
def OnlySums (c l : Nat) (s t : State) : Prop :=
  OnlyArrays c l s t ∧ ∃ sums, (arrayView t c l).array l = { (arrayView s c l).array l with sums := sums }

theorem onlySums_modSums {t : State} {m i : Nat} {f : RowSum → RowSum} (h : OnlySums c l s t)
    (hpart : (arrayView s c l).part.isSome = true) (haccs : ((arrayView s c l).array l).accs ≠ []) :
    OnlySums c l s (modSums t c l d m i f) := by
  obtain ⟨honly, sums, hsums⟩ := h
  have htp : (arrayView t c l).part.isSome = true := by rw [honly.part]; exact hpart
  refine ⟨honly.trans (onlyArrays_modPa htp), ?_⟩
  rw [modSums, array_modArray htp (ne_reset_of_accs (by rw [hsums]; exact haccs)), hsums]
  exact ⟨_, rfl⟩

/-- Sums that are cleared on an array that has accumulators leave these alone. -/
theorem onlySums_clearSums (rows : List Nat) (hpart : (arrayView s c l).part.isSome = true)
    (haccs : ((arrayView s c l).array l).accs ≠ []) : OnlySums c l s (clearSums s c l d rows) :=
  List.foldlRecOn (motive := OnlySums c l s) rows _ ⟨OnlyArrays.refl s, _, rfl⟩ fun _ ht _ _ =>
    List.foldlRecOn (motive := OnlySums c l s) _ _ ht fun _ hu _ _ => onlySums_modSums hu hpart haccs

theorem preloadRows_lt {pos m : Nat} (hpos : pos < dM d) (hm : m ∈ preloadRows d pos) : m < dM d := by
  unfold preloadRows at hm
  split at hm
  · exact List.mem_range.1 hm
  · rwa [List.mem_singleton.1 hm]

theorem preloadRows_ne_nil {pos : Nat} (hpos : pos < dM d) : preloadRows d pos ≠ [] := by
  unfold preloadRows
  split
  · exact List.ne_nil_of_mem (List.mem_range.2 hpos)
  · exact List.cons_ne_nil _ _

theorem onlyArrays_preloadRow (r : OpRun) (gs : List Gran) (hpart : (arrayView s c l).part.isSome = true) :
    OnlyArrays c l s (preloadRow s c l r gs) := by
  have h1 := onlyArrays_clearSums (d := r.d) (preloadRows r.d r.pos) hpart
  rw [preloadRow_eq]
  exact h1.trans (onlyArrays_writeAccs _ _ (by rw [h1.part]; exact hpart))

section

variable {r : OpRun} (hd : ChecksPassed r.d) (hpos : r.pos < dM r.d) (hpart : (arrayView s c l).part.isSome = true)
include hd hpos hpart

/-- A row of the preload writes its accumulators. -/
theorem accOf_preloadRow_mem (gs : List Gran) {m n i : Nat} (hm : m ∈ preloadRows r.d r.pos) (hn : n < dN r.d) (hi : i < accParts r.d) :
    accOf (preloadRow s c l r gs) c l r.d m n i = preloadAcc r.d gs (8 * (n * accParts r.d + i)) := by
  have h1 := onlyArrays_clearSums (d := r.d) (preloadRows r.d r.pos) hpart
  rw [preloadRow_eq]
  exact accOf_writeAccs_mem hd (fun _ => preloadRows_lt hpos) (fun _ => preloadAcc_ne_reset _ _) (by rw [h1.part]; exact hpart)
    hm hn hi

/-- It leaves the accumulators of other rows alone on an array that has accumulators. -/
theorem accOf_preloadRow_other (gs : List Gran) (haccs : ((arrayView s c l).array l).accs ≠ []) {m n i : Nat}
    (hm : m ∉ preloadRows r.d r.pos) (hmd : m < dM r.d) (hn : n < dN r.d) (hi : i < accParts r.d) :
    accOf (preloadRow s c l r gs) c l r.d m n i = accOf s c l r.d m n i := by
  obtain ⟨h1, sums, hsums⟩ := onlySums_clearSums (d := r.d) (preloadRows r.d r.pos) hpart haccs
  rw [preloadRow_eq, accOf_writeAccs_other hd (fun _ => preloadRows_lt hpos) (fun _ => preloadAcc_ne_reset _ _)
    (by rw [h1.part]; exact hpart) hm hmd hn hi, accOf_eq, accOf_eq, hsums]
  rfl

theorem accs_preloadRow_ne_nil (gs : List Gran) : ((arrayView (preloadRow s c l r gs) c l).array l).accs ≠ [] := by
  have h1 := onlyArrays_clearSums (d := r.d) (preloadRows r.d r.pos) hpart
  rw [preloadRow_eq]
  exact accs_writeAccs_ne_nil hd (fun _ => preloadRows_lt hpos) (fun _ => preloadAcc_ne_reset _ _) (by rw [h1.part]; exact hpart)
    (preloadRows_ne_nil hpos)

end

end Sys2Proof.Machine
end

section
/-! PROOFS. A preload from its first row to its last (R55, R101 to R103, R133). -/

namespace Sys2Proof.Machine

open Sys2Proof

variable {s : State} {c l owner : Nat} {d : List Word} {sl : Slice}

/-! ### Granules of several rows -/

theorem granByte_drop (gs : List Gran) (k i : Nat) : granByte (gs.drop k) i = granByte gs (64 * k + i) := by
  have hdiv : (64 * k + i) / 64 = k + i / 64 := by omega
  have hmod : (64 * k + i) % 64 = i % 64 := by omega
  simp only [granByte, hdiv, hmod, List.getD_eq_getElem?_getD, List.getElem?_drop]

theorem granByte_take {gs : List Gran} {k i : Nat} (h : i < 64 * k) : granByte (gs.take k) i = granByte gs i := by
  have hi : i / 64 < k := by omega
  simp only [granByte, List.getD_eq_getElem?_getD, List.getElem?_take_of_lt hi]

theorem granNum_drop (gs : List Gran) (k i e : Nat) : granNum (gs.drop k) i e = granNum gs (64 * k + i) e := by
  induction e generalizing i with
  | zero => rfl
  | succ e ih => simp only [granNum, granByte_drop, ih, Nat.add_assoc]

theorem granNum_take {gs : List Gran} {k i e : Nat} (h : i + e ≤ 64 * k) : granNum (gs.take k) i e = granNum gs i e := by
  induction e generalizing i with
  | zero => rfl
  | succ e ih => simp only [granNum, granByte_take (show i < 64 * k by omega), ih (show i + 1 + e ≤ 64 * k by omega)]

theorem granBad_drop (gs : List Gran) (k i : Nat) : granBad (gs.drop k) i = granBad gs (64 * k + i) := by
  have hdiv : (64 * k + i) / 64 = k + i / 64 := by omega
  simp only [granBad, hdiv, List.getD_eq_getElem?_getD, List.getElem?_drop]

theorem granBad_take {gs : List Gran} {k i : Nat} (h : i < 64 * k) : granBad (gs.take k) i = granBad gs i := by
  have hi : i / 64 < k := by omega
  simp only [granBad, List.getD_eq_getElem?_getD, List.getElem?_take_of_lt hi]

theorem preloadAcc_drop (gs : List Gran) (k i : Nat) : preloadAcc d (gs.drop k) i = preloadAcc d gs (64 * k + i) := by
  simp only [preloadAcc, granNum_drop, granBad_drop]

theorem preloadAcc_take {gs : List Gran} {k i : Nat} (h : i + 8 ≤ 64 * k) : preloadAcc d (gs.take k) i = preloadAcc d gs i := by
  simp only [preloadAcc, granNum_take h, granBad_take (show i < 64 * k by omega)]

/-! ### The rows -/

/-- Granules of a preload row. -/
abbrev preloadGrans (d : List Word) : Nat := ceilDiv (8 * dN d * accParts d) 64

/-- The row of the preload that writes row m of the accumulators. -/
abbrev preloadRowOf (d : List Word) (m : Nat) : Nat := if dBcast d then 0 else m

theorem accParts_pos (d : List Word) : 0 < accParts d := by
  unfold accParts
  split <;> decide

/-- An entry of a preload row lies within its granules. -/
theorem preload_entry_le {n i : Nat} (hn : n < dN d) (hi : i < accParts d) : 8 * (n * accParts d + i) + 8 ≤ 64 * preloadGrans d := by
  have hle : (n + 1) * accParts d ≤ dN d * accParts d := Nat.mul_le_mul_right _ hn
  rw [Nat.succ_mul] at hle
  have hrow : 8 * dN d * accParts d = 8 * (dN d * accParts d) := Nat.mul_assoc _ _ _
  unfold preloadGrans ceilDiv
  omega

theorem preloadGrans_pos (hd : ChecksPassed d) : 0 < preloadGrans d := by
  have := preload_entry_le hd.cols_pos (accParts_pos d)
  omega

theorem opTotal_preload (hop : dOp d = 2) : opTotal d = if dBcast d then 1 else dM d := by
  simp [opTotal, hop]

theorem mem_preloadRows (hop : dOp d = 2) {pos m : Nat} (hpos : pos < opTotal d) (hm : m < dM d) :
    m ∈ preloadRows d pos ↔ preloadRowOf d m = pos := by
  rw [opTotal_preload hop] at hpos
  unfold preloadRows preloadRowOf
  split
  · rw [if_pos ‹_›] at hpos
    simp only [List.mem_range, hm, true_iff]
    omega
  · exact List.mem_singleton

theorem preloadRowOf_lt (hop : dOp d = 2) {m : Nat} (hm : m < dM d) : preloadRowOf d m < opTotal d := by
  rw [opTotal_preload hop]
  unfold preloadRowOf
  split
  · exact Nat.one_pos
  · exact hm

theorem lt_rows_of_lt_opTotal (hd : ChecksPassed d) (hop : dOp d = 2) {pos : Nat} (hpos : pos < opTotal d) : pos < dM d := by
  have := hd.rows_pos
  rw [opTotal_preload hop] at hpos
  split at hpos <;> omega

/-- The preload that has come to a row, with the granules of that row it has taken. -/
abbrev preloadAt (d : List Word) (owner : Nat) (sl : Slice) (pos : Nat) (gs : List Gran) : OpRun :=
  { newRun d owner sl with pos := pos, bufA := gs }

theorem needS_preload (hop : dOp d = 2) (pos : Nat) (gs : List Gran) : needS (preloadAt d owner sl pos gs) = 0 :=
  if_pos (.inr hop)

theorem needA_preload (hop : dOp d = 2) {pos : Nat} (gs : List Gran) (hpos : pos < opTotal d) :
    needA (preloadAt d owner sl pos gs) = preloadGrans d :=
  (if_neg (Nat.not_le.2 hpos)).trans (if_pos hop)

theorem needA_preload_end (gs : List Gran) : needA (preloadAt d owner sl (opTotal d) gs) = 0 :=
  if_pos le_rfl

theorem not_mma_of_preload (hop : dOp d = 2) : dOp d ≠ 1 := by
  omega

/-- A preload that has written its last row takes nothing more. -/
theorem takeOperands_preload_end (hop : dOp d = 2) :
    takeOperands s c l (preloadAt d owner sl (opTotal d) []) = (s, preloadAt d owner sl (opTotal d) []) := by
  rw [takeOperands_row (not_mma_of_preload hop) rfl (needS_preload hop _ _), needA_preload_end, pullFor_enough (Nat.zero_le _)]

/-- A preload takes the granules of its next row. -/
theorem takeOperands_preload (hd : ChecksPassed d) (hop : dOp d = 2) {pos : Nat} (hpos : pos < opTotal d)
    (hpart : (arrayView s c l).part.isSome = true) {gs : List Gran} {es : List Entry} {k : Nat} {mk : Bool}
    (havail : preloadGrans d ≤ granAvail (getEq (getClu s c) (dPQ d)))
    (htake : takeGrans (preloadGrans d) (getEq (getClu s c) (dPQ d)).entries (getEq (getClu s c) (dPQ d)).taken = some (gs, es, k, mk)) :
    ∃ t, takeOperands s c l (preloadAt d owner sl pos []) = (t, preloadAt d owner sl pos gs) ∧
      arrayView t c l = { arrayView s c l with
        eq := tabMod {} (arrayView s c l).eq (dPQ d) (fun Q => { Q with entries := es, taken := k }) } := by
  obtain ⟨t, hpull, hview⟩ := pullFor_all (id := sl.id) hpart (preloadGrans_pos hd) havail htake
  refine ⟨t, ?_, hview⟩
  rw [takeOperands_row (not_mma_of_preload hop) rfl (needS_preload hop _ _), needA_preload hop _ hpos]
  simp only [rowQ, newRun, hop, if_true, hpull, preloadAt]

/-- With its granules there, a preload writes its next row. -/
theorem unitOp_preload (hop : dOp d = 2) (pos : Nat) (gs : List Gran) : unitOp s c l (preloadAt d owner sl pos gs) =
    (preloadRow s c l (preloadAt d owner sl pos gs) gs, preloadAt d owner sl (pos + 1) []) :=
  if_pos hop

/-- A preload that has taken the granules of its next row writes it, and goes on with the row after it. -/
theorem unitsOp_preload_step (hop : dOp d = 2) {pos : Nat} (hpos : pos < opTotal d) {gs : List Gran}
    (hgs : gs.length = preloadGrans d) {t : State}
    (htake : takeOperands s c l (preloadAt d owner sl pos []) = (t, preloadAt d owner sl pos gs)) (n : Nat) :
    unitsOp s c l (preloadAt d owner sl pos []) (n + 1) =
      unitsOp (preloadRow t c l (preloadAt d owner sl pos gs) gs) c l (preloadAt d owner sl (pos + 1) []) n := by
  have hwants : opWants (preloadAt d owner sl pos gs) = none :=
    opWants_done (not_mma_of_preload hop) (needS_preload hop _ _) (by rw [needA_preload hop _ hpos, hgs])
  simp only [unitsOp, htake, hwants, unitOp_preload hop, Option.isSome_none, Bool.false_or]
  exact if_neg fun h => Nat.not_le.2 hpos (of_decide_eq_true h)

theorem unitsOp_preload_end (hop : dOp d = 2) (n : Nat) :
    unitsOp s c l (preloadAt d owner sl (opTotal d) []) (n + 1) = (s, preloadAt d owner sl (opTotal d) []) := by
  simp only [unitsOp, takeOperands_preload_end hop]
  exact if_pos (by simp [newRun])

/-- Of what the view shows, only physical arrays and queues change from s to t. -/
def OnlyArraysAndQueues (c l : Nat) (s t : State) : Prop :=
  arrayView t c l = { arrayView s c l with pa := (arrayView t c l).pa, eq := (arrayView t c l).eq }

theorem OnlyArraysAndQueues.refl (s : State) : OnlyArraysAndQueues c l s s := rfl

theorem OnlyArraysAndQueues.trans {s t u : State} (h : OnlyArraysAndQueues c l s t) (k : OnlyArraysAndQueues c l t u) :
    OnlyArraysAndQueues c l s u := by
  unfold OnlyArraysAndQueues at *
  rw [k, h]

theorem OnlyArrays.andQueues {s t : State} (h : OnlyArrays c l s t) : OnlyArraysAndQueues c l s t := by
  unfold OnlyArraysAndQueues
  rw [h]

theorem OnlyArraysAndQueues.part {s t : State} (h : OnlyArraysAndQueues c l s t) :
    (arrayView t c l).part = (arrayView s c l).part := by
  rw [h]

/-- A queue that changes reads back where it does not go back to its reset value. -/
theorem getEq_of_view {t : State} {q : Nat} {T : Tab Eq} {f : Eq → Eq} (h : (arrayView t c l).eq = tabMod {} T q f)
    (hne : f (tabGet {} T q) ≠ {}) : getEq (getClu t c) q = f (tabGet {} T q) := by
  have hQ : tabGet {} (tabMod {} T q f) q = f (tabGet {} T q) := tabGet_tabMod_self _ _ _ _ hne
  rw [← hQ, ← h]
  rfl

/-- A preload takes and writes its next row: its accumulators hold the row's entries, those of other rows stay, and the queue is left to
the rows after it. -/
theorem preload_one_row (hd : ChecksPassed d) (hop : dOp d = 2) {pos : Nat} (hpos : pos < opTotal d)
    (hpart : (arrayView s c l).part.isSome = true) {gs : List Gran} {es : List Entry} {k : Nat} {mk : Bool}
    (havail : preloadGrans d ≤ granAvail (getEq (getClu s c) (dPQ d)))
    (htake : takeGrans (preloadGrans d) (getEq (getClu s c) (dPQ d)).entries (getEq (getClu s c) (dPQ d)).taken = some (gs, es, k, mk)) :
    ∃ t, (∀ n, unitsOp s c l (preloadAt d owner sl pos []) (n + 1) = unitsOp t c l (preloadAt d owner sl (pos + 1) []) n) ∧
      OnlyArraysAndQueues c l s t ∧ ((arrayView t c l).array l).accs ≠ [] ∧
      (es ≠ [] → (getEq (getClu t c) (dPQ d)).entries = es ∧ (getEq (getClu t c) (dPQ d)).taken = k) ∧
      ∀ m n i, m < dM d → n < dN d → i < accParts d →
        (preloadRowOf d m = pos → accOf t c l d m n i = preloadAcc d gs (8 * (n * accParts d + i))) ∧
        (preloadRowOf d m ≠ pos → ((arrayView s c l).array l).accs ≠ [] → accOf t c l d m n i = accOf s c l d m n i) := by
  obtain ⟨u, hu, hview⟩ := takeOperands_preload (owner := owner) (sl := sl) hd hop hpos hpart havail htake
  have hpartu : (arrayView u c l).part.isSome = true := by rw [hview]; exact hpart
  have harray : (arrayView u c l).array l = (arrayView s c l).array l := by rw [hview]; rfl
  have hd' : ChecksPassed (preloadAt d owner sl pos gs).d := hd
  have hpos' : (preloadAt d owner sl pos gs).pos < dM (preloadAt d owner sl pos gs).d := lt_rows_of_lt_opTotal hd hop hpos
  have honly : OnlyArrays c l u (preloadRow u c l (preloadAt d owner sl pos gs) gs) := onlyArrays_preloadRow _ _ hpartu
  refine ⟨preloadRow u c l (preloadAt d owner sl pos gs) gs, unitsOp_preload_step hop hpos (takeGrans_length htake) hu, ?_,
    accs_preloadRow_ne_nil hd' hpos' hpartu gs, fun hes => ?_, fun m n i hm hn hi => ⟨fun hrow => ?_, fun hrow haccs => ?_⟩⟩
  · refine OnlyArraysAndQueues.trans ?_ honly.andQueues
    unfold OnlyArraysAndQueues
    rw [hview]
  · have hQ := getEq_of_view (f := fun Q => { Q with entries := es, taken := k })
      (show (arrayView (preloadRow u c l (preloadAt d owner sl pos gs) gs) c l).eq = _ by rw [honly, hview])
      fun e => hes (congrArg Eq.entries e)
    rw [hQ]
    exact ⟨rfl, rfl⟩
  · exact accOf_preloadRow_mem hd' hpos' hpartu gs ((mem_preloadRows hop hpos hm).2 hrow) hn hi
  · rw [accOf_eq s, ← harray]
    exact accOf_preloadRow_other hd' hpos' hpartu gs (by rwa [harray]) (fun hmem => hrow ((mem_preloadRows hop hpos hm).1 hmem)) hm hn hi

/-- The rows of a preload from pos on: each accumulator of a row from there on is written, and one of a row before stays. -/
theorem unitsOp_preload (hd : ChecksPassed d) (hop : dOp d = 2) (k : Nat) {s : State} {pos : Nat} (hpos : pos + k = opTotal d)
    (hpart : (arrayView s c l).part.isSome = true) (haccs : 0 < pos → ((arrayView s c l).array l).accs ≠ [])
    {gs : List Gran} {es : List Entry} {kq : Nat} {mk : Bool}
    (havail : 0 < k → k * preloadGrans d ≤ granAvail (getEq (getClu s c) (dPQ d)) ∧
      takeGrans (k * preloadGrans d) (getEq (getClu s c) (dPQ d)).entries (getEq (getClu s c) (dPQ d)).taken = some (gs, es, kq, mk)) :
    ∃ t, unitsOp s c l (preloadAt d owner sl pos []) (k + 1) = (t, preloadAt d owner sl (opTotal d) []) ∧
      OnlyArraysAndQueues c l s t ∧ (0 < opTotal d → ((arrayView t c l).array l).accs ≠ []) ∧
      ∀ m n i, m < dM d → n < dN d → i < accParts d →
        (preloadRowOf d m < pos → accOf t c l d m n i = accOf s c l d m n i) ∧
        (pos ≤ preloadRowOf d m → accOf t c l d m n i =
          preloadAcc d gs (64 * (preloadGrans d * (preloadRowOf d m - pos)) + 8 * (n * accParts d + i))) := by
  induction k generalizing s pos gs mk with
  | zero =>
    obtain rfl : pos = opTotal d := hpos
    refine ⟨s, unitsOp_preload_end hop 0, OnlyArraysAndQueues.refl s, haccs, fun m n i hm _ _ => ⟨fun _ => rfl, fun hle => ?_⟩⟩
    exact absurd (preloadRowOf_lt hop hm) (Nat.not_lt.2 hle)
  | succ k ih =>
    obtain ⟨hle, htake⟩ := havail k.succ_pos
    rw [Nat.succ_mul, Nat.add_comm] at htake hle
    obtain ⟨es₁, k₁, mk₁, mk₂, htake₁, htake₂⟩ := takeGrans_add htake (preloadGrans_pos hd)
    obtain ⟨u, hstep, honly, haccs₁, hqueue, hrow⟩ :=
      preload_one_row (owner := owner) (sl := sl) hd hop (show pos < opTotal d by omega) hpart (by omega) htake₁
    have hrest : 0 < k → k * preloadGrans d ≤ granAvail (getEq (getClu u c) (dPQ d)) ∧
        takeGrans (k * preloadGrans d) (getEq (getClu u c) (dPQ d)).entries (getEq (getClu u c) (dPQ d)).taken =
          some (gs.drop (preloadGrans d), es, kq, mk₂) := fun hk => by
      have hn : 0 < k * preloadGrans d := Nat.mul_pos hk (preloadGrans_pos hd)
      obtain ⟨hent, htaken⟩ := hqueue fun hnil => by
        rw [hnil, takeGrans_nil hn] at htake₂
        exact absurd htake₂ nofun
      rw [granAvail_eq, hent, htaken]
      exact ⟨le_granCount (by rw [htake₂]; rfl) (takeGrans_taken_le (preloadGrans_pos hd) htake₁), htake₂⟩
    obtain ⟨t, ht, honly₂, haccs₂, hrows⟩ :=
      ih (show pos + 1 + k = opTotal d by omega) (by rw [honly.part]; exact hpart) (fun _ => haccs₁) hrest
    refine ⟨t, (hstep (k + 1)).trans ht, honly.trans honly₂, haccs₂, fun m n i hm hn hi => ⟨fun hlt => ?_, fun hge => ?_⟩⟩
    · rw [(hrows m n i hm hn hi).1 (by omega)]
      exact (hrow m n i hm hn hi).2 (by omega) (haccs (by omega))
    · obtain heq | hgt := Nat.eq_or_lt_of_le hge
      · rw [(hrows m n i hm hn hi).1 (by omega), (hrow m n i hm hn hi).1 heq.symm, preloadAcc_take (preload_entry_le hn hi), ← heq,
          Nat.sub_self, Nat.mul_zero, Nat.mul_zero, Nat.zero_add]
      · have hsub : preloadRowOf d m - pos = (preloadRowOf d m - (pos + 1)) + 1 := by omega
        rw [(hrows m n i hm hn hi).2 hgt, preloadAcc_drop, hsub, Nat.mul_succ]
        exact congrArg (preloadAcc d gs) (by omega)

/-- The watchdog's count of an array ends (R63). -/
def endWatch (s : State) (c l : Nat) : State := modPa s c (physOf (getClu s c) l) fun pa => { pa with wdog := 0 }

theorem accOf_endWatch (hpart : (arrayView s c l).part.isSome = true) (haccs : ((arrayView s c l).array l).accs ≠ []) (m n i : Nat) :
    accOf (endWatch s c l) c l d m n i = accOf s c l d m n i := by
  rw [accOf_eq, endWatch, array_modArray hpart (ne_reset_of_accs (by exact haccs)), accOf_eq]
  rfl

/-- An operation that puts out nothing and is not the last of its accumulation leaves the array idle. -/
theorem arrayView_finishOp {r : OpRun} (hbounds : r.bounds = []) (hlast : dLast r.d = false)
    (hpart : (arrayView s c l).part.isSome = true) : arrayView (finishOp s c l r) c l = { arrayView s c l with run := none } := by
  have hidle : arrayView (modLa s c l fun la => { la with run := none }) c l = { arrayView s c l with run := none } :=
    arrayView_modLa hpart
  rw [finishOp_no_bounds hbounds, hlast, if_neg Bool.false_ne_true]
  exact views_opDone (by exact hpart) hidle

/-- A preload whose rows are all there writes them all and completes. -/
theorem advanceOp_preload (hd : ChecksPassed d) (hop : dOp d = 2) (hpart : (arrayView s c l).part.isSome = true)
    {gs : List Gran} {es : List Entry} {kq : Nat} {mk : Bool}
    (havail : opTotal d * preloadGrans d ≤ granAvail (getEq (getClu s c) (dPQ d)))
    (htake : takeGrans (opTotal d * preloadGrans d) (getEq (getClu s c) (dPQ d)).entries (getEq (getClu s c) (dPQ d)).taken =
      some (gs, es, kq, mk)) :
    (getLa (advanceOp s c l (newRun d owner sl)) c l).run = none ∧
      ∀ m n i, m < dM d → n < dN d → i < accParts d → accOf (advanceOp s c l (newRun d owner sl)) c l d m n i =
        preloadAcc d gs (64 * (preloadGrans d * preloadRowOf d m) + 8 * (n * accParts d + i)) := by
  obtain ⟨t, ht, honly, haccs, hrows⟩ := unitsOp_preload (owner := owner) (sl := sl) hd hop (opTotal d) (Nat.zero_add _) hpart nofun
    fun _ => ⟨havail, htake⟩
  have htotal : 0 < opTotal d := lt_of_le_of_lt (Nat.zero_le _) (preloadRowOf_lt hop hd.rows_pos)
  have hpartt : (arrayView t c l).part.isSome = true := by rw [honly.part]; exact hpart
  have hpartw : (arrayView (endWatch t c l) c l).part.isSome = true := by
    rw [endWatch, arrayView_modArray hpartt]
    exact hpartt
  have hdone : opComplete (preloadAt d owner sl (opTotal d) []) = true := by
    rw [opComplete, needS_preload hop]
    simp [newRun]
  have hadvance : advanceOp s c l (newRun d owner sl) = finishOp (endWatch t c l) c l (preloadAt d owner sl (opTotal d) []) := by
    unfold advanceOp
    rw [show unitsOp s c l (newRun d owner sl) (opTotal (newRun d owner sl).d + 1) = _ from ht]
    simp only [hdone, if_true]
    exact congrArg (fun u => finishOp u c l (preloadAt d owner sl (opTotal d) [])) (if_pos htotal)
  have hview : arrayView (advanceOp s c l (newRun d owner sl)) c l = { arrayView (endWatch t c l) c l with run := none } := by
    rw [hadvance]
    exact arrayView_finishOp rfl (hd.last_of_preload hop) hpartw
  refine ⟨by rw [← arrayView_run, hview], fun m n i hm hn hi => ?_⟩
  calc accOf (advanceOp s c l (newRun d owner sl)) c l d m n i
      = accOf (endWatch t c l) c l d m n i := by rw [accOf_eq, hview]; rfl
    _ = accOf t c l d m n i := accOf_endWatch hpartt (haccs htotal) m n i
    _ = _ := (hrows m n i hm hn hi).2 (Nat.zero_le _)

/-- A preload that may start and whose rows are all there starts, writes them all and completes. -/
theorem issueOp_preload (hlive : (getPart s owner).live = true) (hrun : (getLa s c (dArray d % 16)).run = none)
    (hdescQ : (getLa s c (dArray d % 16)).descQ = []) (herrs : opErrs s c owner d = [])
    (hstart : canStart s c (dArray d % 16) owner d = true) (hop : dOp d = 2) {gs : List Gran} {es : List Entry} {kq : Nat} {mk : Bool}
    (havail : opTotal d * preloadGrans d ≤ granAvail (getEq (getClu s c) (dPQ d)))
    (htake : takeGrans (opTotal d * preloadGrans d) (getEq (getClu s c) (dPQ d)).entries (getEq (getClu s c) (dPQ d)).taken =
      some (gs, es, kq, mk)) :
    (getLa (issueOp s c owner d) c (dArray d % 16)).run = none ∧
      ∀ m n i, m < dM d → n < dN d → i < accParts d → accOf (issueOp s c owner d) c (dArray d % 16) d m n i =
        preloadAcc d gs (64 * (preloadGrans d * preloadRowOf d m) + 8 * (n * accParts d + i)) := by
  have hpart : (arrayView s c (dArray d % 16)).part.isSome = true := by
    rw [arrayView, part_of_canStart hstart]
    rfl
  obtain ⟨t, sl, hbegin, hview⟩ := beginOp_of_not_mma (d := d) (owner := owner) (not_mma_of_preload hop) hpart
  have hqueue : getEq (getClu t c) = getEq (getClu s c) := by
    funext q
    exact congrArg (fun V => tabGet {} (ArrayView.eq V) q) hview
  have hissue := issueOp_starts hlive hrun hdescQ herrs hstart
  rw [hbegin] at hissue
  rw [hissue]
  generalize dArray d % 16 = l at *
  exact advanceOp_preload (checksPassed_of_opErrs herrs) hop (by rw [hview]; exact hpart) (by rwa [hqueue]) (by rwa [hqueue])

end Sys2Proof.Machine
end

section
/-! PROOFS. ACC_DRAIN takes its column scales, if it has any, and begins the final drain of its accumulators (R56, R101, R104). -/

namespace Sys2Proof.Machine

open Sys2Proof

variable {s : State} {c l owner : Nat} {d : List Word} {sl : Slice}

/-! ### The final drain begins -/

theorem mem_accList {m n i : Nat} : (m, n, i) ∈ accList d ↔ m < dM d ∧ n < dN d ∧ i < accParts d := by
  unfold accList accParts
  split
  · simp only [List.mem_flatMap, List.mem_range, List.mem_cons, Prod.mk.injEq, List.not_mem_nil, or_false]
    constructor
    · rintro ⟨_, hm, _, hn, ⟨rfl, rfl, rfl⟩ | ⟨rfl, rfl, rfl⟩⟩ <;> exact ⟨hm, hn, by decide⟩
    · rintro ⟨hm, hn, hi⟩
      exact ⟨m, hm, n, hn, by omega⟩
  · simp

/-- Accumulators that have not spilled do not spill before the drain (R101). -/
theorem lastSpills_eq {r : OpRun} (h : ∀ m n i, m < dM r.d → n < dN r.d → i < accParts r.d → (accOf s c l r.d m n i).spilled = false) :
    lastSpills s c l r = s := by
  refine List.foldlRecOn (motive := fun t => t = s) _ _ rfl fun t ht x hx => ?_
  obtain ⟨hm, hn, hi⟩ := mem_accList.1 hx
  rw [ht, h _ _ _ hm hn hi]
  rfl

/-- What a final drain reads of an accumulator that has not spilled (R101, R445). -/
def drainAcc (d : List Word) (a : Acc) : DVal :=
  if dExact d then { form := 0, bits := BitVec.ofInt 64 (accInt a), psn := a.psn }
  else { form := 1, bits := BitVec.ofNat 64 (a.bits.toNat % 2 ^ 32), psn := a.psn }

/-- The rows of a final drain of accumulators that have not spilled. -/
def unspilledRows (s : State) (c l : Nat) (d : List Word) : List (List DVal) :=
  (List.range (dM d)).map fun m => (List.range (dN d)).flatMap fun n => (List.range (accParts d)).map fun i =>
    drainAcc d (accOf s c l d m n i)

theorem drainVal_of_not_spilled {r : OpRun} {m n i : Nat} (h : (accOf s c l r.d m n i).spilled = false) :
    drainVal s c l r m n i = drainAcc r.d (accOf s c l r.d m n i) := by
  simp only [drainVal, h, Bool.false_eq_true, if_false]
  rfl

theorem drainRows_eq {r : OpRun} (h : ∀ m n i, m < dM r.d → n < dN r.d → i < accParts r.d → (accOf s c l r.d m n i).spilled = false) :
    drainRows s c l r = unspilledRows s c l r.d := by
  refine List.map_congr_left fun m hm => ?_
  simp only [List.flatMap]
  refine congrArg List.flatten (List.map_congr_left fun n hn => ?_)
  have hval : ∀ i, i < accParts r.d → drainVal s c l r m n i = drainAcc r.d (accOf s c l r.d m n i) := fun i hi =>
    drainVal_of_not_spilled (h m n i (List.mem_range.1 hm) (List.mem_range.1 hn) hi)
  cases hci : dCi16 r.d with
  | true =>
    simp only [accParts, hci, if_true] at hval ⊢
    rw [hval 0 (by decide), hval 1 (by decide)]
    rfl
  | false =>
    simp only [accParts, hci, Bool.false_eq_true, if_false] at hval ⊢
    rw [hval 0 (by decide)]
    rfl

/-- Of what the view shows, a final drain of accumulators that have not spilled changes arrays, and queues itself with their values. -/
theorem arrayView_startDrain {r : OpRun} (hpart : (arrayView s c l).part.isSome = true)
    (h : ∀ m n i, m < dM r.d → n < dN r.d → i < accParts r.d → (accOf s c l r.d m n i).spilled = false) :
    ∃ dr pa, arrayView (startDrain s c l r) c l = { arrayView s c l with pa := pa, drains := (arrayView s c l).drains ++ [dr] } ∧
      dr.d = r.d ∧ dr.part = r.part ∧ dr.row = 0 ∧ dr.blank = false ∧ dr.rows = unspilledRows s c l r.d := by
  let dr : Drain :=
    { d := r.d, part := r.part, rows := drainRows s c l r, row := 0, sums := drainSums s c l r.d, scales := r.cols, slice := r.slice
      seedLo := r.seedLo, seedHi := r.seedHi, blank := false }
  let t := (accList r.d).foldl (fun s x => modAcc s c l r.d x.1 x.2.1 x.2.2 (fun a => { a with openBy := 0 })) s
  have ht : OnlyArrays c l s t := onlyArrays_foldl _ hpart fun _ _ hu => onlyArrays_modAcc hu
  have hstart : startDrain s c l r = modLa t c l fun la => { la with drains := la.drains ++ [dr] } := by
    simp only [startDrain, lastSpills_eq h]
    rfl
  refine ⟨dr, (arrayView t c l).pa, ?_, rfl, rfl, rfl, rfl, drainRows_eq h⟩
  rw [hstart, arrayView_setDrains (fun ds => ds ++ [dr]) (by rw [ht.part]; exact hpart), ht]

/-! ### From its start to its end -/

/-- A drain whose column scales are complete. -/
abbrev drainReady (d : List Word) (owner : Nat) (sl : Slice) (scalesIn : Bool) (cols : List (Nat × Bool)) : OpRun :=
  { newRun d owner sl with scalesIn := scalesIn, cols := cols }

theorem opTotal_drain (hop : dOp d = 3) : opTotal d = 0 := by
  simp [opTotal, hop]

theorem not_mma_of_drain (hop : dOp d = 3) : dOp d ≠ 1 := by
  omega

theorem needA_drain (hop : dOp d = 3) {r : OpRun} (hr : r.d = d) : needA r = 0 :=
  if_pos (by rw [hr, opTotal_drain hop]; exact Nat.zero_le _)

theorem needS_newRun_drain (hop : dOp d = 3) : needS (newRun d owner sl) = if dScale d = 2 then ceilDiv (4 * dN d) 64 else 0 := by
  simp [needS, newRun, hop]

/-- A drain without column scales takes nothing. -/
theorem takeOperands_drain_no_scales (hop : dOp d = 3) (h2 : dScale d ≠ 2) :
    takeOperands s c l (newRun d owner sl) = (s, newRun d owner sl) := by
  have hneed : needS (newRun d owner sl) = 0 := (needS_newRun_drain hop).trans (if_neg h2)
  rw [takeOperands_row (not_mma_of_drain hop) rfl hneed, needA_drain hop rfl, pullFor_enough (Nat.zero_le _)]

/-- The granules of the column scales of a drain are taken and kept as its scales. -/
theorem takeOperands_drain_scales (hop : dOp d = 3) (h2 : dScale d = 2) {t : State} {gs : List Gran}
    (hpos : 0 < ceilDiv (4 * dN d) 64) (hgs : gs.length = ceilDiv (4 * dN d) 64)
    (hpull : pullFor s c l sl.id (dSQ d) (ceilDiv (4 * dN d) 64) [] = (t, gs)) :
    takeOperands s c l (newRun d owner sl) =
      (t, drainReady d owner sl true ((List.range (dN d)).map fun n => (granNum gs (4 * n) 4, granBad gs (4 * n)))) := by
  have hneed : needS (newRun d owner sl) = ceilDiv (4 * dN d) 64 := (needS_newRun_drain hop).trans (if_pos h2)
  rw [takeOperands_scales (r := newRun d owner sl) (gs := gs) (t := t) (not_mma_of_drain hop) rfl (needA_drain hop rfl)
    (by rwa [hneed]) (by rw [hneed]; exact hpull) (by rw [hneed, hgs])]
  exact congrArg (Prod.mk t) (if_pos h2)

/-- A drain takes its column scales where they are there; of what the view shows only queues change. -/
theorem takeOperands_drain (hd : ChecksPassed d) (hop : dOp d = 3) (hpart : (arrayView s c l).part.isSome = true)
    (hscales : dScale d = 2 → ceilDiv (4 * dN d) 64 ≤ granAvail (getEq (getClu s c) (dSQ d))) :
    ∃ t b cols, takeOperands s c l (newRun d owner sl) = (t, drainReady d owner sl b cols) ∧
      needS (drainReady d owner sl b cols) = 0 ∧ arrayView t c l = { arrayView s c l with eq := (arrayView t c l).eq } := by
  by_cases h2 : dScale d = 2
  · have hpos : 0 < ceilDiv (4 * dN d) 64 := by
      have := hd.cols_pos
      unfold ceilDiv
      omega
    obtain ⟨⟨gs, es, k, mk⟩, htake⟩ := Option.isSome_iff_exists.1 (takeGrans_isSome (granAvail_eq _ ▸ hscales h2))
    obtain ⟨t, hpull, hview⟩ := pullFor_all (id := sl.id) hpart hpos (hscales h2) htake
    exact ⟨t, true, _, takeOperands_drain_scales hop h2 hpos (takeGrans_length htake) hpull, rfl, by rw [hview]⟩
  · exact ⟨s, false, [], takeOperands_drain_no_scales hop h2, (needS_newRun_drain hop).trans (if_neg h2), rfl⟩

/-- A drain whose scales are there takes them and begins its final drain. -/
theorem advanceOp_drain (hop : dOp d = 3) (hlast : dLast d = true) {t : State} {b : Bool} {cols : List (Nat × Bool)}
    (htake : takeOperands s c l (newRun d owner sl) = (t, drainReady d owner sl b cols))
    (hneed : needS (drainReady d owner sl b cols) = 0) :
    advanceOp s c l (newRun d owner sl) =
      startDrain (modLa t c l fun la => { la with run := none }) c l (drainReady d owner sl b cols) := by
  have htotal := opTotal_drain hop
  have hunits : unitsOp s c l (newRun d owner sl) (opTotal d + 1) = (t, drainReady d owner sl b cols) := by
    simp only [unitsOp, htake]
    exact if_pos (Bool.or_eq_true_iff.2 (.inr (decide_eq_true htotal.le)))
  have hdone : opComplete (drainReady d owner sl b cols) = true := by
    rw [opComplete, hneed]
    simp [newRun, htotal]
  have hadvance : advanceOp s c l (newRun d owner sl) = finishOp t c l (drainReady d owner sl b cols) := by
    unfold advanceOp
    rw [show unitsOp s c l (newRun d owner sl) (opTotal (newRun d owner sl).d + 1) = _ from hunits]
    simp only [hdone, if_true]
    exact congrArg (fun u => finishOp u c l (drainReady d owner sl b cols)) (if_neg (lt_irrefl 0))
  rw [hadvance, finishOp_no_bounds rfl]
  exact if_pos hlast

/-- An ACC_DRAIN that may start, on accumulators that have not spilled, starts and queues a final drain of their values. -/
theorem issueOp_drain (hlive : (getPart s owner).live = true) (hrun : (getLa s c (dArray d % 16)).run = none)
    (hdescQ : (getLa s c (dArray d % 16)).descQ = []) (herrs : opErrs s c owner d = [])
    (hstart : canStart s c (dArray d % 16) owner d = true) (hop : dOp d = 3)
    (hscales : dScale d = 2 → ceilDiv (4 * dN d) 64 ≤ granAvail (getEq (getClu s c) (dSQ d)))
    (hspilled : ∀ m n i, m < dM d → n < dN d → i < accParts d → (accOf s c (dArray d % 16) d m n i).spilled = false) :
    ∃ dr, (getLa (issueOp s c owner d) c (dArray d % 16)).run = none ∧
      (getLa (issueOp s c owner d) c (dArray d % 16)).drains = (getLa s c (dArray d % 16)).drains ++ [dr] ∧
      dr.d = d ∧ dr.part = owner ∧ dr.row = 0 ∧ dr.blank = false ∧ dr.rows = unspilledRows s c (dArray d % 16) d := by
  have hd := checksPassed_of_opErrs herrs
  have hpart : (arrayView s c (dArray d % 16)).part.isSome = true := by
    rw [arrayView, part_of_canStart hstart]
    rfl
  have hissue := issueOp_starts hlive hrun hdescQ herrs hstart
  obtain ⟨t, sl, hbegin, hview⟩ := beginOp_of_not_mma (d := d) (owner := owner) (not_mma_of_drain hop) hpart
  have hqueue : getEq (getClu t c) = getEq (getClu s c) := by
    funext q
    exact congrArg (fun V => tabGet {} (ArrayView.eq V) q) hview
  rw [hbegin] at hissue
  generalize dArray d % 16 = l at *
  obtain ⟨u, b, cols, htake, hneed, hu⟩ := takeOperands_drain (owner := owner) (sl := sl) hd hop (by rw [hview]; exact hpart)
    (by rwa [hqueue])
  rw [hissue, advanceOp_drain hop (hd.last_of_drain hop) htake hneed]
  have hpartu : (arrayView u c l).part.isSome = true := by rw [hu, hview]; exact hpart
  have hv : arrayView (modLa u c l fun la => { la with run := none }) c l =
      { arrayView s c l with run := none, eq := (arrayView u c l).eq } := by
    rw [arrayView_setRun none hpartu, hu, hview]
  generalize modLa u c l (fun la => { la with run := none }) = v at *
  have hacc : ∀ m n i, accOf v c l d m n i = accOf s c l d m n i := fun m n i => by
    rw [accOf_eq, hv]
    rfl
  obtain ⟨dr, pa, hdrain, hd, howner, hrow, hblank, hrows⟩ := arrayView_startDrain (s := v) (c := c) (l := l)
    (r := drainReady d owner sl b cols) (by rw [hv]; exact hpart) fun m n i hm hn hi => by
      rw [show accOf v c l (drainReady d owner sl b cols).d m n i = _ from hacc m n i]
      exact hspilled m n i hm hn hi
  refine ⟨dr, ?_, ?_, hd, howner, hrow, hblank, ?_⟩
  · rw [← arrayView_run, hdrain, hv]
  · rw [← arrayView_drains, hdrain, hv]
    rfl
  · rw [hrows]
    simp only [unspilledRows, newRun, hacc]

/-- Settles O13: a preload that may start writes each row of accumulators from its granules (issueOp_preload), and an ACC_DRAIN that may
start reads each accumulator that has not spilled (issueOp_drain). -/
theorem accPreloadAndDrain : Obligations.AccPreloadAndDrain := by
  unfold Obligations.AccPreloadAndDrain
  refine ⟨?_, ?_⟩
  · intro c owner d s hmain hlive l cl la Q per row rows hrun hdescQ herrs hstart hop havail gs es k mk htake
    obtain ⟨hidle, haccs⟩ := issueOp_preload hlive hrun hdescQ herrs hstart hop (by rw [opTotal_preload hop]; exact havail)
      (by rw [opTotal_preload hop]; exact htake)
    refine ⟨_, exec_accPreload c owner hmain, hidle, fun m n i hm hn hi => ?_⟩
    rw [haccs m n i hm hn hi, ← Nat.mul_assoc]
    exact ⟨rfl, rfl, rfl, rfl, rfl⟩
  · intro c owner d s hmain hlive l la per hrun hdescQ herrs hstart hop hscales hspilled
    obtain ⟨dr, hidle, hdrains, hd, howner, hrow, hblank, hrows⟩ := issueOp_drain hlive hrun hdescQ herrs hstart hop hscales hspilled
    exact ⟨_, dr, exec_accDrain c owner hmain, hidle, hdrains, hd, howner, hrow, hblank, hrows⟩

end Sys2Proof.Machine
end

section
/-! PROOFS. Operations that leave every cluster alone: writes to memory, records of rings, events, link messages, and what a stop of a
partition does outside its clusters (R341, R351, R368, R379). -/

namespace Sys2Proof.Machine

open Sys2Proof

variable (s : State)

/-- Of the states a chain of such operations goes through, each has the clusters of the first. -/
theorem clusters_foldl {β : Type} {f : State → β → State} (xs : List β) (hf : ∀ s x, (f s x).clusters = s.clusters) :
    (xs.foldl f s).clusters = s.clusters :=
  List.foldlRecOn (motive := fun t => t.clusters = s.clusters) xs f rfl fun t ht x _ => (hf t x).trans ht

/-! ### Memory -/

@[simp] theorem clusters_hostWrite (port a : Nat) (bs : List Byte) : (hostWrite s port a bs).clusters = s.clusters := by
  unfold hostWrite
  split <;> rfl

@[simp] theorem clusters_logDirty (p a n : Nat) : (logDirty s p a n).clusters = s.clusters := by
  unfold logDirty
  extract_lets
  split
  · refine clusters_foldl s _ fun t g => ?_
    split <;> rfl
  · rfl

@[simp] theorem clusters_hostWriteFor (p a : Nat) (bs : List Byte) : (hostWriteFor s p a bs).clusters = s.clusters := by
  unfold hostWriteFor
  extract_lets
  split
  · simp
  · rfl

@[simp] theorem clusters_wrRun (p va : Nat) (bs : List Byte) (psn : Bool) : (wrRun s p va bs psn).clusters = s.clusters := by
  unfold wrRun
  extract_lets
  split
  · rfl
  · split
    · simp
    · rfl

@[simp] theorem clusters_wrVaP (p va : Nat) (bs : List Byte) (psn : Bool) : (wrVaP s p va bs psn).clusters = s.clusters := by
  unfold wrVaP
  split
  · exact List.foldlRecOn (motive := fun acc : State × List Byte => acc.1.clusters = s.clusters) _ _ rfl fun acc hacc r _ =>
      (clusters_wrRun acc.1 _ _ _ _).trans hacc
  · rfl

@[simp] theorem clusters_wrVa (p va : Nat) (bs : List Byte) : (wrVa s p va bs).clusters = s.clusters := clusters_wrVaP s p va bs false

/-! ### Records, events and completions -/

@[simp] theorem clusters_writeRec (k : Nat) (h : Held) : (writeRec s k h).clusters = s.clusters := by
  unfold writeRec
  extract_lets r a bs s1 s2
  have h1 : s1.clusters = s.clusters := by
    show (if 1088 ≤ k then _ else _ : State).clusters = _
    split <;> simp
  split <;> exact h1

@[simp] theorem clusters_flushHeld (k : Nat) (hs : List Held) : (flushHeld s k hs).clusters = s.clusters := by
  induction hs generalizing s with
  | nil => rfl
  | cons h t ih =>
    unfold flushHeld
    extract_lets
    split
    · rfl
    · split
      · simp [ih]
      · split
        · simp [ih]
        · rfl

@[simp] theorem clusters_deliver (k : Nat) (h : Held) : (deliver s k h).clusters = s.clusters := by
  unfold deliver
  extract_lets
  split
  · rfl
  · simp

@[simp] theorem clusters_evPool (code : Nat) (items : List (Nat × Nat)) : (evPool s code items).clusters = s.clusters :=
  clusters_deliver s _ _

@[simp] theorem clusters_evPart (p code : Nat) (items : List (Nat × Nat)) : (evPart s p code items).clusters = s.clusters := by
  unfold evPart
  split
  · simp
  · rfl

@[simp] theorem clusters_complete (h : CmdHead) (status : Nat) (res : List Word) : (complete s h status res).clusters = s.clusters :=
  clusters_deliver s _ _

@[simp] theorem clusters_completeWhere (pick : Outst → Bool) (f : Outst → Nat × List Word) :
    (completeWhere s pick f).clusters = s.clusters :=
  clusters_foldl { s with outst := s.outst.filter fun o => !pick o } _ fun t _ => clusters_complete t _ _ _

@[simp] theorem clusters_completeWait (w : Wait) (status : Nat) : (completeWait s w status).clusters = s.clusters :=
  clusters_completeWhere s _ _

/-! ### Link messages and reset notices -/

@[simp] theorem clusters_putFlit (l : Nat) (m : Msg) : (putFlit s l m).clusters = s.clusters := rfl

@[simp] theorem clusters_pumpMsgs (l : Nat) (ms : List Msg) (stalled : List Nat) : (pumpMsgs l ms stalled s).clusters = s.clusters := by
  induction ms generalizing s stalled with
  | nil => rfl
  | cons m r ih =>
    unfold pumpMsgs
    split <;> simp [ih]

@[simp] theorem clusters_sendOn (path : Nat) (m : Msg) : (sendOn s path m).clusters = s.clusters := by
  unfold sendOn
  split
  · rfl
  · split
    · rfl
    · simp [pumpLink]

@[simp] theorem clusters_dropExport (p ent : Nat) : (dropExport s p ent).clusters = s.clusters := by
  unfold dropExport
  extract_lets x s1
  exact clusters_foldl s1 _ fun _ _ => rfl

@[simp] theorem clusters_closeExports : (closeExports s).clusters = s.clusters := by
  unfold closeExports
  refine clusters_foldl s _ fun t p => clusters_foldl t _ fun u x => ?_
  split <;> simp

@[simp] theorem clusters_peerReset (node part : Nat) (gen : BitVec 16) : (peerReset s node part gen).clusters = s.clusters := by
  simp [peerReset]

@[simp] theorem clusters_sendNotice (p : Nat) (gen : BitVec 16) : (sendNotice s p gen).clusters = s.clusters := by
  unfold sendNotice
  extract_lets nodes s1
  have h1 : s1.clusters = s.clusters := by
    show (if ownNode s < 64 then _ else _ : State).clusters = _
    split <;> simp
  exact (clusters_foldl _ nodes fun t n => clusters_sendOn t (bestPath 0 (pathsTo t n)) (.notice n p gen)).trans h1

@[simp] theorem clusters_noticeCheck (p : Nat) (late : Bool) : (noticeCheck s p late).clusters = s.clusters := by
  unfold noticeCheck
  extract_lets _ s1
  split
  · rfl
  · split
    · rfl
    · simp [s1]

@[simp] theorem clusters_advanceGen (p : Nat) (g : BitVec 16) : (advanceGen s p g).clusters = s.clusters := by
  simp [advanceGen]

/-! ### What stops outside the clusters -/

@[simp] theorem clusters_disturb (p b : Nat) : (disturb s p b).clusters = s.clusters := by
  unfold disturb
  extract_lets
  split
  · rfl
  · split
    · rfl
    · extract_lets s1
      have h1 : s1.clusters = s.clusters := rfl
      split <;> simp [h1]

@[simp] theorem clusters_cqWrite (n status op : Nat) (recv : Bool) (imm : Option Nat) (bytes : Nat) (id : List Word) :
    (cqWrite s n status op recv imm bytes id).clusters = s.clusters := by
  unfold cqWrite
  extract_lets
  split
  · rfl
  · simp

@[simp] theorem clusters_qpFlush (n fuel : Nat) : (qpFlush s n fuel).clusters = s.clusters := by
  induction fuel generalizing s with
  | zero => rfl
  | succ f ih =>
    unfold qpFlush
    extract_lets
    split
    · rfl
    · split
      · simp [ih]
      · split
        · simp [ih]
        · split
          · simp [ih]
          · rfl

@[simp] theorem clusters_dropQps (p : Nat) : (dropQps s p).clusters = s.clusters :=
  clusters_foldl s _ fun t n => by simp [dropQp]

@[simp] theorem clusters_dropCells (p : Nat) : (dropCells s p).clusters = s.clusters :=
  clusters_foldl s _ fun _ _ => rfl

@[simp] theorem clusters_dropRequests (p : Nat) : (dropRequests s p).clusters = s.clusters := rfl

@[simp] theorem clusters_jobExpire (pool : Nat) (j : Job) : (jobExpire s pool j).clusters = s.clusters := by
  simp [jobExpire, jobOut]

@[simp] theorem clusters_noteSoft (p a len : Nat) : (noteSoft s p a len).clusters = s.clusters := by
  unfold noteSoft
  split <;> rfl

@[simp] theorem clusters_jobStart (pool n : Nat) (j : Job) : (jobStart s pool n j).clusters = s.clusters := by
  unfold jobStart
  split
  · split
    · rfl
    · simp
  · rfl

@[simp] theorem clusters_jobFeed (pool fuel : Nat) : (jobFeed s pool fuel).clusters = s.clusters := by
  induction fuel generalizing s with
  | zero => rfl
  | succ f ih =>
    unfold jobFeed
    split
    · rfl
    · extract_lets drop
      have hdrop : ∀ t, (drop t).clusters = t.clusters := fun _ => rfl
      split
      · simp [ih, hdrop]
      · split
        · rfl
        · split
          · rfl
          · simp [ih, hdrop]

@[simp] theorem clusters_dropPartJobs (p : Nat) : (dropPartJobs s p).clusters = s.clusters :=
  clusters_foldl (dropJobs s p) _ fun t _ => clusters_jobFeed t _ _

end Sys2Proof.Machine
end

section
/-! PROOFS. A recorded failure stays (R71, R74): what the control core has recorded of a cluster's failed arrays, and of the cause of the
latest, is left alone by all that follows from it in the same command. -/

namespace Sys2Proof.Machine

open Sys2Proof

/-- The failed arrays of cluster c and the latest cause are v. -/
def FailureIs (c : Nat) (v : BitVec 17 × Nat) (s : State) : Prop := ((getClu s c).failed, (getClu s c).cause) = v

variable {s : State} {c : Nat} {v : BitVec 17 × Nat}

theorem failure_of_clusters {t : State} (h : FailureIs c v s) (ht : t.clusters = s.clusters) : FailureIs c v t := by
  unfold FailureIs getClu
  rw [ht]
  exact h

theorem failure_foldl {β : Type} {f : State → β → State} (xs : List β) (h : FailureIs c v s)
    (hf : ∀ t x, FailureIs c v t → FailureIs c v (f t x)) : FailureIs c v (xs.foldl f s) :=
  List.foldlRecOn (motive := FailureIs c v) xs f h fun t ht x _ => hf t x ht

theorem failure_ite {p : Prop} [Decidable p] {t u : State} (ht : FailureIs c v t) (hu : FailureIs c v u) :
    FailureIs c v (if p then t else u) := by
  split <;> assumption

section

variable (hv : v.1 ≠ 0)
include hv

/-- A cluster with a failed array reads back, so a change of its other fields leaves its failures alone. -/
theorem failure_modClu {i : Nat} {f : Cluster → Cluster} (h : FailureIs c v s)
    (hf : ∀ cl, (f cl).failed = cl.failed ∧ (f cl).cause = cl.cause) : FailureIs c v (modClu s i f) := by
  obtain ⟨hfailed, hcause⟩ := hf (getClu s c)
  unfold FailureIs at h ⊢
  by_cases hi : i = c
  · subst hi
    have hne : f (getClu s i) ≠ {} := fun e => hv <| by
      rw [← h, ← hfailed, e]
    rw [getClu_modClu_self s i f hne, hfailed, hcause, h]
  · rw [getClu_modClu_other s f hi, h]

theorem failure_modCsp {i x : Nat} {f : CspCtx → CspCtx} (h : FailureIs c v s) : FailureIs c v (modCsp s i x f) :=
  failure_modClu hv h fun _ => ⟨rfl, rfl⟩

theorem failure_modLa {i l : Nat} {f : LArray → LArray} (h : FailureIs c v s) : FailureIs c v (modLa s i l f) :=
  failure_modClu hv h fun _ => ⟨rfl, rfl⟩

theorem failure_modPa {i a : Nat} {f : PArray → PArray} (h : FailureIs c v s) : FailureIs c v (modPa s i a f) :=
  failure_modClu hv h fun _ => ⟨rfl, rfl⟩

/-! ### The CSP (R144, R148, R159) -/

theorem failure_pickCsp {i : Nat} (h : FailureIs c v s) : FailureIs c v (pickCsp s i) := by
  have hrun : ∀ {t n}, FailureIs c v t → FailureIs c v (runCsp t i n) := fun ht => failure_modClu hv ht fun _ => ⟨rfl, rfl⟩
  unfold pickCsp
  extract_lets
  refine failure_ite h (failure_ite (hrun h) (failure_ite (hrun h) ?_))
  split
  · exact hrun (failure_modClu hv h fun _ => ⟨rfl, rfl⟩)
  · exact h

theorem failure_stopCsp {i x : Nat} (h : FailureIs c v s) : FailureIs c v (stopCsp s i x) := by
  unfold stopCsp
  extract_lets o s1 _ s2
  have h2 : FailureIs c v s2 := failure_modCsp hv (failure_modClu hv h fun _ => ⟨rfl, rfl⟩)
  refine failure_pickCsp hv (failure_ite h2 ?_)
  unfold cspEvent
  exact failure_ite (failure_of_clusters h2 (clusters_evPart _ _ _ _)) h2

theorem failure_cspRelease {i : Nat} (h : FailureIs c v s) : FailureIs c v (cspRelease s i) :=
  failure_pickCsp hv (failure_modClu hv (failure_foldl _ h fun _ _ ht => failure_modCsp hv ht) fun _ => ⟨rfl, rfl⟩)

theorem failure_settleCsp {i x : Nat} (h : FailureIs c v s) : FailureIs c v (settleCsp i s x) := by
  unfold settleCsp
  extract_lets s1
  have h1 : FailureIs c v s1 := failure_ite (failure_stopCsp hv h) h
  refine failure_ite h ?_
  split
  · exact failure_modCsp hv h1
  · exact h1

theorem failure_settleLoad {i x : Nat} (h : FailureIs c v s) : FailureIs c v (settleLoad i s x) := by
  unfold settleLoad
  split
  · exact h
  · exact failure_ite h (failure_of_clusters (failure_modCsp hv h) (clusters_completeWait _ _ _))

theorem failure_cspPendings {i : Nat} (h : FailureIs c v s) : FailureIs c v (cspPendings s i) := by
  unfold cspPendings
  extract_lets s1 s2
  have h1 : FailureIs c v s1 := failure_foldl _ h fun _ _ ht => failure_settleCsp hv ht
  have h2 : FailureIs c v s2 := failure_ite (failure_cspRelease hv h1) h1
  exact failure_ite h (failure_foldl _ h2 fun _ _ ht => failure_settleLoad hv ht)

theorem failure_askStop {i x : Nat} (h : FailureIs c v s) : FailureIs c v (askStop s i x) :=
  failure_cspPendings hv (failure_modCsp hv h)

/-! ### Outputs that are not written any more (R37, R341) -/

theorem failure_poisonGranule {p g : Nat} {t : List Word} (h : FailureIs c v s) : FailureIs c v (poisonGranule s p t g) := by
  unfold poisonGranule
  extract_lets
  exact failure_ite (failure_modClu hv h fun _ => ⟨rfl, rfl⟩) (failure_ite (failure_modPa hv h) (failure_ite (failure_of_clusters h rfl) h))

theorem failure_poisonRest {E : Engine} {P : EngPort} (h : FailureIs c v s) : FailureIs c v (poisonRest s E P) :=
  failure_foldl _ h fun _ _ ht => failure_poisonGranule hv ht

theorem failure_poisonAhead {qs : List Nat} {n : Nat} {E : Engine} (h : FailureIs c v s) : FailureIs c v (poisonAhead qs n s E) := by
  induction n generalizing s E with
  | zero => exact h
  | succ n ih =>
    unfold poisonAhead
    extract_lets w wr s1
    have h1 : FailureIs c v s1 := by
      refine failure_ite ?_ h
      split
      · exact failure_poisonRest hv h
      · exact h
    split
    · exact h1
    · exact ih h1

theorem failure_poisonOutputs {i e : Nat} {qs : List Nat} (h : FailureIs c v s) : FailureIs c v (poisonOutputs s i e qs) := by
  unfold poisonOutputs
  extract_lets E s1
  have h1 : FailureIs c v s1 := by
    show FailureIs c v (match E.port with | some P => _ | none => s)
    split
    · exact failure_ite (failure_poisonRest hv h) h
    · exact h
  exact failure_poisonAhead hv h1

/-! ### A partition's work stops (R341) -/

theorem failure_stopArray {p i l : Nat} {abort : Bool} (h : FailureIs c v s) : FailureIs c v (stopArray p i abort s l) := by
  unfold stopArray
  extract_lets s1 la s2 s3 s4
  have h1 : FailureIs c v s1 := failure_foldl _ h fun _ _ ht => failure_poisonOutputs hv ht
  have h2 : FailureIs c v s2 := failure_foldl _ h1 fun _ _ ht => failure_of_clusters ht rfl
  have h3 : FailureIs c v s3 := failure_ite (failure_foldl _ h2 fun _ _ ht => failure_of_clusters ht rfl) h2
  have h4 : FailureIs c v s4 := failure_ite (failure_modPa hv h3) h3
  exact failure_modLa hv h4

theorem failure_stopContexts {p i : Nat} (h : FailureIs c v s) : FailureIs c v (stopContexts p i s) :=
  failure_foldl _ h fun _ _ ht => failure_ite (failure_askStop hv (failure_modCsp hv ht)) ht

theorem failure_stopCluster {p i : Nat} {abort : Bool} (h : FailureIs c v s) : FailureIs c v (stopCluster p abort s i) :=
  failure_stopContexts hv (failure_modClu hv (failure_foldl _ h fun _ _ ht => failure_stopArray hv ht) fun _ => ⟨rfl, rfl⟩)

theorem failure_stopWork {p : Nat} {abort : Bool} (h : FailureIs c v s) : FailureIs c v (stopWork s p abort) := by
  unfold stopWork
  extract_lets s1 s2 s3
  have h2 : FailureIs c v s2 := failure_foldl (s := s1) _ h fun _ _ ht => failure_stopCluster hv ht
  have h3 : FailureIs c v s3 := h2
  exact failure_of_clusters h3 (by simp)

theorem failure_resetPart {p : Nat} {abort : Bool} (h : FailureIs c v s) : FailureIs c v (resetPart s p abort) := by
  unfold resetPart
  extract_lets s1
  have h1 : FailureIs c v s1 := failure_of_clusters (failure_stopWork hv h) (clusters_completeWhere _ _ _)
  clear_value s1
  split
  · exact failure_of_clusters h1 (modPart_clusters _ _ _)
  · exact failure_of_clusters h1 (clusters_advanceGen _ _ _)

theorem failure_faultStop {p cause i a : Nat} (h : FailureIs c v s) : FailureIs c v (faultStop s p cause i a) := by
  unfold faultStop
  extract_lets items s1
  have h1 : FailureIs c v s1 := failure_of_clusters h (by simp [s1])
  exact failure_resetPart hv h1

/-! ### What a failure leads to (R36, R37, R74) -/

theorem failure_arrayLost {i l cause : Nat} (h : FailureIs c v s) : FailureIs c v (arrayLost s i l cause) :=
  failure_foldl _ (failure_modLa hv (failure_modClu hv h fun _ => ⟨rfl, rfl⟩)) fun _ _ ht => failure_faultStop hv ht

theorem failure_spareFailed {i l cause : Nat} (h : FailureIs c v s) : FailureIs c v (spareFailed s i l cause) := by
  unfold spareFailed
  extract_lets ps items s1 s2 _ s3 s4
  have h1 : FailureIs c v s1 := failure_modClu hv h fun _ => ⟨rfl, rfl⟩
  have h2 : FailureIs c v s2 := failure_modPa hv (failure_modLa hv h1)
  have h4 : FailureIs c v s4 := failure_foldl (s := s3) _ h2 fun _ _ ht => failure_of_clusters ht (by simp)
  exact failure_of_clusters h4 (clusters_evPool _ _ _)

theorem failure_absorbFailure {i a cause : Nat} (h : FailureIs c v s) : FailureIs c v (absorbFailure s i a cause) := by
  unfold absorbFailure
  extract_lets
  refine failure_ite ?_ ?_
  · split
    · exact failure_arrayLost hv h
    · exact h
  · split
    · exact failure_ite (failure_arrayLost hv h) (failure_spareFailed hv h)
    · refine failure_ite h (failure_ite (failure_arrayLost hv (failure_spareFailed hv (failure_modClu hv (failure_modPa hv h) ?_)))
        (failure_arrayLost hv h))
      exact fun _ => ⟨rfl, rfl⟩

end

/-- The control core records the failure of a physical array, and nothing that follows from it in the same command changes what was
recorded. -/
theorem recordFailure_recorded {a cause : Nat} (ha : a < 17) :
    (getClu (recordFailure s c a cause) c).failed.getLsbD a = true ∧ (getClu (recordFailure s c a cause) c).cause = cause := by
  let f (cl : Cluster) : Cluster := { cl with failed := cl.failed ||| BitVec.ofNat 17 (2 ^ a), cause := cause }
  have hbit : (f (getClu s c)).failed.getLsbD a = true := by
    rw [BitVec.getLsbD_or, BitVec.getLsbD_ofNat, Nat.testBit_two_pow_self, decide_eq_true ha]
    exact Bool.or_true _
  have hv : (f (getClu s c)).failed ≠ 0 := fun e => by
    rw [e] at hbit
    simp at hbit
  have ht : FailureIs c ((f (getClu s c)).failed, cause) (modClu s c f) := by
    unfold FailureIs
    rw [getClu_modClu_self s c f fun e => hv (by rw [e])]
  have hrec : FailureIs c ((f (getClu s c)).failed, cause) (recordFailure s c a cause) :=
    failure_ite ht (failure_absorbFailure hv ht)
  obtain ⟨hfailed, hcause⟩ := Prod.mk.inj hrec
  exact ⟨hfailed ▸ hbit, hcause⟩

theorem physOf_lt {cl : Cluster} {l : Nat} (h : l < 16) : physOf cl l < 17 := by
  unfold physOf
  split <;> omega

end Sys2Proof.Machine
end

section
/-! PROOFS. DRAIN_ROW_PUSH (R58, R70, R73, R134, R444): the entries of a row go to its queue behind those there, the drain goes on with
its next row or is over, and a checksum that does not agree is recorded as a failure. -/

namespace Sys2Proof.Machine

open Sys2Proof

variable {s : State} {c l q : Nat} {V : ArrayView} {dr : Drain}

/-! ### The CSP is told of a drain's end (R163) -/

section

variable (hV : V.part.isSome = true)
include hV

theorem views_pickCsp (h : arrayView s c l = V) : arrayView (pickCsp s c) c l = V := by
  have hrun : ∀ {t n}, arrayView t c l = V → arrayView (runCsp t c n) c l = V := fun ht =>
    views_modClu hV ht fun _ => ⟨rfl, rfl, rfl, rfl⟩
  unfold pickCsp
  extract_lets
  split
  · exact h
  · split
    · exact hrun h
    · split
      · exact hrun h
      · split
        · exact hrun (views_modClu hV h fun _ => ⟨rfl, rfl, rfl, rfl⟩)
        · exact h

theorem views_cspWake (h : arrayView s c l = V) : arrayView (cspWake s c) c l = V := by
  unfold cspWake
  extract_lets woke rep zero s1
  have h1 : arrayView s1 c l = V := views_foldl h fun t x ht => by
    split
    · exact views_modClu hV ht fun _ => ⟨rfl, rfl, rfl, rfl⟩
    · exact ht
  refine views_pickCsp hV ?_
  split
  · exact views_modClu hV h1 fun _ => ⟨rfl, rfl, rfl, rfl⟩
  · exact h1

end

/-! ### Entries pushed for a slice (R36, R132) -/

/-- No slice of the array is replayed over a queue: what it pushes there goes in. -/
def Unskipped (la : LArray) (q : Nat) : Prop := ∀ x ∈ [la.sl0, la.sl1] ++ la.closing, tabGet 0 x.skip q = 0

theorem unskipped_modSlice {id : Nat} {f : Slice → Slice} (hf : ∀ x, (f x).skip = x.skip)
    (hpart : (arrayView s c l).part.isSome = true) (h : Unskipped (getLa s c l) q) : Unskipped (getLa (modSlice s c l id f) c l) q := by
  have hite : ∀ (p : Prop) [Decidable p] (x : Slice), (if p then f x else x).skip = x.skip := fun p _ x => by
    split
    · exact hf x
    · rfl
  rw [modSlice, getLa_modLa_held (by exact hpart)]
  simpa [Unskipped, hite] using h

theorem arrayView_pushQ {e : Entry} (hpart : (arrayView s c l).part.isSome = true) :
    arrayView (pushQ s c q e) c l = { arrayView s c l with
      eq := tabMod {} (arrayView s c l).eq q (fun Q => { Q with entries := Q.entries ++ [e], tail := (Q.tail + 1) % 64 }) } :=
  arrayView_modClu hpart fun _ => rfl

/-- The queue as the view shows it. -/
theorem getEq_eq (s : State) (c l q : Nat) : getEq (getClu s c) q = tabGet {} (arrayView s c l).eq q := rfl

theorem getEq_pushQ {e : Entry} (hpart : (arrayView s c l).part.isSome = true) : getEq (getClu (pushQ s c q e) c) q =
    { getEq (getClu s c) q with
      entries := (getEq (getClu s c) q).entries ++ [e], tail := ((getEq (getClu s c) q).tail + 1) % 64 } :=
  getEq_of_view (l := l) (T := (arrayView s c l).eq)
    (f := fun Q => { Q with entries := Q.entries ++ [e], tail := (Q.tail + 1) % 64 }) (congrArg ArrayView.eq (arrayView_pushQ hpart))
    fun e => absurd (congrArg Eq.entries e) (List.append_ne_nil_of_right_ne_nil _ (List.cons_ne_nil _ _))

/-- One entry goes in, after some bookkeeping of its slice. -/
theorem pushFor_one {id : Nat} {e : Entry} (hpart : (arrayView s c l).part.isSome = true) (hskip : Unskipped (getLa s c l) q) :
    ∃ u, pushFor s c l id q [e] = pushQ u c q e ∧ arrayView u c l = arrayView s c l ∧ Unskipped (getLa u c l) q := by
  simp only [pushFor, List.foldl_cons, List.foldl_nil]
  split
  · exact ⟨s, rfl, rfl, hskip⟩
  · next x hx =>
    rw [if_neg (by rw [hskip x (List.mem_of_find?_eq_some hx)]; exact lt_irrefl 0)]
    exact ⟨_, rfl, views_modSlice hpart rfl, unskipped_modSlice (fun _ => rfl) hpart hskip⟩

/-- Of what the view shows, only queues change from s to t. -/
def OnlyQueues (c l : Nat) (s t : State) : Prop := arrayView t c l = { arrayView s c l with eq := (arrayView t c l).eq }

/-- The entries that are pushed to a queue stand behind those there; of what the view shows, only queues change. -/
theorem pushFor_pushes {id : Nat} (es : List Entry) (hpart : (arrayView s c l).part.isSome = true) (hskip : Unskipped (getLa s c l) q) :
    OnlyQueues c l s (pushFor s c l id q es) ∧
      (getEq (getClu (pushFor s c l id q es) c) q).entries = (getEq (getClu s c) q).entries ++ es ∧
      (getEq (getClu (pushFor s c l id q es) c) q).side = (getEq (getClu s c) q).side := by
  induction es generalizing s with
  | nil => exact ⟨rfl, (List.append_nil _).symm, rfl⟩
  | cons e es ih =>
    obtain ⟨u, hu, hview, hskipu⟩ := pushFor_one (id := id) (e := e) hpart hskip
    have hpartu : (arrayView u c l).part.isSome = true := by rw [hview]; exact hpart
    have hQ : getEq (getClu u c) q = getEq (getClu s c) q := by rw [getEq_eq _ c l, hview, ← getEq_eq]
    have hla : getLa (pushQ u c q e) c l = getLa u c l := getLa_modClu_la hpartu fun _ => rfl
    obtain ⟨honly, hentries, hside⟩ := ih (s := pushQ u c q e) (by rw [arrayView_pushQ hpartu]; exact hpartu) (by rw [hla]; exact hskipu)
    rw [show pushFor s c l id q (e :: es) = pushFor (pushFor s c l id q [e]) c l id q es from rfl, hu]
    refine ⟨?_, ?_, ?_⟩
    · unfold OnlyQueues at honly ⊢
      rw [honly, arrayView_pushQ hpartu, hview]
    · rw [hentries, getEq_pushQ hpartu, hQ, List.append_assoc]
      rfl
    · rw [hside, getEq_pushQ hpartu, hQ]

/-! ### A row of a drain -/

/-- The drains of an array once the oldest has pushed a row that is not its last. -/
def nextRow : List Drain → List Drain
  | [] => []
  | d :: t => { d with row := d.row + 1 } :: t

/-- A row that is not the last leaves the drain at the next row. -/
theorem arrayView_rowDone_next (hpart : (arrayView s c l).part.isSome = true) (hrow : dr.row + 1 < dr.rows.length) :
    arrayView (rowDone s c l dr) c l = { arrayView s c l with drains := nextRow (arrayView s c l).drains } := by
  unfold rowDone
  rw [if_pos hrow]
  exact arrayView_setDrains nextRow hpart

/-- After the last row the drain is over, and the array's count of drains goes up. -/
theorem arrayView_rowDone_last (hpart : (arrayView s c l).part.isSome = true) (hrow : dr.rows.length ≤ dr.row + 1) :
    arrayView (rowDone s c l dr) c l = { arrayView s c l with
      drains := (arrayView s c l).drains.drop 1, drnCnt := (arrayView s c l).drnCnt + 1 } := by
  unfold rowDone
  rw [if_neg (Nat.not_lt.2 hrow)]
  extract_lets t
  have ht : arrayView t c l = { arrayView s c l with
      drains := (arrayView s c l).drains.drop 1, drnCnt := (arrayView s c l).drnCnt + 1 } := arrayView_modLa hpart
  clear_value t
  have hwake := views_cspWake (by exact hpart) ht
  exact views_opDone (s := emit (cspWake t c) _) (by exact hpart) hwake

theorem rowDone_eq_queues (hpart : (arrayView s c l).part.isSome = true) : (arrayView (rowDone s c l dr) c l).eq = (arrayView s c l).eq := by
  obtain hrow | hrow := Nat.lt_or_ge (dr.row + 1) dr.rows.length
  · rw [arrayView_rowDone_next hpart hrow]
  · rw [arrayView_rowDone_last hpart hrow]

theorem drainSkips_of_unskipped {la : LArray} (h : Unskipped la (dOQ dr.d)) : drainSkips la dr = false := by
  unfold drainSkips
  rw [List.any_eq_false]
  intro x hx
  rw [h x hx]
  simp

/-- The linear index of a drain's next row, as its queue has it (R134). -/
def rowBase (Q : Eq) (dr : Drain) : Nat := if Q.idx then Q.side.headD 0 else dr.row * 128

/-- The bytes of a drain's next row. -/
def nextBytes (s : State) (c : Nat) (dr : Drain) : List (Byte × Bool) :=
  (drainBytes s dr (rowBase (getEq (getClu s c) (dOQ dr.d)) dr)).1

/-- The clusters do not change where bytes of no stated value are taken. -/
theorem arrayView_drainBytes (base : Nat) : arrayView (drainBytes s dr base).2 c l = arrayView s c l := by
  unfold drainBytes
  split <;> rfl

theorem getLa_drainBytes (base : Nat) : getLa (drainBytes s dr base).2 c l = getLa s c l := by
  unfold drainBytes
  split <;> rfl

/-- Under IDX a row takes an index of its queue (R134). -/
def takeIndex (s : State) (c q : Nat) (indexed : Bool) : State :=
  if indexed then modEq s c q (fun Q => { Q with side := Q.side.drop 1 }) else s

theorem onlyQueues_takeIndex {indexed : Bool} (hpart : (arrayView s c l).part.isSome = true) :
    OnlyQueues c l s (takeIndex s c q indexed) := by
  unfold takeIndex OnlyQueues
  split
  · rw [arrayView_modEq hpart]
  · rfl

theorem getLa_takeIndex {indexed : Bool} (hpart : (arrayView s c l).part.isSome = true) :
    getLa (takeIndex s c q indexed) c l = getLa s c l := by
  unfold takeIndex
  split
  · exact getLa_modClu_la hpart fun _ => rfl
  · rfl

/-- Only the index that a row takes leaves its queue. -/
theorem getEq_takeIndex {indexed : Bool} (hpart : (arrayView s c l).part.isSome = true) (hidx : (getEq (getClu s c) q).idx = indexed) :
    (getEq (getClu (takeIndex s c q indexed) c) q).entries = (getEq (getClu s c) q).entries ∧
      (getEq (getClu (takeIndex s c q indexed) c) q).side =
        if indexed then (getEq (getClu s c) q).side.drop 1 else (getEq (getClu s c) q).side := by
  cases indexed with
  | false => exact ⟨rfl, rfl⟩
  | true =>
    have hQ : getEq (getClu (takeIndex s c q true) c) q = { getEq (getClu s c) q with side := (getEq (getClu s c) q).side.drop 1 } :=
      getEq_of_view (l := l) (T := (arrayView s c l).eq) (f := fun Q => { Q with side := Q.side.drop 1 })
        (congrArg ArrayView.eq (arrayView_modEq hpart)) fun e => by
          have hfalse := congrArg Eq.idx e
          exact absurd (hidx.symm.trans hfalse) nofun
    rw [hQ]
    exact ⟨rfl, rfl⟩

/-- A slice that pushed a poisoned byte notes it. -/
def notePoisoned (s : State) (c l id : Nat) (bs : List (Byte × Bool)) : State :=
  if bs.any (fun b => b.2) then modSlice s c l id (fun x => { x with status := worse x.status stPoisoned }) else s

theorem arrayView_notePoisoned {id : Nat} {bs : List (Byte × Bool)} (hpart : (arrayView s c l).part.isSome = true) :
    arrayView (notePoisoned s c l id bs) c l = arrayView s c l := by
  unfold notePoisoned
  split
  · exact views_modSlice hpart rfl
  · rfl

/-- What the push of a row is, where its queue has room, and an index where it needs one. -/
theorem pushRow_eq (hskip : Unskipped (getLa s c l) (dOQ dr.d)) (htaken : drainUntaken s c dr = false)
    (hside : (getEq (getClu s c) (dOQ dr.d)).idx = true → (getEq (getClu s c) (dOQ dr.d)).side ≠ [])
    (hroom : (getEq (getClu s c) (dOQ dr.d)).entries.length + (entriesOfBytes (nextBytes s c dr)).length ≤ 64) :
    pushRow s c l dr = rowDone (notePoisoned (pushFor
      (takeIndex (drainBytes s dr (rowBase (getEq (getClu s c) (dOQ dr.d)) dr)).2 c (dOQ dr.d) (getEq (getClu s c) (dOQ dr.d)).idx)
      c l dr.slice (dOQ dr.d) (entriesOfBytes (nextBytes s c dr))) c l dr.slice (nextBytes s c dr)) c l dr := by
  have hempty : ((getEq (getClu s c) (dOQ dr.d)).idx && (getEq (getClu s c) (dOQ dr.d)).side.isEmpty) = false := by
    cases hidx : (getEq (getClu s c) (dOQ dr.d)).idx with
    | false => rfl
    | true => simpa using hside hidx
  have hroom' : qRoom s c (dOQ dr.d) (entriesOfBytes (nextBytes s c dr)).length = true := decide_eq_true hroom
  unfold nextBytes rowBase at hroom'
  unfold pushRow
  simp only [drainSkips_of_unskipped hskip, htaken, hempty, hroom', Bool.not_false, Bool.and_true, Bool.not_true, Bool.false_eq_true,
    if_false]
  rfl

/-- A row for which its queue has room, and an index where it needs one, is pushed. -/
theorem pushRow_pushes (hpart : (arrayView s c l).part.isSome = true) (hskip : Unskipped (getLa s c l) (dOQ dr.d))
    (htaken : drainUntaken s c dr = false)
    (hside : (getEq (getClu s c) (dOQ dr.d)).idx = true → (getEq (getClu s c) (dOQ dr.d)).side ≠ [])
    (hroom : (getEq (getClu s c) (dOQ dr.d)).entries.length + (entriesOfBytes (nextBytes s c dr)).length ≤ 64) :
    ∃ t, pushRow s c l dr = rowDone t c l dr ∧ OnlyQueues c l s t ∧
      (getEq (getClu t c) (dOQ dr.d)).entries = (getEq (getClu s c) (dOQ dr.d)).entries ++ entriesOfBytes (nextBytes s c dr) ∧
      (getEq (getClu t c) (dOQ dr.d)).side =
        if (getEq (getClu s c) (dOQ dr.d)).idx then (getEq (getClu s c) (dOQ dr.d)).side.drop 1
        else (getEq (getClu s c) (dOQ dr.d)).side := by
  refine ⟨_, pushRow_eq hskip htaken hside hroom, ?_⟩
  generalize hu : (drainBytes s dr (rowBase (getEq (getClu s c) (dOQ dr.d)) dr)).2 = u
  have hview : arrayView u c l = arrayView s c l := hu ▸ arrayView_drainBytes _
  have hla : getLa u c l = getLa s c l := hu ▸ getLa_drainBytes _
  have hQ : getEq (getClu u c) (dOQ dr.d) = getEq (getClu s c) (dOQ dr.d) := by rw [getEq_eq _ c l, hview, ← getEq_eq]
  have hpartu : (arrayView u c l).part.isSome = true := by rw [hview]; exact hpart
  rw [← hQ]
  obtain ⟨hentries, hindex⟩ := getEq_takeIndex (indexed := (getEq (getClu u c) (dOQ dr.d)).idx) hpartu rfl
  have honly := onlyQueues_takeIndex (q := dOQ dr.d) (indexed := (getEq (getClu u c) (dOQ dr.d)).idx) hpartu
  have hlat := getLa_takeIndex (q := dOQ dr.d) (indexed := (getEq (getClu u c) (dOQ dr.d)).idx) hpartu
  generalize takeIndex u c (dOQ dr.d) (getEq (getClu u c) (dOQ dr.d)).idx = w at *
  have hpartw : (arrayView w c l).part.isSome = true := by rw [honly]; exact hpartu
  obtain ⟨honly', hentries', hside'⟩ := pushFor_pushes (id := dr.slice) (entriesOfBytes (nextBytes s c dr)) hpartw
    (q := dOQ dr.d) (by rw [hlat, hla]; exact hskip)
  generalize pushFor w c l dr.slice (dOQ dr.d) (entriesOfBytes (nextBytes s c dr)) = x at *
  have hpartx : (arrayView x c l).part.isSome = true := by rw [honly']; exact hpartw
  have hnote := arrayView_notePoisoned (id := dr.slice) (bs := nextBytes s c dr) hpartx
  refine ⟨?_, ?_, ?_⟩
  · unfold OnlyQueues at *
    rw [hnote, honly', honly, hview]
  · rw [getEq_eq _ c l, hnote, ← getEq_eq, hentries', hentries]
  · rw [getEq_eq _ c l, hnote, ← getEq_eq, hside', hindex]

end Sys2Proof.Machine
end

section
/-! PROOFS. What DRAIN_ROW_PUSH does with the oldest drain of an array (R58, R70, R73, R444). -/

namespace Sys2Proof.Machine

open Sys2Proof

variable {s : State} {c l : Nat} {dr : Drain} {rest : List Drain} {errs : List (Nat × Int)}

/-! ### Poisoned rows (R70) -/

/-- Bytes that are all poisoned fill poisoned granules. -/
theorem gransOf_poisoned (n : Nat) {bs : List (Byte × Bool)} (h : ∀ b ∈ bs, b.2 = true) : ∀ g ∈ gransOf n bs, g.psn = true := by
  induction n generalizing bs with
  | zero => simp [gransOf]
  | succ n ih =>
    cases bs with
    | nil => simp [gransOf]
    | cons b bs =>
      intro g hg
      obtain rfl | hg := List.mem_cons.1 hg
      · exact List.any_eq_true.2 ⟨b, by simp, h b List.mem_cons_self⟩
      · exact ih (fun x hx => h x (List.mem_of_mem_drop hx)) g hg

/-- An entry of poisoned granules holds nothing else but padding. -/
theorem entriesOf_poisoned (n : Nat) {gs : List Gran} (h : ∀ g ∈ gs, g.psn = true) :
    ∀ e ∈ entriesOf n gs, ∀ g ∈ e.gr, g.pad = true ∨ g.psn = true := by
  induction n generalizing gs with
  | zero => simp [entriesOf]
  | succ n ih =>
    cases gs with
    | nil => simp [entriesOf]
    | cons x gs =>
      intro e he
      obtain rfl | he := List.mem_cons.1 he
      · intro g hg
        obtain hg | hg := List.mem_append.1 hg
        · exact .inr (h g (List.mem_of_mem_take hg))
        · exact .inl (by rw [List.eq_of_mem_replicate hg])
      · exact ih (fun y hy => h y (List.mem_of_mem_drop hy)) e he

theorem entriesOfBytes_poisoned {bs : List (Byte × Bool)} (h : ∀ b ∈ bs, b.2 = true) :
    ∀ e ∈ entriesOfBytes bs, ∀ g ∈ e.gr, g.pad = true ∨ g.psn = true :=
  entriesOf_poisoned _ (gransOf_poisoned _ h)

theorem blankBytes_poisoned (s : State) (dr : Drain) : ∀ b ∈ blankBytes s dr, b.2 = true := by
  simp [blankBytes]

/-! ### The cases of the command -/

/-- The drain whose row is pushed: on an exact path, with the errors that reached its sums. -/
def pushedDrain (dr : Drain) (errs : List (Nat × Int)) : Drain := if dExact dr.d then faultyDrain dr errs else dr

/-- Errors reach the values of one row alone. -/
theorem pushedDrain_frame : (pushedDrain dr errs).d = dr.d ∧ (pushedDrain dr errs).row = dr.row ∧
    (pushedDrain dr errs).rows.length = dr.rows.length ∧ (pushedDrain dr errs).blank = dr.blank := by
  unfold pushedDrain
  split
  · exact ⟨rfl, rfl, List.length_mapIdx, rfl⟩
  · exact ⟨rfl, rfl, rfl, rfl⟩

/-- DRAIN_ROW_PUSH is held: the array has failed, or its run or its cluster does not run (R73, R248). -/
def drainHeld (s : State) (c l : Nat) (dr : Drain) : Bool :=
  (getLa s c l).halted || decide ((getPart s dr.part).twinState = 3) || decide (4 ≤ (getPc s c).point)

section

variable {c : Fin 20} {a : Fin 16} (hmain : mainOn s = true) (hdrains : (getLa s c.val a.val).drains = dr :: rest)
include hmain hdrains

theorem exec_drainRowPush : exec (.drainRowPush c a errs) s = .next (
    if drainHeld s c.val a.val dr then s
    else if dExact dr.d && !dr.blank then
      if rowChecks dr errs then pushRow s c.val a.val (faultyDrain dr errs)
      else recordFailure s c.val (physOf (getClu s c.val) a.val) 1
    else pushRow s c.val a.val dr) := by
  refine congrArg Host.Outcome.next ((if_pos hmain).trans ?_)
  simp only [hdrains]
  rfl

theorem exec_drainRowPush_held (h : drainHeld s c.val a.val dr = true) : exec (.drainRowPush c a errs) s = .next s := by
  rw [exec_drainRowPush hmain hdrains, if_pos h]

variable (hfree : drainHeld s c.val a.val dr = false)
include hfree

theorem exec_drainRowPush_row (hblank : dr.blank = false) (hchecks : dExact dr.d = true → rowChecks dr errs = true) :
    exec (.drainRowPush c a errs) s = .next (pushRow s c.val a.val (pushedDrain dr errs)) := by
  rw [exec_drainRowPush hmain hdrains, hfree, hblank, pushedDrain]
  cases hexact : dExact dr.d with
  | true => rw [hchecks hexact]; rfl
  | false => rfl

theorem exec_drainRowPush_blank (hblank : dr.blank = true) :
    exec (.drainRowPush c a errs) s = .next (pushRow s c.val a.val dr) := by
  rw [exec_drainRowPush hmain hdrains, hfree, hblank, Bool.not_true, Bool.and_false]
  rfl

theorem exec_drainRowPush_mismatch (hblank : dr.blank = false) (hexact : dExact dr.d = true) (hchecks : rowChecks dr errs = false) :
    exec (.drainRowPush c a errs) s = .next (recordFailure s c.val (physOf (getClu s c.val) a.val) 1) := by
  rw [exec_drainRowPush hmain hdrains, hfree, hblank, hexact, hchecks]
  rfl

end

/-! ### The drain after a row -/

/-- After a row that is not the last, the drain at the head stands at the next row; after the last it is gone and counted. -/
theorem drains_rowDone {t : State} {x : Drain} (hpart : (arrayView s c l).part.isSome = true)
    (hdrains : (getLa s c l).drains = dr :: rest) (honly : OnlyQueues c l s t) (hrow : x.row = dr.row) (hrows : x.rows.length = dr.rows.length) :
    (dr.row + 1 < dr.rows.length → (getLa (rowDone t c l x) c l).drains = { dr with row := dr.row + 1 } :: rest ∧
      (getLa (rowDone t c l x) c l).drnCnt = (getLa s c l).drnCnt) ∧
    (dr.rows.length ≤ dr.row + 1 → (getLa (rowDone t c l x) c l).drains = rest ∧
      (getLa (rowDone t c l x) c l).drnCnt = (getLa s c l).drnCnt + 1) := by
  have hpartt : (arrayView t c l).part.isSome = true := by rw [honly]; exact hpart
  rw [← arrayView_drains] at hdrains
  simp only [← arrayView_drains, ← arrayView_drnCnt]
  constructor
  · intro hlt
    rw [arrayView_rowDone_next hpartt (by omega), honly, hdrains]
    exact ⟨rfl, rfl⟩
  · intro hge
    rw [arrayView_rowDone_last hpartt (by omega), honly, hdrains]
    exact ⟨rfl, rfl⟩

/-- The queue after a row is that after its pushes. -/
theorem getEq_rowDone {t : State} {x : Drain} (q : Nat) (hpart : (arrayView t c l).part.isSome = true) :
    getEq (getClu (rowDone t c l x) c) q = getEq (getClu t c) q := by
  rw [getEq_eq _ c l, rowDone_eq_queues hpart, ← getEq_eq]

theorem nextBytes_of_row (h : dr.blank = false) :
    nextBytes s c dr = rowBytes dr (rowBase (getEq (getClu s c) (dOQ dr.d)) dr) (dr.rows.getD dr.row []) := by
  simp [nextBytes, drainBytes, h]

theorem nextBytes_of_blank (h : dr.blank = true) : nextBytes s c dr = blankBytes s dr := by
  simp [nextBytes, drainBytes, h]

/-- Settles O14: a drain that is held does nothing, and otherwise its next row is pushed (pushRow_pushes) and the drain goes on or ends
(drains_rowDone), all the bytes of a stopped slice's row being poisoned (blankBytes_poisoned), or a failure is recorded
(recordFailure_recorded). -/
theorem drainPushesRow : Obligations.DrainPushesRow := by
  unfold Obligations.DrainPushesRow
  intro c a errs s dr rest hmain la q Q fd es skips hdrains hpart
  refine ⟨fun hheld => exec_drainRowPush_held hmain hdrains ?_, fun hhalted htwin hpoint => ?_⟩
  · simpa only [drainHeld, Bool.or_eq_true, decide_eq_true_eq, or_assoc] using hheld
  have hfree : drainHeld s c.val a.val dr = false := by
    simpa only [drainHeld, Bool.or_eq_false_iff, decide_eq_false_iff_not, and_assoc, not_le] using ⟨hhalted, htwin, hpoint⟩
  refine ⟨fun hblank hchecks hside hroom hskip => ?_, fun hblank htaken hidx hskip hroom => ?_, fun hblank hexact hchecks => ?_⟩
  · -- a row of values
    obtain ⟨hd, hrow, hrows, hblank'⟩ := pushedDrain_frame (dr := dr) (errs := errs)
    have hes : es = entriesOfBytes (nextBytes s c.val (pushedDrain dr errs)) := by
      rw [nextBytes_of_row (hblank'.trans hblank), rowBase, hd, hrow]
      rfl
    have hexec := exec_drainRowPush_row hmain hdrains hfree hblank hchecks
    rw [hes] at hroom ⊢
    generalize pushedDrain dr errs = x at *
    have hq : dOQ x.d = q := congrArg dOQ hd
    obtain ⟨t, hpush, honly, hentries, hindex⟩ := pushRow_pushes (dr := x) (l := a.val) hpart (by rw [hq]; exact hskip)
      (by rw [drainUntaken, hblank', hblank, Bool.false_and]) (by rw [hq]; exact hside) (by rw [hq]; exact hroom)
    have hpartt : (arrayView t c.val a.val).part.isSome = true := by rw [honly]; exact hpart
    obtain ⟨hnext, hlast⟩ := drains_rowDone hpart hdrains honly hrow hrows
    rw [hq] at hentries hindex
    refine ⟨_, hexec, ?_, ?_, fun hlt => ?_, fun hge => ?_⟩
    · rw [hpush, getEq_rowDone q hpartt]
      exact hentries
    · rw [hpush, getEq_rowDone q hpartt]
      exact hindex
    · obtain ⟨hds, hcnt⟩ := hnext hlt
      rw [hpush, hds, hdrains]
      exact ⟨rfl, rfl, hcnt⟩
    · rw [hpush]
      exact hlast hge
  · -- a row of a slice that was stopped
    have hbytes : nextBytes s c.val dr = blankBytes s dr := nextBytes_of_blank hblank
    obtain ⟨t, hpush, honly, hentries, -⟩ := pushRow_pushes (dr := dr) (l := a.val) hpart hskip htaken
      (fun h => absurd (hidx.symm.trans h) nofun) (by rw [hbytes]; exact hroom)
    have hpartt : (arrayView t c.val a.val).part.isSome = true := by rw [honly]; exact hpart
    refine ⟨_, entriesOfBytes (blankBytes s dr), exec_drainRowPush_blank hmain hdrains hfree hblank, ?_,
      entriesOfBytes_poisoned (blankBytes_poisoned s dr)⟩
    rw [hpush, getEq_rowDone _ hpartt, hentries, hbytes]
  · -- a checksum that does not agree
    exact ⟨_, exec_drainRowPush_mismatch hmain hdrains hfree hblank hexact hchecks, recordFailure_recorded (physOf_lt a.isLt)⟩

end Sys2Proof.Machine
end

section
/-! PROOFS. An addition into an X56 accumulator (R85, R86): the 64 bits it writes hold the exact sum where that fits in 56 bits, and
otherwise the bound of the side it passes, poisoned. -/

namespace Sys2Proof.Machine

open Sys2Proof

variable {a : Acc} {x : Int} {cnt : Nat} {psn : Bool}

/-! ### The value that the bits of an accumulator hold (R85) -/

/-- Only the low bits of a number carry its two's-complement value. -/
theorem toSigned_mod (n v : Nat) : toSigned n (v % 2 ^ n) = toSigned n v := by
  simp only [toSigned, Nat.mod_mod]

/-- The low bits of a bit vector made from an integer are those of the integer. -/
theorem toNat_ofInt_mod {n w : Nat} (h : n ≤ w) (z : Int) : (BitVec.ofInt w z).toNat % 2 ^ n = ofSigned n z := by
  have hw : ((2 ^ w : Nat) : Int) ≠ 0 := mod_cast (Nat.two_pow_pos w).ne'
  have hn : ((2 ^ n : Nat) : Int) ≠ 0 := mod_cast (Nat.two_pow_pos n).ne'
  have hdvd : ((2 ^ n : Nat) : Int) ∣ ((2 ^ w : Nat) : Int) := mod_cast Nat.pow_dvd_pow 2 h
  refine Int.ofNat_inj.1 ?_
  rw [ofSigned, BitVec.toNat_ofInt, Int.natCast_emod, Int.toNat_of_nonneg (Int.emod_nonneg _ hw),
    Int.toNat_of_nonneg (Int.emod_nonneg _ hn), Int.emod_emod_of_dvd _ hdvd]

/-- An integer of 56 bits written into an accumulator is its X56 value. -/
theorem accInt_ofInt {z : Int} (hbits : a.bits = BitVec.ofInt 64 z) (hlo : -(2 ^ 55) ≤ z) (hhi : z < 2 ^ 55) : accInt a = z := by
  rw [accInt, hbits, ← toSigned_mod, toNat_ofInt_mod (by decide), toSigned_ofSigned (by decide) hlo hhi]

/-! ### What an addition writes (R86) -/

/-- An addition whose sum fits writes the sum, and poisons nothing itself. -/
theorem accAddInt_of_fits (hopen : a.blank = false) (hlo : -(2 ^ 55) ≤ accInt a + x) (hhi : accInt a + x < 2 ^ 55) :
    accAddInt a x cnt psn =
      { a with bits := BitVec.ofInt 64 (accInt a + x), psn := a.psn || psn, count := a.count + cnt, blank := false } := by
  have hovf : (decide (accInt a + x < -(2 ^ 55)) || decide (2 ^ 55 - 1 < accInt a + x)) = false := by
    rw [Bool.or_eq_false_iff, decide_eq_false_iff_not, decide_eq_false_iff_not]
    omega
  simp only [accAddInt, hopen, hovf, Bool.false_eq_true, if_false, Bool.or_false]

/-- An addition whose sum does not fit writes the sum clamped to the symmetric range, and poisons the accumulator. -/
theorem accAddInt_of_overflow (hopen : a.blank = false) (hout : accInt a + x < -(2 ^ 55) ∨ 2 ^ 55 ≤ accInt a + x) :
    accAddInt a x cnt psn =
      { a with bits := BitVec.ofInt 64 (clampInt (-(2 ^ 55 - 1)) (2 ^ 55 - 1) (accInt a + x)), psn := true, count := a.count + cnt,
               blank := false } := by
  have hovf : (decide (accInt a + x < -(2 ^ 55)) || decide (2 ^ 55 - 1 < accInt a + x)) = true := by
    rw [Bool.or_eq_true, decide_eq_true_iff, decide_eq_true_iff]
    omega
  simp only [accAddInt, hopen, hovf, Bool.false_eq_true, if_false, if_true, Bool.or_true]

/-- A number below a range is clamped to its lower bound. -/
theorem clampInt_of_lt {lo hi z : Int} (h : z < lo) : clampInt lo hi z = lo := if_pos h

/-- A number above a range is clamped to its upper bound. -/
theorem clampInt_of_gt {lo hi z : Int} (hle : lo ≤ hi) (h : hi < z) : clampInt lo hi z = hi := by
  rw [clampInt, if_neg (by omega), if_pos h]

/-- Settles O16: the sum is written as it is where it fits (accAddInt_of_fits) and clamped with poison where it does not
(accAddInt_of_overflow); either way the number written has 56 bits, so it is the value read back (accInt_ofInt). -/
theorem x56Addition : Obligations.X56Addition := by
  unfold Obligations.X56Addition
  intro a x cnt psn hopen
  refine ⟨fun hlo hhi => ?_, fun habove => ?_, fun hbelow => ?_⟩
  · have hadd := accAddInt_of_fits (cnt := cnt) (psn := psn) hopen hlo hhi
    exact ⟨accInt_ofInt (congrArg Acc.bits hadd) hlo hhi, congrArg Acc.psn hadd⟩
  · have hadd := accAddInt_of_overflow (cnt := cnt) (psn := psn) hopen (.inr habove)
    rw [clampInt_of_gt (by decide) (by omega)] at hadd
    exact ⟨accInt_ofInt (congrArg Acc.bits hadd) (by decide) (by decide), congrArg Acc.psn hadd⟩
  · have hadd := accAddInt_of_overflow (cnt := cnt) (psn := psn) hopen (.inl hbelow)
    rw [clampInt_of_lt (by omega)] at hadd
    exact ⟨accInt_ofInt (congrArg Acc.bits hadd) (by decide) (by decide), congrArg Acc.psn hadd⟩

end Sys2Proof.Machine
end

section
/-! PROOFS. Where control of a cardamom engine goes (R125, R128), and the instructions that leave the memories and the queues alone (R126,
R140, R141). -/

namespace Sys2Proof.Machine

open Sys2Proof

variable {s : State} {c : Fin 20} {e : Fin 8} {op : Nat} {i : Instr}

/-! ### Control (R125, R128) -/

@[simp] theorem loopNext_nil (n : Nat) : loopNext n [] = (n + 1, []) := rfl

theorem loopNext_of_ne {n : Nat} {f : LoopFr} (r : List LoopFr) (h : n ≠ f.stop) : loopNext n (f :: r) = (n + 1, f :: r) := if_neg h

theorem loopNext_again {f : LoopFr} (r : List LoopFr) (h : 1 < f.left) :
    loopNext f.stop (f :: r) = (f.start, { f with left := f.left - 1 } :: r) := by
  rw [loopNext, if_pos rfl, if_pos h]

theorem loopNext_done {f : LoopFr} (r : List LoopFr) (h : f.left ≤ 1) : loopNext f.stop (f :: r) = loopNext f.stop r := by
  rw [loopNext, if_pos rfl, if_neg (Nat.not_lt.2 h)]

theorem engGo_of_le {E : Engine} {n : Nat} (h : (loopNext n E.loops).1 ≤ 63) :
    engGo E n = { E with pc := (loopNext n E.loops).1, loops := (loopNext n E.loops).2 } := if_neg (Nat.not_lt.2 h)

theorem engGo_of_gt {E : Engine} {n : Nat} (h : 63 < (loopNext n E.loops).1) : engGo E n = engEnd E := if_pos h

/-- Control does not look at the checkpoints. -/
theorem engGo_saves (E : Engine) (n : Nat) (l : List EngSave) : engGo { E with saves := l } n = { engGo E n with saves := l } := by
  by_cases h : 63 < (loopNext n E.loops).1
  · simp only [engGo, h, if_true]
    rfl
  · simp only [engGo, h, if_false]

/-! ### Coordinates and deadlines (R126) -/

/-- A register read as a signed number and written back is as it was. -/
theorem ofInt_toSigned (x : Word) : BitVec.ofInt 32 (toSigned 32 x.toNat) = x := by
  have hx : toSigned 32 x.toNat = x.toInt := by
    rw [BitVec.toInt_eq_toNat_cond, toSigned, Nat.mod_eq_of_lt x.isLt]
  rw [hx, BitVec.ofInt_toInt]

theorem ofInt_engX (E : Engine) (a : Nat) : BitVec.ofInt 32 (engX E a) = tabGet 0 E.x a := ofInt_toSigned _

/-- A coordinate register takes the low 32 bits of a sum. -/
theorem setX_engX_add (E : Engine) (a b : Nat) (v : Int) :
    setX E a (engX E b + v) = { E with x := tabSet 0 E.x a (tabGet 0 E.x b + BitVec.ofInt 32 v) } := by
  rw [setX, BitVec.ofInt_add, ofInt_engX]

/-- A deadline register counts cycles from its clove on, up to the last of the fourth. -/
theorem addDl_eq (E : Engine) (n : Nat) : addDl E n =
    { E with dlOff := min (250000 * E.dlOff + E.dlCycle + n) 999999 / 250000
             dlCycle := min (250000 * E.dlOff + E.dlCycle + n) 999999 % 250000 } := by
  simp only [addDl]
  split
  · have hmin : min (250000 * E.dlOff + E.dlCycle + n) 999999 = 999999 := by omega
    rw [hmin]
  · have hmin : min (250000 * E.dlOff + E.dlCycle + n) 999999 = 250000 * E.dlOff + (E.dlCycle + n) := by omega
    rw [hmin, Nat.mul_add_div (by decide), Nat.mul_add_mod]

/-! ### Instructions at an engine -/

/-- A change of an engine is what it makes of the engine that stands there. -/
theorem modEng_congr {c e : Nat} {f g : Engine → Engine} (h : f (getEng s c e) = g (getEng s c e)) : modEng s c e f = modEng s c e g :=
  congrArg (fun E => modClu s c fun cl => { cl with eng := tabSet {} (getClu s c).eng e E }) h

/-- A scalar instruction has its effect, and control goes on (R129). -/
theorem exec_engScalar {f : Engine → Word → Engine} {g : Engine → Engine}
    (hexec : exec i s = inRun s fun s => engScalar s c.val e.val op f) (hat : EngineAt s c e op)
    (hfg : f (getEng s c.val e.val) (engInsn (getEng s c.val e.val)) = g (getEng s c.val e.val)) :
    exec i s = .next (engStep s c e g) := by
  obtain ⟨hmain, hop⟩ := hat
  rw [hexec, inRun_of_mainOn _ hmain, engScalar, if_pos hop, engStep]
  rw [modEng_congr (g := fun E => engGo (g E) E.pc) (by rw [hfg])]

/-- A row that changes its engine at its instruction. -/
theorem exec_modEng {f g : Engine → Engine}
    (hexec : exec i s = inRun s fun s => if engAt s c.val e.val op then modEng s c.val e.val f else s) (hat : EngineAt s c e op)
    (hfg : f (getEng s c.val e.val) = g (getEng s c.val e.val)) : exec i s = .next (modEng s c.val e.val g) := by
  obtain ⟨hmain, hop⟩ := hat
  rw [hexec, inRun_of_mainOn _ hmain, if_pos hop, modEng_congr hfg]

theorem beginLoop_of_pos {E : Engine} {n : Int} (stop : Nat) (h : 0 < n) :
    beginLoop E stop n = { E with loops := { start := E.pc + 1, stop := stop, left := n.toNat } :: E.loops, pc := E.pc + 1 } :=
  if_neg (not_le.2 h)

theorem beginLoop_of_nonpos {E : Engine} {n : Int} (stop : Nat) (h : n ≤ 0) : beginLoop E stop n = engGo E stop := if_pos h

/-! ### SLM (R140, R141) -/

section

variable (hat : EngineAt s c e 15)
include hat

/-- Where the engine does not stop at its SLM, it is saved unless both checkpoints are held. -/
theorem exec_slm_of_running (hstop : (getEng s c.val e.val).stopSlm = false) : exec (.slm c e) s = .next (
    if decide (2 ≤ (getEng s c.val e.val).saves.length) && marksHeld s c.val e.val then s
    else modEng s c.val e.val fun E => saveEngine (if 2 ≤ E.saves.length then { E with saves := E.saves.drop 1 } else E)) := by
  obtain ⟨hmain, hop⟩ := hat
  refine congrArg Host.Outcome.next ((if_pos hmain).trans ?_)
  simp only [hop, hstop, Bool.not_true, Bool.false_eq_true, if_false]

theorem exec_slm_of_stopping (hstop : (getEng s c.val e.val).stopSlm = true) : exec (.slm c e) s = .next (
    if (getEng s c.val e.val).port.isSome then s else stopTaker s c.val e.val) := by
  obtain ⟨hmain, hop⟩ := hat
  refine congrArg Host.Outcome.next ((if_pos hmain).trans ?_)
  simp only [hop, hstop, Bool.not_true, Bool.false_eq_true, if_false, if_true]

end

/-- The checkpoint goes behind those that are kept. -/
theorem saveEngine_eq (E : Engine) (l : List EngSave) : saveEngine { E with saves := l } = { saveEngine E with
    saves := l ++ [{ x := (engGo E E.pc).x, loops := (engGo E E.pc).loops, pc := (engGo E E.pc).pc, plFirst := (engGo E E.pc).plFirst
                     plCount := (engGo E E.pc).plCount, dlOff := (engGo E E.pc).dlOff, dlCycle := (engGo E E.pc).dlCycle
                     pops := (engGo E E.pc).pops
                     early := match E.port with
                       | some P => decide (cardOp P.w = 7) || decide (cardOp P.w = 10)
                       | none => false }] } := by
  simp only [saveEngine, engGo_saves]
  rfl

/-- Settles O8: the scalar instructions by exec_engScalar, with what their arithmetic makes of the registers (setX_engX_add, addDl_eq); the
others by what they do at their instruction; control by the equations of loopNext and engGo. -/
theorem cardScalarsAndControl : Obligations.CardScalarsAndControl := by
  unfold Obligations.CardScalarsAndControl
  refine ⟨fun c e s => ⟨fun hat => exec_engScalar rfl hat rfl, fun hat => exec_engScalar rfl hat (setX_engX_add _ _ _ _),
    fun hat => exec_engScalar rfl hat ?_, fun hat => exec_engScalar rfl hat rfl, fun hat => exec_engScalar rfl hat rfl,
    fun hat => exec_engScalar rfl hat (addDl_eq _ _)⟩, fun c e s => ?_,
    fun _ => rfl, fun _ _ r h => loopNext_of_ne r h, fun _ r h => loopNext_again r h, fun _ r h => loopNext_done r h,
    fun E n h => ?_, fun E n h => ?_⟩
  · -- ADDR
    rw [setX_engX_add, ofInt_engX]
  · -- the instructions of control
    refine ⟨fun ⟨hmain, hop⟩ => congrArg Host.Outcome.next ((if_pos hmain).trans (if_pos hop)),
      fun hat => exec_modEng rfl hat (beginLoop_of_pos _ (by omega)), fun hat hpos => exec_modEng rfl hat (beginLoop_of_pos _ hpos),
      fun hat hle => exec_modEng rfl hat (beginLoop_of_nonpos _ hle), fun hat hstop hroom => ?_,
      fun hat hstop hfull hheld => ?_, fun hat hstop => ⟨fun hport => ?_, fun hport => ?_⟩, fun hat => exec_modEng rfl hat rfl⟩
    · -- SLM that saves
      rw [exec_slm_of_running hat hstop, if_neg]
      · refine congrArg Host.Outcome.next (modEng_congr ?_)
        split
        · exact saveEngine_eq _ _
        · exact saveEngine_eq _ _
      · obtain hfew | hfree := hroom
        · simp [Nat.not_le.2 hfew]
        · simp [hfree]
    · -- SLM whose checkpoints are held
      rw [exec_slm_of_running hat hstop, if_pos]
      simp [hfull, hheld]
    · -- SLM that waits for the port
      rw [exec_slm_of_stopping hat hstop, if_pos hport]
    · -- SLM at which the engine stops
      rw [exec_slm_of_stopping hat hstop, hport]
      rfl
  · -- control within the program
    rw [engGo_of_le h]
    exact ⟨rfl, rfl, rfl, rfl⟩
  · -- control past the end of the program
    rw [engGo_of_gt h]
    rfl

end Sys2Proof.Machine
end

section
/-! PROOFS. The cardamom writes (R124, R129, R137). The statement asks nothing of page-table entries that are not valid. A granule behind one
that names a fabric target is none of those that R129 keeps for the end of the instruction (farGranule asks a valid entry), so its stores
are issued with the queue entry that gives its bytes, and take room that the check at the end counts once more. -/

namespace Sys2Proof.Machine

open Sys2Proof

/-- Two bytes in virtual memory, the last granule of page 0 and the first of page 1 holding one each. -/
def splitTensor : List Word := [0x0101, 0x1FFFC0, 0, 0, 0, 0x10000000, 0, 0, 2, 0, 0, 0, 0, 0, 64]

/-- What WR of 65 elements from coordinate -63 on reads as it takes the port: only its last two elements lie in the tensor. -/
def splitWrite : EngPort :=
  { w := 0x1C000040, xs := -63 :: List.replicate 15 0, plFirst := 0, plCount := 8, dlOff := 0, dlCycle := 249999, replay := none
    mark := false, done := 0, posted := false, part := [] }

/-- A store of 1,024 bytes in the retransmit store. -/
def keptStore : FabOut := mkOut (mkReq State.reset 0 1 0 false 0 1024 (List.replicate 1024 0) false) 0 0 1 0 0 false

/-- An engine of partition 0 stands at the WR, with a granule of data in each of the two entries of queue 0. Pages 0 and 1 name fabric
targets, but the entry of page 0 is not valid. The retransmit store has room for 16 requests of a line. -/
def invalidPageWrite : State := { State.reset with
  pwr := { porN := true, pwrOk := true, clu := [(0, { point := 0 })] }
  time := { State.reset.time with cloveRun := true }
  parts := [(0, {
    live := true, pt := [(0, { kind := 1 }), (1, { v := true, kind := 1 })], descs := [(0, { live := true, img := splitTensor })] })]
  clusters := [(0, {
    eng := [(0, { run := true, prog := [0x1C000040], qslot := [(0, 0x80000000)], x := [(0, BitVec.ofInt 32 (-63))] })]
    eq := [(0, { en := true, entries := List.replicate 2 { gr := [{ pad := false }], mark := false } })] })]
  fab := { State.reset.fab with outst := List.replicate 4095 keptStore } }

/-- The WR takes the port, its data lie in the queue, and there is room for the stores of its two granules, as eight words each. -/
theorem write_ready_invalidPageWrite : let s := invalidPageWrite
    let E := getEng s 0 0
    let tn := portTensor s E splitWrite
    let Q := getEq (getClu s 0) (portQueue E splitWrite)
    (E.port = none ∧ mainOn s = true ∧ engAt s 0 0 7 = true ∧ (takePort E).port = some splitWrite) ∧
    (E.stopSlm = false ∧ Q.en = true ∧ (Q.idx && !splitWrite.posted) = false ∧ headGrans Q 1 0 ≠ [] ∧
      (∀ x ∈ Q.entries, x.gr.any (fun g => !g.pad) = true) ∧
      portNeed tn splitWrite - splitWrite.done = 2 ∧
      takeGrans 2 Q.entries Q.taken = some (List.replicate 2 { pad := false }, [], 0, false)) ∧
    ((getPart s E.part).noticeOpen = false ∧
      storeRoomFor s (8 * (portItems tn splitWrite 0 (List.replicate 2 { pad := false })).1.length) = true) ∧
    tabWf {} s.clusters = true ∧ pmemWf (getClu s (tCluster tn)).sram = true ∧ (getClu s (tCluster tn)).fence = [] := by
  decide +kernel

/-- The store to page 0 goes out with the first queue entry. With the second there is room for 15 requests only, so the WR waits and holds
the port. -/
theorem port_wr_invalidPageWrite : ∀ t, exec (.wr 0 0) invalidPageWrite = .next t → (getEng t 0 0).port.isSome = true := by
  intro t ht
  obtain rfl := Host.Outcome.next.inj ht
  decide +kernel

/-- Refutes O10: in invalidPageWrite, where a page-table entry that is not valid names a fabric target, the WR has the room that the
statement asks, and still cannot end in the step; the statement says that it gives up the port. -/
theorem not_cardWrites : ¬ Obligations.CardWrites := by
  unfold Obligations.CardWrites
  intro h
  obtain ⟨⟨hport, hmain, hat, htake⟩, ⟨hstop, hen, hidx, hhead, hentries, hneed, hgrans⟩, hroom, hclusters, hsram, hfence⟩ :=
    write_ready_invalidPageWrite
  obtain ⟨hwr, -⟩ := h 0 0 invalidPageWrite
  obtain ⟨t, ht, -, hfree, -⟩ := hwr splitWrite (.inr ⟨hport, ⟨hmain, hat⟩, htake⟩)
    (List.replicate 2 { pad := false }) [] 0 false hstop hen
    (fun hposts => absurd (hidx.symm.trans hposts) nofun) hhead hentries (hneed ▸ hgrans) hneed.symm (Nat.two_pos.trans_eq hneed.symm)
    (fun x hx => absurd (hfence ▸ hx) List.not_mem_nil) (.inr hroom) hclusters hsram
  exact absurd ((congrArg Option.isSome hfree).symm.trans (port_wr_invalidPageWrite t ht)) nofun

end Sys2Proof.Machine
end

section
/-! PROOFS. Granules of a memory, and the entry that a queue keeps in its storage (R132, log entry 8). -/

namespace Sys2Proof.Machine

open Sys2Proof

/-! ### Granules -/

theorem length_leBytes (n v : Nat) : (leBytes n v).length = n := by
  induction n generalizing v with
  | zero => rfl
  | succ n ih => rw [leBytes, List.length_cons, ih]

/-- The low bytes of a number spell what is left of it. -/
theorem ofLe_leBytes (n v : Nat) : ofLe (leBytes n v) = v % 256 ^ n := by
  induction n generalizing v with
  | zero => simp [leBytes, ofLe, Nat.mod_one]
  | succ n ih =>
    rw [leBytes, ofLe, ih, BitVec.toNat_ofNat, show 256 ^ (n + 1) = 256 * 256 ^ n from Nat.pow_succ']
    exact Nat.mod_mul.symm

/-- The bytes of a bit vector spell it. -/
theorem ofNat_ofLe_leBytes {n : Nat} (d : BitVec (8 * n)) : BitVec.ofNat (8 * n) (ofLe (leBytes n d.toNat)) = d := by
  have hlt : d.toNat < 256 ^ n := by
    have := d.isLt
    rwa [Nat.pow_mul] at this
  rw [ofLe_leBytes, Nat.mod_eq_of_lt hlt, BitVec.ofNat_toNat, BitVec.setWidth_eq]

/-- Bytes that read alike in two memories read alike together. -/
theorem rdBytes_congr {m m' : Mem} {a n : Nat} (h : ∀ i, i < n → rdByte m (a + i) = rdByte m' (a + i)) : rdBytes m a n = rdBytes m' a n := by
  induction n generalizing a with
  | zero => rfl
  | succ n ih =>
    have hrest : rdBytes m (a + 1) n = rdBytes m' (a + 1) n := ih fun i hi => by
      simpa [Nat.add_assoc, Nat.add_comm 1 i] using h (i + 1) (by omega)
    rw [rdBytes, rdBytes, hrest, show rdByte m a = rdByte m' a from h 0 (by omega)]

theorem granData_congr {m m' : PMem} {g : Nat} (h : ∀ a, a / 64 = g → rdByte m.mem a = rdByte m'.mem a) : granData m g = granData m' g := by
  rw [granData, granData, rdBytes_congr fun i hi => h (64 * g + i) (by omega)]

/-- A granule that is written whole reads back from canonical memory. -/
theorem granData_putGran {m : PMem} (g : Nat) (d : GranuleBits) (p : Bool) (hm : pmemWf m = true) : granData (putGran m g d p) g = d := by
  obtain ⟨hmem, -⟩ := (pmemWf_iff m).1 hm
  have hbytes : rdBytes (wrBytes m.mem (64 * g) (leBytes 64 d.toNat)) (64 * g) 64 = leBytes 64 d.toNat := by
    have := rdBytes_wrBytes (64 * g) (leBytes 64 d.toNat) hmem
    rwa [length_leBytes] at this
  rw [granData, putGran, hbytes]
  exact ofNat_ofLe_leBytes (n := 64) d

/-- Bytes of other granules stay. -/
theorem rdByte_putGran_other (m : PMem) {g a : Nat} (d : GranuleBits) (p : Bool) (h : a / 64 ≠ g) :
    rdByte (putGran m g d p).mem a = rdByte m.mem a := by
  have hout : a < 64 * g ∨ 64 * g + (leBytes 64 d.toNat).length ≤ a := by
    rw [length_leBytes]
    omega
  simp only [putGran]
  exact rdByte_wrBytes_other m.mem (leBytes 64 d.toNat) hout

/-! ### An entry in its slot -/

/-- Granules stored one behind another from granule b on, padding left out. -/
def storeGrans (m : PMem) (b : Nat) : List Gran → PMem
  | [] => m
  | g :: gs => storeGrans (if g.pad then m else putGran m b g.data (g.psn || g.erased)) (b + 1) gs

theorem storeEntry_eq (m : PMem) (a : Nat) (e : Entry) : storeEntry m a e = storeGrans m (a / 64) e.gr := by
  unfold storeEntry
  generalize a / 64 = b
  induction e.gr generalizing m b with
  | nil => rfl
  | cons g gs ih =>
    have hrest : gs.mapIdx (fun i g => (i + 1, g)) = (gs.mapIdx fun i g => (i, g)).map fun x => (x.1 + 1, x.2) := by
      refine List.ext_getElem? fun i => ?_
      simp only [List.getElem?_mapIdx, List.getElem?_map, Option.map_map]
      rfl
    rw [List.mapIdx_cons, List.foldl_cons, hrest, List.foldl_map, storeGrans, ← ih]
    simp only [Nat.add_zero, Nat.add_assoc, Nat.add_comm 1]

theorem pmemWf_storeFirst {m : PMem} (b : Nat) (g : Gran) (hm : pmemWf m = true) :
    pmemWf (if g.pad then m else putGran m b g.data (g.psn || g.erased)) = true := by
  split
  · exact hm
  · exact pmemWf_putGran _ _ _ hm

/-- Bytes that no granule covers stay. -/
theorem rdByte_storeGrans_other (m : PMem) {b a : Nat} {gs : List Gran}
    (h : ∀ i g, gs[i]? = some g → g.pad = false → a / 64 ≠ b + i) : rdByte (storeGrans m b gs).mem a = rdByte m.mem a := by
  induction gs generalizing m b with
  | nil => rfl
  | cons g gs ih =>
    rw [storeGrans, ih _ fun i x hx hpad => by have := h (i + 1) x hx hpad; omega]
    split
    · rfl
    · exact rdByte_putGran_other m _ _ (h 0 g rfl (by simpa using ‹¬g.pad = true›))

/-- Every granule but padding reads back. -/
theorem granData_storeGrans {m : PMem} {b : Nat} {gs : List Gran} (hm : pmemWf m = true) {i : Nat} {g : Gran} (hg : gs[i]? = some g)
    (hpad : g.pad = false) : granData (storeGrans m b gs) (b + i) = g.data := by
  induction gs generalizing m b i with
  | nil => simp at hg
  | cons x gs ih =>
    cases i with
    | zero =>
      obtain rfl : x = g := Option.some.inj hg
      have hfirst : granData (storeGrans (putGran m b x.data (x.psn || x.erased)) (b + 1) gs) b =
          granData (putGran m b x.data (x.psn || x.erased)) b :=
        granData_congr fun a ha => rdByte_storeGrans_other _ fun j _ _ _ => by omega
      rw [Nat.add_zero, storeGrans, hpad, if_neg Bool.false_ne_true, hfirst, granData_putGran _ _ _ hm]
    | succ i =>
      rw [storeGrans, ← Nat.add_assoc, Nat.add_right_comm]
      exact ih (pmemWf_storeFirst b x hm) hg

end Sys2Proof.Machine
end

section
/-! PROOFS. Entries that arrive (R130, R132, R138) and the erased entry of a real-time queue (R138). -/

namespace Sys2Proof.Machine

open Sys2Proof

variable {s : State} {c q : Nat}

/-! ### Queues of a cluster -/

/-- A cluster of a canonical table reads back. -/
theorem getClu_modClu_wf (f : Cluster → Cluster) (h : tabWf {} s.clusters = true) : getClu (modClu s c f) c = f (getClu s c) :=
  tabGet_tabSet_wf ({} : Cluster) h c _

/-- A cluster with a queue that is not as at reset reads back. -/
theorem getClu_modClu_eq {f : Cluster → Cluster} (h : getEq (f (getClu s c)) q ≠ {}) : getClu (modClu s c f) c = f (getClu s c) :=
  getClu_modClu_self s c f fun heq => h (by rw [heq, getEq_default])

theorem getClu_modEq {f : Eq → Eq} (h : f (getEq (getClu s c) q) ≠ {}) :
    getClu (modEq s c q f) c = { getClu s c with eq := tabMod {} (getClu s c).eq q f } :=
  getClu_modClu_eq (q := q) ((tabGet_tabMod_self ({} : Eq) _ q f h).trans_ne h)

theorem getEq_modEq {f : Eq → Eq} (h : f (getEq (getClu s c) q) ≠ {}) : getEq (getClu (modEq s c q f) c) q = f (getEq (getClu s c) q) := by
  rw [getClu_modEq h]
  exact tabGet_tabMod_self _ _ _ _ h

/-- A queue with an entry pushed (R132). -/
def pushedEq (en : Entry) (Q : Eq) : Eq := { Q with entries := Q.entries ++ [en], tail := (Q.tail + 1) % 64 }

theorem pushedEq_ne (en : Entry) (Q : Eq) : pushedEq en Q ≠ {} := fun h =>
  List.append_ne_nil_of_right_ne_nil _ (List.cons_ne_nil _ _) (congrArg Eq.entries h)

theorem getClu_pushQ (en : Entry) : getClu (pushQ s c q en) c = { getClu s c with
    sram := storeEntry (getClu s c).sram (slotAddr (getEq (getClu s c) q)) en
    eq := tabMod {} (getClu s c).eq q (pushedEq en) } :=
  getClu_modClu_eq (q := q) ((tabGet_tabMod_self ({} : Eq) _ q (pushedEq en) (pushedEq_ne en _)).trans_ne (pushedEq_ne en _))

/-- A pushed entry stands in its queue, and some of the queue's other fields change with it. -/
theorem getClu_modEq_pushQ (en : Entry) {f : Eq → Eq} (hf : ∀ Q, (f Q).entries = Q.entries) :
    getClu (modEq (pushQ s c q en) c q f) c = { getClu s c with
      sram := storeEntry (getClu s c).sram (slotAddr (getEq (getClu s c) q)) en
      eq := tabMod {} (tabMod {} (getClu s c).eq q (pushedEq en)) q f } ∧
    getEq (getClu (modEq (pushQ s c q en) c q f) c) q = f (pushedEq en (getEq (getClu s c) q)) := by
  have hQ : getEq (getClu (pushQ s c q en) c) q = pushedEq en (getEq (getClu s c) q) := by
    rw [getClu_pushQ]
    exact tabGet_tabMod_self _ _ _ _ (pushedEq_ne en _)
  have hne : f (getEq (getClu (pushQ s c q en) c) q) ≠ {} := fun h => by
    have hentries := (hf _).symm.trans (congrArg Eq.entries h)
    rw [hQ] at hentries
    exact List.append_ne_nil_of_right_ne_nil _ (List.cons_ne_nil _ _) hentries
  exact ⟨by rw [getClu_modEq hne, getClu_pushQ], by rw [getEq_modEq hne, hQ]⟩

/-! ### An entry that arrives -/

theorem clusters_checkUnmap (s : State) (p : Nat) : (checkUnmap s p).clusters = s.clusters := by
  unfold checkUnmap
  split
  · rfl
  · exact clusters_completeWait _ _ _

/-- The oldest entry in flight for a queue is no longer in flight (R130, R326). -/
def landed (s : State) (c e q : Nat) : State :=
  checkUnmap (modEng s c e fun E => { E with flight := dropFlight q E.flight }) (getEng s c e).part

/-- Of its cluster, only the engine is another. -/
theorem getClu_landed (e : Nat) (h : tabWf {} s.clusters = true) : getClu (landed s c e q) c = { getClu s c with
    eng := tabMod {} (getClu s c).eng e fun E => { E with flight := dropFlight q E.flight } } := by
  have hclusters : (landed s c e q).clusters = _ := clusters_checkUnmap _ _
  rw [getClu, hclusters]
  exact getClu_modClu_wf _ h

section

variable {c : Fin 20} {e : Fin 8} {q : Fin 64} {res : Arrival} {f : Flight} {en : Entry} (hmain : mainOn s = true)
  (hfind : (getEng s c.val e.val).flight.find? (fun f => decide (f.q = q.val)) = some f) (harrive : arriveEntry f res = some en)
include hmain hfind harrive

/-- What an entry that has come does, by the queue's SKIP and its room. -/
theorem exec_cardEntryComplete : exec (.cardEntryComplete c e q res) s = .next (
    if (getEq (getClu s c.val) q.val).rt && decide (0 < (getEq (getClu s c.val) q.val).skip) then
      modEq (landed s c.val e.val q.val) c.val q.val fun Q => { Q with skip := Q.skip - 1, late := satInc 8 Q.late 1 }
    else if 64 ≤ (getEq (getClu s c.val) q.val).entries.length then s
    else modEq (pushQ (landed s c.val e.val q.val) c.val q.val en) c.val q.val fun Q => { Q with waitFrom := none }) := by
  refine congrArg Host.Outcome.next ((if_pos hmain).trans ?_)
  simp only [hfind, harrive]
  rfl

end

/-! ### Substitution (R138) -/

/-- The erased entry that stands for the next one: the shape of the oldest entry in flight that SKIP does not cover, or eight granules. -/
def erasedEntry (head : Option Flight) : Entry :=
  let shape : Entry := match head with
    | some f => f.entry
    | none => { gr := List.replicate 8 { pad := false }, mark := false }
  { shape with gr := shape.gr.map fun g => { data := 0, psn := false, pad := g.pad, erased := true } }

theorem length_erasedEntry (head : Option Flight) : (erasedEntry head).gr.length = (match head with
    | some f => f.entry.gr.length
    | none => 8) := by
  cases head <;> simp [erasedEntry]

theorem erasedEntry_erased (head : Option Flight) : ∀ g ∈ (erasedEntry head).gr, g.data = 0 ∧ g.psn = false ∧ g.erased = true := by
  intro g hg
  obtain ⟨x, -, rfl⟩ := List.mem_map.1 hg
  exact ⟨rfl, rfl, rfl⟩

/-- The oldest entry in flight for a queue that SKIP does not cover. -/
def uncovered (s : State) (c q : Nat) : Option Flight := ((queueFlights s c q).drop (getEq (getClu s c) q).skip).head?

/-- The clove from which the consumer of a queue waits. -/
def waitsFrom (s : State) (c q : Nat) : Nat := (getEq (getClu s c) q).waitFrom.getD s.time.clove

/-- The consumer of a queue has waited as long as it may. -/
def subOverdue (s : State) (c q : Nat) : Bool := match uncovered s c q with
  | some f => dlReached s f.dlClove f.dlCycle
  | none => dlReached s (waitsFrom s c q) 249999

/-- A queue's counters after a substitution. -/
def countedSub (Q : Eq) : Eq :=
  { Q with skip := satInc 32 Q.skip 1, miss := satInc 8 Q.miss 1, subs := Q.subs + 1, waitFrom := none }

/-- The substitution, with its count in HEALTH. -/
def substituted (s : State) (c q : Nat) : State :=
  let t := modEq (pushQ s c q (erasedEntry (uncovered s c q))) c q countedSub
  { t with health := { t.health with misses := satInc 32 t.health.misses 1 } }

theorem exec_rtSubstitute (c : Fin 20) (q : Fin 64) (hmain : mainOn s = true) : exec (.rtSubstitute c q) s = .next (
    if !(getEq (getClu s c.val) q.val).en || !(getEq (getClu s c.val) q.val).rt || !(getEq (getClu s c.val) q.val).entries.isEmpty ||
      !queueWanted s c.val q.val then s
    else if !subOverdue s c.val q.val then modEq s c.val q.val fun Q => { Q with waitFrom := some (waitsFrom s c.val q.val) }
    else substituted s c.val q.val) :=
  congrArg Host.Outcome.next ((if_pos hmain).trans rfl)

section

variable {c : Fin 20} {q : Fin 64} (hmain : mainOn s = true)
include hmain

theorem exec_rtSubstitute_idle (h : (getEq (getClu s c.val) q.val).en = false ∨ (getEq (getClu s c.val) q.val).rt = false ∨
    (getEq (getClu s c.val) q.val).entries ≠ [] ∨ queueWanted s c.val q.val = false) : exec (.rtSubstitute c q) s = .next s := by
  rw [exec_rtSubstitute c q hmain, if_pos]
  simpa [or_assoc] using h

variable (hen : (getEq (getClu s c.val) q.val).en = true) (hrt : (getEq (getClu s c.val) q.val).rt = true)
  (hempty : (getEq (getClu s c.val) q.val).entries = []) (hwanted : queueWanted s c.val q.val = true)
include hen hrt hempty hwanted

theorem exec_rtSubstitute_early (hdue : subOverdue s c.val q.val = false) : exec (.rtSubstitute c q) s =
    .next (modEq s c.val q.val fun Q => { Q with waitFrom := some (waitsFrom s c.val q.val) }) := by
  rw [exec_rtSubstitute c q hmain, if_neg (by simp [hen, hrt, hempty, hwanted]), if_pos (by simp [hdue])]

theorem exec_rtSubstitute_due (hdue : subOverdue s c.val q.val = true) :
    exec (.rtSubstitute c q) s = .next (substituted s c.val q.val) := by
  rw [exec_rtSubstitute c q hmain, if_neg (by simp [hen, hrt, hempty, hwanted]), if_neg (by simp [hdue])]

end

/-- The erased entry is all that the queue holds, and the substitution is counted. -/
theorem getEq_substituted (hempty : (getEq (getClu s c) q).entries = []) : getEq (getClu (substituted s c q) c) q =
    countedSub { getEq (getClu s c) q with
      entries := [erasedEntry (uncovered s c q)], tail := ((getEq (getClu s c) q).tail + 1) % 64 } := by
  obtain ⟨-, hQ⟩ := getClu_modEq_pushQ (s := s) (c := c) (q := q) (erasedEntry (uncovered s c q)) (f := countedSub) fun _ => rfl
  refine hQ.trans ?_
  rw [pushedEq, hempty, List.nil_append]

/-- Settles O11: what an entry does that arrives is said once (exec_cardEntryComplete), and what a substitution does (exec_rtSubstitute);
both push with getClu_modEq_pushQ, and the granules stored read back (granData_storeGrans). -/
theorem cardEntries : Obligations.CardEntries := by
  unfold Obligations.CardEntries
  refine ⟨fun c e q res s f en hmain hclusters heng hfind harrive => ?_, fun c q s hmain => ?_⟩
  · have hexec := exec_cardEntryComplete hmain hfind harrive
    refine ⟨fun hkeep hroom hsram => ?_, fun hkeep hfull => ?_, fun hrt hskip => ?_⟩
    · -- it is pushed
      have hclu := getClu_landed (q := q.val) e.val hclusters (c := c.val)
      obtain ⟨hpush, hQ⟩ := getClu_modEq_pushQ (s := landed s c.val e.val q.val) (c := c.val) (q := q.val) en
        (f := fun Q => { Q with waitFrom := none }) fun _ => rfl
      rw [if_neg (by simpa [or_iff_not_imp_left] using hkeep), if_neg (Nat.not_le.2 hroom)] at hexec
      rw [hclu] at hpush hQ
      refine ⟨_, hexec, ?_, hQ, fun i g hg hpad => ?_, fun a ha => ?_⟩
      · rw [getEng, hpush]
        exact congrArg Engine.flight (tabGet_tabSet_wf ({} : Engine) heng _ _)
      · rw [hpush, storeEntry_eq]
        exact granData_storeGrans hsram hg hpad
      · rw [hpush, storeEntry_eq]
        exact rdByte_storeGrans_other _ ha
    · -- it waits for room
      rw [hexec, if_neg (by simpa [or_iff_not_imp_left] using hkeep), if_pos hfull]
    · -- it is discarded against SKIP
      rw [hexec, if_pos (by simp [hrt, hskip])]
      rfl
  · refine ⟨fun hen hrt hempty hwanted => ⟨fun hdue => ?_, fun hdue => ?_⟩, fun hidle => exec_rtSubstitute_idle hmain hidle⟩
    · exact exec_rtSubstitute_early hmain hen hrt hempty hwanted hdue
    · exact ⟨_, _, exec_rtSubstitute_due hmain hen hrt hempty hwanted hdue, length_erasedEntry _, erasedEntry_erased _,
        getEq_substituted hempty, rfl⟩

end Sys2Proof.Machine
end

section
/-! PROOFS. Reports (R344, R366, R368, R379): what a record of a ring changes, and what a firmware command does around its effect (R366,
R369, R375). -/

namespace Sys2Proof.Machine

open Sys2Proof

variable {s t u : State}

/-! ### States alike but for reports -/

/-- A state with the reports of another. -/
def withReports (s t : State) : State :=
  { t with rings := s.rings, host := s.host, out := s.out, parts := s.parts, flagsAt := s.flagsAt }

/-- A partition but for the flag of its dirty log that a report may set. -/
def partCore (s : State) (p : Nat) : Part := { getPart s p with dirtyOver := false }

theorem onlyReports_iff : OnlyReports s t ↔ withReports s t = s ∧ ∀ p, partCore t p = partCore s p := Iff.rfl

theorem OnlyReports.refl (s : State) : OnlyReports s s := ⟨rfl, fun _ => rfl⟩

theorem OnlyReports.trans (h : OnlyReports s t) (k : OnlyReports t u) : OnlyReports s u := by
  obtain ⟨hfields, hparts⟩ := onlyReports_iff.1 h
  obtain ⟨kfields, kparts⟩ := onlyReports_iff.1 k
  exact ⟨(congrArg (withReports s) kfields).trans hfields, fun p => (kparts p).trans (hparts p)⟩

/-- A change of reports that leaves the partitions. -/
theorem onlyReports_of_parts (hfields : withReports s t = s) (hparts : t.parts = s.parts) : OnlyReports s t :=
  onlyReports_iff.2 ⟨hfields, fun p => by rw [partCore, partCore, getPart, getPart, hparts]⟩

theorem onlyReports_foldl {β : Type} {f : State → β → State} (xs : List β) (hf : ∀ t x, OnlyReports t (f t x)) :
    OnlyReports s (xs.foldl f s) :=
  List.foldlRecOn (motive := OnlyReports s) xs f (.refl s) fun t ht x _ => ht.trans (hf t x)

theorem onlyReports_ite {c : Prop} [Decidable c] (ht : OnlyReports s t) (hu : OnlyReports s u) : OnlyReports s (if c then t else u) := by
  split <;> assumption

theorem onlyReports_modRing (s : State) (k : Nat) (f : Ring → Ring) : OnlyReports s (modRing s k f) := onlyReports_of_parts rfl rfl

theorem onlyReports_emit (s : State) (o : Out) : OnlyReports s (emit s o) := onlyReports_of_parts rfl rfl

theorem onlyReports_hostWrite (s : State) (port a : Nat) (bs : List Byte) : OnlyReports s (hostWrite s port a bs) :=
  onlyReports_ite (onlyReports_of_parts rfl rfl) (.refl s)

/-- The flag of a dirty log that is exceeded is no other report's. -/
theorem onlyReports_setDirtyOver (s : State) (p : Nat) : OnlyReports s (modPart s p fun P => { P with dirtyOver := true }) := by
  refine onlyReports_iff.2 ⟨rfl, fun q => ?_⟩
  by_cases hq : p = q
  · subst hq
    rw [partCore, getPart_modPart_self _ _ _ fun h => Bool.noConfusion (congrArg Part.dirtyOver h)]
    rfl
  · rw [partCore, getPart_modPart_other _ _ hq, partCore]

theorem onlyReports_logDirty (s : State) (p a n : Nat) : OnlyReports s (logDirty s p a n) := by
  refine onlyReports_ite (onlyReports_foldl _ fun t g => onlyReports_ite (onlyReports_of_parts rfl rfl) ?_) (.refl s)
  exact (onlyReports_setDirtyOver t p).trans (onlyReports_of_parts rfl rfl)

theorem onlyReports_hostWriteFor (s : State) (p a : Nat) (bs : List Byte) : OnlyReports s (hostWriteFor s p a bs) :=
  onlyReports_ite ((onlyReports_logDirty s _ _ _).trans (onlyReports_hostWrite _ _ _ _)) (.refl s)

/-! ### Records, events and completions -/

theorem onlyReports_writeRec (s : State) (k : Nat) (h : Held) : OnlyReports s (writeRec s k h) := by
  unfold writeRec
  extract_lets r a bs s1 s2
  have h1 : OnlyReports s s1 := onlyReports_ite (onlyReports_hostWrite _ _ _ _) (onlyReports_hostWriteFor _ _ _ _)
  have h2 : OnlyReports s s2 := h1.trans (onlyReports_modRing _ _ _)
  exact onlyReports_ite (h2.trans (onlyReports_emit _ _)) h2

theorem onlyReports_flushHeld (s : State) (k : Nat) (hs : List Held) : OnlyReports s (flushHeld s k hs) := by
  induction hs generalizing s with
  | nil => exact onlyReports_modRing _ _ _
  | cons h t ih =>
    exact onlyReports_ite (onlyReports_modRing _ _ _) (onlyReports_ite ((onlyReports_writeRec s k h).trans (ih _))
      (onlyReports_ite ((onlyReports_modRing _ _ _).trans (ih _)) (onlyReports_modRing _ _ _)))

theorem onlyReports_deliver (s : State) (k : Nat) (h : Held) : OnlyReports s (deliver s k h) :=
  onlyReports_ite (onlyReports_modRing _ _ _) (onlyReports_flushHeld _ _ _)

theorem onlyReports_evPool (s : State) (code : Nat) (items : List (Nat × Nat)) : OnlyReports s (evPool s code items) :=
  onlyReports_deliver _ _ _

theorem onlyReports_evPart (s : State) (p code : Nat) (items : List (Nat × Nat)) : OnlyReports s (evPart s p code items) :=
  onlyReports_ite (onlyReports_deliver _ _ _) (.refl s)

theorem onlyReports_complete (s : State) (h : CmdHead) (status : Nat) (res : List Word) : OnlyReports s (complete s h status res) :=
  onlyReports_deliver _ _ _

/-! ### Firmware commands -/

theorem onlyReports_startCmd (s : State) (r : RingId) : OnlyReports s (startCmd s r) := onlyReports_modRing _ _ _

theorem onlyReports_sweepUnknown (s : State) (r : RingId) (n : Nat) : OnlyReports s (sweepUnknown s r n) := by
  induction n generalizing s with
  | zero => exact .refl s
  | succ n ih =>
    unfold sweepUnknown
    split
    · exact .refl s
    · exact onlyReports_ite (((onlyReports_startCmd s r).trans (onlyReports_complete _ _ _ _)).trans (ih _)) (.refl s)

variable {r : RingId} {op : Nat} {k : Pkt} {errRes : List Word} {errs : State → List Nat} {act : State → Fw} {i : Instr}

/-- The checks that every command shares do not look at the ring's packets. -/
theorem genericErrs_startCmd : genericErrs (startCmd s r) r op k = genericErrs s r op k := rfl

/-- A command that may start: its effect where its own checks pass, else the completion that says what failed. -/
def answered (s : State) (r : RingId) (op : Nat) (k : Pkt) (errRes : List Word) (errs : State → List Nat) (act : State → Fw) : State :=
  let s := startCmd s r
  if errs s = [] then settle (headOf r op k) (act s) else complete s (headOf r op k) (lowest (errs s)) errRes

theorem fwRun_of_ready (hready : FwReady s r op k) : fwRun s r op k errRes errs act =
    sweepUnknown (answered s r op k errRes errs act) r (getRing (answered s r op k errRes errs act) (ringKey r)).fetched.length := by
  obtain ⟨-, hring, hboot, hstart, hgeneric⟩ := hready
  simp [fwRun, answered, hring, hboot, hstart, genericErrs_startCmd, hgeneric]

theorem exec_fwRun (hexec : exec i s = inRun s fun s => fwRun s r op k errRes errs act) (hready : FwReady s r op k) :
    ∃ t, exec i s = .next t ∧ OnlyReports (answered s r op k errRes errs act) t :=
  ⟨_, hexec.trans ((inRun_of_mainOn _ hready.1).trans (congrArg _ (fwRun_of_ready hready))), onlyReports_sweepUnknown _ _ _⟩

/-- A command whose checks pass has its effect, and the rest are reports. -/
theorem exec_fwRun_of_ok (hexec : exec i s = inRun s fun s => fwRun s r op k errRes errs act) (hready : FwReady s r op k)
    (hok : errs (startCmd s r) = []) : ∃ t, exec i s = .next t ∧ OnlyReports (settle (headOf r op k) (act (startCmd s r))) t := by
  obtain ⟨t, ht, honly⟩ := exec_fwRun hexec hready
  rw [answered, if_pos hok] at honly
  exact ⟨t, ht, honly⟩

/-- A command whose checks fail only reports. -/
theorem answers_of_failed (hexec : exec i s = inRun s fun s => fwRun s r op k errRes errs act) (hready : FwReady s r op k)
    (hbad : errs (startCmd s r) ≠ []) : Answers i s s := by
  obtain ⟨t, ht, honly⟩ := exec_fwRun hexec hready
  rw [answered, if_neg hbad] at honly
  exact ⟨t, ht, ((onlyReports_startCmd s r).trans (onlyReports_complete _ _ _ _)).trans honly⟩

/-- A command whose checks pass and whose effect is complete. -/
theorem exec_done (hexec : exec i s = inRun s fun s => fwRun s r op k errRes errs act) (hready : FwReady s r op k)
    (hok : errs (startCmd s r) = []) {status : Nat} {res : List Word} (hact : act (startCmd s r) = .done u status res) :
    ∃ t, exec i s = .next t ∧ OnlyReports u t := by
  obtain ⟨t, ht, honly⟩ := exec_fwRun_of_ok hexec hready hok
  rw [hact] at honly
  exact ⟨t, ht, (onlyReports_complete u _ _ _).trans honly⟩

/-- A partition ring's command is of a partition that is live. -/
theorem live_of_fwReady (hready : FwReady s r op k) (hpart : (opInfo op).map OpInfo.onPool = some false) :
    (getPart s (ringP r)).live = true := by
  obtain ⟨-, hring, -, -, hgeneric⟩ := hready
  obtain ⟨info, hinfo, hpool⟩ := Option.map_eq_some_iff.1 hpart
  cases r with
  | pool =>
    have hdenied := (errsOf_eq_nil_iff _).1 hgeneric _ (.tail _ (.tail _ (.tail _ (.tail _ (.tail _ (.head _))))))
    simp [ringOwner, hinfo, hpool] at hdenied
  | poolEv => exact nomatch hring
  | part p i => exact (Bool.and_eq_true_iff.1 hring).1
  | partEv p => exact nomatch hring

end Sys2Proof.Machine
end

section
/-! PROOFS. O26: page maps (R325, R326), descriptors (R113, R114), and the loading of engines and contexts (R125, R131, R167). -/

namespace Sys2Proof.Machine

open Sys2Proof

variable {s t : State} {p : Nat} {r : RingId} {k : Pkt}

/-! ### Tables -/

theorem tabGet_tabKeep {α : Type} (d : α) (keep : Nat → Bool) (t : Tab α) (i : Nat) :
    tabGet d (tabKeep keep t) i = if keep i then tabGet d t i else d := by
  induction t with
  | nil => exact (ite_self d).symm
  | cons x t ih =>
    obtain ⟨j, v⟩ := x
    unfold tabKeep at ih ⊢
    by_cases hj : keep j = true
    · rw [List.filter_cons_of_pos (p := fun e : Nat × α => keep e.1) hj, tabGet, tabGet, ih]
      by_cases hji : j = i
      · rw [if_pos hji, if_pos hji, if_pos (hji ▸ hj)]
      · rw [if_neg hji, if_neg hji]
    · rw [List.filter_cons_of_neg (p := fun e : Nat × α => keep e.1) hj, ih, tabGet]
      by_cases hji : j = i
      · rw [if_neg (hji ▸ hj), if_neg (hji ▸ hj)]
      · rw [if_neg hji]

/-- A run of keys that is written, with what each gets. -/
theorem tabGet_foldl_range {α : Type} [DecidableEq α] {d : α} {v : Nat → α} (hv : ∀ i, v i ≠ d) (lo n : Nat) (t : Tab α) (g : Nat) :
    tabGet d ((List.range n).foldl (fun t i => tabSet d t (lo + i) (v i)) t) g =
      if lo ≤ g ∧ g < lo + n then v (g - lo) else tabGet d t g := by
  split
  case isTrue h =>
    have hread := tabGet_foldl_tabSet_mem (key := (lo + ·)) hv (List.mem_range.2 (show g - lo < n by omega))
      (fun y _ hy => Nat.add_left_cancel hy) t
    rwa [Nat.add_sub_cancel' h.1] at hread
  case isFalse h =>
    exact tabGet_foldl_tabSet_of_ne (fun i hi hg => by have := List.mem_range.1 hi; omega) t

/-! ### Pages of tables (R325, R411) -/

theorem topBelow_some {ok : Nat → Bool} {n g : Nat} (h : topBelow ok n = some g) : ok g = true := by
  induction n with
  | zero => exact nomatch h
  | succ n ih =>
    unfold topBelow at h
    split at h
    case isTrue hok => exact Option.some.inj h ▸ hok
    case isFalse => exact ih h

/-- A page that is taken for tables holds none, and is on another tile than its copy. -/
theorem tablePage_some {other : Option Nat} {g : Nat} (h : tablePage s other = some g) :
    tabGet 0 s.hbm.tables g = 0 ∧ other ≠ some g := by
  have hok := topBelow_some h
  simp only [poolPage, Bool.and_eq_true, decide_eq_true_eq] at hok
  obtain ⟨⟨⟨⟨⟨⟨-, htab⟩, -⟩, -⟩, -⟩, -⟩, htile⟩ := hok
  exact ⟨htab, fun ho => htile (by rw [ho]; rfl)⟩

/-- Bytes stay where the pages' tables stay, and only pages without tables get some. -/
def TablesGrow (a b : Hbm) : Prop := ∀ x,
  (tabGet 0 b.tables (x / pageBytes) = tabGet 0 a.tables (x / pageBytes) ∧ rdByte b.m.mem x = rdByte a.m.mem x) ∨
  (tabGet 0 a.tables (x / pageBytes) = 0 ∧ tabGet 0 b.tables (x / pageBytes) ≠ 0)

theorem TablesGrow.refl (a : Hbm) : TablesGrow a a := fun _ => .inl ⟨rfl, rfl⟩

theorem TablesGrow.trans {a b c : Hbm} (h : TablesGrow a b) (k : TablesGrow b c) : TablesGrow a c := fun x => by
  rcases h x with ⟨htab, hbyte⟩ | ⟨hfree, hused⟩ <;> rcases k x with ⟨ktab, kbyte⟩ | ⟨kfree, kused⟩
  · exact .inl ⟨ktab.trans htab, kbyte.trans hbyte⟩
  · exact .inr ⟨htab ▸ kfree, kused⟩
  · exact .inr ⟨hfree, ktab ▸ hused⟩
  · exact absurd kfree hused

/-- A byte of a page whose tables are as before is as before. -/
theorem TablesGrow.byte {a b : Hbm} (h : TablesGrow a b) (x : Nat)
    (hx : tabGet 0 b.tables (x / pageBytes) = tabGet 0 a.tables (x / pageBytes)) : rdByte b.m.mem x = rdByte a.m.mem x := by
  rcases h x with ⟨-, hbyte⟩ | ⟨hfree, hused⟩
  · exact hbyte
  · exact absurd (hx.trans hfree) hused

theorem tablesGrow_setTable {g v : Nat} (hfree : tabGet 0 s.hbm.tables g = 0) (hv : v ≠ 0) : TablesGrow s.hbm (setTable s g v).hbm := by
  intro x
  by_cases hx : g = x / pageBytes
  · subst hx
    exact .inr ⟨hfree, by rw [setTable, tabGet_tabSet_self _ _ _ hv]; exact hv⟩
  · refine .inl ⟨tabGet_tabSet_other _ _ _ hx, ?_⟩
    have hout : x < pageBytes * g ∨ pageBytes * (g + 1) ≤ x := by
      rcases Nat.lt_or_gt_of_ne hx with hlt | hgt
      · exact .inr (Nat.mul_comm _ _ ▸ (Nat.le_div_iff_mul_le (by decide)).1 hlt)
      · exact .inl (Nat.mul_comm _ _ ▸ (Nat.div_lt_iff_lt_mul (by decide)).1 hgt)
    show tabGet 0 (zeroRange s.hbm.m.mem _ _) x = tabGet 0 s.hbm.m.mem x
    rw [zeroRange, tabGet_tabKeep, if_pos (by simpa using hout)]

/-- A partition with its tables laid out otherwise. -/
def withNodes (nodes a b : List Nat) (P : Part) : Part := { P with tabNodes := nodes, tabA := a, tabB := b }

/-- A state with other memory and tables of pages. -/
def withHbm (s : State) (m : PMem) (tables : Tab Nat) : State := { s with hbm := { s.hbm with m := m, tables := tables } }

/-- A state whose partition has other tables, in memory that holds them. -/
def withTables (s : State) (p : Nat) (m : PMem) (tables : Tab Nat) (nodes a b : List Nat) : State :=
  modPart (withHbm s m tables) p (withNodes nodes a b)

/-- What the laying out of tables can do. -/
def Grown (s : State) (p : Nat) (t : State) : Prop :=
  TablesGrow s.hbm t.hbm ∧ ∃ m tables nodes a b, t = withTables s p m tables nodes a b

theorem part_ne_of_live {P : Part} (h : P.live = true) : P ≠ {} := fun hP => by rw [hP] at h; exact nomatch h

theorem modPart_congr {f g : Part → Part} (h : f (getPart s p) = g (getPart s p)) : modPart s p f = modPart s p g := by
  unfold modPart tabMod
  rw [show f (tabGet {} s.parts p) = g (tabGet {} s.parts p) from h]

theorem grown_addTablePages (hlive : (getPart s p).live = true) (h : Grown s p t) : Grown s p (addTablePages t p) := by
  unfold addTablePages
  split
  case h_1 => exact h
  case h_2 a ha =>
    split
    case h_1 => exact h
    case h_2 b hb =>
      obtain ⟨hgrow, m, tables, nodes, as, bs, ht⟩ := h
      obtain ⟨hfreeA, -⟩ := tablePage_some ha
      obtain ⟨hfreeB, hne⟩ := tablePage_some hb
      have hfreeB' : tabGet 0 (setTable t a (p + 1)).hbm.tables b = 0 :=
        (tabGet_tabSet_other _ _ _ fun hab => hne (congrArg some hab)).trans hfreeB
      refine ⟨hgrow.trans ((tablesGrow_setTable hfreeA p.succ_ne_zero).trans (tablesGrow_setTable hfreeB' p.succ_ne_zero)),
        (setTable (setTable t a (p + 1)) b (p + 1)).hbm.m, (setTable (setTable t a (p + 1)) b (p + 1)).hbm.tables,
        nodes, as ++ [a], bs ++ [b], ?_⟩
      subst ht
      exact modPart_modPart { s with hbm := (setTable (setTable (withTables s p m tables nodes as bs) a (p + 1)) b (p + 1)).hbm } p
        (withNodes nodes as bs) _ (part_ne_of_live hlive)

theorem grown_growTables (hlive : (getPart s p).live = true) (keys : List Nat) : Grown s p (growTables s p keys) := by
  refine List.foldlRecOn (motive := Grown s p) _ _ ?_ fun t ht _ _ => grown_addTablePages hlive ht
  refine ⟨.refl _, s.hbm.m, s.hbm.tables, keys.foldl (fun l k => if l.contains k then l else l ++ [k]) (getPart s p).tabNodes,
    (getPart s p).tabA, (getPart s p).tabB, modPart_congr rfl⟩

/-! ### Page maps (R326) -/

/-- The entry that MEM_MAP writes for its page i. -/
def mapsTo (s : State) (p : Nat) (k : Pkt) (i : Nat) : Pte where
  v := true
  w := bit (wd k.w 3) 0
  c := bit (wd k.w 3) 1
  kind := fld (wd k.w 3) 3 2
  target := if fld (wd k.w 3) 3 2 = 0 then pageBytes * (getPart s p).pages.getD (fld (wd k.w 4) 17 0 + i) 0
    else (wd k.w 4).toNat + 2 ^ 32 * fld (wd k.w 5) 19 0 + pageBytes * i

/-- The map that MEM_MAP leaves. -/
def mappedPages (s : State) (p : Nat) (k : Pkt) : Tab Pte :=
  (List.range (fld (wd k.w 2) 17 0)).foldl (fun t i => tabSet {} t (fld48 k.w 0 / pageBytes + i) (mapsTo s p k i)) (getPart s p).pt

theorem tabGet_mappedPages (g : Nat) : tabGet {} (mappedPages s p k) g =
    if fld48 k.w 0 / pageBytes ≤ g ∧ g < fld48 k.w 0 / pageBytes + fld (wd k.w 2) 17 0 then
      mapsTo s p k (g - fld48 k.w 0 / pageBytes)
    else tabGet {} (getPart s p).pt g :=
  tabGet_foldl_range (fun _ h => Bool.noConfusion (congrArg Pte.v h)) _ _ _ _

/-- The map that MEM_UNMAP leaves. -/
def unmapped (s : State) (p : Nat) (k : Pkt) : Tab Pte :=
  tabKeep (fun g => decide (g < fld48 k.w 0 / pageBytes) || decide (fld48 k.w 0 / pageBytes + fld (wd k.w 2) 17 0 ≤ g)) (getPart s p).pt

theorem tabGet_unmapped (g : Nat) : tabGet {} (unmapped s p k) g =
    if fld48 k.w 0 / pageBytes ≤ g ∧ g < fld48 k.w 0 / pageBytes + fld (wd k.w 2) 17 0 then {} else tabGet {} (getPart s p).pt g := by
  refine (tabGet_tabKeep _ _ _ _).trans ((ite_congr (propext ?_) (fun _ => rfl) fun _ => rfl).trans (ite_not _ _ _))
  rw [Bool.or_eq_true, decide_eq_true_eq, decide_eq_true_eq]
  omega

theorem onlyReports_pages (h : OnlyReports s t) (p : Nat) :
    (getPart t p).pt = (getPart s p).pt ∧ (getPart t p).tabNodes = (getPart s p).tabNodes ∧ (getPart t p).tabA = (getPart s p).tabA ∧
      (getPart t p).tabB = (getPart s p).tabB :=
  have hP := (onlyReports_iff.1 h).2 p
  ⟨congrArg (·.pt) hP, congrArg (·.tabNodes) hP, congrArg (·.tabA) hP, congrArg (·.tabB) hP⟩

theorem onlyReports_hbm (h : OnlyReports s t) : t.hbm = s.hbm := congrArg (·.hbm) (onlyReports_iff.1 h).1

/-- A partition with another map. -/
def withPt (pt : Tab Pte) (P : Part) : Part := { P with pt := pt }

theorem growTables_modPart {f : Part → Part} (hlive : (f (getPart s p)).live = true) (keys : List Nat) :
    ∃ m tables nodes a b, TablesGrow s.hbm (withHbm s m tables).hbm ∧
      growTables (modPart s p f) p keys = modPart (withHbm s m tables) p fun P => withNodes nodes a b (f P) := by
  have hne := part_ne_of_live hlive
  obtain ⟨hgrow, m, tables, nodes, a, b, hu⟩ :=
    grown_growTables (show (getPart (modPart s p f) p).live = true by rw [getPart_modPart_self _ _ _ hne]; exact hlive) keys
  rw [hu] at hgrow
  exact ⟨m, tables, nodes, a, b, hgrow, hu.trans (modPart_modPart (withHbm s m tables) p f (withNodes nodes a b) hne)⟩

/-- MEM_MAP enters its pages, and lays out the tables that they need. -/
theorem exec_memMap (hready : FwReady s r 0x18 k) (hok : memMapErrs (ringP r) k s = []) :
    ∃ t m tables nodes a b, exec (.memMap r k) s = .next t ∧ TablesGrow s.hbm (withHbm s m tables).hbm ∧
      OnlyReports (modPart (withHbm s m tables) (ringP r) fun P => withNodes nodes a b (withPt (mappedPages s (ringP r) k) P)) t := by
  obtain ⟨t, ht, honly⟩ := exec_done (i := .memMap r k) (errs := memMapErrs (ringP r) k) rfl hready hok
    (u := growTables (modPart (startCmd s r) (ringP r) (withPt (mappedPages s (ringP r) k))) (ringP r)
      (rangeNodes (fld48 k.w 0) (fld (wd k.w 2) 17 0))) rfl
  have hlive := live_of_fwReady hready rfl
  obtain ⟨m, tables, nodes, a, b, hgrow, hu⟩ := growTables_modPart (s := startCmd s r) (p := ringP r)
    (f := withPt (mappedPages s (ringP r) k)) hlive (rangeNodes (fld48 k.w 0) (fld (wd k.w 2) 17 0))
  rw [hu] at honly
  refine ⟨t, m, tables, nodes, a, b, ht, hgrow, .trans ?_ honly⟩
  exact onlyReports_of_parts rfl rfl

/-- MEM_UNMAP removes its pages, and waits while an access of its partition is in flight (log entry 99). -/
theorem exec_memUnmap (hready : FwReady s r 0x19 k) (hok : memUnmapErrs (ringP r) k s = []) :
    ∃ t, exec (.memUnmap r k) s = .next t ∧
      OnlyReports (if accessOpen s (ringP r) then
            waiting (modPart s (ringP r) (withPt (unmapped s (ringP r) k))) r 0x19 k (.unmap (ringP r)) []
          else modPart s (ringP r) (withPt (unmapped s (ringP r) k))) t := by
  obtain ⟨t, ht, honly⟩ := exec_fwRun_of_ok (i := .memUnmap r k) (errs := memUnmapErrs (ringP r) k) rfl hready hok
  refine ⟨t, ht, .trans ?_ honly⟩
  show OnlyReports _ (settle _ (if accessOpen s (ringP r) then _ else _))
  split
  · exact onlyReports_of_parts rfl rfl
  · refine .trans ?_ (onlyReports_complete _ _ _ _)
    exact onlyReports_of_parts rfl rfl

/-! ### Engines (R125, R131) -/

/-- The record of an engine that CARD_LOAD leaves. -/
def loadedEngine (s : State) (p c e : Nat) (im : List Word) : Engine :=
  { ({} : Engine) with
    run := true, part := p, prog := im.take 64, tslot := imHandles im
    qslot := (List.range 4).foldl (fun q i => if bit (imQslot im i) 31 then tabSet 0 q i (imQslot im i) else q) []
    waitB := true, flight := (getEng s c e).flight }

theorem eng_modEng_other {c e c2 e2 : Nat} (f : Engine → Engine) (hne : f (getEng s c e) ≠ {}) (h : c2 ≠ c ∨ e2 ≠ e) :
    getEng (modEng s c e f) c2 e2 = getEng s c2 e2 := by
  by_cases hc : c = c2
  · subst hc
    have hfilled : tabMod {} (getClu s c).eng e f ≠ [] := tabSet_ne_nil hne _ _
    unfold getEng modEng
    rw [getClu_modClu_self _ _ _ fun hclu => hfilled (congrArg Cluster.eng hclu)]
    exact tabGet_tabMod_other _ _ _ (h.resolve_left (· rfl)).symm
  · rw [getEng, modEng, getClu_modClu_other _ _ hc, getEng]

/-- Queues that are set leave the engines. -/
theorem eng_foldl_modEq {β : Type} {c : Nat} (qs : List β) (q : β → Nat) (f : β → Eq → Eq) (hfilled : (getClu s c).eng ≠ []) (c2 : Nat) :
    (getClu (qs.foldl (fun s x => modEq s c (q x) (f x)) s) c2).eng = (getClu s c2).eng := by
  refine List.foldlRecOn (motive := fun t => ∀ c2, (getClu t c2).eng = (getClu s c2).eng) qs _ (fun _ => rfl) (fun t ht x _ c2 => ?_) c2
  by_cases hc : c = c2
  · subst hc
    rw [modEq, getClu_modClu_self _ _ _ fun hclu => hfilled ((ht c).symm.trans (congrArg Cluster.eng hclu))]
    exact ht c
  · rw [modEq, getClu_modClu_other _ _ hc]
    exact ht c2

theorem getEng_loadCard (p c e : Nat) (im : List Word) (c2 e2 : Nat) : getEng (loadCard s p c e im (imHandles im)) c2 e2 =
    getEng (modEng s c e fun _ => loadedEngine s p c e im) c2 e2 := by
  have hne : loadedEngine s p c e im ≠ {} := fun h => Bool.noConfusion (congrArg Engine.run h)
  have hfilled : (getClu (modEng s c e fun _ => loadedEngine s p c e im) c).eng ≠ [] := fun h => hne <| by
    rw [← getEng_modEng_self s c e (fun _ => loadedEngine s p c e im) hne, getEng, h]
    rfl
  exact congrArg (tabGet {} · e2) (eng_foldl_modEq (s := modPart (modEng s c e fun _ => loadedEngine s p c e im) p
    fun P => { P with everRun := true }) (boundQ im) (fun q => fld q 5 0) _ hfilled c2)

theorem image_of_cardLoadErrs {c e a : Nat} (hok : cardLoadErrs p c e a s = []) : ∃ im, imageAt s p a 80 = some im := by
  cases him : imageAt s p a 80 with
  | some im => exact ⟨im, rfl⟩
  | none =>
    rw [cardLoadErrs, him] at hok
    exact absurd (List.append_eq_nil_iff.1 hok).2 (List.cons_ne_nil _ _)

/-- CARD_LOAD gives one engine its program. -/
theorem exec_cardLoad (hready : FwReady s r 0x22 k)
    (hok : cardLoadErrs (ringP r) (fld (wd k.w 0) 7 0) (fld (wd k.w 0) 10 8) (fld48 k.w 1) s = []) :
    ∃ t im, exec (.cardLoad r k) s = .next t ∧ imageAt s (ringP r) (fld48 k.w 1) 80 = some im ∧
      ∀ c2 e2, getEng t c2 e2 = getEng (modEng s (fld (wd k.w 0) 7 0) (fld (wd k.w 0) 10 8) fun _ =>
        loadedEngine s (ringP r) (fld (wd k.w 0) 7 0) (fld (wd k.w 0) 10 8) im) c2 e2 := by
  obtain ⟨im, him⟩ := image_of_cardLoadErrs hok
  obtain ⟨t, ht, honly⟩ := exec_done (i := .cardLoad r k)
    (errs := cardLoadErrs (ringP r) (fld (wd k.w 0) 7 0) (fld (wd k.w 0) 10 8) (fld48 k.w 1)) rfl hready hok rfl
  have him' : (imageAt (startCmd s r) (ringP r) (fld48 k.w 1) 80).getD [] = im := congrArg (·.getD []) him
  rw [him'] at honly
  refine ⟨t, im, ht, him, fun c2 e2 => ?_⟩
  rw [getEng, getClu, show t.clusters = _ from congrArg (·.clusters) (onlyReports_iff.1 honly).1]
  exact getEng_loadCard (s := startCmd s r) _ _ _ im c2 e2

/-! ### Contexts (R159, R167) -/

/-- CSP_LOAD starts its context, once no REP runs (log entry 94). -/
theorem answers_cspLoad (hready : FwReady s r 0x23 k) :
    let c := fld (wd k.w 0) 7 0
    let x := fld (wd k.w 0) 9 8
    let im := (cspImageAt s (ringP r) (fld48 k.w 1)).getD []
    Answers (.cspLoad r k) s (
      if cspLoadErrs (ringP r) c x (fld48 k.w 1) s ≠ [] then s
      else if inRep s c then
        waiting (modCsp s c x (fun o => { o with load := some (longestRep im, im) })) r 0x23 k (.cspLoad c x) []
      else startCsp s c x (longestRep im) im) := by
  intro c x im
  split
  case isTrue hbad => exact answers_of_failed (errs := cspLoadErrs (ringP r) c x (fld48 k.w 1)) rfl hready hbad
  case isFalse hok =>
    obtain ⟨t, ht, honly⟩ := exec_fwRun_of_ok (i := .cspLoad r k) (errs := cspLoadErrs (ringP r) c x (fld48 k.w 1)) rfl hready
      (not_not.1 hok)
    refine ⟨t, ht, .trans ?_ honly⟩
    show OnlyReports _ (settle _ (if inRep s c then _ else _))
    split
    · exact onlyReports_of_parts rfl rfl
    · refine .trans ?_ (onlyReports_complete _ _ _ _)
      exact onlyReports_of_parts rfl rfl

/-- Settles O26: each command's checks and effect look at nothing that firmware reports. -/
theorem memoryCommands : Obligations.MemoryCommands := by
  intro s r k p
  refine ⟨fun hready hok => ?_, fun hready hok => ?_, fun hready im him hok => ?_, fun hready hlive hfree => ?_, fun hready hok => ?_,
    answers_cspLoad⟩
  · obtain ⟨t, m, tables, nodes, a, b, ht, hgrow, honly⟩ := exec_memMap hready hok
    have hlive := live_of_fwReady hready rfl
    have hread := getPart_modPart_self (withHbm s m tables) p (fun P => withNodes nodes a b (withPt (mappedPages s p k) P))
      (part_ne_of_live hlive)
    have hhbm : t.hbm = (withHbm s m tables).hbm := (onlyReports_hbm honly).trans rfl
    obtain ⟨hpt, hnodes, ha, hb⟩ := onlyReports_pages honly p
    rw [hread] at hpt hnodes ha hb
    refine ⟨t, ht, ?_, ?_, ?_⟩
    · rw [hhbm, hpt, hnodes, ha, hb]
      exact honly
    · rw [hhbm]
      exact hgrow.byte
    · rw [hpt]
      exact tabGet_mappedPages
  · obtain ⟨t, ht, honly⟩ := exec_memUnmap hready hok
    have hread := getPart_modPart_self s p (withPt (unmapped s p k)) (part_ne_of_live (live_of_fwReady hready rfl))
    refine ⟨t, unmapped s p k, ht, honly, ?_, tabGet_unmapped⟩
    rw [(onlyReports_pages honly p).1]
    split
    · exact congrArg Part.pt hread
    · exact congrArg Part.pt hread
  · have him' : imageAt (startCmd s r) p (fld48 k.w 0) 32 = some im := him
    obtain ⟨t, ht, honly⟩ := exec_done (i := .descCreate r k)
      (errs := fun s => descErrs s p (imageAt s p (fld48 k.w 0) 32)) rfl hready (him'.symm ▸ hok) rfl
    refine ⟨t, ht, .trans ?_ honly⟩
    rw [him']
    exact onlyReports_of_parts rfl rfl
  · have hok : descHandleErrs s p (fld (wd k.w 0) 15 0) ++ errsOf [(descBound s p (fld (wd k.w 0) 15 0), stBusy)] = [] := by
      rw [descHandleErrs, if_pos hlive, hfree]
      rfl
    obtain ⟨t, ht, honly⟩ := exec_done (i := .descDestroy r k)
      (errs := fun s => descHandleErrs s p (fld (wd k.w 0) 15 0) ++ errsOf [(descBound s p (fld (wd k.w 0) 15 0), stBusy)])
      rfl hready hok rfl
    refine ⟨t, ht, .trans ?_ honly⟩
    exact onlyReports_of_parts rfl rfl
  · obtain ⟨t, im, ht, him, heng⟩ := exec_cardLoad hready hok
    have hne : loadedEngine s p (fld (wd k.w 0) 7 0) (fld (wd k.w 0) 10 8) im ≠ {} := fun h =>
      Bool.noConfusion (congrArg Engine.run h)
    refine ⟨t, im, ht, him, ?_, fun c2 e2 h => ?_⟩
    · exact (heng _ _).trans (getEng_modEng_self _ _ _ _ hne)
    · exact (heng _ _).trans (eng_modEng_other _ hne h)

end Sys2Proof.Machine
end

section
/-! PROOFS. What the walks (R325, R411) and the fabric loads (R130, R273) of a cardamom read leave as it was: the clusters, the time, the
cache, and of the partition that it is alive, its map, and whether its reset notice is open. -/

namespace Sys2Proof.Machine

open Sys2Proof

variable {s t u : State} {p q : Nat}

/-- What a read instruction sees of the state outside its cluster. -/
structure ReadView where
  time : TimeUnit
  cacheEn : Bool
  cache : List CacheLine
  live : Bool
  pt : Tab Pte
  noticeOpen : Bool

def readView (s : State) (p : Nat) : ReadView :=
  { time := s.time, cacheEn := s.fab.cacheEn, cache := s.fab.cache, live := (getPart s p).live, pt := (getPart s p).pt
    noticeOpen := (getPart s p).noticeOpen }

/-- From s to t, only k fabric loads have gone out as far as a read of partition p sees (R130). -/
def Loaded (p k : Nat) (s t : State) : Prop :=
  t.clusters = s.clusters ∧ readView t p = readView s p ∧ storeUse t = storeUse s + 64 * k

theorem Loaded.refl (p : Nat) (s : State) : Loaded p 0 s s := ⟨rfl, rfl, rfl⟩

theorem Loaded.trans {j k : Nat} (h : Loaded p j s t) (h' : Loaded p k t u) : Loaded p (j + k) s u := by
  obtain ⟨hclu, hview, huse⟩ := h
  obtain ⟨hclu', hview', huse'⟩ := h'
  exact ⟨hclu'.trans hclu, hview'.trans hview, by rw [huse', huse]; omega⟩

theorem Loaded.live {k : Nat} (h : Loaded p k s t) (hlive : (getPart s p).live = true) : (getPart t p).live = true :=
  (congrArg ReadView.live h.2.1).trans hlive

theorem loaded_foldl {β : Type} {f : State → β → State} {k : Nat} (hlive : (getPart s p).live = true)
    (hf : ∀ t x, (getPart t p).live = true → Loaded p k t (f t x)) (xs : List β) : Loaded p (xs.length * k) s (xs.foldl f s) := by
  induction xs generalizing s with
  | nil => rw [List.length_nil, Nat.zero_mul]; exact .refl p s
  | cons x xs ih =>
    have hx := hf s x hlive
    rw [List.length_cons, Nat.succ_mul, Nat.add_comm]
    exact hx.trans (ih (hx.live hlive))

/-- A run of steps that load nothing. -/
theorem loaded_foldl_none {β : Type} {f : State → β → State} (hlive : (getPart s p).live = true)
    (hf : ∀ t x, (getPart t p).live = true → Loaded p 0 t (f t x)) (xs : List β) : Loaded p 0 s (xs.foldl f s) :=
  loaded_foldl hlive hf xs

theorem Loaded.of_onlyReports (h : OnlyReports s t) : Loaded p 0 s t := by
  obtain ⟨hfields, hparts⟩ := onlyReports_iff.1 h
  have hclu : t.clusters = s.clusters := congrArg (·.clusters) hfields
  have htime : t.time = s.time := congrArg (·.time) hfields
  have hfab : t.fab = s.fab := congrArg (·.fab) hfields
  have hlive : (getPart t p).live = (getPart s p).live := congrArg (·.live) (hparts p)
  have hpt : (getPart t p).pt = (getPart s p).pt := congrArg (·.pt) (hparts p)
  have hnotice : (getPart t p).noticeOpen = (getPart s p).noticeOpen := congrArg (·.noticeOpen) (hparts p)
  exact ⟨hclu, by rw [readView, readView, htime, hfab, hlive, hpt, hnotice], by rw [storeUse, storeUse, hfab]; rfl⟩

/-- A change of some partition that a read of p does not see. -/
theorem loaded_modPart {f : Part → Part} (hlive : (getPart s p).live = true)
    (hf : ∀ P, (f P).live = P.live ∧ (f P).pt = P.pt ∧ (f P).noticeOpen = P.noticeOpen) (q : Nat) : Loaded p 0 s (modPart s q f) := by
  refine ⟨rfl, ?_, rfl⟩
  by_cases hq : q = p
  · subst hq
    obtain ⟨hkeeps, hpt, hnotice⟩ := hf (getPart s q)
    rw [readView, getPart_modPart_self _ _ _ (part_ne_of_live (hkeeps.trans hlive)), hkeeps, hpt, hnotice]
    rfl
  · rw [readView, getPart_modPart_other _ _ hq]
    rfl

/-! ### Disturbances (R238) -/

theorem loaded_disturb (hlive : (getPart s p).live = true) (q b : Nat) : Loaded p 0 s (disturb s q b) := by
  unfold disturb
  extract_lets P
  split
  case h_1 => exact .refl p s
  case h_2 L hL =>
    split
    case isTrue => exact .refl p s
    case isFalse =>
      have hmod := loaded_modPart hlive (f := fun P => { P with
        disturb := P.disturb ||| BitVec.ofNat 6 (2 ^ b), launch := some { L with distNow := true } }) (fun _ => ⟨rfl, rfl, rfl⟩) q
      split
      · exact hmod.trans (.of_onlyReports (onlyReports_evPart _ _ _ _))
      · exact hmod

theorem loaded_linkTraffic (hlive : (getPart s p).live = true) (q link : Nat) : Loaded p 0 s (linkTraffic s q link) := by
  refine loaded_foldl_none hlive (fun t o ht => ?_) _
  split
  · exact .refl p t
  · split
    · split
      · exact loaded_disturb ht o 4
      · exact .refl p t
    · exact .refl p t

/-- A run with the link it now uses. -/
def withLink (link : Nat) (P : Part) : Part := { P with
  launch := P.launch.map fun L => if L.running && !L.links.contains link then { L with links := L.links ++ [link] } else L }

theorem loaded_useLink (hlive : (getPart s p).live = true) (q link : Nat) : Loaded p 0 s (useLink s q link) :=
  have hmod := loaded_modPart (f := withLink link) hlive (fun _ => ⟨rfl, rfl, rfl⟩) q
  hmod.trans (loaded_linkTraffic (hmod.live hlive) q link)

/-! ### Loads (R273) -/

/-- A load takes one line of the retransmit store. -/
theorem loaded_issueFab {o : FabOut} (hlive : (getPart s p).live = true) (hop : o.req.op = 0) (hdata : o.req.data = []) :
    Loaded p 1 s (issueFab s o) := by
  unfold issueFab
  extract_lets ga node key _ r path o1 _ s1 s2 s3
  have h2 : s2 = s1 := if_pos hop
  have h3 : s3 = s1 := (if_neg (by rw [show r.op = 0 from hop]; decide)).trans h2
  have hissued : Loaded p 1 s s1 := by
    refine ⟨rfl, rfl, ?_⟩
    show (s.fab.outst ++ [o1]).foldl _ 0 = _
    rw [List.foldl_append, List.foldl_cons, List.foldl_nil, show o1.req.data = [] from hdata]
    rfl
  rw [h3]
  split
  · exact hissued
  · exact hissued.trans (loaded_useLink (s := emit s1 _) (hissued.live hlive) _ _)

theorem loaded_loadLines (hlive : (getPart s p).live = true) (c : Nat) (tn : List Word) (rs : List (List Piece)) :
    Loaded p (fabLines s p tn rs).length s (loadLines s c p tn rs) := by
  have h := loaded_foldl (k := 1) hlive (fun t x ht => loaded_issueFab (s := t)
    (o := mkOut (mkReq t p 0 0 false (64 * x.1) 64 [] false) c 0 1 0 0 x.2) ht rfl rfl) (fabLines s p tn rs)
  rwa [Nat.mul_one] at h

/-! ### Walks (R325, R411) -/

theorem loaded_retirePage (g : Nat) : Loaded p 0 s (retirePage s g) := by
  unfold retirePage
  split
  · exact .refl p s
  · extract_lets _ h
    have hhbm : Loaded p 0 s { s with hbm := h } := ⟨rfl, rfl, rfl⟩
    exact hhbm.trans (.of_onlyReports (onlyReports_evPool _ _ _))

/-- A partition's tables with one page in the place of another. -/
def replacePages (old new : Nat) (P : Part) : Part := { P with
  tabA := P.tabA.map fun g => if g = old then new else g
  tabB := P.tabB.map fun g => if g = old then new else g }

theorem loaded_repairTable (hlive : (getPart s p).live = true) (q bad good : Nat) : Loaded p 0 s (repairTable s q bad good) := by
  unfold repairTable
  split
  case h_1 => exact .refl p s
  case h_2 n _ =>
    have hmod : Loaded p 0 s (replaceTable s q bad n) :=
      loaded_modPart (s := setTable (setTable s bad 0) n (q + 1)) (f := replacePages bad n) hlive (fun _ => ⟨rfl, rfl, rfl⟩) q
    exact hmod.trans (loaded_retirePage bad)

theorem loaded_walkVa (hlive : (getPart s p).live = true) (q va : Nat) : Loaded p 0 s (walkVa s q va) := by
  refine loaded_foldl_none hlive (fun t x ht => ?_) _
  extract_lets P n
  split
  · split
    · exact loaded_repairTable ht q _ _
    · exact .refl p t
  · exact .refl p t

theorem loaded_walkAll (hlive : (getPart s p).live = true) (q : Nat) (vas : List Nat) : Loaded p 0 s (walkAll s q vas) :=
  loaded_foldl_none hlive (fun _ _ ht => loaded_walkVa ht q _) _

/-! ### What depends on it -/

theorem pteOf_congr (h : readView t p = readView s p) (va : Nat) : pteOf t p va = pteOf s p va :=
  congrArg (tabGet ({} : Pte) · (va / pageBytes)) (congrArg ReadView.pt h)

theorem cacheHit_congr (h : readView t p = readView s p) (line : Nat) : cacheHit t p line = cacheHit s p line := by
  rw [cacheHit, cacheHit, show t.fab.cacheEn = _ from congrArg ReadView.cacheEn h, show t.fab.cache = _ from congrArg ReadView.cache h]
  rfl

theorem fabLines_congr (h : readView t p = readView s p) (tn : List Word) (rs : List (List Piece)) :
    fabLines t p tn rs = fabLines s p tn rs := by
  simp only [fabLines, fabTarget, pteOf_congr h, cacheHit_congr h]

theorem entryLines_congr (h : readView t p = readView s p) (tn : List Word) (es : List (List (List Piece))) :
    entryLines t p tn es = entryLines s p tn es := by
  simp only [entryLines, fabLines_congr h]

theorem entryDl_congr (h : readView t p = readView s p) (P : EngPort) : entryDl t P = entryDl s P := by
  rw [entryDl, entryDl, show t.time = s.time from congrArg ReadView.time h]

theorem storeRoomFor_iff (s : State) (k : Nat) : storeRoomFor s k = true ↔ k = 0 ∨ storeUse s + 64 * k ≤ 4194304 := by
  have hsize : storeSize (64 * k) = max 64 (64 * k) := rfl
  rw [storeRoomFor, storeRoom, hsize, Bool.or_eq_true, decide_eq_true_eq, decide_eq_true_eq]
  omega

/-- Room for some lines is room for the first of them, and once they are taken for the rest. -/
theorem storeRoomFor_first {j k : Nat} (h : storeRoomFor s (j + k) = true) : storeRoomFor s j = true := by
  rw [storeRoomFor_iff] at h ⊢
  omega

theorem storeRoomFor_rest {j k : Nat} (h : storeRoomFor s (j + k) = true) (huse : storeUse t = storeUse s + 64 * j) :
    storeRoomFor t k = true := by
  rw [storeRoomFor_iff] at h ⊢
  omega

end Sys2Proof.Machine
end

section
/-! PROOFS. O9: the read instructions of the cardamom engines (R126, R127, R129, R130, R138), by induction on the entries that are left. -/

namespace Sys2Proof.Machine

open Sys2Proof

variable {s t u : State} {c e : Nat} {P : EngPort} {tn : List Word}

/-! ### Engines -/

theorem engine_ne_of_prog {E : Engine} (h : E.prog ≠ []) : E ≠ {} := fun hE => h (congrArg Engine.prog hE)

theorem getEng_of_clusters (h : t.clusters = s.clusters) (c e : Nat) : getEng t c e = getEng s c e := by
  rw [getEng, getEng, getClu, getClu, h]

/-- A change of an engine leaves the windows of every cluster. -/
theorem fence_modEng {f : Engine → Engine} (hne : f (getEng s c e) ≠ {}) (d : Nat) :
    (getClu (modEng s c e f) d).fence = (getClu s d).fence := by
  by_cases hd : c = d
  · subst hd
    have hfilled : tabMod {} (getClu s c).eng e f ≠ [] := tabSet_ne_nil hne _ _
    rw [modEng, getClu_modClu_self _ _ _ fun hclu => hfilled (congrArg Cluster.eng hclu)]
  · rw [modEng, getClu_modClu_other _ _ hd]

theorem fenced_of_noFence (h : noFence s c) (a : Nat) : fenced s c a = false :=
  List.any_eq_false.2 fun x hx => by rw [h x hx]; exact Bool.false_ne_true

theorem piecesFenced_of_noFence (h : noFence s (tCluster tn)) (rs : List (List Piece)) : piecesFenced s tn rs = false := by
  have hnone : (rs.any fun ps => ps.any fun x => fenced s (tCluster tn) x.addr) = false :=
    List.any_eq_false.2 fun ps _ => Bool.not_eq_true _ ▸ List.any_eq_false.2 fun x _ => Bool.not_eq_true _ ▸ fenced_of_noFence h x.addr
  rw [piecesFenced, hnone, Bool.and_false]

theorem piecesHeld_of_room {p : Nat} {rs : List (List Piece)} (hnotice : (getPart s p).noticeOpen = false)
    (hroom : storeRoomFor s (fabLines s p tn rs).length = true) : piecesHeld s p tn rs = false := by
  show (_ && ((getPart s p).noticeOpen || !storeRoomFor s (fabLines s p tn rs).length)) = false
  rw [hnotice, hroom]
  exact Bool.and_false _

/-- What control does to an engine (R128). -/
theorem engGo_eq (E : Engine) (n : Nat) : engGo E n =
    { E with run := (engGo E n).run, waitB := (engGo E n).waitB, pc := (engGo E n).pc, loops := (engGo E n).loops } := by
  unfold engGo
  extract_lets r
  split <;> rfl

/-! ### One entry (R130) -/

/-- An engine with one more entry in flight for the data instruction at its port. -/
def withEntry (f : Flight) (E : Engine) : Engine :=
  { E with flight := E.flight ++ [f], port := E.port.map fun P => { P with done := P.done + 1 } }

/-- A read instruction at the port of an engine that nothing keeps from issuing, but the entries in flight and the room for loads. -/
structure Reading (s : State) (c e : Nat) (P : EngPort) (tn : List Word) : Prop where
  prog : (getEng s c e).prog ≠ []
  port : (getEng s c e).port = some P
  stop : (getEng s c e).stopSlm = false
  live : (getPart s (getEng s c e).part).live = true
  fence : noFence s (tCluster tn)
  notice : (getPart s (getEng s c e).part).noticeOpen = false

/-- An entry goes in flight for its queue with its deadline, and its lines are asked for. -/
theorem issueEntry_eq (h : Reading s c e P tn) (rs : List (List Piece)) :
    ∃ u f, Loaded (getEng s c e).part (fabLines s (getEng s c e).part tn rs).length s u ∧
      issueEntry s c e P tn rs [] = modEng u c e (withEntry f) ∧
      f.q = portQueue (getEng s c e) P ∧ (f.dlClove, f.dlCycle) = entryDl s P := by
  unfold issueEntry
  extract_lets E gs s1 s2 bytes kindAt dl f s3
  have hwalk : Loaded E.part 0 s s1 := by
    unfold s1
    split
    · exact loaded_walkAll h.live E.part _
    · exact .refl E.part s
  have hview : readView s2 E.part = readView s E.part := hwalk.2.1
  have hload : Loaded E.part (fabLines s2 E.part tn rs).length s2 s3 := loaded_loadLines (hwalk.live h.live) c tn rs
  rw [fabLines_congr hview] at hload
  have hall := hwalk.trans hload
  rw [Nat.zero_add] at hall
  have hne : (fun E : Engine => { E with flight := E.flight ++ [f] }) (getEng s3 c e) ≠ {} :=
    engine_ne_of_prog (by rw [getEng_of_clusters hall.1]; exact h.prog)
  exact ⟨s3, f, hall, modEng_modEng _ _ _ _ _ hne, rfl, entryDl_congr hview P⟩

theorem getEng_issueEntry (h : Reading s c e P tn) (hu : u.clusters = s.clusters) (f : Flight) :
    getEng (modEng u c e (withEntry f)) c e = withEntry f (getEng s c e) := by
  rw [← getEng_of_clusters hu]
  exact getEng_modEng_self _ _ _ _ (engine_ne_of_prog (by rw [getEng_of_clusters hu]; exact h.prog))

/-- The instruction goes on at the port. -/
theorem reading_issueEntry {k : Nat} (h : Reading s c e P tn) (hu : Loaded (getEng s c e).part k s u) (f : Flight) :
    Reading (modEng u c e (withEntry f)) c e { P with done := P.done + 1 } tn := by
  have hE := getEng_issueEntry h hu.1 f
  have hne : withEntry f (getEng u c e) ≠ {} := engine_ne_of_prog (by rw [getEng_of_clusters hu.1]; exact h.prog)
  refine ⟨?_, ?_, ?_, ?_, ?_, ?_⟩
  · rw [hE]; exact h.prog
  · rw [hE, withEntry, h.port]; rfl
  · rw [hE]; exact h.stop
  · rw [hE]; exact hu.live h.live
  · intro x hx
    rw [fence_modEng hne, getClu, hu.1] at hx
    exact h.fence x hx
  · rw [hE]; exact (congrArg ReadView.noticeOpen hu.2.1).trans h.notice

/-! ### All entries -/

/-- The engine once its data instruction has given up the port. -/
def portFreed (E : Engine) : Engine := { E with
  port := none, saves := E.saves.map (fun v => { v with early := false })
  markNext := match E.port with
    | some P => if P.mark && decide (P.done = 0) then E.markNext ++ [portQueue E P] else E.markNext
    | none => E.markNext }

theorem getEng_freePort (hprog : (getEng s c e).prog ≠ []) (hstop : (getEng s c e).stopSlm = false) :
    getEng (freePort s c e) c e = portFreed (getEng s c e) := by
  have hE : getEng (modEng s c e portFreed) c e = portFreed (getEng s c e) :=
    getEng_modEng_self _ _ _ _ (engine_ne_of_prog hprog)
  show getEng (settleEngine (modEng s c e portFreed) c e) c e = _
  rw [settleEngine, hE, if_neg (by rw [show (portFreed (getEng s c e)).stopSlm = false from hstop]; exact Bool.false_ne_true), hE]

/-- What an engine is once n of the entries that are left are in flight, of l. -/
structure Issued (s : State) (P : EngPort) (E E' : Engine) (fl : List Flight) (l : Nat) : Prop where
  flight : E'.flight = E.flight ++ fl
  entries : ∀ f ∈ fl, f.q = portQueue E P ∧ (f.dlClove, f.dlCycle) = entryDl s P
  port : E'.port = if fl.length = l then none else some { P with done := P.done + fl.length }
  pc : E'.pc = E.pc
  x : E'.x = E.x

/-- One entry, and then the others. -/
theorem Issued.cons {E E' : Engine} {f : Flight} {fl : List Flight} {l : Nat}
    (h : Issued t { P with done := P.done + 1 } (withEntry f E) E' fl l) (hq : f.q = portQueue E P)
    (hdl : (f.dlClove, f.dlCycle) = entryDl s P) (hview : ∀ P, entryDl t P = entryDl s P) : Issued s P E E' (f :: fl) (l + 1) where
  flight := h.flight.trans (List.append_assoc _ _ _)
  entries g hg := by
    rcases List.mem_cons.1 hg with rfl | hg
    · exact ⟨hq, hdl⟩
    · obtain ⟨hgq, hgdl⟩ := h.entries g hg
      exact ⟨hgq, hgdl.trans (hview _)⟩
  port := h.port.trans (ite_congr (by rw [List.length_cons, Nat.add_left_inj]) (fun _ => rfl) fun _ =>
    congrArg (fun n => some { P with done := n }) (by rw [List.length_cons, Nat.add_assoc, Nat.add_comm 1]))
  pc := h.pc
  x := h.x

theorem issueAll_reads (h : Reading s c e P tn) (es : List (List (List Piece)))
    (hroom : storeRoomFor s (entryLines s (getEng s c e).part tn (es.take (min (64 - (getEng s c e).flight.length) es.length))) = true) :
    ∃ fl, fl.length = min (64 - (getEng s c e).flight.length) es.length ∧
      Issued s P (getEng s c e) (getEng (issueAll s c e P tn [] es) c e) fl es.length := by
  induction es generalizing s P with
  | nil =>
    have hE : getEng (issueAll s c e P tn [] []) c e = portFreed (getEng s c e) := getEng_freePort h.prog h.stop
    exact ⟨[], (Nat.min_zero _).symm, by rw [hE]; exact ⟨(List.append_nil _).symm, nofun, rfl, rfl, rfl⟩⟩
  | cons rs rest ih =>
    rw [issueAll]
    by_cases hfull : 64 ≤ (getEng s c e).flight.length
    · have hnone : min (64 - (getEng s c e).flight.length) (rs :: rest).length = 0 := by omega
      rw [if_pos (by simp [hfull])]
      refine ⟨[], hnone.symm, (List.append_nil _).symm, nofun, ?_, rfl, rfl⟩
      exact h.port.trans (if_neg (Nat.succ_ne_zero _).symm).symm
    · have hsome : min (64 - (getEng s c e).flight.length) (rs :: rest).length =
          min (64 - ((getEng s c e).flight.length + 1)) rest.length + 1 := by
        rw [List.length_cons]
        omega
      rw [hsome] at hroom ⊢
      have hlines : entryLines s (getEng s c e).part tn ((rs :: rest).take (min (64 - ((getEng s c e).flight.length + 1)) rest.length + 1)) =
          (fabLines s (getEng s c e).part tn rs).length +
            entryLines s (getEng s c e).part tn (rest.take (min (64 - ((getEng s c e).flight.length + 1)) rest.length)) := rfl
      rw [hlines] at hroom
      rw [if_neg (by
        rw [piecesFenced_of_noFence h.fence, piecesHeld_of_room h.notice (storeRoomFor_first hroom)]
        simpa using hfull)]
      obtain ⟨u, f, hu, hissue, hq, hdl⟩ := issueEntry_eq h rs
      have hE := getEng_issueEntry h hu.1 f
      have hview : readView (modEng u c e (withEntry f)) (getEng s c e).part = readView s (getEng s c e).part := hu.2.1
      rw [hissue]
      have hlength : (withEntry f (getEng s c e)).flight.length = (getEng s c e).flight.length + 1 := List.length_append
      obtain ⟨fl, hlen, hfl⟩ := ih (reading_issueEntry h hu f) (by
        rw [hE, hlength, show (withEntry f (getEng s c e)).part = (getEng s c e).part from rfl, entryLines_congr hview]
        exact storeRoomFor_rest hroom hu.2.2)
      rw [hE, hlength] at hlen
      rw [hE] at hfl
      exact ⟨f :: fl, congrArg (· + 1) hlen, hfl.cons hq hdl (entryDl_congr hview)⟩

/-! ### Instructions -/

/-- An engine whose scalar unit has gone on behind a data instruction at the port. -/
def behindPort (E : Engine) (P : EngPort) (run waitB : Bool) (loops : List LoopFr) (markNext : List Nat) : Engine :=
  { E with run := run, waitB := waitB, pc := portPc E, loops := loops, port := some P, markNext := markNext }

theorem takePort_behindPort {E : Engine} (hnone : E.port = none) (hP : (takePort E).port = some P) : takePort E =
    behindPort E P (engGo E E.pc).run (engGo E E.pc).waitB (engGo E E.pc).loops (takePort E).markNext := by
  have hpc : portPc E = (engGo E E.pc).pc := if_neg (by rw [hnone]; exact Bool.false_ne_true)
  have hE : takePort E = { engGo E E.pc with port := (takePort E).port, markNext := (takePort E).markNext } := rfl
  rw [behindPort, hpc, ← hP]
  exact hE.trans (by rw [engGo_eq])

theorem live_of_engClocked (h : engClocked s c e = true) : (getPart s (getEng s c e).part).live = true := by
  simp only [engClocked, partRuns, Bool.and_eq_true] at h
  exact h.1.1.1.2

theorem prog_ne_of_engAt {op : Nat} (hop : op ≠ 0) (h : engAt s c e op = true) : (getEng s c e).prog ≠ [] := fun hnil => hop <| by
  have hinsn : cardOp (engInsn (getEng s c e)) = op := of_decide_eq_true (Bool.and_eq_true_iff.1 h).2
  rw [← hinsn, engInsn, hnil, wd, List.getD_nil]
  rfl

/-- The instruction of the port, and the state in which it has it. -/
theorem portAt_of_portNow {c : Fin 20} {e : Fin 8} {op : Nat} (hop : op ≠ 0) (h : PortNow s c e op P) :
    (getEng s c.val e.val).prog ≠ [] ∧ engClocked s c.val e.val = true ∧ mainOn s = true ∧
      ∃ t run waitB loops markNext, portAt s c.val e.val op = some (P, t) ∧
        getEng t c.val e.val = behindPort (getEng s c.val e.val) P run waitB loops markNext ∧
        t = { s with clusters := t.clusters } ∧ ∀ d, (getClu t d).fence = (getClu s d).fence := by
  rcases h with ⟨hport, hmain, hw, hclk, hprog⟩ | ⟨hnone, ⟨hmain, hat⟩, hP⟩
  · refine ⟨hprog, hclk, hmain, s, (getEng s c.val e.val).run, (getEng s c.val e.val).waitB, (getEng s c.val e.val).loops,
      (getEng s c.val e.val).markNext, ?_, ?_, rfl, fun _ => rfl⟩
    · simp [portAt, hport, hw, hclk]
    · rw [behindPort, portPc, if_pos (by rw [hport]; rfl), ← hport]
  · have hprog := prog_ne_of_engAt hop hat
    have hclk : engClocked s c.val e.val = true := by
      simp only [engAt, Bool.and_eq_true] at hat
      exact hat.1.2
    have hport := takePort_behindPort hnone hP
    have hne : takePort (getEng s c.val e.val) ≠ {} := engine_ne_of_prog (by rw [hport]; exact hprog)
    have hE : getEng (modEng s c.val e.val takePort) c.val e.val = takePort (getEng s c.val e.val) := getEng_modEng_self _ _ _ _ hne
    refine ⟨hprog, hclk, hmain, modEng s c.val e.val takePort, _, _, _, _, ?_, hE.trans hport, rfl, fence_modEng hne⟩
    simp [portAt, hnone, hat, hE, hP]

/-- Every read instruction issues its entries (R126, R129, R130). -/
theorem readsIssue_of_exec {c : Fin 20} {e : Fin 8} {op : Nat} {i : Instr} {runs : List Word → EngPort → List (List (List Piece))}
    (hop : op ≠ 0) (hexec : exec i s = inRun s fun s => engRead s c.val e.val op [] runs) : readsIssue s c e op i runs := by
  unfold readsIssue
  extract_lets E
  intro P hP tn es n hstop hfence hnotice hroom
  obtain ⟨hprog, hclk, hmain, t, run, waitB, loops, markNext, hport, hE, ht, hwindows⟩ := portAt_of_portNow hop hP
  have hview : readView t E.part = readView s E.part := by rw [ht]; rfl
  have htn : portTensor t (getEng t c.val e.val) P = tn := by rw [hE, ht]; rfl
  have hreading : Reading t c.val e.val P tn := by
    refine ⟨?_, ?_, ?_, ?_, ?_, ?_⟩
    · rw [hE]; exact hprog
    · rw [hE]; rfl
    · rw [hE]; exact hstop
    · rw [hE]; exact (congrArg ReadView.live hview).trans (live_of_engClocked hclk)
    · intro x hx
      rw [hwindows] at hx
      exact hfence x hx
    · rw [hE]; exact (congrArg ReadView.noticeOpen hview).trans hnotice
  have hissue := issueAll_reads hreading es
  rw [hE] at hissue
  obtain ⟨fl, hlen, hfl⟩ := hissue (by
    show storeRoomFor t (entryLines t E.part tn (es.take n)) = true
    rw [entryLines_congr hview, ht]
    exact hroom)
  have hread : engRead s c.val e.val op [] runs = issueAll t c.val e.val P tn [] es := by
    rw [engRead, hport]
    show issueAll t _ _ P (portTensor t (getEng t c.val e.val) P) [] ((cutEntries (runs (portTensor t (getEng t c.val e.val) P) P)).drop _) = _
    rw [htn]
  refine ⟨_, fl, hexec.trans ((inRun_of_mainOn _ hmain).trans (congrArg _ hread)), hfl.flight, hlen, ?_, ?_, hfl.pc, hfl.x⟩
  · intro f hf
    obtain ⟨hq, hdl⟩ := hfl.entries f hf
    exact ⟨hq, hdl.trans (entryDl_congr hview P)⟩
  · have hport' := hfl.port
    rw [hlen] at hport'
    exact hport'

/-- Settles O9: by induction on the entries that are left, since no walk and no load of an entry changes what the next one needs. -/
theorem cardReads : Obligations.CardReads := by
  intro c e s
  refine ⟨readsIssue_of_exec (by decide) rfl, readsIssue_of_exec (by decide) rfl, readsIssue_of_exec (by decide) rfl,
    readsIssue_of_exec (by decide) rfl, ?_⟩
  intro P hP
  obtain rfl := Option.some.inj hP
  refine ⟨rfl, rfl, fun i hi => ?_⟩
  rw [List.getD_eq_getElem?_getD, List.getElem?_map, List.getElem?_range hi]
  rfl

end Sys2Proof.Machine
end

section
/-! PROOFS. The contexts of a CSP as its slots change them: what a change of one context, and the choice of the context that runs next
(R144), leave of the cluster. -/

namespace Sys2Proof.Machine

open Sys2Proof

variable {s : State} {c x y : Nat}

/-! ### Contexts that are listed -/

theorem ctx_ne_of_st {o : CspCtx} (h : o.st ≠ 0) : o ≠ {} := fun e => h (congrArg CspCtx.st e)

theorem ctx_ne_of_en {o : CspCtx} (h : o.en = true) : o ≠ {} := fun e => absurd (h.symm.trans (congrArg CspCtx.en e)) nofun

theorem ctx_ne_of_mid {o : CspCtx} (h : o.mid = true) : o ≠ {} := fun e => absurd (h.symm.trans (congrArg CspCtx.mid e)) nofun

/-- A cluster with a context that is not as at reset lists its contexts. -/
theorem csp_ne_nil_of_ctx (h : getCsp s c x ≠ {}) : (getClu s c).csp ≠ [] := fun e => h (by rw [getCsp, e]; rfl)

/-- A cluster that lists contexts reads back. -/
theorem getClu_modClu_csp {f : Cluster → Cluster} (h : (f (getClu s c)).csp ≠ []) : getClu (modClu s c f) c = f (getClu s c) :=
  getClu_modClu_self s c f fun e => h (congrArg Cluster.csp e)

section

variable {f : CspCtx → CspCtx} (h : f (getCsp s c x) ≠ {})
include h

theorem getClu_modCsp : getClu (modCsp s c x f) c = { getClu s c with csp := tabMod {} (getClu s c).csp x f } :=
  getClu_modClu_csp (tabSet_ne_nil h _ _)

theorem getCsp_modCsp_other (hxy : x ≠ y) : getCsp (modCsp s c x f) c y = getCsp s c y := by
  rw [getCsp, getClu_modCsp h]
  exact tabGet_tabMod_other ({} : CspCtx) (getClu s c).csp f hxy

end

/-! ### The context that runs next (R144) -/

/-- A ready context is not as at reset. -/
theorem csp_ne_nil_of_ready (h : cspReady s (getCsp s c x) = true) : (getClu s c).csp ≠ [] := by
  simp only [cspReady, Bool.and_eq_true, decide_eq_true_eq] at h
  obtain ⟨⟨⟨hst, -⟩, -⟩, -⟩ := h
  exact csp_ne_nil_of_ctx (ctx_ne_of_st (hst.trans_ne Nat.one_ne_zero))

theorem cspReady_of_nextReady {cur n : Nat} (h : nextReady s c cur = some n) : n < 4 ∧ cspReady s (getCsp s c n) = true := by
  have hready := List.find?_some h
  obtain ⟨i, -, rfl⟩ := List.mem_map.1 (List.mem_of_find?_eq_some h)
  exact ⟨Nat.mod_lt _ (by decide), (Bool.and_eq_true_iff.1 hready).2⟩

theorem getClu_runCsp (n : Nat) (h : (getClu s c).csp ≠ []) :
    getClu (runCsp s c n) c = { getClu s c with cspRun := ⟨n % 4, Nat.mod_lt _ (by decide)⟩ } :=
  getClu_modClu_csp h

theorem getClu_turnCsp (n : Nat) (h : (getClu s c).csp ≠ []) : getClu (turnCsp s c n) c = { getClu s c with
    cspRun := ⟨n % 4, Nat.mod_lt _ (by decide)⟩, cspTurn := ⟨n % 4, Nat.mod_lt _ (by decide)⟩, cspTime := 0 } := by
  have hturn : getClu (modClu s c fun cl => { cl with cspTurn := ⟨n % 4, Nat.mod_lt _ (by decide)⟩, cspTime := 0 }) c = _ :=
    getClu_modClu_csp h
  rw [turnCsp, getClu_runCsp _ (by rw [hturn]; exact h), hturn]

/-- Who runs next changes only the record of who runs. -/
theorem getClu_pickCsp (s : State) (c : Nat) :
    ∃ run turn time, getClu (pickCsp s c) c = { getClu s c with cspRun := run, cspTurn := turn, cspTime := time } := by
  unfold pickCsp
  extract_lets cl o zero turn
  split
  · exact ⟨_, _, _, rfl⟩
  · split
    case isTrue hzero => exact ⟨_, _, _, getClu_runCsp _ (csp_ne_nil_of_ready (Bool.and_eq_true_iff.1 hzero).2)⟩
    case isFalse =>
      split
      case isTrue hturn =>
        simp only [Bool.and_eq_true] at hturn
        exact ⟨_, _, _, getClu_runCsp _ (csp_ne_nil_of_ready hturn.1.2)⟩
      case isFalse =>
        split
        case h_1 n hn => exact ⟨_, _, _, getClu_turnCsp n (csp_ne_nil_of_ready (cspReady_of_nextReady hn).2)⟩
        case h_2 => exact ⟨_, _, _, rfl⟩

section

variable (s : State) (c : Nat)

@[simp] theorem getCsp_pickCsp (y : Nat) : getCsp (pickCsp s c) c y = getCsp s c y := by
  obtain ⟨_, _, _, h⟩ := getClu_pickCsp s c
  rw [getCsp, h, getCsp]

@[simp] theorem sram_pickCsp : (getClu (pickCsp s c) c).sram = (getClu s c).sram := by
  obtain ⟨_, _, _, h⟩ := getClu_pickCsp s c
  rw [h]

@[simp] theorem cspHeld_pickCsp : (getClu (pickCsp s c) c).cspHeld = (getClu s c).cspHeld := by
  obtain ⟨_, _, _, h⟩ := getClu_pickCsp s c
  rw [h]

@[simp] theorem cspFailed_pickCsp : (getClu (pickCsp s c) c).cspFailed = (getClu s c).cspFailed := by
  obtain ⟨_, _, _, h⟩ := getClu_pickCsp s c
  rw [h]

@[simp] theorem selfTest_pickCsp : (getClu (pickCsp s c) c).selfTest = (getClu s c).selfTest := by
  obtain ⟨_, _, _, h⟩ := getClu_pickCsp s c
  rw [h]

end

/-! ### A slot under way -/

/-- The state in which a slot that issues has its effect: its bundle is under way (R144). -/
abbrev underWay (s : State) (k : Slot) : State := modCsp s k.c.val k.x.val fun o => { o with mid := true }

section

variable (s : State) (k : Slot)

/-- A slot under way changes only its context in the cluster. -/
theorem getClu_mid : getClu (underWay s k) k.c.val =
    { getClu s k.c.val with csp := tabMod {} (getClu s k.c.val).csp k.x.val fun o => { o with mid := true } } :=
  getClu_modCsp (mid_ne id _ rfl)

theorem sramMine_mid (p d a : Nat) : sramMine (underWay s k) p d a = sramMine s p d a := rfl

end

end Sys2Proof.Machine
end

section
/-! PROOFS. O1: the lane instructions on integers (R149, R155, R157). What a lane of a result holds, once for each way in which the CSP
makes a result lane by lane: as it is, or clamped to the range of its lane. -/

namespace Sys2Proof.Machine

open Sys2Proof

/-! ### Numbers of a lane -/

theorem two_pow_eq_double {w : Nat} (hw : 0 < w) : (2 : Int) ^ w = 2 * 2 ^ (w - 1) := by
  obtain ⟨n, rfl⟩ : ∃ n, w = n + 1 := ⟨w - 1, by omega⟩
  rw [Nat.add_sub_cancel, pow_succ, mul_comm]

/-- The signed value of a lane lies in the range of its width. -/
theorem toSigned_mem_range {w : Nat} (hw : 0 < w) (n : Nat) : -(2 ^ (w - 1) : Int) ≤ toSigned w n ∧ toSigned w n < 2 ^ (w - 1) := by
  have hdouble := two_pow_eq_double hw
  have hlt : n % 2 ^ w < 2 ^ w := Nat.mod_lt _ (Nat.two_pow_pos w)
  have hcast : ((2 ^ w : Nat) : Int) = 2 ^ w := by push_cast; rfl
  simp only [toSigned]
  split <;> omega

/-- A clamped number lies in its range. -/
theorem clampInt_mem_range {lo hi : Int} (hle : lo ≤ hi) (z : Int) : lo ≤ clampInt lo hi z ∧ clampInt lo hi z ≤ hi := by
  unfold clampInt
  split
  · omega
  · split <;> omega

/-- A clamp leaves a number as it is exactly where that lies in the range. -/
theorem clampInt_eq_self_iff {lo hi z : Int} : clampInt lo hi z = z ↔ lo ≤ z ∧ z ≤ hi := by
  unfold clampInt
  split
  · omega
  · split <;> omega

theorem clampBits_eq (w : Nat) (z : Int) : clampBits w z = clampInt (-(2 ^ (w - 1) : Int)) (2 ^ (w - 1) - 1) z := by
  simp only [clampBits]
  push_cast
  rfl

theorem clampBits_eq_self_iff (w : Nat) (z : Int) : clampBits w z = z ↔ -(2 ^ (w - 1) : Int) ≤ z ∧ z < 2 ^ (w - 1) := by
  have hpos : (0 : Int) < 2 ^ (w - 1) := by positivity
  rw [clampBits_eq, clampInt_eq_self_iff]
  omega

/-- The signed value of a clamped number comes back. -/
theorem toSigned_clampBits {w : Nat} (hw : 0 < w) (z : Int) : toSigned w (ofSigned w (clampBits w z)) = clampBits w z := by
  have hpos : (0 : Int) < 2 ^ (w - 1) := by positivity
  obtain ⟨hlo, hhi⟩ := clampInt_mem_range (lo := -(2 ^ (w - 1) : Int)) (hi := 2 ^ (w - 1) - 1) (by omega) z
  rw [← clampBits_eq] at hlo hhi
  exact toSigned_ofSigned hw hlo (by omega)

/-- A number shifted right stays in its range. -/
theorem shifted_mem_range {m x d : Int} (hd : 0 < d) (hlo : -m ≤ x) (hhi : x < m) : -m ≤ x / d ∧ x / d < m := by
  have hm : 0 < m := by omega
  refine ⟨Int.le_ediv_of_mul_le hd ?_, Int.ediv_lt_of_lt_mul hd ?_⟩
  · calc -m * d ≤ -m := by nlinarith
      _ ≤ x := hlo
  · calc x < m := hhi
      _ ≤ m * d := by nlinarith

/-! ### Lanes of a result -/

theorem ltBits_pos (t : Lt) : 0 < ltBits t := by cases t <;> decide

section

variable {t : Lt} {i : Nat} (hi : i < 512 / ltBits t)
include hi

theorem lane_mapLanes (f : Nat → Nat) (a : GranuleBits) :
    lane (ltBits t) (mapLanes (ltBits t) f a) i = f (lane (ltBits t) a i) % 2 ^ ltBits t :=
  lane_ofLanes t _ hi

theorem lane_mapLanes2 (f : Nat → Nat → Nat) (a b : GranuleBits) :
    lane (ltBits t) (mapLanes2 (ltBits t) f a b) i = f (lane (ltBits t) a i) (lane (ltBits t) b i) % 2 ^ ltBits t :=
  lane_ofLanes t _ hi

end

/-- A register of signed lanes, each clamped to the range of its width (R155). -/
def clampedD (w : Nat) (g : Nat → Int) : GranuleBits :=
  packD w (((List.range (512 / w)).map g).map fun x => ofSigned w (clampBits w x))

/-- A lane of such a register is clamped. -/
def anyClamped (w : Nat) (g : Nat → Int) : Bool := ((List.range (512 / w)).map g).any fun x => decide (clampBits w x ≠ x)

theorem toSigned_lane_clampedD {t : Lt} {i : Nat} (hi : i < 512 / ltBits t) (g : Nat → Int) :
    toSigned (ltBits t) (lane (ltBits t) (clampedD (ltBits t) g) i) =
      clampInt (-(2 ^ (ltBits t - 1) : Int)) (2 ^ (ltBits t - 1) - 1) (g i) := by
  rw [clampedD, List.map_map, lane_ofLanes t _ hi, toSigned_mod, ← clampBits_eq]
  exact toSigned_clampBits (ltBits_pos t) (g i)

theorem anyClamped_eq_false_iff (w : Nat) (g : Nat → Int) :
    anyClamped w g = false ↔ ∀ i, i < 512 / w → -(2 ^ (w - 1) : Int) ≤ g i ∧ g i < 2 ^ (w - 1) := by
  simp [anyClamped, List.any_eq_false, clampBits_eq_self_iff]

/-! ### The maximum and the minimum (R156) -/

section

variable {t : Lt} (ht : ltInt t = true)
include ht

theorem laneMaxMin_of_int (isMax : Bool) (a b : Nat) : laneMaxMin t isMax a b =
    if isMax then (if toSigned (ltBits t) a < toSigned (ltBits t) b then b else a)
    else (if toSigned (ltBits t) b < toSigned (ltBits t) a then b else a) := by
  cases t with
  | h | w | l => rfl
  | c | f | d => exact absurd ht nofun

theorem toSigned_laneMax (a b : Nat) :
    toSigned (ltBits t) (laneMaxMin t true a b) = max (toSigned (ltBits t) a) (toSigned (ltBits t) b) := by
  rw [laneMaxMin_of_int ht, if_pos rfl]
  split
  · exact (max_eq_right (by omega)).symm
  · exact (max_eq_left (by omega)).symm

theorem toSigned_laneMin (a b : Nat) :
    toSigned (ltBits t) (laneMaxMin t false a b) = min (toSigned (ltBits t) a) (toSigned (ltBits t) b) := by
  rw [laneMaxMin_of_int ht, if_neg Bool.false_ne_true]
  split
  · exact (min_eq_right (by omega)).symm
  · exact (min_eq_left (by omega)).symm

end

/-! ### Instructions that issue -/

section

variable {k : Slot} {s : State} (h : SlotIssues k s)
include h

/-- A saturating lane instruction that issues clamps every lane, and marks a clamp in any (R155). -/
theorem vecSat_issues (t : Lt) (d u v : Fin 32) (f : Int → Int → Int) :
    let x (i : Nat) : Int := f (toSigned (ltBits t) (lane (ltBits t) (srcD s k u) i)) (toSigned (ltBits t) (lane (ltBits t) (srcD s k v) i))
    vecSat k t d u v f s = .next (slotEnd k (slotSat k (anyClamped (ltBits t) x) (slotEffect k
      (writesD d (clampedD (ltBits t) x) (srcPsn s k u || srcPsn s k v) (anyClamped (ltBits t) x)) s))) := by
  simp only [vecSat, cspSlot_issues h, oldRegs_mid, wrD_setSat]
  rfl

theorem vshr_issues (t : Lt) (d u : Fin 32) (n : Fin 64) :
    ∃ r, exec (.vshr k t d u n) s = .next (slotEnd k (slotEffect k (writesD d r (srcPsn s k u) false) s)) ∧
      ∀ i, i < 512 / ltBits t → toSigned (ltBits t) (lane (ltBits t) r i) =
        toSigned (ltBits t) (lane (ltBits t) (srcD s k u) i) / ((2 ^ n.val : Nat) : Int) := by
  refine ⟨_, vec1_issues h d u _, fun i hi => ?_⟩
  have hd : (0 : Int) < ((2 ^ n.val : Nat) : Int) := mod_cast Nat.two_pow_pos n.val
  obtain ⟨hlo, hhi⟩ := toSigned_mem_range (ltBits_pos t) (lane (ltBits t) (srcD s k u) i)
  obtain ⟨hlo', hhi'⟩ := shifted_mem_range hd hlo hhi
  rw [lane_mapLanes hi, toSigned_mod, Int.fdiv_eq_ediv_of_nonneg _ hd.le, toSigned_ofSigned (ltBits_pos t) hlo' hhi']

end

/-- Settles O1: a result made lane by lane reads back lane by lane (lane_mapLanes2, lane_mapLanes), a clamped one reads its clamped numbers
(toSigned_lane_clampedD), and a shifted one stays in the range of its lane (vshr_issues). -/
theorem cspLaneArithmetic : Obligations.CspLaneArithmetic := by
  unfold Obligations.CspLaneArithmetic
  refine ⟨fun k t d u v s h ht => ⟨?vadd, ?vsub, ?vmax, ?vmin, fun n hn => ⟨?vshl, vshr_issues h t d u n⟩⟩,
    fun k t d u v s h ht => ⟨?vadds, ?vsubs⟩⟩
  case vadd => exact ⟨_, vec2_issues h d u v _, fun i hi => lane_mapLanes2 hi _ _ _⟩
  case vsub =>
    refine ⟨_, vec2_issues h d u v _, fun i hi => ?_⟩
    rw [lane_mapLanes2 hi, Nat.add_sub_assoc (lane_lt _ _ _).le]
  case vmax =>
    refine ⟨_, vec2_issues h d u v _, fun i hi => ?_⟩
    rw [lane_mapLanes2 hi, toSigned_mod, toSigned_laneMax ht]
  case vmin =>
    refine ⟨_, vec2_issues h d u v _, fun i hi => ?_⟩
    rw [lane_mapLanes2 hi, toSigned_mod, toSigned_laneMin ht]
  case vshl => exact ⟨_, vec1_issues h d u _, fun i hi => lane_mapLanes hi _ _⟩
  case vadds => exact ⟨_, _, vecSat_issues h t d u v _, fun i hi => toSigned_lane_clampedD hi _, anyClamped_eq_false_iff _ _⟩
  case vsubs => exact ⟨_, _, vecSat_issues h t d u v _, fun i hi => toSigned_lane_clampedD hi _, anyClamped_eq_false_iff _ _⟩

end Sys2Proof.Machine
end

section
/-! PROOFS. O2: the bitwise, select, permute and scalar instructions of the CSP (R150, R152, R157). -/

namespace Sys2Proof.Machine

open Sys2Proof

/-! ### Bits -/

/-- A select takes each bit from one source or the other. -/
theorem getLsbD_select (mask a b : GranuleBits) {i : Nat} (hi : i < 512) :
    ((mask &&& a) ||| (~~~mask &&& b)).getLsbD i = if mask.getLsbD i then a.getLsbD i else b.getLsbD i := by
  rw [BitVec.getLsbD_or, BitVec.getLsbD_and, BitVec.getLsbD_and, BitVec.getLsbD_not, decide_eq_true hi]
  cases mask.getLsbD i <;> simp

theorem getLsbD_aligned_mask : ∀ i : Fin 32, (0xFFFFFFC0 : Word).getLsbD i = decide (6 ≤ i.val) := by decide

/-- R152: SETB and SETL clear bits [5:0]. -/
theorem toNat_clear_low_bits (v : Word) : (v &&& (0xFFFFFFC0 : Word)).toNat = v.toNat / 64 * 64 := by
  have hshift : v &&& (0xFFFFFFC0 : Word) = (v >>> 6) <<< 6 := by
    refine BitVec.eq_of_getLsbD_eq fun i hi => ?_
    rw [BitVec.getLsbD_and, getLsbD_aligned_mask ⟨i, hi⟩, BitVec.getLsbD_shiftLeft, BitVec.getLsbD_ushiftRight, decide_eq_true hi]
    by_cases h6 : i < 6
    · simp [h6]
    · simp [h6, Nat.not_lt.1 h6]
  have hlt := v.isLt
  rw [hshift, BitVec.toNat_shiftLeft, BitVec.toNat_ushiftRight, Nat.shiftLeft_eq, Nat.shiftRight_eq_div_pow]
  omega

/-! ### Instructions that issue -/

section

variable {k : Slot} {s : State} (h : SlotIssues k s)
include h

theorem vsel_issues (d m u v : Fin 32) : exec (.vsel k d m u v) s = .next (slotEnd k (slotEffect k
    (writesD d ((srcD s k m &&& srcD s k u) ||| (~~~srcD s k m &&& srcD s k v))
      (srcPsn s k m || srcPsn s k u || srcPsn s k v) false) s)) := by
  show execVsel k d m u v s = _
  simp only [execVsel, cspSlot_issues h, oldRegs_mid, wrD_mid]
  rfl

theorem vperm_issues (d u v : Fin 32) : exec (.vperm k d u v) s = .next (slotEnd k (slotEffect k
    (writesD d (packD 16 ((List.range 32).map fun i => lane 16 (srcD s k u) (lane 16 (srcD s k v) i % 32)))
      (srcPsn s k u || srcPsn s k v) false) s)) :=
  vec2_issues h d u v fun a b => packD 16 ((List.range 32).map fun i => lane 16 a (lane 16 b i % 32))

/-- R150: a poisoned source of VMOVS stops the context. -/
theorem vmovs_issues (m : Fin 16) (u : Fin 32) (i : Fin 16) : exec (.vmovs k m u i) s = .next (slotEnd k (
    if srcPsn s k u then faultCsp (slotEffect k id s) k.c.val k.x.val 5
    else slotEffect k (fun o => { o with
      regs := { o.regs with m := tabSet 0 o.regs.m m.val (BitVec.ofNat 32 (lane 32 (srcD s k u) i.val)) } }) s)) := by
  show execVmovs k m u i s = _
  simp only [execVmovs, cspSlot_issues h, oldRegs_mid, modRegs, modCsp_mid]
  rfl

/-- A DBNZ whose counter is not spent branches. -/
theorem dbnz_issues (m : Fin 16) (t : Fin 1024) : let x := tabGet 0 (oldRegs s k).m m.val - 1
    exec (.dbnz k m t) s = .next (slotEnd k (slotEffect k (fun o =>
      { o with regs := { o.regs with m := tabSet 0 o.regs.m m.val x }, branch := if x = 0 then o.branch else some t.val }) s)) := by
  intro x
  show execDbnz k m t s = _
  simp only [execDbnz, cspSlot_issues h, oldRegs_mid, modRegs, modCsp_mid]
  by_cases hx : x = 0
  · simp only [x] at hx
    simp only [x, hx, if_true]
  · simp only [x] at hx
    simp only [x, hx, if_false]
    rw [modCsp_slotEffect]
    exact fun o ho => ho

end

/-- Settles O2: each instruction writes one register, which reads its operands of before the bundle; only VMOVS can stop its context. -/
theorem cspBitwiseAndScalar : Obligations.CspBitwiseAndScalar := by
  unfold Obligations.CspBitwiseAndScalar
  refine ⟨fun k d m u v s h => ⟨vec2_issues h d u v _, vec2_issues h d u v _, vec2_issues h d u v _,
      ⟨_, vsel_issues h d m u v, fun i hi => getLsbD_select _ _ _ hi⟩, ⟨_, vperm_issues h d u v, fun i hi => ?vperm⟩⟩,
    fun k s h => ⟨fun p v => ?movp, fun p v => ?addp, fun m v => ?movm, fun b v => ⟨_, ?setb, toNat_clear_low_bits _⟩,
      fun l v => ⟨_, ?setl, toNat_clear_low_bits _⟩, vmovs_issues h, dbnz_issues h⟩⟩
  case movp => exact scalar_issues h fun o r => { r with p := tabSet 0 r.p p.val (scalarVal o v) }
  case addp => exact scalar_issues h fun o r => { r with p := tabSet 0 r.p p.val (tabGet 0 o.p p.val + scalarVal o v) }
  case movm => exact scalar_issues h fun o r => { r with m := tabSet 0 r.m m.val (scalarVal o v) }
  case setb => exact scalar_issues h fun o r => { r with b := tabSet 0 r.b b.val (scalarVal o v &&& 0xFFFFFFC0) }
  case setl => exact scalar_issues h fun o r => { r with l := tabSet 0 r.l l.val (scalarVal o v &&& 0xFFFFFFC0) }
  case vperm => exact (lane_ofLanes .h _ hi).trans (Nat.mod_eq_of_lt (lane_lt _ _ _))

end Sys2Proof.Machine
end

section
/-! PROOFS. O3: the multiply-accumulates and the other instructions on the accumulators (R155, R157). -/

namespace Sys2Proof.Machine

open Sys2Proof

/-! ### Lanes of an accumulator -/

/-- A lane of a packed accumulator. -/
theorem accLane_packAcc {l : List Int} (hl : l.length = 32) (i : Nat) :
    accLane (packAcc l) i = toSigned 40 ((l.map (ofSigned 40)).getD i 0) := by
  have hlt := packNat_lt 40 (l.map (ofSigned 40))
  rw [show 40 * (l.map (ofSigned 40)).length = 1280 by rw [List.length_map, hl]] at hlt
  rw [accLane, packAcc, BitVec.toNat_ofNat, Nat.mod_eq_of_lt hlt, ← toSigned_mod, packNat_lane, toSigned_mod]

/-- An accumulator of lanes clamped as R155 says. -/
def clampedAcc (g : Nat → Int) : BitVec 1280 := packAcc (((List.range 32).map g).map clampAcc)

/-- A lane of such an accumulator is clamped. -/
def anyAccClamped (g : Nat → Int) : Bool := ((List.range 32).map g).any fun x => decide (clampAcc x ≠ x)

/-- An accumulator lane stays within the clamp of R155. -/
theorem clampAcc_mem_range (z : Int) : -(2 ^ 39 : Int) ≤ clampAcc z ∧ clampAcc z < 2 ^ 39 := by
  obtain ⟨hlo, hhi⟩ := clampInt_mem_range (lo := -(2 ^ 39 - 1)) (hi := 2 ^ 39 - 1) (by decide) z
  rw [clampAcc]
  omega

theorem accLane_clampedAcc (g : Nat → Int) {i : Nat} (hi : i < 32) : accLane (clampedAcc g) i = clampAcc (g i) := by
  obtain ⟨hlo, hhi⟩ := clampAcc_mem_range (g i)
  have hget : ((((List.range 32).map g).map clampAcc).map (ofSigned 40)).getD i 0 = ofSigned 40 (clampAcc (g i)) := by
    simp [List.getD, hi]
  rw [clampedAcc, accLane_packAcc (by simp), hget, toSigned_ofSigned (by decide) hlo hhi]

theorem anyAccClamped_eq_false_iff (g : Nat → Int) : anyAccClamped g = false ↔ ∀ i, i < 32 → clampAcc (g i) = g i := by
  simp [anyAccClamped, List.any_eq_false]

/-! ### What a product adds (R157) -/

section

variable (u v : GranuleBits)

theorem macTerm_even (conj : Bool) (j : Nat) : macTerm true conj u v (2 * j) =
    lane16 u (2 * j) * lane16 v (2 * j) - lane16 u (2 * j + 1) * (if conj then -lane16 v (2 * j + 1) else lane16 v (2 * j + 1)) := by
  simp [macTerm, Nat.mul_comm]

theorem macTerm_odd (conj : Bool) (j : Nat) : macTerm true conj u v (2 * j + 1) =
    lane16 u (2 * j) * (if conj then -lane16 v (2 * j + 1) else lane16 v (2 * j + 1)) + lane16 u (2 * j + 1) * lane16 v (2 * j) := by
  have hpair : (2 * j + 1) / 2 * 2 = 2 * j := by omega
  simp [macTerm, hpair]

end

/-! ### Instructions that issue -/

/-- A slot that adds to the lanes of an accumulator. -/
theorem accAdd_mid (s : State) (k : Slot) (a : Fin 8) (psn : Bool) (xs : Nat → Int) :
    let g (i : Nat) : Int := accLane (srcAcc s k a) i + xs i
    accAdd k a psn xs (underWay s k) =
      slotSat k (anyAccClamped g) (slotEffect k (writesAcc a (clampedAcc g) (psn || srcAccPsn s k a) (anyAccClamped g)) s) := by
  simp only [accAdd, oldRegs_mid, wrAcc_setSat]
  rfl

section

variable {k : Slot} {s : State} (h : SlotIssues k s)
include h

theorem vmac_issues (t : Lt) (a : Fin 8) (u v : Fin 32) :
    let g (i : Nat) : Int := accLane (srcAcc s k a) i + macTerm (decide (t = .c)) false (srcD s k u) (srcD s k v) i
    exec (.vmac k t a u v) s = .next (slotEnd k (slotSat k (anyAccClamped g) (slotEffect k
      (writesAcc a (clampedAcc g) (srcPsn s k u || srcPsn s k v || srcAccPsn s k a) (anyAccClamped g)) s))) := by
  show execVmac k t a u v s = _
  simp only [execVmac, cspSlot_issues h, oldRegs_mid, accAdd_mid]
  rfl

theorem vmacj_issues (a : Fin 8) (u v : Fin 32) :
    let g (i : Nat) : Int := accLane (srcAcc s k a) i + macTerm true true (srcD s k u) (srcD s k v) i
    exec (.vmacj k a u v) s = .next (slotEnd k (slotSat k (anyAccClamped g) (slotEffect k
      (writesAcc a (clampedAcc g) (srcPsn s k u || srcPsn s k v || srcAccPsn s k a) (anyAccClamped g)) s))) := by
  show execVmacj k a u v s = _
  simp only [execVmacj, cspSlot_issues h, oldRegs_mid, accAdd_mid]
  rfl

theorem vclr_issues (a : Fin 8) : exec (.vclr k a) s = .next (slotEnd k (slotEffect k (writesAcc a 0 false false) s)) := by
  show execVclr k a s = _
  rw [execVclr, cspSlot_issues h]
  exact congrArg (fun t => Host.Outcome.next (slotEnd k t)) (wrAcc_setSat s k a 0 false false)

theorem vbias_issues (a : Fin 8) (n : Nat) :
    let g (i : Nat) : Int := accLane (srcAcc s k a) i + ((2 ^ (n - 1) : Nat) : Int)
    exec (.vbias k a n) s = .next (slotEnd k (slotSat k (anyAccClamped g) (slotEffect k
      (writesAcc a (clampedAcc g) (srcAccPsn s k a) (anyAccClamped g)) s))) := by
  show execVbias k a n s = _
  simp only [execVbias, cspSlot_issues h, accAdd_mid, Bool.false_or]

/-- VSHRN narrows all lanes of an accumulator to 16 bits, or those of one half to 32 (R157). -/
theorem vshrn_issues (t : Lt) (d : Fin 32) (a : Fin 8) (n : Nat) (half : Bool) :
    let g (i : Nat) : Int := Int.fdiv (accLane (srcAcc s k a) ((if ltBits t = 16 then 0 else 16 * b2n half) + i)) ((2 ^ n : Nat) : Int)
    exec (.vshrn k t d a n half) s = .next (slotEnd k (slotSat k (anyClamped (ltBits t) g) (slotEffect k
      (writesD d (clampedD (ltBits t) g) (srcAccPsn s k a) (anyClamped (ltBits t) g)) s))) := by
  show execVshrn k t d a n half s = _
  simp only [execVshrn, cspSlot_issues h, oldRegs_mid, wrD_setSat]
  rfl

end

theorem fdiv_two_pow (x : Int) (n : Nat) : Int.fdiv x ((2 ^ n : Nat) : Int) = x / ((2 ^ n : Nat) : Int) :=
  Int.fdiv_eq_ediv_of_nonneg _ (Int.natCast_nonneg _)

/-- Settles O3: a sum reads back clamped from its accumulator lane (accLane_clampedAcc), a narrowed lane from its data register
(toSigned_lane_clampedD); what each lane adds is macTerm. -/
theorem cspMultiplyAccumulate : Obligations.CspMultiplyAccumulate := by
  unfold Obligations.CspMultiplyAccumulate
  intro k a d u v s h x y c clamp psn
  refine ⟨⟨_, _, vmac_issues h .h a u v, fun i hi => accLane_clampedAcc _ hi⟩,
    ⟨_, _, vmac_issues h .c a u v, fun j hj => ⟨?cEven, ?cOdd⟩⟩, ⟨_, _, vmacj_issues h a u v, fun j hj => ⟨?jEven, ?jOdd⟩⟩,
    vclr_issues h a, fun n _ _ => ⟨_, _, vbias_issues h a n, fun i hi => ?bias, ?biasSat⟩,
    fun n _ => ⟨_, _, vshrn_issues h .h d a n false, fun i hi => ?narrow⟩,
    fun n half _ => ⟨_, _, vshrn_issues h .w d a n half, fun i hi => ?wide⟩⟩
  case cEven =>
    rw [accLane_clampedAcc _ (by omega)]
    exact congrArg (fun z => clamp (c (2 * j) + z)) (macTerm_even _ _ false j)
  case cOdd =>
    rw [accLane_clampedAcc _ (by omega)]
    exact congrArg (fun z => clamp (c (2 * j + 1) + z)) (macTerm_odd _ _ false j)
  case jEven =>
    rw [accLane_clampedAcc _ (by omega), macTerm_even, if_pos rfl, mul_neg, sub_neg_eq_add]
    rfl
  case jOdd =>
    rw [accLane_clampedAcc _ (by omega), macTerm_odd, if_pos rfl, mul_neg, neg_add_eq_sub]
    rfl
  case bias =>
    rw [accLane_clampedAcc _ hi]
    push_cast
    rfl
  case biasSat =>
    rw [anyAccClamped_eq_false_iff]
    push_cast
    rfl
  case narrow =>
    refine (toSigned_lane_clampedD (t := .h) hi _).trans ?_
    simp only [fdiv_two_pow, ltBits, if_true, Nat.zero_add]
    rfl
  case wide =>
    refine (toSigned_lane_clampedD (t := .w) hi _).trans ?_
    simp only [fdiv_two_pow]
    rfl

end Sys2Proof.Machine
end

section
/-! PROOFS. O5: REP, the waits and the fences of the CSP (R146, R152, R157, R158, R163, R164). -/

namespace Sys2Proof.Machine

open Sys2Proof

/-! ### A bundle that waits for the radio (R146) -/

theorem cspSlot_waits {k : Slot} {s : State} (hon : mainOn s = true) (hok : cspOk s k.c.val k.x.val = true)
    (hwaits : repWaits s k.c.val k.x.val = true) (f : State → State) : cspSlot k s f = .next (waitRep s k.c.val k.x.val) := by
  simp only [cspSlot, inRun, hon, hok, hwaits, if_true, Bool.not_true, Bool.false_eq_true, if_false]

theorem rep_waits {k : Slot} {s : State} (hon : mainOn s = true) (hok : cspOk s k.c.val k.x.val = true)
    (hwaits : repWaits s k.c.val k.x.val = true) (n : Nat) : exec (.rep k n) s = .next (waitRep s k.c.val k.x.val) := by
  show execRep k n s = _
  rw [execRep, cspSlot_waits hon hok hwaits]

theorem vand_waits {k : Slot} {s : State} (hon : mainOn s = true) (hok : cspOk s k.c.val k.x.val = true)
    (hwaits : repWaits s k.c.val k.x.val = true) (d u v : Fin 32) : exec (.vand k d u v) s = .next (waitRep s k.c.val k.x.val) := by
  show execVand k d u v s = _
  rw [execVand, vec2, cspSlot_waits hon hok hwaits]

theorem wait_waitRep (s : State) (c x : Nat) : (getCsp (waitRep s c x) c x).wait = .repHeld := by
  rw [waitRep, getCsp_pickCsp, getCsp_modCsp_self]
  exact ctx_ne_of_st (Nat.succ_ne_zero 1)

/-! ### What a slot under way reads of its cluster -/

section

variable (s : State) (k : Slot)

theorem repBarred_mid : repBarred (underWay s k) k.c.val k.x.val = repBarred s k.c.val k.x.val := by
  rw [repBarred, getCsp_mid, getClu_mid, repBarred]

theorem waitHeld_mid (p src : Nat) :
    waitHeld (underWay s k) k.c.val p src = waitHeld s k.c.val p src := by
  rw [waitHeld, getEng, getLa, getClu_mid]
  rfl

theorem waitCount_mid (src : Nat) :
    waitCount (underWay s k) k.c.val src = waitCount s k.c.val src := by
  rw [waitCount, getEng, getLa, getClu_mid]
  rfl

end

/-! ### The units of a window (R164) -/

/-- The SRAM units that n bytes from address a touch, or the one at a where n is 0. -/
def windowUnits (a n : Nat) : List Nat :=
  if n = 0 then [a / 2 ^ 18] else (List.range ((a + n - 1) / 2 ^ 18 - a / 2 ^ 18 + 1)).map (fun i => a / 2 ^ 18 + i)

theorem mem_windowUnits {a n u : Nat} : u ∈ windowUnits a n ↔ a / 2 ^ 18 ≤ u ∧ u ≤ (a + max n 1 - 1) / 2 ^ 18 := by
  unfold windowUnits
  split
  case isTrue h0 =>
    subst h0
    simp only [List.mem_singleton, Nat.zero_max, Nat.add_sub_cancel]
    omega
  case isFalse h0 =>
    have hmax : max n 1 = n := by omega
    simp only [List.mem_map, List.mem_range, hmax]
    constructor
    · rintro ⟨i, hi, rfl⟩
      omega
    · exact fun hu => ⟨u - a / 2 ^ 18, by omega, by omega⟩

theorem all_windowUnits_iff {a n : Nat} {p : Nat → Bool} :
    (windowUnits a n).all p = true ↔ ∀ u, a / 2 ^ 18 ≤ u → u ≤ (a + max n 1 - 1) / 2 ^ 18 → p u = true := by
  simp only [List.all_eq_true, mem_windowUnits, and_imp]

/-! ### Instructions that issue -/

section

variable {k : Slot} {s : State} (h : SlotIssues k s)
include h

theorem rep_issues (n : Nat) : exec (.rep k n) s = .next (slotEnd k (
    if repBarred s k.c.val k.x.val then waitRep (slotEffect k id s) k.c.val k.x.val
    else slotEffect k (fun o => { o with repArm := n }) s)) := by
  show execRep k n s = _
  simp only [execRep, cspSlot_issues h, repBarred_mid, modCsp_mid]
  rfl

theorem cspWaitb_issues : exec (.cspWaitb k) s = .next (slotEnd k (slotEffect k (fun o => { o with wait := .boundary }) s)) := by
  show execCspWaitb k s = _
  rw [execCspWaitb, cspSlot_issues h, modCsp_mid]

theorem waitc_issues (src : Fin 32) (m : Fin 16) : exec (.waitc k src m) s = .next (slotEnd k (
    if !waitHeld s k.c.val (getCsp s k.c.val k.x.val).part src.val then faultCsp (slotEffect k id s) k.c.val k.x.val 3
    else if countReached (waitCount s k.c.val src.val) (tabGet 0 (oldRegs s k).m m.val) then slotEffect k id s
    else slotEffect k (fun o => { o with wait := .count src.val (tabGet 0 (oldRegs s k).m m.val) }) s)) := by
  show execWaitc k src m s = _
  simp only [execWaitc, cspSlot_issues h, oldRegs_mid, getCsp_mid, waitHeld_mid, waitCount_mid, modCsp_mid]
  rfl

theorem fset_issues (f : Fin 8) (p m : Fin 16) :
    let a := (tabGet 0 (oldRegs s k).p p.val).toNat
    let n := (tabGet 0 (oldRegs s k).m m.val).toNat
    exec (.fset k f p m) s = .next (slotEnd k (
      if decide (2 ^ 24 < a + n) ||
          !(windowUnits a n).all (fun u => sramMine s (getCsp s k.c.val k.x.val).part k.c.val (2 ^ 18 * u)) then
        faultCsp (slotEffect k id s) k.c.val k.x.val 1
      else if a % 4096 ≠ 0 ∨ n % 4096 ≠ 0 then faultCsp (slotEffect k id s) k.c.val k.x.val 2
      else modClu (slotEffect k id s) k.c.val (fun cl => { cl with
        fence := tabSet {} cl.fence f.val { base := a / 4096, len := n / 4096, closed := false, ctx := k.x } }))) := by
  show execFset k f p m s = _
  simp only [execFset, cspSlot_issues h, oldRegs_mid, getCsp_mid, sramMine_mid]
  rfl

theorem fclose_issues (f : Fin 8) : exec (.fclose k f) s = .next (slotEnd k (modClu (slotEffect k id s) k.c.val
    (fun cl => { cl with fence := tabMod {} cl.fence f.val (fun x => { x with closed := true }) }))) := by
  show execFclose k f s = _
  rw [execFclose, cspSlot_issues h]
  rfl

theorem fopen_issues (f : Fin 8) : exec (.fopen k f) s = .next (slotEnd k (modClu (slotEffect k id s) k.c.val
    (fun cl => { cl with fence := tabMod {} cl.fence f.val (fun x => { x with closed := false }) }))) := by
  show execFopen k f s = _
  rw [execFopen, cspSlot_issues h]
  rfl

end

/-- Settles O5: a slot that issues acts on its context or on the windows of its cluster (rep_issues, waitc_issues, fset_issues); one whose
bundle holds a REP that is barred only makes its context wait (cspSlot_waits). -/
theorem cspControl : Obligations.CspControl := by
  unfold Obligations.CspControl
  refine ⟨fun k s hon hok hwaits => ⟨rep_waits hon hok hwaits, vand_waits hon hok hwaits, wait_waitRep s _ _⟩,
    fun k s h => ⟨fun n hbar => ?rep, fun n hbar => ?repBarred, cspWaitb_issues h, fun src m hheld => ?waitc,
      fun src m hheld => ?waitcFault, fun f p m => ?fset, fclose_issues h, fopen_issues h⟩⟩
  case rep => rw [rep_issues h, hbar, if_neg Bool.false_ne_true]
  case repBarred => rw [rep_issues h, hbar, if_pos rfl]
  case waitc => rw [waitc_issues h, hheld, Bool.not_true, if_neg Bool.false_ne_true]
  case waitcFault => rw [waitc_issues h, hheld, Bool.not_false, if_pos rfl]
  case fset =>
    intro a n mine
    have hmine : (windowUnits a n).all (fun u => sramMine s (getCsp s k.c.val k.x.val).part k.c.val (2 ^ 18 * u)) = true ↔ mine :=
      all_windowUnits_iff
    have hout : (decide (2 ^ 24 < a + n) ||
        !(windowUnits a n).all (fun u => sramMine s (getCsp s k.c.val k.x.val).part k.c.val (2 ^ 18 * u))) = true ↔
        2 ^ 24 < a + n ∨ ¬mine := by
      rw [Bool.or_eq_true, decide_eq_true_iff, Bool.not_eq_true', ← hmine, Bool.not_eq_true]
    refine ⟨fun hfit ha hn hm => ?_, fun hbad => ?_, fun hfit hm hodd => ?_⟩
    · rw [fset_issues h, if_neg fun e => (hout.1 e).elim (Nat.not_lt.2 hfit) fun hnot => hnot hm,
        if_neg fun e => e.elim (fun e => e ha) fun e => e hn]
    · rw [fset_issues h, if_pos (hout.2 hbad)]
    · rw [fset_issues h, if_neg fun e => (hout.1 e).elim (Nat.not_lt.2 hfit) fun hnot => hnot hm, if_pos hodd]

end Sys2Proof.Machine
end

section
/-! PROOFS. O6: the loads and the store of the CSP, and the faults of their addresses (R150 to R152, R154, R157, R412). -/

namespace Sys2Proof.Machine

open Sys2Proof

/-! ### The check of an address (R152) -/

section

variable {s : State} {p c a n : Nat}

theorem accessCause_outside (h : sramMine s p c a = false ∨ sramMine s p c (a + n - 1) = false) : accessCause s p c a n = 1 := by
  rw [accessCause, if_pos (by simpa using h)]

section

variable (hfirst : sramMine s p c a = true) (hlast : sramMine s p c (a + n - 1) = true)
include hfirst hlast

theorem accessCause_inside : accessCause s p c a n = if a % n ≠ 0 then 2 else 0 := by
  rw [accessCause, hfirst, hlast, Bool.not_true, Bool.or_self, if_neg Bool.false_ne_true]

theorem accessCause_misaligned (h : a % n ≠ 0) : accessCause s p c a n = 2 := by
  rw [accessCause_inside hfirst hlast, if_pos h]

theorem accessCause_aligned (h : a % n = 0) : accessCause s p c a n = 0 := by
  rw [accessCause_inside hfirst hlast, if_neg (not_not.2 h)]

end

/-! ### Errors of the SRAM (R412) -/

theorem cspEcc_correctable {ecc : Ecc} (h : ecc ≠ .uncorrectable) : cspEcc s c a ecc = s := by
  cases ecc with
  | clean | corrected => rfl
  | uncorrectable => exact absurd rfl h

theorem clusters_sramUe (s : State) (c a : Nat) :
    (sramUe s c a).clusters = (modClu s c fun cl => { cl with sram := setGranPsn cl.sram (a / 64) true }).clusters := by
  unfold sramUe
  extract_lets s1
  split
  · exact clusters_evPart s1 _ _ _
  · rfl

/-- An uncorrectable error poisons its granule. -/
theorem getClu_sramUe (a : Nat) (h : (getClu s c).csp ≠ []) :
    getClu (sramUe s c a) c = { getClu s c with sram := setGranPsn (getClu s c).sram (a / 64) true } := by
  rw [getClu, clusters_sramUe]
  exact getClu_modClu_csp h

theorem granPsn_setGranPsn (m : PMem) (g : Nat) : granPsn (setGranPsn m g true) g = true :=
  tabGet_tabSet_self false m.psn g nofun

end

theorem accessCause_mid (s : State) (k : Slot) (p c a n : Nat) : accessCause (underWay s k) p c a n = accessCause s p c a n := rfl

/-! ### The access, and Pn after it (R151) -/

/-- Registers after an access left q in Pn. -/
def stepsP (p : Fin 16) (q : Word) (r : CspRegs) : CspRegs := { r with p := tabSet 0 r.p p.val q }

/-- The address of a slot's access, Pn as before its bundle (R154). -/
abbrev cspAddr (s : State) (k : Slot) (p : Fin 16) : Nat := (tabGet 0 (oldRegs s k).p p.val).toNat

/-- The cause that stops a slot's access of n bytes, 0 where it may go on (R152). -/
abbrev cspCause (s : State) (k : Slot) (p : Fin 16) (n : Nat) : Nat :=
  accessCause s (getCsp s k.c.val k.x.val).part k.c.val (cspAddr s k p) n

/-- What a slot's access leaves in Pn (R151). -/
abbrev cspNextP (s : State) (k : Slot) (p m : Fin 16) (circ : Bool) : Word :=
  let r := oldRegs s k
  postModify (tabGet 0 r.p p.val) (tabGet 0 r.m m.val) circ (tabGet 0 r.b p.val) (tabGet 0 r.l p.val)

section

variable {k : Slot} {s : State} {p : Fin 16} {circ : Bool} (h : SlotIssues k s)
include h

theorem cspAccess_issues (m : Fin 16) (n : Nat) (f : State → Nat → State) :
    cspAccess k p m circ n f s = .next (slotEnd k (
      if cspCause s k p n ≠ 0 then faultCsp (slotEffect k id s) k.c.val k.x.val (cspCause s k p n)
      else modRegs (f (underWay s k) (cspAddr s k p)) k (stepsP p (cspNextP s k p m (circ && decide (p.val < 8)))))) := by
  simp only [cspAccess, cspSlot_issues h, oldRegs_mid, getCsp_mid, accessCause_mid]
  rfl

theorem cspAccess_stops {n cause : Nat} (m : Fin 16) (f : State → Nat → State) (hne : cause ≠ 0)
    (hcause : cspCause s k p n = cause) :
    cspAccess k p m circ n f s = .next (slotEnd k (faultCsp (slotEffect k id s) k.c.val k.x.val cause)) := by
  subst hcause
  rw [cspAccess_issues h, if_pos hne]

theorem cspAccess_goes {n : Nat} (m : Fin 16) (f : State → Nat → State) (hwf : circWf p circ = true)
    (hcause : cspCause s k p n = 0) :
    cspAccess k p m circ n f s =
      .next (slotEnd k (modRegs (f (underWay s k) (cspAddr s k p)) k (stepsP p (cspNextP s k p m circ)))) := by
  have hcirc : (circ && decide (p.val < 8)) = circ := by
    cases circ with
    | false => rfl
    | true => simpa [circWf] using hwf
  rw [cspAccess_issues h, if_neg (not_not.2 hcause), hcirc]

end

/-! ### What a load reads and writes -/

section

variable {k : Slot} {s : State}

theorem granData_mid (g : Nat) : granData (getClu (underWay s k) k.c.val).sram g = granData (getClu s k.c.val).sram g := by
  rw [getClu_mid]

theorem sramNum_mid (a n : Nat) : sramNum (getClu (underWay s k) k.c.val) a n = sramNum (getClu s k.c.val) a n := by
  rw [getClu_mid]
  rfl

theorem cspPsn_mid (a : Nat) : cspPsn (underWay s k) k.c.val a = cspPsn s k.c.val a := by
  rw [cspPsn, getClu_mid]
  rfl

theorem cspPsn_of_granPsn {c a : Nat} (h : granPsn (getClu s c).sram (a / 64) = true) : cspPsn s c a = true := by
  rw [cspPsn, h, Bool.true_or]

/-- A load that meets no error. -/
theorem modRegs_wrD_mid (d : Fin 32) (v : GranuleBits) (psn : Bool) (g : CspRegs → CspRegs) :
    modRegs (wrD (underWay s k) k d.val v psn) k g =
      slotEffect k (fun o => { writesD d v psn false o with regs := g (writesD d v psn false o).regs }) s := by
  rw [wrD_mid, modRegs, modCsp_slotEffect]
  exact fun o ho => ho

/-- R150: a load of poisoned data leaves the register poisoned; the bundle's other slots still read it as it was. -/
theorem loaded_poisoned {d : Fin 32} {v : GranuleBits} {p : Fin 16} {q : Word} (hmid : (getCsp s k.c.val k.x.val).mid = true) :
    let t := modRegs (wrD s k d.val v true) k (stepsP p q)
    srcPsn t k d = srcPsn s k d ∧ rdDPsn (getCsp t k.c.val k.x.val).regs d.val = true ∧
      (getClu t k.c.val).sram = (getClu s k.c.val).sram := by
  intro t
  have ht : t = modCsp s k.c.val k.x.val fun o => { o with regs := stepsP p q { o.regs with
      d := tabSet 0 o.regs.d d.val v, dPsn := tabSet false o.regs.dPsn d.val true } } :=
    modCsp_modCsp _ _ _ _ _ (ctx_ne_of_mid hmid)
  rw [srcPsn, oldRegs, ht, getCsp_modCsp_self _ _ _ _ (ctx_ne_of_mid hmid), getClu_modCsp (ctx_ne_of_mid hmid)]
  exact ⟨rfl, tabGet_tabSet_self false _ _ nofun, rfl⟩

/-- R412: an uncorrectable error under a slot poisons the granule and leaves the context as it is. -/
theorem sramUe_mid (a : Nat) :
    let t := sramUe (underWay s k) k.c.val a
    getCsp t k.c.val k.x.val = { getCsp s k.c.val k.x.val with mid := true } ∧ granPsn (getClu t k.c.val).sram (a / 64) = true := by
  intro t
  have hlisted : getCsp (underWay s k) k.c.val k.x.val ≠ {} := by
    rw [getCsp_mid]
    exact ctx_ne_of_mid rfl
  have hclu := getClu_sramUe a (csp_ne_nil_of_ctx hlisted)
  rw [getCsp, hclu, ← getCsp_mid]
  exact ⟨rfl, granPsn_setGranPsn _ _⟩

end

/-! ### Instructions that issue -/

section

variable {k : Slot} {s : State} {p : Fin 16} {circ : Bool} (h : SlotIssues k s)
include h

section

variable (d : Fin 32) (m : Fin 16) (hwf : circWf p circ = true)
include hwf

theorem vld_issues (ecc : Ecc)
    (hcause : cspCause s k p 64 = 0) :
    let a := cspAddr s k p
    let q := cspNextP s k p m circ
    let t := cspEcc (underWay s k) k.c.val a ecc
    exec (.vld k d p m circ ecc) s = .next (slotEnd k (modRegs
      (wrD t k d.val (granData (getClu t k.c.val).sram (a / 64)) (cspPsn t k.c.val a)) k (stepsP p q))) := by
  show execVld k d p m circ ecc s = _
  rw [execVld, cspAccess_goes h m _ hwf hcause]

theorem vld_loads {ecc : Ecc} (hecc : ecc ≠ .uncorrectable)
    (hcause : cspCause s k p 64 = 0) :
    let a := cspAddr s k p
    let q := cspNextP s k p m circ
    let w := writesD d (granData (getClu s k.c.val).sram (a / 64)) (cspPsn s k.c.val a) false
    exec (.vld k d p m circ ecc) s = .next (slotEnd k (slotEffect k (fun o => { w o with regs := stepsP p q (w o).regs }) s)) := by
  rw [vld_issues h d m hwf ecc hcause]
  simp only [cspEcc_correctable hecc, granData_mid, cspPsn_mid, modRegs_wrD_mid]

/-- R412: an uncorrectable error poisons the granule that is loaded, and so the register. -/
theorem vld_uncorrectable (heob : k.eob = false)
    (hcause : cspCause s k p 64 = 0) :
    ∃ t, exec (.vld k d p m circ .uncorrectable) s = .next t ∧ srcPsn t k d = srcPsn s k d ∧
      rdDPsn (getCsp t k.c.val k.x.val).regs d.val = true ∧
      granPsn (getClu t k.c.val).sram (cspAddr s k p / 64) = true := by
  refine ⟨_, (vld_issues h d m hwf .uncorrectable hcause).trans (by rw [slotEnd, heob, if_neg Bool.false_ne_true]), ?_⟩
  obtain ⟨hctx, hgran⟩ := sramUe_mid (s := s) (k := k) (cspAddr s k p)
  rw [cspEcc, cspPsn_of_granPsn hgran]
  obtain ⟨hsrc, hreg, hsram⟩ := loaded_poisoned (congrArg CspCtx.mid hctx)
  rw [hsram]
  refine ⟨hsrc.trans ?_, hreg, hgran⟩
  rw [srcPsn, oldRegs, hctx]
  rfl

theorem vldb_issues (t : Lt) {ecc : Ecc} (hecc : ecc ≠ .uncorrectable)
    (hcause : cspCause s k p (ltBits t / 8) = 0) :
    let a := cspAddr s k p
    let q := cspNextP s k p m circ
    let w := writesD d (packD (ltBits t) (List.replicate (512 / ltBits t) (sramNum (getClu s k.c.val) a (ltBits t / 8))))
      (cspPsn s k.c.val a) false
    exec (.vldb k t d p m circ ecc) s =
      .next (slotEnd k (slotEffect k (fun o => { w o with regs := stepsP p q (w o).regs }) s)) := by
  show execVldb k t d p m circ ecc s = _
  rw [execVldb, cspAccess_goes h m _ hwf hcause]
  simp only [cspEcc_correctable hecc, sramNum_mid, cspPsn_mid, modRegs_wrD_mid]

theorem vst_issues
    (hcause : cspCause s k p 64 = 0) :
    let a := cspAddr s k p
    let q := cspNextP s k p m circ
    exec (.vst k d p m circ) s = .next (slotEnd k (slotEffect k (fun o => { o with
      stores := o.stores ++ [(a, srcD s k d, srcPsn s k d)], regs := stepsP p q o.regs }) s)) := by
  show execVst k d p m circ s = _
  rw [execVst, cspAccess_goes h m _ hwf hcause]
  simp only [oldRegs_mid, modCsp_mid, modRegs]
  rw [modCsp_slotEffect]
  · rfl
  · exact fun o ho => ho

end

section

variable (d : Fin 32) (m : Fin 16) (circ : Bool) {cause : Nat} (hne : cause ≠ 0)
  (hcause : cspCause s k p 64 = cause)
include hne hcause

theorem vld_stops (ecc : Ecc) :
    exec (.vld k d p m circ ecc) s = .next (slotEnd k (faultCsp (slotEffect k id s) k.c.val k.x.val cause)) := by
  show execVld k d p m circ ecc s = _
  rw [execVld, cspAccess_stops h m _ hne hcause]

theorem vst_stops : exec (.vst k d p m circ) s = .next (slotEnd k (faultCsp (slotEffect k id s) k.c.val k.x.val cause)) := by
  show execVst k d p m circ s = _
  rw [execVst, cspAccess_stops h m _ hne hcause]

end

end

/-- Every lane of an element loaded to all lanes is the element. -/
theorem lane_packD_replicate {t : Lt} {i : Nat} (hi : i < 512 / ltBits t) (v : Nat) :
    lane (ltBits t) (packD (ltBits t) (List.replicate (512 / ltBits t) v)) i = v % 2 ^ ltBits t := by
  rw [lane_packD (by rw [List.length_replicate, ltBits_mul])]
  simp [List.getD, hi]

/-- Settles O6: an access whose check finds no cause goes on (vld_loads, vldb_issues, vst_issues), one with a cause stops its context
(vld_stops, vst_stops). -/
theorem cspMemory : Obligations.CspMemory := by
  unfold Obligations.CspMemory
  refine ⟨fun k d p m circ s h hwf => ?goes, fun k d p m circ ecc s h => ?stops⟩
  case goes =>
    intro r o a q step
    refine ⟨fun hfirst hlast halign => ?_, fun t ht hfirst hlast halign => ?_⟩
    · have hcause := accessCause_aligned (n := 64) hfirst hlast halign
      exact ⟨fun ecc hecc => vld_loads h d m hwf hecc hcause, fun heob => vld_uncorrectable h d m hwf heob hcause,
        vst_issues h d m hwf hcause⟩
    · have hsize : a + (ltBits t / 8 - 1) = a + ltBits t / 8 - 1 := by
        cases t with
        | h | w | l | f | d => rfl
        | c => exact absurd rfl ht
      have hcause := accessCause_aligned hfirst (hsize ▸ hlast) halign
      exact ⟨_, fun ecc hecc => vldb_issues h d m hwf t hecc hcause, fun i hi => lane_packD_replicate hi _⟩
  case stops =>
    intro a o stop
    refine ⟨fun hout => ?_, fun hfirst hlast hodd => ?_⟩
    · have hcause := accessCause_outside (n := 64) hout
      exact ⟨vld_stops h d m circ Nat.one_ne_zero hcause ecc, vst_stops h d m circ Nat.one_ne_zero hcause⟩
    · have hcause := accessCause_misaligned (n := 64) hfirst hlast hodd
      exact ⟨vld_stops h d m circ (Nat.succ_ne_zero 1) hcause ecc, vst_stops h d m circ (Nat.succ_ne_zero 1) hcause⟩

end Sys2Proof.Machine
end

section
/-! PROOFS. One context of a CSP at the end of its bundle, at a halt or at a fault, where nothing waits for a REP to end (R148, R152,
R154, R158, R159, R168): what becomes of the context, of the SRAM that its stores write, and that the other contexts stay. -/

namespace Sys2Proof.Machine

open Sys2Proof

variable {s t u : State} {c x : Nat} {o : CspCtx} {m : PMem}

/-! ### Nothing waits for a REP to end (R148, R159) -/

theorem settleCsp_of_quiet {y : Nat} (h : cspQuiet s c) (hy : y < 4) : settleCsp c s y = s := by
  obtain ⟨hstop, howner, -⟩ := h.2 y hy
  unfold settleCsp
  simp only [hstop, Bool.false_eq_true, if_false, howner, ite_self]

theorem settleLoad_of_quiet {y : Nat} (h : cspQuiet s c) (hy : y < 4) : settleLoad c s y = s := by
  obtain ⟨-, -, hload⟩ := h.2 y hy
  unfold settleLoad
  simp only [hload]

/-- A change that does nothing to any context of a CSP does nothing to all of them. -/
theorem foldl_contexts_id {f : State → Nat → State} (h : ∀ y, y < 4 → f s y = s) : (List.range 4).foldl f s = s :=
  List.foldlRecOn (motive := fun t => t = s) _ f rfl fun _ ht y hy => ht ▸ h y (List.mem_range.1 hy)

/-- A quiet CSP has nothing to catch up with. -/
theorem cspPendings_of_quiet (h : cspQuiet s c) : cspPendings s c = s := by
  have hsettle : (List.range 4).foldl (settleCsp c) s = s := foldl_contexts_id fun _ => settleCsp_of_quiet h
  unfold cspPendings
  split
  · rfl
  · simp only [hsettle, h.1, Bool.false_eq_true, if_false]
    exact foldl_contexts_id fun _ => settleLoad_of_quiet h

/-! ### A change of one context -/

/-- From s to t context x of cluster c has become o and the cluster's SRAM m; the other contexts stay, and so do boundary events that are
held. -/
structure CtxIs (c x : Nat) (o : CspCtx) (m : PMem) (s t : State) : Prop where
  ctx : getCsp t c x = o
  others : ∀ y, y ≠ x → getCsp t c y = getCsp s c y
  held : (getClu t c).cspHeld = (getClu s c).cspHeld
  sram : (getClu t c).sram = m

theorem ctxIs_refl (s : State) (c x : Nat) : CtxIs c x (getCsp s c x) (getClu s c).sram s s := ⟨rfl, fun _ _ => rfl, rfl, rfl⟩

theorem CtxIs.of_clusters (h : CtxIs c x o m s t) (hu : u.clusters = t.clusters) : CtxIs c x o m s u := by
  have hclu : getClu u c = getClu t c := by rw [getClu, hu, getClu]
  have hcsp : ∀ y, getCsp u c y = getCsp t c y := fun y => by rw [getCsp, hclu, getCsp]
  exact ⟨(hcsp x).trans h.ctx, fun y hy => (hcsp y).trans (h.others y hy), by rw [hclu, h.held], by rw [hclu, h.sram]⟩

theorem CtxIs.modCsp {f : CspCtx → CspCtx} (h : CtxIs c x o m s t) (hne : f o ≠ {}) : CtxIs c x (f o) m s (modCsp t c x f) := by
  rw [← h.ctx] at hne ⊢
  have hclu := getClu_modCsp hne
  exact ⟨getCsp_modCsp_self t c x f hne, fun y hy => (getCsp_modCsp_other hne hy.symm).trans (h.others y hy),
    by rw [hclu]; exact h.held, by rw [hclu]; exact h.sram⟩

/-- A change of the cluster that leaves its contexts and what is held. -/
theorem CtxIs.modClu {f : Cluster → Cluster} (h : CtxIs c x o m s t) (hne : o ≠ {})
    (hf : ∀ cl, (f cl).csp = cl.csp ∧ (f cl).cspHeld = cl.cspHeld) : CtxIs c x o (f (getClu t c)).sram s (modClu t c f) := by
  obtain ⟨hcsp, hheld⟩ := hf (getClu t c)
  have hclu : getClu (Machine.modClu t c f) c = f (getClu t c) :=
    getClu_modClu_csp (by rw [hcsp]; exact csp_ne_nil_of_ctx (by rw [h.ctx]; exact hne))
  have hctx : ∀ y, getCsp (Machine.modClu t c f) c y = getCsp t c y := fun y => by rw [getCsp, hclu, hcsp, getCsp]
  exact ⟨(hctx x).trans h.ctx, fun y hy => (hctx y).trans (h.others y hy), by rw [hclu, hheld, h.held], by rw [hclu]⟩

theorem CtxIs.pick (h : CtxIs c x o m s t) : CtxIs c x o m s (pickCsp t c) :=
  ⟨(getCsp_pickCsp t c x).trans h.ctx, fun y hy => (getCsp_pickCsp t c y).trans (h.others y hy), (cspHeld_pickCsp t c).trans h.held,
    (sram_pickCsp t c).trans h.sram⟩

theorem CtxIs.event {o' : CspCtx} {code : Nat} {items : List (Nat × Nat)} (h : CtxIs c x o m s t) :
    CtxIs c x o m s (cspEvent t o' code items) := by
  unfold cspEvent
  split
  · exact h.of_clusters (clusters_evPart t _ _ _)
  · exact h

/-- A context has the stop, the owner and the load of another that wait for a REP. -/
def SamePendings (o o' : CspCtx) : Prop := o.stopPending = o'.stopPending ∧ o.nextOwner = o'.nextOwner ∧ o.load = o'.load

theorem CtxIs.quiet (h : CtxIs c x o m s t) (hq : cspQuiet s c) (hsame : SamePendings o (getCsp s c x)) : cspQuiet t c := by
  refine ⟨h.held.trans hq.1, fun y hy => ?_⟩
  by_cases hyx : y = x
  · subst hyx
    obtain ⟨hstop, howner, hload⟩ := hsame
    rw [h.ctx, hstop, howner, hload]
    exact hq.2 y hy
  · rw [h.others y hyx]
    exact hq.2 y hy

theorem CtxIs.pendings (h : CtxIs c x o m s t) (hq : cspQuiet s c) (hsame : SamePendings o (getCsp s c x)) :
    CtxIs c x o m s (cspPendings t c) := by
  rwa [cspPendings_of_quiet (h.quiet hq hsame)]

/-! ### Stores of a bundle (R150, R152) -/

/-- A memory after the stores of a bundle, in order. -/
def putStores (m : PMem) (l : List (Nat × GranuleBits × Bool)) : PMem := l.foldl (fun m w => putGran m (w.1 / 64) w.2.1 w.2.2) m

theorem rdByte_putStores_other (m : PMem) {a : Nat} {l : List (Nat × GranuleBits × Bool)} (h : ∀ w ∈ l, a / 64 ≠ w.1 / 64) :
    rdByte (putStores m l).mem a = rdByte m.mem a :=
  List.foldlRecOn (motive := fun m' : PMem => rdByte m'.mem a = rdByte m.mem a) l (fun m w => putGran m (w.1 / 64) w.2.1 w.2.2) rfl
    fun m' hm' w hw => (rdByte_putGran_other m' w.2.1 w.2.2 (h w hw)).trans hm'

theorem granPsn_putGran {m : PMem} (g : Nat) (d : GranuleBits) (p : Bool) (hm : pmemWf m = true) : granPsn (putGran m g d p) g = p := by
  rw [granPsn, putGran]
  exact tabGet_tabSet_wf false ((pmemWf_iff m).1 hm).2 g p

theorem clusters_sigAdd (s : State) (p c : Nat) (w : Machine.Writer) (space addr : Nat) (data : GranuleBits) (psn : Bool) :
    (sigAdd s p c w space addr data psn).clusters = s.clusters := by
  unfold sigAdd runWrote
  split
  · rfl
  · split <;> rfl

theorem CtxIs.store {p y a : Nat} {d : GranuleBits} {psn : Bool} (h : CtxIs c x o m s t) (hne : o ≠ {}) :
    CtxIs c x o (putGran m (a / 64) d psn) s (cspStore t c p y a d psn) := by
  have hput := (h.modClu hne (f := fun cl => { cl with
    sram := putGran cl.sram (a / 64) d psn
    lssPsn := tabKeep (fun k => decide (k / 64 ≠ a / 64)) cl.lssPsn }) fun _ => ⟨rfl, rfl⟩)
  rw [h.sram] at hput
  exact hput.of_clusters (clusters_sigAdd _ _ _ _ _ _ _ _)

theorem CtxIs.stores {p y : Nat} (l : List (Nat × GranuleBits × Bool)) (h : CtxIs c x o m s t) (hne : o ≠ {}) :
    CtxIs c x o (putStores m l) s (l.foldl (fun t w => cspStore t c p y w.1 w.2.1 w.2.2) t) := by
  induction l generalizing t m with
  | nil => exact h
  | cons w l ih =>
    rw [putStores, List.foldl_cons, List.foldl_cons, ← putStores]
    exact ih (h.store hne)

/-- A context after the stores of its bundle were made. -/
def storesMade (o : CspCtx) : CspCtx := { o with stores := [], stPsn := o.stPsn || o.stores.any (fun w => w.2.2) }

theorem CtxIs.makeStores (h : CtxIs c x o m s t) (hst : o.st ≠ 0) :
    CtxIs c x (storesMade o) (putStores m o.stores) s (makeStores t c x) := by
  have hmade := (h.stores (p := o.part) (y := x) o.stores (ctx_ne_of_st hst)).modCsp
    (f := fun o' => { o' with stores := [], stPsn := o'.stPsn || o.stores.any (fun w => w.2.2) }) (ctx_ne_of_st hst)
  unfold Machine.makeStores
  extract_lets o' t1 psn t2
  have h2 : CtxIs c x (storesMade o) (putStores m o.stores) s t2 := by
    simp only [t2, psn, t1, o', h.ctx]
    exact hmade
  split
  · exact h2.of_clusters rfl
  · exact h2

/-! ### The end of a bundle (R154, R158) -/

/-- A context after its bundle, whose stores are made. -/
def bundleEnded (o : CspCtx) : CspCtx :=
  let o1 : CspCtx := { o with old := o.regs, mid := false, branch := none }
  passEmpty (o.prog.length / 4) (if 0 < o.repLeft then
      (if o.repLeft = 1 then { o1 with repLeft := 0, pc := o.pc + 1 } else { o1 with repLeft := o.repLeft - 1 })
    else if 0 < o.repArm then { o1 with repArm := 0, repLeft := o.repArm, pc := o.pc + 1 }
    else { o1 with pc := o.branch.getD (o.pc + 1), st := if o.wait = .none then 1 else 2 })

/-- Empty bundles are passed without effect but on where control stands (log entry 86). -/
theorem passEmpty_eq (n : Nat) (o : CspCtx) : passEmpty n o = { o with pc := (passEmpty n o).pc, repLeft := (passEmpty n o).repLeft } := by
  induction n generalizing o with
  | zero => rfl
  | succ n ih =>
    unfold passEmpty
    split
    · exact ih _
    · rfl

theorem bundleEnded_keeps (o : CspCtx) : SamePendings (bundleEnded o) o ∧ (o.st ≠ 0 → (bundleEnded o).st ≠ 0) := by
  rw [bundleEnded, passEmpty_eq, SamePendings]
  split
  · split <;> exact ⟨⟨rfl, rfl, rfl⟩, id⟩
  · split
    · exact ⟨⟨rfl, rfl, rfl⟩, id⟩
    · refine ⟨⟨rfl, rfl, rfl⟩, fun _ => ?_⟩
      show (if o.wait = .none then 1 else 2) ≠ 0
      split <;> decide

theorem ctxIs_endBundle (hst : (getCsp s c x).st = 1) (hq : cspQuiet s c) :
    CtxIs c x (bundleEnded (storesMade (getCsp s c x))) (putStores (getClu s c).sram (getCsp s c x).stores) s (endBundle s c x) := by
  have hne : (getCsp s c x).st ≠ 0 := hst.trans_ne Nat.one_ne_zero
  obtain ⟨hsame, hlisted⟩ := bundleEnded_keeps (storesMade (getCsp s c x))
  rw [endBundle, if_neg (not_not.2 hst)]
  exact ((((ctxIs_refl s c x).makeStores hne).modCsp (f := bundleEnded) (ctx_ne_of_st (hlisted hne))).pendings hq hsame).pick

/-! ### A halt and a fault (R157, R168) -/

/-- A context whose program has ended at a HALT. -/
def haltedCtx (o : CspCtx) : CspCtx := { storesMade o with st := 0, old := o.regs, mid := false, branch := none, wait := .none }

/-- A context that a fault has stopped; what its bundle wrote is gone. -/
def faultedCtx (cause : Nat) (o : CspCtx) : CspCtx :=
  { o with st := 3, cause := cause, stores := [], mid := false, repLeft := 0, repArm := 0, branch := none, wait := .none, regs := o.old }

theorem ctxIs_faultCsp {cause : Nat} (hst : (getCsp s c x).st ≠ 0) (hq : cspQuiet s c) :
    CtxIs c x (faultedCtx cause (getCsp s c x)) (getClu s c).sram s (faultCsp s c x cause) := by
  have hopen := (ctxIs_refl s c x).modClu (ctx_ne_of_st hst) (f := fun cl => { cl with
    fence := openFences.tabMap cl.fence (fun f => if f.ctx.val = x then { f with closed := false } else f) }) fun _ => ⟨rfl, rfl⟩
  have hstopped := hopen.modCsp (f := faultedCtx cause) (ctx_ne_of_st (Nat.succ_ne_zero 2))
  exact (hstopped.event.pendings hq ⟨rfl, rfl, rfl⟩).pick

end Sys2Proof.Machine
end

section
/-! PROOFS. O7: the end of a CSP bundle, HALT, the time slice and a register-file parity error (R144, R150, R154, R157, R158, R168,
R415). -/

namespace Sys2Proof.Machine

open Sys2Proof

variable {s : State} {c : Nat}

/-! ### Where control goes after a bundle (R158) -/

/-- A repeated bundle is repeated, and the last of its repeats goes on; a REP arms the bundle after it; else the bundle's branch
is taken. -/
theorem bundleEnded_storesMade (o : CspCtx) :
    let o1 : CspCtx := { o with
      old := o.regs, mid := false, branch := none, stores := [], stPsn := o.stPsn || o.stores.any (fun w => w.2.2) }
    bundleEnded (storesMade o) = passEmpty (o.prog.length / 4) (
      if 1 < o.repLeft then { o1 with repLeft := o.repLeft - 1 }
      else if o.repLeft = 1 then { o1 with repLeft := 0, pc := o.pc + 1 }
      else if 0 < o.repArm then { o1 with repArm := 0, repLeft := o.repArm, pc := o.pc + 1 }
      else { o1 with pc := o.branch.getD (o.pc + 1), st := if o.wait = .none then 1 else 2 }) := by
  intro o1
  refine congrArg (passEmpty (o.prog.length / 4)) ?_
  rcases Nat.lt_trichotomy 1 o.repLeft with hmany | hone | hnone
  · exact (if_pos (Nat.zero_lt_of_lt hmany)).trans ((if_neg hmany.ne').trans (if_pos hmany).symm)
  · exact (if_pos hone.le).trans ((if_pos hone.symm).trans ((if_neg hone.not_lt).trans (if_pos hone.symm)).symm)
  · exact (if_neg (Nat.lt_one_iff.1 hnone).not_gt).trans ((if_neg hnone.not_gt).trans (if_neg hnone.ne)).symm

/-! ### HALT (R157) -/

theorem halt_issues {k : Slot} (h : SlotIssues k s) (code : BitVec 8) :
    let c := k.c.val
    let x := k.x.val
    let s1 := underWay s k
    exec (.halt k code) s = .next (slotEnd k (pickCsp (cspPendings (cspEvent
      (modCsp (makeStores s1 c x) c x fun o => { o with st := 0, old := o.regs, mid := false, branch := none, wait := .none })
      (getCsp s1 c x) 0x0104 [(1, c), (1, x), (1, code.toNat)]) c) c)) := by
  intro c x s1
  show execHalt k code s = _
  rw [execHalt, cspSlot_issues h]

/-- A program that has ended has no further bundle: the slot's end leaves its context. -/
theorem CtxIs.slotEnd {k : Slot} {o : CspCtx} {m : PMem} {t : State} (h : CtxIs k.c.val k.x.val o m s t) (hst : o.st ≠ 1) :
    CtxIs k.c.val k.x.val o m s (slotEnd k t) := by
  unfold Machine.slotEnd
  split
  · rw [endBundle, if_pos (by rw [h.ctx]; exact hst)]
    exact h.pick
  · exact h

theorem ctxIs_halt {k : Slot} (h : SlotIssues k s) (hen : (getCsp s k.c.val k.x.val).en = true) (hq : cspQuiet s k.c.val)
    (code : BitVec 8) : ∃ t, exec (.halt k code) s = .next t ∧ CtxIs k.c.val k.x.val (haltedCtx (getCsp s k.c.val k.x.val))
      (putStores (getClu s k.c.val).sram (getCsp s k.c.val k.x.val).stores) s t := by
  refine ⟨_, halt_issues h code, ?_⟩
  have hst : (getCsp s k.c.val k.x.val).st ≠ 0 := by
    obtain ⟨-, hok, -⟩ := h
    simp only [cspOk, Bool.and_eq_true, decide_eq_true_eq] at hok
    omega
  have hmid := (ctxIs_refl s k.c.val k.x.val).modCsp (f := fun o => { o with mid := true }) (ctx_ne_of_mid rfl)
  have hhalted := (hmid.makeStores hst).modCsp
    (f := fun o => { o with st := 0, old := o.regs, mid := false, branch := none, wait := .none }) (ctx_ne_of_en hen)
  exact ((hhalted.event.pendings hq ⟨rfl, rfl, rfl⟩).pick).slotEnd Nat.zero_ne_one

/-! ### CSP_TIMESLICE (R144) -/

/-- A cluster whose running context has had its time, if it ran in its turn. -/
def timeUp (cl : Cluster) : Cluster := if cl.cspRun = cl.cspTurn then { cl with cspTime := 4096 } else cl

theorem timeUp_keeps (cl : Cluster) :
    (timeUp cl).csp = cl.csp ∧ (timeUp cl).cspRun = cl.cspRun ∧ (timeUp cl).cspTurn = cl.cspTurn := by
  unfold timeUp
  split <;> exact ⟨rfl, rfl, rfl⟩

theorem getClu_timeUp (s : State) (c : Nat) : getClu (modClu s c timeUp) c = timeUp (getClu s c) := by
  refine getClu_modClu_self s c timeUp fun e => ?_
  unfold timeUp at e
  split at e
  · exact absurd (congrArg Cluster.cspTime e) (Nat.succ_ne_zero 4095)
  · exact absurd (by rw [e]) ‹¬(getClu s c).cspRun = (getClu s c).cspTurn›

theorem getCsp_timeUp (s : State) (c y : Nat) : getCsp (modClu s c timeUp) c y = getCsp s c y := by
  rw [getCsp, getClu_timeUp, (timeUp_keeps _).1, getCsp]

theorem nextReady_timeUp (s : State) (c cur : Nat) : nextReady (modClu s c timeUp) c cur = nextReady s c cur := by
  simp only [nextReady, getCsp_timeUp]
  rfl

theorem pickCsp_of_busy (h : cspBusy s (getCsp s c (getClu s c).cspRun.val) = true) : pickCsp s c = s := by
  rw [pickCsp, if_pos h]

/-- With its time over, the context whose turn it is yields to the next ready one. -/
theorem pickCsp_of_expired {n : Nat} (hbusy : cspBusy s (getCsp s c (getClu s c).cspRun.val) = false)
    (hzero : ((getCsp s c 0).radio && cspReady s (getCsp s c 0)) = false) (htime : (getClu s c).cspTime = 4096)
    (hn : nextReady s c (getClu s c).cspTurn.val = some n) : pickCsp s c = turnCsp s c n := by
  unfold pickCsp
  simp only [hbusy, hzero, htime, hn, Nat.lt_irrefl, decide_false, Bool.and_false, Bool.false_eq_true, if_false]

theorem timeslice_busy (h : cspBusy s (getCsp s c (getClu s c).cspRun.val) = true) :
    (getClu (pickCsp (modClu s c timeUp) c) c).cspRun = (getClu s c).cspRun := by
  obtain ⟨-, hrun, -⟩ := timeUp_keeps (getClu s c)
  have hbusy : cspBusy (modClu s c timeUp) (getCsp (modClu s c timeUp) c (getClu (modClu s c timeUp) c).cspRun.val) = true := by
    rw [getClu_timeUp, hrun, getCsp_timeUp]
    exact h
  rw [pickCsp_of_busy hbusy, getClu_timeUp, hrun]

theorem timeslice_yields {n : Nat} (hbusy : cspBusy s (getCsp s c (getClu s c).cspRun.val) = false)
    (hturn : (getClu s c).cspRun = (getClu s c).cspTurn) (hzero : ((getCsp s c 0).radio && cspReady s (getCsp s c 0)) = false)
    (hn : nextReady s c (getClu s c).cspTurn.val = some n) :
    let cl := getClu (pickCsp (modClu s c timeUp) c) c
    cl.cspRun.val = n ∧ cl.cspTurn.val = n ∧ cl.cspTime = 0 := by
  obtain ⟨hcsp, hkeepsRun, hkeepsTurn⟩ := timeUp_keeps (getClu s c)
  obtain ⟨hlt, hready⟩ := cspReady_of_nextReady hn
  have hpick : pickCsp (modClu s c timeUp) c = turnCsp (modClu s c timeUp) c n := by
    refine pickCsp_of_expired ?_ ?_ ?_ ?_
    · rw [getClu_timeUp, hkeepsRun, getCsp_timeUp]
      exact hbusy
    · rw [getCsp_timeUp]
      exact hzero
    · rw [getClu_timeUp, timeUp, if_pos hturn]
    · rw [getClu_timeUp, hkeepsTurn, nextReady_timeUp, hn]
  have hlisted : (getClu (modClu s c timeUp) c).csp ≠ [] := by
    rw [getClu_timeUp, hcsp]
    exact csp_ne_nil_of_ready hready
  intro cl
  have hcl : cl = _ := (congrArg (fun t => getClu t c) hpick).trans (getClu_turnCsp n hlisted)
  rw [hcl]
  exact ⟨Nat.mod_eq_of_lt hlt, Nat.mod_eq_of_lt hlt, rfl⟩

/-! ### CSP_PARITY_ERROR (R168, R415) -/

/-- A context uses a register file and has not stopped. -/
def usesFile (users : BitVec 4) (x : Nat) (o : CspCtx) : Bool := users.getLsbD x && (o.st == 1 || o.st == 2)

/-- A context that uses the register file stops. -/
def parityStop (c : Nat) (users : BitVec 4) (s : State) (x : Nat) : State :=
  if usesFile users x (getCsp s c x) then faultCsp s c x 4 else s

/-- What a parity error makes of a context. -/
def parityCtx (users : BitVec 4) (x : Nat) (o : CspCtx) : CspCtx := if usesFile users x o then faultedCtx 4 o else o

theorem st_of_usesFile {users : BitVec 4} {x : Nat} {o : CspCtx} (h : usesFile users x o = true) : o.st = 1 ∨ o.st = 2 := by
  simpa [usesFile] using (Bool.and_eq_true_iff.1 h).2

theorem samePendings_parityCtx (users : BitVec 4) (x : Nat) (o : CspCtx) : SamePendings (parityCtx users x o) o := by
  unfold parityCtx
  split <;> exact ⟨rfl, rfl, rfl⟩

theorem ctxIs_parityStop (hq : cspQuiet s c) (users : BitVec 4) (x : Nat) :
    CtxIs c x (parityCtx users x (getCsp s c x)) (getClu s c).sram s (parityStop c users s x) := by
  unfold parityCtx parityStop
  split
  case isTrue huses =>
    have hst := st_of_usesFile huses
    exact ctxIs_faultCsp (by omega) hq
  case isFalse => exact ctxIs_refl s c x

/-- Of contexts stopped one after another each is changed once, and by itself. -/
theorem getCsp_foldl_parityStop (users : BitVec 4) {l : List Nat} (hl : l.Nodup) (hq : cspQuiet s c) (x : Nat) :
    getCsp (l.foldl (parityStop c users) s) c x = if x ∈ l then parityCtx users x (getCsp s c x) else getCsp s c x := by
  induction l generalizing s with
  | nil => rfl
  | cons y l ih =>
    obtain ⟨hy, hl'⟩ := List.nodup_cons.1 hl
    have hstep := ctxIs_parityStop hq users y
    rw [List.foldl_cons, ih hl' (hstep.quiet hq (samePendings_parityCtx users y _))]
    by_cases hxy : x = y
    · subst hxy
      rw [if_neg hy, if_pos List.mem_cons_self, hstep.ctx]
    · simp only [hstep.others x hxy, List.mem_cons, hxy, false_or]

theorem cspParityError_runs (hon : mainOn s = true) (c : Fin 20) (users : BitVec 4) : exec (.cspParityError c users) s =
    .next (pickCsp (modClu ((List.range 4).foldl (parityStop c.val users) s) c.val
      fun cl => { cl with cspFailed := true, selfTest := true }) c.val) := by
  show execCspParityError c users s = _
  rw [execCspParityError, inRun, if_pos hon]
  rfl

/-- A CSP marked failed reads back. -/
theorem getClu_markFailed (s : State) (c : Nat) :
    getClu (modClu s c fun cl => { cl with cspFailed := true, selfTest := true }) c =
      { getClu s c with cspFailed := true, selfTest := true } :=
  getClu_modClu_self s c _ fun e => absurd (congrArg Cluster.cspFailed e) nofun

theorem getCsp_markFailed (s : State) (c y : Nat) :
    getCsp (modClu s c fun cl => { cl with cspFailed := true, selfTest := true }) c y = getCsp s c y := by
  rw [getCsp, getClu_markFailed, getCsp]

/-- Settles O7: the end of a bundle (ctxIs_endBundle), a HALT (ctxIs_halt) and each stop of a parity error (ctxIs_parityStop) change one
context where nothing waits for a REP; the time slice only changes who runs (timeslice_busy, timeslice_yields). -/
theorem cspBundleAndProgramEnds : Obligations.CspBundleAndProgramEnds := by
  unfold Obligations.CspBundleAndProgramEnds
  refine ⟨fun c x s => ?bundle, fun k code s h hen hq => ?halt, fun c s hon => ?timeslice, fun c users s hon => ?parity⟩
  case bundle =>
    intro o hst hq hwf t o1
    have hend := ctxIs_endBundle hst hq
    refine ⟨hend.ctx.trans (bundleEnded_storesMade o), hend.others, fun a d p hstores => ?_, fun a hother => ?_⟩
    · rw [hend.sram, hstores]
      exact ⟨granData_putGran _ _ _ hwf, granPsn_putGran _ _ _ hwf⟩
    · rw [hend.sram]
      exact rdByte_putStores_other _ hother
  case halt =>
    obtain ⟨t, hexec, hhalt⟩ := ctxIs_halt h hen hq code
    refine ⟨t, hexec, ?_⟩
    rw [hhalt.ctx]
    exact ⟨rfl, rfl, rfl, rfl, hhalt.others⟩
  case timeslice =>
    intro cl
    refine ⟨pickCsp (modClu s c.val timeUp) c.val, congrArg Host.Outcome.next (if_pos hon), fun y => ?_, timeslice_busy,
      fun hbusy hturn hzero n hn => timeslice_yields hbusy hturn hzero hn⟩
    rw [getCsp_pickCsp, getCsp_timeUp]
  case parity =>
    refine ⟨_, cspParityError_runs hon c users, ?_, ?_, fun hq x hx => ?_⟩
    · rw [cspFailed_pickCsp, getClu_markFailed]
    · rw [selfTest_pickCsp, getClu_markFailed]
    · rw [getCsp_pickCsp, getCsp_markFailed, getCsp_foldl_parityStop users List.nodup_range hq, if_pos (List.mem_range.2 hx), parityCtx]
      refine ⟨fun huser hst => ?_, fun huser => ?_⟩
      · rw [if_pos (by simpa [usesFile, huser] using hst)]
        exact ⟨rfl, rfl⟩
      · rw [usesFile, huser, Bool.false_and, if_neg Bool.false_ne_true]

end Sys2Proof.Machine
end

section
/-! PROOFS. What a write through a partition's map can change (R325, R344, R371), and what it leaves of the radio. -/

namespace Sys2Proof.Machine

open Sys2Proof

variable {s t u : State}

/-- A state with the memories, the partitions and the flags of another. -/
def withMemory (s t : State) : State := { t with hbm := s.hbm, host := s.host, parts := s.parts, flagsAt := s.flagsAt }

/-- Two states are alike but for HBM, host memory and what a write of host memory marks in the dirty log of its partition. -/
def OnlyMemory (s t : State) : Prop := withMemory s t = s

theorem OnlyMemory.refl (s : State) : OnlyMemory s s := rfl

theorem OnlyMemory.trans (h : OnlyMemory s t) (k : OnlyMemory t u) : OnlyMemory s u := (congrArg (withMemory s) k).trans h

theorem OnlyMemory.radio (h : OnlyMemory s t) : t.radio = s.radio := congrArg (·.radio) h

theorem OnlyMemory.out (h : OnlyMemory s t) : t.out = s.out := congrArg (·.out) h

theorem onlyMemory_ite {c : Prop} [Decidable c] (ht : OnlyMemory s t) (hu : OnlyMemory s u) : OnlyMemory s (if c then t else u) := by
  split <;> assumption

theorem onlyMemory_logDirty (s : State) (p a n : Nat) : OnlyMemory s (logDirty s p a n) :=
  onlyMemory_ite (List.foldlRecOn (motive := OnlyMemory s) _ _ (.refl s) fun _ ht _ _ => ht.trans (onlyMemory_ite rfl rfl)) (.refl s)

theorem onlyMemory_hostWriteFor (s : State) (p a : Nat) (bs : List Byte) : OnlyMemory s (hostWriteFor s p a bs) :=
  onlyMemory_ite ((onlyMemory_logDirty s p a bs.length).trans (onlyMemory_ite rfl rfl)) (.refl s)

theorem onlyMemory_wrRun (s : State) (p va : Nat) (bs : List Byte) (psn : Bool) : OnlyMemory s (wrRun s p va bs psn) :=
  onlyMemory_ite rfl (onlyMemory_ite (onlyMemory_hostWriteFor _ _ _ _) (.refl s))

theorem onlyMemory_wrVaP (s : State) (p va : Nat) (bs : List Byte) (psn : Bool) : OnlyMemory s (wrVaP s p va bs psn) :=
  onlyMemory_ite (List.foldlRecOn (motive := fun acc : State × List Byte => OnlyMemory s acc.1) _ _ (.refl s)
    fun _ hacc _ _ => hacc.trans (onlyMemory_wrRun _ _ _ _ _)) (.refl s)

@[simp] theorem radio_wrVaP (p va : Nat) (bs : List Byte) (psn : Bool) : (wrVaP s p va bs psn).radio = s.radio :=
  (onlyMemory_wrVaP s p va bs psn).radio

@[simp] theorem out_wrVaP (p va : Nat) (bs : List Byte) (psn : Bool) : (wrVaP s p va bs psn).out = s.out :=
  (onlyMemory_wrVaP s p va bs psn).out

@[simp] theorem radio_wrVa (p va : Nat) (bs : List Byte) : (wrVa s p va bs).radio = s.radio := radio_wrVaP p va bs false

@[simp] theorem out_wrVa (p va : Nat) (bs : List Byte) : (wrVa s p va bs).out = s.out := out_wrVaP p va bs false

/-- Of the states a chain of operations goes through that leave the radio, each has the radio of the first. -/
theorem radio_foldl {β : Type} {f : State → β → State} (s : State) (xs : List β) (hf : ∀ s x, (f s x).radio = s.radio) :
    (xs.foldl f s).radio = s.radio :=
  List.foldlRecOn (motive := fun t => t.radio = s.radio) xs f rfl fun t ht x _ => (hf t x).trans ht

/-- Reports leave the radio. -/
theorem onlyReports_radio (h : OnlyReports s t) : t.radio = s.radio := congrArg (·.radio) (onlyReports_iff.1 h).1

end Sys2Proof.Machine
end

section
/-! PROOFS. O58: the coding jobs (R195 to R198, R208, R417): which job starts on a coding engine, and what the pools' commands
do. -/

namespace Sys2Proof.Machine

open Sys2Proof

variable {s : State} {pool n : Nat}

/-- A state in which other jobs wait. -/
def withWaiting (s : State) (w : List (Nat × Job)) : State := { s with radio := { s.radio with waiting := w } }

theorem withWaiting_self (s : State) : withWaiting s s.radio.waiting = s := rfl

/-! ### Jobs that end without having run (R197) -/

theorem radio_jobExpire (s : State) (pool : Nat) (j : Job) : (jobExpire s pool j).radio = s.radio := radio_wrVaP _ _ _ _

theorem out_jobExpire (s : State) (pool : Nat) (j : Job) :
    (jobExpire s pool j).out = s.out ++ [.job pool 255 stDeadline []] := by
  rw [jobExpire, jobOut, emit, out_wrVaP]

theorem radio_foldl_jobExpire (s : State) (pool : Nat) (xs : List (Nat × Job)) :
    (xs.foldl (fun s x => jobExpire s pool x.2) s).radio = s.radio :=
  radio_foldl s xs fun t x => radio_jobExpire t pool x.2

/-- What is not in the part of a list that a test picks fails the test. -/
theorem filter_not_contains_filter {α : Type} [BEq α] [LawfulBEq α] (l : List α) (p : α → Bool) :
    l.filter (fun x => !(l.filter p).contains x) = l.filter (fun x => !p x) :=
  List.filter_congr fun x hx => by simp [hx]

/-! ### Jobs that start (R195, R198) -/

theorem radio_noteSoft (s : State) (p a len : Nat) : ∃ soft, (noteSoft s p a len).radio = { s.radio with soft := soft } := by
  unfold noteSoft
  split
  · exact ⟨s.radio.soft, rfl⟩
  · exact ⟨s.radio.soft ++ [(p, a, len)], rfl⟩

/-- A job as it starts: one with a HARQ buffer has combined with it, and may have met poison there (log entry 66). -/
def startsAs (j j' : Job) : Prop :=
  ∃ b, (harqSpan j.kind = none → b = j.psn) ∧ j' = { j with harqDone := j.harqDone || (harqSpan j.kind).isSome, psn := b }

theorem startsAs_self {j : Job} (h : (harqSpan j.kind).isSome = true → j.harqDone = true) : startsAs j j := by
  refine ⟨j.psn, fun _ => rfl, ?_⟩
  have hdone : (j.harqDone || (harqSpan j.kind).isSome) = j.harqDone := by
    cases hj : j.harqDone with
    | true => rfl
    | false => exact Bool.eq_false_iff.2 fun hs => Bool.false_ne_true (hj.symm.trans (h hs))
  rw [hdone]

/-- A job that starts is its engine's, and leaves the other engines and the jobs that wait. -/
theorem jobStart_eq (s : State) (pool n : Nat) (j : Job) : ∃ t j', startsAs j j' ∧ t.radio.inst = s.radio.inst ∧
    t.radio.waiting = s.radio.waiting ∧ jobStart s pool n j = modInst t (instKey pool n) (fun I => { I with job := some j' }) := by
  unfold jobStart
  split
  case h_1 w a len hkind hspan =>
    split
    case isTrue hdone => exact ⟨s, j, startsAs_self fun _ => hdone, rfl, rfl, rfl⟩
    case isFalse hdone =>
      extract_lets old src new bs
      obtain ⟨soft, hsoft⟩ := radio_noteSoft (wrVa s j.part a bs) j.part a len
      rw [radio_wrVa] at hsoft
      have hnone : ¬harqSpan j.kind = none := fun h => Option.some_ne_none _ (hspan.symm.trans h)
      refine ⟨_, _, ⟨old.2 || src.2, fun h => absurd h hnone, ?_⟩, congrArg (·.inst) hsoft, congrArg (·.waiting) hsoft, rfl⟩
      rw [hspan, Option.isSome_some, Bool.or_true]
  case h_2 hother =>
    refine ⟨s, j, startsAs_self fun hsome => ?_, rfl, rfl, rfl⟩
    cases hkind : j.kind with
    | ldpc w =>
      obtain ⟨x, hx⟩ := Option.isSome_iff_exists.1 hsome
      exact (hother w x.1 x.2 hkind hx).elim
    | polar p => rw [hkind] at hsome; exact nomatch hsome
    | trl w => rw [hkind] at hsome; exact nomatch hsome

theorem inst_ne_of_job {I : Inst} {j : Job} (h : I.job = some j) : I ≠ {} := fun hI => by rw [hI] at h; exact nomatch h

theorem job_jobStart (s : State) (pool n : Nat) (j : Job) :
    ∃ j', startsAs j j' ∧ (getInst (jobStart s pool n j) (instKey pool n)).job = some j' := by
  obtain ⟨t, j', hj', -, -, heq⟩ := jobStart_eq s pool n j
  exact ⟨j', hj', by rw [heq, getInst_modInst_self _ _ _ (inst_ne_of_job rfl)]⟩

theorem waiting_jobStart (s : State) (pool n : Nat) (j : Job) : (jobStart s pool n j).radio.waiting = s.radio.waiting := by
  obtain ⟨t, j', -, -, hwaiting, heq⟩ := jobStart_eq s pool n j
  rw [heq]
  exact hwaiting

theorem getInst_jobStart_other {m : Nat} (s : State) (j : Job) (h : m ≠ n) :
    getInst (jobStart s pool m j) (instKey pool n) = getInst s (instKey pool n) := by
  obtain ⟨t, j', -, hinst, -, heq⟩ := jobStart_eq s pool m j
  have hkey : instKey pool m ≠ instKey pool n := fun e => h (Nat.add_left_cancel e)
  rw [heq, getInst_modInst_other _ _ hkey, getInst, getInst, hinst]

/-- A faulty engine takes no job. -/
theorem freeInst_ne_of_faulty {m : Nat} (hm : freeInst s pool = some m) (h : (getInst s (instKey pool n)).faulty = true) : m ≠ n := by
  rintro rfl
  have hfree := List.find?_some hm
  rw [h, Bool.not_true, Bool.and_false] at hfree
  exact Bool.false_ne_true hfree

theorem getInst_jobFeed_of_faulty (fuel : Nat) (h : (getInst s (instKey pool n)).faulty = true) :
    getInst (jobFeed s pool fuel) (instKey pool n) = getInst s (instKey pool n) := by
  induction fuel generalizing s with
  | zero => rfl
  | succ fuel ih =>
    unfold jobFeed
    split
    case h_1 => rfl
    case h_2 x hx =>
      extract_lets drop
      split
      case isTrue =>
        have hkept : getInst (jobExpire (drop s) pool x.2) (instKey pool n) = getInst s (instKey pool n) := by
          rw [getInst, radio_jobExpire]
          rfl
        rw [ih (hkept ▸ h), hkept]
      case isFalse =>
        split
        case h_1 => rfl
        case h_2 m hm =>
          split
          case isTrue => rfl
          case isFalse =>
            have hkept : getInst (jobStart (drop s) pool m x.2) (instKey pool n) = getInst s (instKey pool n) :=
              getInst_jobStart_other (drop s) x.2 (freeInst_ne_of_faulty hm h)
            rw [ih (hkept ▸ h), hkept]

theorem onlyReports_capacityCheck (s : State) (pool : Nat) : OnlyReports s (capacityCheck s pool) :=
  onlyReports_ite (.refl s) ((onlyReports_foldl _ fun t p => onlyReports_evPart t p 0x0202 _).trans (onlyReports_evPool _ _ _))

/-! ### The commands that give a job (R195 to R197) -/

theorem exec_codingRow {i : Instr} {k : JobKind} {ok : Bool} {part gen f y : Nat}
    (hi : (∃ w, i = .ldpcJob w) ∨ (∃ w, i = .polarJob w) ∨ ∃ w, i = .trlJob w)
    (hrow : codingRow i = some (pool, k, ok, part, gen, f, y)) : exec i s = inRun s fun s => jobTake s pool k ok part gen f y := by
  rcases hi with ⟨w, rfl⟩ | ⟨w, rfl⟩ | ⟨w, rfl⟩
  all_goals
    cases hrow
    rfl

/-- BAD_PARAM is the lowest code that a job can fail with (R20). -/
theorem lowest_jobErrs : ∀ denied stale bounds : Bool,
    lowest (errsOf [(true, stBadParam), (denied, stDenied), (stale, stStale), (bounds, stBounds)]) = stBadParam := by decide

theorem jobTake_of_bad (k : JobKind) (part gen f y : Nat) :
    jobTake s pool k false part gen f y = jobOut s pool 255 stBadParam [] :=
  congrArg (jobOut s pool 255 · []) (lowest_jobErrs _ _ _)

theorem jobTake_of_ok {k : JobKind} {part gen f y : Nat} (hpart : part < 64) (hlive : (getPart s part).live = true)
    (htyp : (getPart s part).typ = 0) (hgen : (getPart s part).gen.toNat = gen) (hmapped : jobMapped s part k = true) :
    jobTake s pool k true part gen f y =
      jobPut s pool { kind := k, part := part, dlClove := jobClove s f, dlCycle := y, harqDone := false, psn := false } := by
  simp [jobTake, errsOf, hlive, htyp, hgen, hmapped, Nat.not_le.2 hpart]

/-- The one job that waits is given to its pool. -/
theorem jobPut_of_none_waiting (hwaiting : s.radio.waiting = []) (j : Job) : jobPut s pool j =
    if dlDone s (j.dlClove, j.dlCycle) then jobExpire s pool j
    else match freeInst s pool with
      | none => withWaiting s [(pool, j)]
      | some n => if s.time.cloveRun then jobStart s pool n j else withWaiting s [(pool, j)] := by
  have hlist : s.radio.waiting ++ [(pool, j)] = [(pool, j)] := by rw [hwaiting]; rfl
  have hput : jobPut s pool j = jobFeed (withWaiting s [(pool, j)]) pool 1 := by
    show feedPool (withWaiting s (s.radio.waiting ++ [(pool, j)])) pool = _
    rw [hlist]
    rfl
  have hfind : (withWaiting s [(pool, j)]).radio.waiting.find? (fun x => decide (x.1 = pool)) = some (pool, j) := by simp [withWaiting]
  have hdrop : withWaiting (withWaiting s [(pool, j)]) ((withWaiting s [(pool, j)]).radio.waiting.erase (pool, j)) = s := by
    have herase : (withWaiting s [(pool, j)]).radio.waiting.erase (pool, j) = s.radio.waiting := by simp [withWaiting, hwaiting]
    rw [herase]
    rfl
  rw [hput, jobFeed, hfind]
  show (if dlDone s (j.dlClove, j.dlCycle) then jobExpire (withWaiting (withWaiting s [(pool, j)]) _) pool j
    else match freeInst s pool with
      | none => withWaiting s [(pool, j)]
      | some n => if !s.time.cloveRun then withWaiting s [(pool, j)] else jobStart (withWaiting (withWaiting s [(pool, j)]) _) pool n j) = _
  rw [hdrop]
  cases s.time.cloveRun <;> rfl

/-! ### JOB_DEADLINE, CODING_JOB_END and ENGINE_FAULT (R197, R208, R417) -/

/-- Of a pool's waiting jobs, those whose deadline has come do not wait any more. -/
theorem exec_jobDeadline (hon : mainOn s = true) (pool : Fin 4) : ∃ t, exec (.jobDeadline pool) s = .next t ∧
    t.radio.waiting = s.radio.waiting.filter (fun x => !(decide (x.1 = pool.val) && dlDone s (x.2.dlClove, x.2.dlCycle))) := by
  show ∃ t, execJobDeadline pool s = .next t ∧ _
  rw [execJobDeadline, inRun_of_mainOn _ hon]
  refine ⟨_, rfl, ?_⟩
  rw [radio_foldl_jobExpire]
  exact filter_not_contains_filter s.radio.waiting _

theorem exec_jobDeadline_of_none_waiting (hon : mainOn s = true) (hwaiting : s.radio.waiting = []) (pool : Fin 4) :
    exec (.jobDeadline pool) s = .next s := by
  show execJobDeadline pool s = _
  rw [execJobDeadline, inRun_of_mainOn _ hon, hwaiting]
  exact congrArg _ ((congrArg (withWaiting s) hwaiting.symm).trans (withWaiting_self s))

/-- A job that ends late does not complete with OK. -/
theorem lowest_endErrs : ∀ poisoned lost : Bool,
    lowest (errsOf [(poisoned, stPoisoned), (true, stDeadline), (lost, stTimeout)]) ≠ stOk := by decide

/-- A job that ends leaves its engine free, and no job waits for that. -/
theorem exec_codingJobEnd (hon : mainOn s = true) (hwaiting : s.radio.waiting = []) (hwf : tabWf {} s.radio.inst = true) {pool : Fin 4}
    {n : Fin 16} {j : Job} (hjob : (getInst s (instKey pool.val n.val)).job = some j) : ∃ t st info,
      exec (.codingJobEnd pool n) s = .next t ∧ (getInst t (instKey pool.val n.val)).job = none ∧
      t.out = s.out ++ [.job pool.val n.val st info] ∧
      (st = stOk → ¬(j.dlClove < s.time.clove ∨ j.dlClove = s.time.clove ∧ j.dlCycle < s.time.cycle)) := by
  show ∃ t st info, execCodingJobEnd pool n s = .next t ∧ _
  rw [execCodingJobEnd, inRun_of_mainOn _ hon]
  extract_lets k
  rw [show (getInst s k).job = some j from hjob]
  dsimp -zeta only
  extract_lets r x bs late e s1
  have hradio : s1.radio = { s.radio with inst := tabMod {} s.radio.inst k fun I => { I with job := none } } := by
    show ({ (wrVa s j.part x.2.2.1 bs).radio with inst := tabMod {} (wrVa s j.part x.2.2.1 bs).radio.inst k _ } : Radio) = _
    rw [radio_wrVa]
  have hnone : s1.radio.waiting = [] := (congrArg (·.waiting) hradio).trans hwaiting
  rw [hnone]
  refine ⟨_, lowest e, r.2.1, rfl, ?_, ?_, fun hok hlate => ?_⟩
  · show (tabGet {} s1.radio.inst k : Inst).job = none
    rw [hradio]
    exact congrArg Inst.job (tabGet_tabSet_wf ({} : Inst) hwf k _)
  · show s1.out ++ _ = _
    rw [show s1.out = s.out from out_wrVa _ _ _]
  · have hlate : late = true := by simpa [late] using hlate
    exact lowest_endErrs _ _ (by simpa only [e, hlate] using hok)

theorem exec_engineFault (hon : mainOn s = true) {pool : Fin 4} {n : Fin 16} (hn : n.val < poolSize pool.val)
    (hin : (getInst s (instKey pool.val n.val)).bypass = false) : ∃ t, exec (.engineFault pool n) s = .next t ∧
      getInst t (instKey pool.val n.val) = { bypass := true, faulty := true, job := none } := by
  show ∃ t, execEngineFault pool n s = .next t ∧ _
  rw [execEngineFault, inRun_of_mainOn _ hon, if_neg (by simp [hn, hin])]
  extract_lets j s1 items s2 _ s3
  refine ⟨_, rfl, ?_⟩
  have h1 : getInst s1 (instKey pool.val n.val) = { bypass := true, faulty := true, job := none } :=
    getInst_modInst_self s _ _ fun h => Bool.noConfusion (congrArg Inst.bypass h)
  have h2 : s2.radio = s1.radio := onlyReports_radio
    ((onlyReports_foldl _ fun t p => onlyReports_evPart t p 0x0709 items).trans (onlyReports_evPool _ _ _))
  have h3 : s3.radio.inst = s1.radio.inst := by
    rw [← h2]
    unfold s3
    clear_value j
    cases j <;> rfl
  have h4 : (capacityCheck s3 pool.val).radio = s3.radio := onlyReports_radio (onlyReports_capacityCheck _ _)
  have hinst : getInst (capacityCheck s3 pool.val) (instKey pool.val n.val) = { bypass := true, faulty := true, job := none } := by
    rw [getInst, h4, h3]
    exact h1
  rw [getInst_jobFeed_of_faulty _ (congrArg Inst.faulty hinst), hinst]

/-- Settles O58: a job that comes to an empty pool is the only one that waits (jobPut_of_none_waiting), what starts is the job itself but
for its HARQ marks (jobStart_eq), and no job is given to an engine that has failed (getInst_jobFeed_of_faulty). -/
theorem codingJobs : Obligations.CodingJobs := by
  unfold Obligations.CodingJobs
  intro s hon hwaiting hwf
  refine ⟨fun i pool k ok part gen f y hi hrow => ⟨fun hbad => ?bad, fun hok hpart hlive htyp hgen hmapped => ?good⟩,
    exec_jobDeadline_of_none_waiting hon hwaiting, fun pool w => exec_jobDeadline (s := withWaiting s w) hon pool,
    fun pool n j => exec_codingJobEnd hon hwaiting hwf, fun pool n hn hin => ?fault⟩
  case bad =>
    rw [exec_codingRow hi hrow, inRun_of_mainOn _ hon, hbad, jobTake_of_bad]
    rfl
  case good =>
    intro j
    have hrun : exec i s = .next (jobPut s pool j) := by
      rw [exec_codingRow hi hrow, inRun_of_mainOn _ hon, hok, jobTake_of_ok hpart hlive htyp hgen hmapped]
    rw [jobPut_of_none_waiting hwaiting] at hrun
    refine ⟨fun hdone => ?_, fun hdone hfree => ?_, fun n hdone hfree hcloves => ?_⟩
    · rw [if_pos hdone] at hrun
      exact ⟨_, hrun, out_jobExpire s pool j, radio_jobExpire s pool j⟩
    · rw [if_neg (Bool.eq_false_iff.1 hdone)] at hrun
      rw [hrun]
      rcases hfree with hfree | hcloves
      · rw [hfree]
        rfl
      · rw [hcloves]
        cases freeInst s pool <;> rfl
    · rw [if_neg (Bool.eq_false_iff.1 hdone), hfree] at hrun
      dsimp only at hrun
      rw [if_pos hcloves] at hrun
      obtain ⟨j', ⟨b, hb, hj'⟩, hjob⟩ := job_jobStart s pool n j
      exact ⟨_, b, hrun, (waiting_jobStart s pool n j).trans hwaiting, hb, hjob.trans (congrArg some hj')⟩
  case fault =>
    obtain ⟨t, hexec, hinst⟩ := exec_engineFault hon hn hin
    exact ⟨t, hexec, congrArg Inst.bypass hinst, congrArg Inst.faulty hinst, congrArg Inst.job hinst⟩

end Sys2Proof.Machine
end

section
/-! PROOFS. O29: endpoints (R172, R176), and cells that are admitted or end at a frame boundary (R178 to R180, R349, R350). -/

namespace Sys2Proof.Machine

open Sys2Proof

variable {s t u : State} {r : RingId} {k : Pkt}

/-! ### Writes that a command makes (R371) -/

/-- A state with other rings. -/
def withRings (rings : Tab Ring) (s : State) : State := { s with rings := rings }

variable (rings : Tab Ring)

theorem logDirty_withRings (s : State) (p a n : Nat) : logDirty (withRings rings s) p a n = withRings rings (logDirty s p a n) := by
  unfold logDirty
  extract_lets P first count
  rw [apply_ite (withRings rings)]
  refine ite_congr rfl (fun _ => List.foldl_hom (withRings rings) fun t g => ?_) fun _ => rfl
  rw [apply_ite (withRings rings)]
  rfl

theorem hostWrite_withRings (s : State) (port a : Nat) (bs : List Byte) :
    hostWrite (withRings rings s) port a bs = withRings rings (hostWrite s port a bs) := by
  unfold hostWrite
  rw [apply_ite (withRings rings)]
  rfl

theorem hostWriteFor_withRings (s : State) (p a : Nat) (bs : List Byte) :
    hostWriteFor (withRings rings s) p a bs = withRings rings (hostWriteFor s p a bs) := by
  unfold hostWriteFor
  extract_lets port
  rw [logDirty_withRings, hostWrite_withRings, apply_ite (withRings rings)]
  rfl

theorem wrRun_withRings (s : State) (p va : Nat) (bs : List Byte) (psn : Bool) :
    wrRun (withRings rings s) p va bs psn = withRings rings (wrRun s p va bs psn) := by
  unfold wrRun
  extract_lets e a
  rw [hostWriteFor_withRings, apply_ite (withRings rings), apply_ite (withRings rings)]
  rfl

/-- One run of the pages that a write covers: the state, and the bytes that are left (R325). -/
def writeRun (p : Nat) (psn : Bool) (acc : State × List Byte) (r : Nat × Nat) : State × List Byte :=
  (wrRun acc.1 p r.1 (acc.2.take r.2) psn, acc.2.drop r.2)

theorem wrVaP_eq (s : State) (p va : Nat) (bs : List Byte) (psn : Bool) : wrVaP s p va bs psn =
    if canWrVa s p va bs.length then ((runsOf va bs.length).foldl (writeRun p psn) (s, bs)).1 else s := rfl

theorem wrVaP_withRings (s : State) (p va : Nat) (bs : List Byte) (psn : Bool) :
    wrVaP (withRings rings s) p va bs psn = withRings rings (wrVaP s p va bs psn) := by
  have hruns : (runsOf va bs.length).foldl (writeRun p psn) (Prod.map (withRings rings) id (s, bs)) =
      Prod.map (withRings rings) id ((runsOf va bs.length).foldl (writeRun p psn) (s, bs)) :=
    List.foldl_hom _ fun acc r => Prod.ext (wrRun_withRings rings acc.1 p r.1 (acc.2.take r.2) psn) rfl
  rw [wrVaP_eq, wrVaP_eq, apply_ite (withRings rings)]
  exact ite_congr rfl (fun _ => congrArg Prod.fst hruns) fun _ => rfl

theorem wrA_withRings (s : State) (r : RingId) (a : Nat) (bs : List Byte) :
    wrA (withRings rings s) r a bs = withRings rings (wrA s r a bs) := by
  unfold wrA
  cases ringOwner r with
  | none =>
    dsimp only
    rw [apply_ite (withRings rings), hostWrite_withRings]
    rfl
  | some p => exact wrVaP_withRings rings s p a bs false

theorem onlyReports_wrA_startCmd (s : State) (r q : RingId) (a : Nat) (bs : List Byte) :
    OnlyReports (wrA s r a bs) (wrA (startCmd s q) r a bs) := by
  rw [show startCmd s q = withRings (startCmd s q).rings s from rfl, wrA_withRings]
  exact onlyReports_of_parts rfl rfl

/-! ### Commands that need the radio engine domain (R436) -/

theorem radio_requestOn (s : State) (d : Nat) : (requestOn s d).radio = s.radio := by
  unfold requestOn setDom
  extract_lets s1
  split
  · rfl
  · split
    · rfl
    · split <;> rfl

theorem radio_settle_needRadio (h : CmdHead) (s : State) (res : List Word) : (settle h (needRadio s res)).radio = s.radio := by
  unfold needRadio
  split
  · exact onlyReports_radio (onlyReports_complete _ _ _ _)
  · exact radio_requestOn s 5

theorem onlyReports_settle_needRadio (h : CmdHead) (res : List Word) (hon : domUsable s s.pwr.radioOn 5 = true) :
    OnlyReports s (settle h (needRadio s res)) := by
  rw [needRadio, if_pos hon]
  exact onlyReports_complete _ _ _ _

/-! ### Endpoints (R172, R176) -/

theorem some_of_isNone_false {α : Type} {o : Option α} (h : o.isNone = false) : ∃ x, o = some x :=
  Option.isSome_iff_exists.1 (Option.isNone_eq_false_iff.1 h)

theorem freeEp_of_ruAddErrs (h : ruAddErrs r k s = []) : ∃ n img, freeEp s = some n ∧ rdA s r (fld48 k.w 0) 48 = some img := by
  have herrs := (errsOf_eq_nil_iff _).1 h
  have hfree := herrs _ (.tail _ (.head _))
  dsimp only at hfree
  have himg := herrs _ (.tail _ (.tail _ (.head _)))
  dsimp only at himg
  obtain ⟨n, hn⟩ := some_of_isNone_false hfree
  obtain ⟨img, himg⟩ := some_of_isNone_false (o := rdA s r (fld48 k.w 0) 48) himg
  exact ⟨n, img, hn, himg⟩

/-- An endpoint as RU_ADD enters it. -/
def addedEp (p : Nat) (img : List Byte) : Endpoint := { ({} : Endpoint) with live := true, part := p, img := wordsOf 12 img }

theorem exec_ruAdd (hready : FwReady s r 0x30 k) (hok : ruAddErrs r k s = []) : ∃ t n img, exec (.ruAdd r k) s = .next t ∧
    freeEp s = some n ∧ rdA s r (fld48 k.w 0) 48 = some img ∧ t.radio = (modEp s n fun _ => addedEp (cellP r) img).radio ∧
    (domUsable s s.pwr.radioOn 5 = true → OnlyReports (modEp s n fun _ => addedEp (cellP r) img) t) := by
  obtain ⟨n, img, hn, himg⟩ := freeEp_of_ruAddErrs hok
  obtain ⟨t, ht, honly⟩ := exec_fwRun_of_ok (i := .ruAdd r k) (errs := ruAddErrs r k) rfl hready hok
  rw [show (freeEp (startCmd s r)).getD 0 = n from congrArg (·.getD 0) hn,
    show (rdA (startCmd s r) r (fld48 k.w 0) 48).getD [] = img from congrArg (·.getD []) himg] at honly
  refine ⟨t, n, img, ht, hn, himg, (onlyReports_radio honly).trans (radio_settle_needRadio _ _ _), fun hon => .trans ?_ honly⟩
  refine .trans ?_ (onlyReports_settle_needRadio (s := modEp (startCmd s r) n fun _ => addedEp (cellP r) img) _ _ hon)
  exact onlyReports_of_parts rfl rfl

theorem answers_ruRemove (hready : FwReady s r 0x31 k) (hmine : epMine s r (fld (wd k.w 0) 9 0) = true)
    (hfree : s.radio.cells.any (fun c => c.2.live && c.2.flows.any (fun f => decide (f.ep = fld (wd k.w 0) 9 0))) = false) :
    Answers (.ruRemove r k) s (modEp s (fld (wd k.w 0) 9 0) fun _ => {}) := by
  have hok : errsOf [(!epMine s r (fld (wd k.w 0) 9 0), stBadParam),
      (s.radio.cells.any (fun c => c.2.live && c.2.flows.any (fun f => decide (f.ep = fld (wd k.w 0) 9 0))), stBusy)] = [] := by
    rw [hmine, hfree]
    rfl
  obtain ⟨t, ht, honly⟩ := exec_done (i := .ruRemove r k) rfl hready hok rfl
  refine ⟨t, ht, .trans ?_ honly⟩
  exact onlyReports_of_parts rfl rfl

/-- The counters of an endpoint as RU_STATS writes them. -/
def epStats (e : Endpoint) : List Byte := [e.ontime, e.early, e.late, e.dup, e.seqgap, e.unsup, e.txLate].flatMap (leBytes 4)

theorem answers_ruStats (hready : FwReady s r 0x32 k) (hmine : epMine s r (fld (wd k.w 0) 9 0) = true)
    (hwrite : canWrA s r (fld48 k.w 1) 28 = true) :
    Answers (.ruStats r k) s (wrA s r (fld48 k.w 1) (epStats (getEp s (fld (wd k.w 0) 9 0)))) := by
  have hok : errsOf [(!epMine s r (fld (wd k.w 0) 9 0), stBadParam), (!canWrA s r (fld48 k.w 1) 28, stBounds)] = [] := by
    rw [hmine, hwrite]
    rfl
  obtain ⟨t, ht, honly⟩ := exec_done (i := .ruStats r k) rfl hready hok rfl
  exact ⟨t, ht, .trans (onlyReports_wrA_startCmd s r r _ _) honly⟩

/-! ### Cells that are admitted (R178, R350) -/

theorem freeCell_of_cellErrs {p n frame : Nat} {ctx : Option (List Word)} {fl : Option (List (Flow × Bool))}
    (h : cellErrs s p ctx fl n frame = []) :
    ∃ w c first, ctx = some w ∧ freeCell s = some c ∧ freeStreams s (cNstream w) = some first := by
  have herrs := (errsOf_eq_nil_iff _).1 h
  have hroom := herrs _ (.tail _ (.tail _ (.head _)))
  have hreadable := herrs _ (.tail _ (.tail _ (.tail _ (.head _))))
  simp only [Bool.or_eq_false_iff, Bool.not_eq_false', Bool.and_eq_true] at hreadable
  obtain ⟨⟨hctx, hfl⟩, -⟩ := hreadable
  simp only [hctx, hfl, Bool.and_self, Bool.true_and, Bool.or_eq_false_iff] at hroom
  obtain ⟨⟨⟨⟨hcell, -⟩, hstreams⟩, -⟩, -⟩ := hroom
  obtain ⟨w, rfl⟩ := Option.isSome_iff_exists.1 hctx
  obtain ⟨c, hc⟩ := some_of_isNone_false hcell
  obtain ⟨first, hfirst⟩ := some_of_isNone_false hstreams
  exact ⟨w, c, first, rfl, hc, hfirst⟩

/-- What a cell's egress queues are changed to leaves the radio. -/
theorem radio_foldl_modQ {β : Type} (xs : List β) (q : β → Nat) (f : State → β → TmQ → TmQ) (s : State) :
    (xs.foldl (fun s x => modQ s (q x) (f s x)) s).radio = s.radio :=
  radio_foldl s xs fun _ _ => rfl

/-- A stream as a cell gets it. -/
def givenStream (n : Nat) : Stream := { ({} : Stream) with en := true, cell := n }

theorem streams_foldl_modStream (first n : Nat) (xs : List Nat) (s : State) :
    (xs.foldl (fun s i => modStream s (first + i) fun _ => givenStream n) s).radio.streams =
      xs.foldl (fun t i => tabSet {} t (first + i) (givenStream n)) s.radio.streams :=
  (List.foldl_hom (fun s : State => s.radio.streams) fun _ _ => rfl).symm

theorem cells_foldl_modStream (first : Nat) (xs : List Nat) (f : Stream → Stream) (s : State) :
    (xs.foldl (fun s i => modStream s (first + i) f) s).radio.cells = s.radio.cells :=
  List.foldlRecOn (motive := fun t : State => t.radio.cells = s.radio.cells) xs _ rfl fun _ ht _ _ => ht

/-- A cell that is reserved is in its place with its streams, and no other cell changes. -/
theorem reserveCell_spec {n first : Nat} {c : Cell} (hlive : c.live = true) (hfirst : freeStreams s c.nstream = some first) :
    (∃ fl, getCell (reserveCell s n c) n = { c with flows := fl, streamFirst := first }) ∧
    (∀ m, m ≠ n → getCell (reserveCell s n c) m = getCell s m) ∧
    ∀ j, j < c.nstream → getStream (reserveCell s n c) (first + j) = givenStream n := by
  unfold reserveCell
  rw [hfirst, Option.getD_some]
  extract_lets first' down fl share s1 _ s2
  have hcells : s2.radio.cells = s1.radio.cells := cells_foldl_modStream _ _ _ _
  refine ⟨⟨fl, ?_⟩, fun m hm => ?_, fun j hj => ?_⟩
  · rw [getCell, radio_foldl_modQ, hcells]
    exact getCell_modCell_self s n _ fun h => by
      have hdead : c.live = false := congrArg Cell.live h
      rw [hlive] at hdead
      exact nomatch hdead
  · rw [getCell, radio_foldl_modQ, hcells]
    exact getCell_modCell_other s _ (Ne.symm hm)
  · have hne : givenStream n ≠ {} := fun h => Bool.noConfusion (congrArg Stream.en h)
    have hstreams : s2.radio.streams = (List.range c.nstream).foldl (fun t i => tabSet {} t (first + i) (givenStream n)) s1.radio.streams :=
      streams_foldl_modStream first n _ s1
    rw [getStream, radio_foldl_modQ, hstreams, tabGet_foldl_range (fun _ => hne), if_pos (by omega)]

/-- CELL_ADD and CELL_IMPORT reserve the cell that their checks passed. -/
theorem exec_admitCell {i : Instr} (hi : i = .cellAdd r k ∧ FwReady s r 0x33 k ∨ i = .cellImport r k ∧ FwReady s r 0x36 k)
    (hok : cellErrs s (cellP r) (readCtx s r k) (readFlows s r k) (fld (wd k.w 4) 12 0) (fld64 k.w 5) = []) :
    ∃ t from_, exec i s = .next t ∧ t.radio = (admitCell (startCmd s r) r k from_).2.2.radio := by
  rcases hi with ⟨rfl, hready⟩ | ⟨rfl, hready⟩
  · obtain ⟨t, ht, honly⟩ := exec_fwRun_of_ok (i := .cellAdd r k)
      (errs := fun s => cellErrs s (cellP r) (readCtx s r k) (readFlows s r k) (fld (wd k.w 4) 12 0) (fld64 k.w 5)) rfl hready hok
    exact ⟨t, 0, ht, (onlyReports_radio honly).trans (radio_settle_needRadio _ _ _)⟩
  · obtain ⟨t, ht, honly⟩ := exec_fwRun_of_ok (i := .cellImport r k)
      (errs := fun s => cellErrs s (cellP r) (readCtx s r k) (readFlows s r k) (fld (wd k.w 4) 12 0) (fld64 k.w 5)) rfl hready hok
    exact ⟨t, fld48 k.w 0, ht, (onlyReports_radio honly).trans rfl⟩

/-- The cell that a command admits, as its operands describe it. -/
def askedCell (s : State) (r : RingId) (k : Pkt) (w : List Word) (from_ : Nat) : Cell :=
  { newCell (cellP r) w (((readFlows s r k).getD []).map (fun x => x.1)) (fld64 k.w 5) with importFrom := from_ }

theorem admitCell_eq {w : List Word} {n : Nat} (hw : readCtx s r k = some w) (hn : freeCell s = some n) (from_ : Nat) :
    (admitCell s r k from_).2.2 = reserveCell s n (askedCell s r k w from_) := by
  unfold admitCell
  rw [hw, hn]
  rfl

/-! ### Cells that end at a frame boundary (R180, R349) -/

theorem answers_cellRemove {F : Nat} (hready : FwReady s r 0x34 k) (hF : futureFrame s (wd k.w 1).toNat = some F)
    (hok : cellEndErrs s r (fld (wd k.w 0) 8 0) (wd k.w 1).toNat = []) : Answers (.cellRemove r k) s
      (waiting (modCell s (fld (wd k.w 0) 8 0) fun C => { C with removeAt := F }) r 0x34 k (.cellRemove (fld (wd k.w 0) 8 0)) []) := by
  obtain ⟨t, ht, honly⟩ := exec_fwRun_of_ok (i := .cellRemove r k)
    (errs := fun s => cellEndErrs s r (fld (wd k.w 0) 8 0) (wd k.w 1).toNat) rfl hready hok
  rw [show futureFrame (startCmd s r) (wd k.w 1).toNat = some F from hF] at honly
  refine ⟨t, ht, .trans ?_ honly⟩
  exact onlyReports_of_parts rfl rfl

theorem answers_cellExport {F : Nat} (hready : FwReady s r 0x35 k) (hF : futureFrame s (wd k.w 1).toNat = some F)
    (hok : cellEndErrs s r (fld (wd k.w 0) 8 0) (wd k.w 1).toNat = [])
    (hlen : imageLen s (getCell s (fld (wd k.w 0) 8 0)) ≤ (wd k.w 4).toNat) (hwrite : canWrA s r (fld48 k.w 2) (wd k.w 4).toNat = true) :
    Answers (.cellExport r k) s (waiting (modCell s (fld (wd k.w 0) 8 0) fun C => { C with
      removeAt := F, exportTo := fld48 k.w 2, exportLen := (wd k.w 4).toNat }) r 0x35 k (.cellExport (fld (wd k.w 0) 8 0)) []) := by
  have hnone : cellEndErrs s r (fld (wd k.w 0) 8 0) (wd k.w 1).toNat ++ errsOf [
      (cellMine s r (fld (wd k.w 0) 8 0) && decide ((wd k.w 4).toNat < imageLen s (getCell s (fld (wd k.w 0) 8 0))), stNoResource),
      (!canWrA s r (fld48 k.w 2) (wd k.w 4).toNat, stBounds)] = [] := by
    rw [hok, hwrite, decide_eq_false (Nat.not_lt.2 hlen), Bool.and_false]
    rfl
  obtain ⟨t, ht, honly⟩ := exec_fwRun_of_ok (i := .cellExport r k) rfl hready hnone
  rw [show futureFrame (startCmd s r) (wd k.w 1).toNat = some F from hF] at honly
  refine ⟨t, ht, .trans ?_ honly⟩
  exact onlyReports_of_parts rfl rfl

/-- Settles O29: firmware's record of a command changes rings only, so that each command's checks, its writes (wrA_withRings) and its effect
on endpoints, cells and streams (reserveCell_spec) are those of the state that it came to. -/
theorem radioCommands : Obligations.RadioCommands := by
  intro s r k p
  refine ⟨fun hready hok => ?add, answers_ruRemove, answers_ruStats, fun i hi hok => ?entered, fun F hF hok =>
    ⟨fun hready => answers_cellRemove hready hF hok, fun hready hlen hwrite => answers_cellExport hready hF hok hlen hwrite⟩⟩
  case add =>
    obtain ⟨t, n, img, ht, hn, himg, hradio, honly⟩ := exec_ruAdd hready hok
    have hep : ∀ m, getEp t m = getEp (modEp s n fun _ => addedEp (cellP r) img) m := fun m => by rw [getEp, hradio, getEp]
    refine ⟨t, n, img, ht, hn, himg, fun hon => ?_, ?_, fun m hm => ?_⟩
    · rw [hradio]
      exact honly hon
    · rw [hep, getEp_modEp_self s n _ fun h => Bool.noConfusion (congrArg Endpoint.live h)]
      rfl
    · rw [hep, getEp_modEp_other s _ (Ne.symm hm)]
  case entered =>
    obtain ⟨w, n, first, hw, hn, hfirst⟩ := freeCell_of_cellErrs hok
    obtain ⟨t, from_, ht, hradio⟩ := exec_admitCell hi hok
    rw [admitCell_eq (s := startCmd s r) hw hn] at hradio
    obtain ⟨⟨fl, hcell⟩, hothers, hstreams⟩ :=
      reserveCell_spec (s := startCmd s r) (n := n) (c := askedCell (startCmd s r) r k w from_) rfl hfirst
    have hget : ∀ m, getCell t m = getCell (reserveCell (startCmd s r) n (askedCell (startCmd s r) r k w from_)) m := fun m => by
      rw [getCell, hradio, getCell]
    refine ⟨t, n, w, ht, hn, hw, ?_⟩
    rw [hget n, hcell]
    refine ⟨rfl, rfl, rfl, rfl, rfl, rfl, hfirst, fun j hj => ?_, fun m hm => (hget m).trans (hothers m hm)⟩
    have hstream : getStream t (first + j) = givenStream n := by
      rw [getStream, hradio]
      exact hstreams j hj
    rw [hstream]
    exact ⟨rfl, rfl⟩

end Sys2Proof.Machine
end

section
/-! PROOFS. The AGC and the front end (R182 to R184): the AGC factor and what a part of a symbol changes as it passes. -/

namespace Sys2Proof.Machine

open Sys2Proof

variable {s : State}

/-! ### The AGC factor (R182) -/

/-- A bisection that begins with a test that holds, and ends with one that does not, finds where it turns. -/
theorem agcBisect_turns {test : Nat → Bool} (k lo : Nat) (hlo : test lo = true) (hhi : test (lo + 2 ^ k) = false) :
    test (agcBisect test k lo) = true ∧ test (agcBisect test k lo + 1) = false := by
  induction k generalizing lo with
  | zero => exact ⟨hlo, hhi⟩
  | succ k ih =>
    unfold agcBisect
    split
    case isTrue hmid => exact ih (lo + 2 ^ k) hmid (by rwa [Nat.add_assoc, ← two_mul, ← pow_succ'])
    case isFalse hmid => exact ih lo hlo (Bool.eq_false_iff.2 hmid)

/-- The bisection for the AGC factor finds the integer nearest to half of the 80th root of its bound. -/
theorem agcBisect_nearest {B : Nat} (hB : B < (2 * (0 + 2 ^ 25) - 1) ^ 80) :
    (2 * agcBisect (fun n => decide ((2 * n - 1) ^ 80 ≤ B)) 25 0 - 1) ^ 80 ≤ B ∧
      B < (2 * agcBisect (fun n => decide ((2 * n - 1) ^ 80 ≤ B)) 25 0 + 1) ^ 80 := by
  obtain ⟨hbelow, habove⟩ := agcBisect_turns (test := fun n => decide ((2 * n - 1) ^ 80 ≤ B)) 25 0
    (decide_eq_true (Nat.zero_le B)) (decide_eq_false (Nat.not_le.2 hB))
  exact ⟨of_decide_eq_true hbelow, Nat.not_le.1 (of_decide_eq_false habove)⟩

/-- The greatest AGC factor is below 2^25. -/
theorem agcBound_lt {G : Nat} (hG : G ≤ 255) : 2 ^ 1200 * 10 ^ G < (2 * (0 + 2 ^ 25) - 1) ^ 80 :=
  have hten : 10 ^ 255 ≤ (2 ^ 10) ^ 85 := (pow_mul 10 3 85).trans_le (Nat.pow_le_pow_left (by decide) 85)
  calc 2 ^ 1200 * 10 ^ G ≤ 2 ^ 1200 * (2 ^ 10) ^ 85 := Nat.mul_le_mul_left _ ((Nat.pow_le_pow_right (by decide) hG).trans hten)
    _ = 2 ^ (1200 + 10 * 85) := ((pow_add 2 1200 (10 * 85)).trans (congrArg _ (pow_mul 2 10 85))).symm
    _ < 2 ^ (129 * 16) := pow_lt_pow_right₀ one_lt_two (by decide)
    _ = (2 ^ 129) ^ 16 := pow_mul 2 129 16
    _ ≤ ((2 * (0 + 2 ^ 25) - 1) ^ 5) ^ 16 := Nat.pow_le_pow_left (by decide) 16
    _ = (2 * (0 + 2 ^ 25) - 1) ^ 80 := (pow_mul _ 5 16).symm

theorem agcFactor_nearest {G : Nat} (hG : G ≤ 255) :
    (2 * agcFactor G - 1) ^ 80 ≤ 2 ^ 1200 * 10 ^ G ∧ 2 ^ 1200 * 10 ^ G < (2 * agcFactor G + 1) ^ 80 :=
  agcBisect_nearest (agcBound_lt hG)

/-- A part of a sample after the gain is the product, cut and saturated. -/
theorem toSigned_agcPart (g v : Nat) :
    toSigned 16 (agcPart g v) = clampInt (-32768) 32767 (toSigned 16 v * (g : Int) / 16384) := by
  obtain ⟨hlo, hhi⟩ := clampInt_mem_range (lo := -32768) (hi := 32767) (by decide) (toSigned 16 v * (g : Int) / 16384)
  exact toSigned_ofSigned (by decide) hlo (Int.lt_of_le_sub_one hhi)

/-! ### What a part of a symbol changes (R182, R184) -/

/-- A state with the clusters of another. -/
def withClusters (s t : State) : State := { t with clusters := s.clusters }

/-- Two states are alike but for their clusters. -/
def OnlyClusters (s t : State) : Prop := withClusters s t = s

theorem OnlyClusters.refl (s : State) : OnlyClusters s s := rfl

theorem OnlyClusters.trans {s t u : State} (h : OnlyClusters s t) (k : OnlyClusters t u) : OnlyClusters s u :=
  (congrArg (withClusters s) k).trans h

theorem OnlyClusters.radio {s t : State} (h : OnlyClusters s t) : t.radio = s.radio := congrArg (·.radio) h

theorem OnlyClusters.parts {s t : State} (h : OnlyClusters s t) : t.parts = s.parts := congrArg (·.parts) h

theorem OnlyClusters.time {s t : State} (h : OnlyClusters s t) : t.time = s.time := congrArg (·.time) h

theorem onlyClusters_foldl {β : Type} {f : State → β → State} (s : State) (xs : List β) (hf : ∀ t x, OnlyClusters t (f t x)) :
    OnlyClusters s (xs.foldl f s) :=
  List.foldlRecOn (motive := OnlyClusters s) xs f (.refl s) fun t ht x _ => ht.trans (hf t x)

theorem onlyClusters_putSample (p c : Nat) (psn : Bool) (s : State) (x : Nat × Word) : OnlyClusters s (putSample p c psn s x) := by
  unfold putSample
  split <;> rfl

/-- A section of the symbol whose part has passed. -/
def passedSect (cell stream slot sym part : Nat) (u : UpSect) : UpSect :=
  if sectOf cell stream slot sym u then { u with passed := u.passed ||| BitVec.ofNat 8 (2 ^ part) } else u

/-- A state in which the sections of a symbol are marked with a part. -/
def markPassed (cell stream slot sym part : Nat) (s : State) : State :=
  { s with radio := { s.radio with sects := s.radio.sects.map (passedSect cell stream slot sym part) } }

/-- A part that passes begins its symbol, fills the buffers of the cell in its cluster, and marks its sections. -/
theorem passPart_eq (s : State) (cell stream slot sym part : Nat) : ∃ t, OnlyClusters (beginSym s stream slot sym) t ∧
    passPart s cell stream slot sym part = markPassed cell stream slot sym part t :=
  ⟨_, onlyClusters_foldl _ _ fun t _ => onlyClusters_foldl t _ (onlyClusters_putSample _ _ _), rfl⟩

/-- A section of a symbol of which a part has passed is marked with it. -/
theorem passed_of_passPart {cell stream slot sym : Nat} {part : Fin 8} {v : UpSect}
    (hv : v ∈ (passPart s cell stream slot sym part.val).radio.sects) (hsect : sectOf cell stream slot sym v = true) :
    v.passed.getLsbD part.val = true := by
  obtain ⟨t, -, heq⟩ := passPart_eq s cell stream slot sym part.val
  rw [heq] at hv
  obtain ⟨u, -, rfl⟩ := List.mem_map.1 hv
  have hu : sectOf cell stream slot sym u = true := by
    unfold passedSect at hsect
    split at hsect <;> exact hsect
  have hbit : ∀ part : Fin 8, (BitVec.ofNat 8 (2 ^ part.val)).getLsbD part.val = true := by decide
  rw [passedSect, if_pos hu]
  show (u.passed ||| BitVec.ofNat 8 (2 ^ part.val)).getLsbD part.val = true
  rw [BitVec.getLsbD_or, hbit part, Bool.or_true]

/-- A stream as a symbol begins to pass. -/
def symStream (slot sym : Nat) (S : Stream) : Stream :=
  if S.symNow = some (slot, sym) then S else { S with symNow := some (slot, sym), baseNow := S.base }

theorem symStream_en (slot sym : Nat) (S : Stream) : (symStream slot sym S).en = S.en := by
  unfold symStream
  split <;> rfl

theorem symStream_maxStep (slot sym : Nat) (S : Stream) : (symStream slot sym S).maxStep = S.maxStep := by
  unfold symStream
  split <;> rfl

theorem getStream_passPart {cell stream slot sym part : Nat} (hen : (getStream s stream).en = true) :
    getStream (passPart s cell stream slot sym part) stream = symStream slot sym (getStream s stream) := by
  obtain ⟨t, honly, heq⟩ := passPart_eq s cell stream slot sym part
  have hne : symStream slot sym (getStream s stream) ≠ {} := fun h => by
    have hoff : (symStream slot sym (getStream s stream)).en = false := congrArg Stream.en h
    rw [symStream_en, hen] at hoff
    exact nomatch hoff
  rw [heq]
  show tabGet {} t.radio.streams stream = _
  rw [honly.radio]
  exact getStream_modStream_self s stream (symStream slot sym) hne

theorem modStream_congr {n : Nat} {f g : Stream → Stream} (h : f (getStream s n) = g (getStream s n)) :
    modStream s n f = modStream s n g := by
  unfold modStream tabMod
  rw [show f (tabGet {} s.radio.streams n) = g (tabGet {} s.radio.streams n) from h]

theorem time_passPart (s : State) (cell stream slot sym part : Nat) : (passPart s cell stream slot sym part).time = s.time := by
  obtain ⟨t, honly, heq⟩ := passPart_eq s cell stream slot sym part
  rw [heq]
  exact honly.time

/-! ### AGC_UPDATE (R182, R183) -/

section

variable {n : Fin 2048} {slot : Nat} {y : Fin 14} {part : Fin 8} {S : Stream} {u : State} {xs : List Word}

/-- A stream after the loop's update for a part of mean power p, at a time. -/
def agcUpdated (now : Nat) (p : Int) (S : Stream) : Stream := { S with gain := agcGain S p, agcAt := now + 1, agcOld := S.gain }

theorem exec_agcUpdate (hon : mainOn s = true) (hS : getStream s n.val = S)
    (hxs : gainedPart s S.cell n.val slot y.val part.val = xs) (hu : passPart s S.cell n.val slot y.val part.val = u) :
    exec (.agcUpdate n ⟨slot, y, part⟩) s =
    .next (if !S.en || !cellWorks (getCell s S.cell) slot then s
      else if !S.agcEn || !S.frozenBy.isEmpty || xs.isEmpty || decide (S.gainAt = s.time.now + 1) then u
      else modStream u n.val (agcUpdated s.time.now (Config.powerDb (squareSum xs) xs.length))) := by
  show execAgcUpdate n ⟨slot, y, part⟩ s = _
  rw [execAgcUpdate, inRun_of_mainOn _ hon]
  subst hS hxs hu
  rw [← time_passPart s (getStream s n.val).cell n.val slot y.val part.val]
  rfl

theorem exec_agcUpdate_off (hon : mainOn s = true) (hS : getStream s n.val = S)
    (hoff : S.en = false ∨ cellWorks (getCell s S.cell) slot = false) : exec (.agcUpdate n ⟨slot, y, part⟩) s = .next s := by
  rw [exec_agcUpdate hon hS rfl rfl, if_pos]
  rcases hoff with hoff | hoff
  · rw [hoff]
    rfl
  · rw [hoff, Bool.not_false, Bool.or_true]

theorem exec_agcUpdate_held (hon : mainOn s = true) (hS : getStream s n.val = S) (hen : S.en = true)
    (hworks : cellWorks (getCell s S.cell) slot = true) (hxs : gainedPart s S.cell n.val slot y.val part.val = xs)
    (hu : passPart s S.cell n.val slot y.val part.val = u)
    (hheld : S.agcEn = false ∨ S.frozenBy ≠ [] ∨ xs = [] ∨ S.gainAt = s.time.now + 1) :
    exec (.agcUpdate n ⟨slot, y, part⟩) s = .next u := by
  rw [exec_agcUpdate hon hS hxs hu, if_neg (by simp [hen, hworks]), if_pos]
  rcases hheld with h | h | h | h <;> simp [h]

theorem exec_agcUpdate_step (hon : mainOn s = true) (hS : getStream s n.val = S) (hen : S.en = true)
    (hworks : cellWorks (getCell s S.cell) slot = true) (hxs : gainedPart s S.cell n.val slot y.val part.val = xs)
    (hu : passPart s S.cell n.val slot y.val part.val = u) (hagc : S.agcEn = true) (hfree : S.frozenBy = []) (hsome : xs ≠ [])
    (hgain : S.gainAt ≠ s.time.now + 1) : exec (.agcUpdate n ⟨slot, y, part⟩) s =
      .next (modStream u n.val (agcUpdated s.time.now (Config.powerDb (squareSum xs) xs.length))) := by
  rw [exec_agcUpdate hon hS hxs hu, if_neg (by simp [hen, hworks]), if_neg (by simp [hagc, hfree, hsome, hgain])]

end

end Sys2Proof.Machine
end

section
/-! PROOFS. The search (R183, R187, R188, R190): what a detection leaves in its lane and in the streams that the lane searches. -/

namespace Sys2Proof.Machine

open Sys2Proof

variable {s : State}

/-- A run of streams that each change alike. -/
def modStreams (first n : Nat) (f : TimeUnit → Stream → Stream) (s : State) : State :=
  (List.range n).foldl (fun s i => modStream s (first + i) (f s.time)) s

section

variable (first n : Nat) (f : TimeUnit → Stream → Stream) (s : State)

theorem modStreams_succ : modStreams first (n + 1) f s =
    modStream (modStreams first n f s) (first + n) (f (modStreams first n f s).time) := by
  rw [modStreams, List.range_succ, List.foldl_append]
  rfl

theorem time_modStreams : (modStreams first n f s).time = s.time :=
  List.foldlRecOn (motive := fun t : State => t.time = s.time) _ _ rfl fun _ ht _ _ => ht

theorem lanes_modStreams : (modStreams first n f s).radio.lanes = s.radio.lanes :=
  List.foldlRecOn (motive := fun t : State => t.radio.lanes = s.radio.lanes) _ _ rfl fun _ ht _ _ => ht

end

theorem getStream_modStreams_other {first n k : Nat} {f : TimeUnit → Stream → Stream} (hk : first + n ≤ k) :
    getStream (modStreams first n f s) k = getStream s k := by
  induction n with
  | zero => rfl
  | succ n ih => rw [modStreams_succ, getStream_modStream_other _ _ (by omega), ih (by omega)]

/-- Each stream of the run is changed once. -/
theorem getStream_modStreams {first n i : Nat} {f : TimeUnit → Stream → Stream} (hi : i < n)
    (hne : f s.time (getStream s (first + i)) ≠ {}) :
    getStream (modStreams first n f s) (first + i) = f s.time (getStream s (first + i)) := by
  induction n with
  | zero => exact absurd hi (Nat.not_lt_zero i)
  | succ n ih =>
    rw [modStreams_succ, time_modStreams]
    by_cases hin : i = n
    · subst hin
      have hkept : getStream (modStreams first i f s) (first + i) = getStream s (first + i) := getStream_modStreams_other le_rfl
      rw [getStream_modStream_self _ _ _ (hkept ▸ hne), hkept]
    · rw [getStream_modStream_other _ _ (by omega), ih (by omega)]

/-! ### SEARCH_DETECTION -/

/-- A lane as a detection leaves it in a clove (R188, R191). -/
def detectedLane (p : Int) (m : Detection) (clove : Nat) (L : Lane) : Lane := { L with
  power := BitVec.ofInt 16 p, toff := m.toff, cfo := m.cfo, preamble := m.preamble, ovf := L.ovf || L.valid, valid := true
  clove := BitVec.ofNat 32 clove }

/-- A stream's gain and its freeze as a detection in a lane leaves them: an update of the loop in the same cycle is taken back (R183). -/
def frozenStream (l : Nat) (t : TimeUnit) (S : Stream) : Stream :=
  let S := if S.freezeEn && decide (S.agcAt = t.now + 1) && decide (S.gainAt ≠ t.now + 1) then
    { S with gain := S.agcOld, agcAt := 0 } else S
  if S.freezeEn && !S.frozenBy.contains l then { S with frozenBy := S.frozenBy ++ [l] } else S

/-- A stream as a detection in a lane leaves it: frozen, and corrected by the first detection (R183, R190). -/
def detectedStream (l : Nat) (m : Detection) (t : TimeUnit) (S : Stream) : Stream :=
  let S := frozenStream l t S
  if !S.corrActive || (decide (S.corrAt = t.now) && decide (l < S.corrLane)) then
    { S with corr := -m.cfo, corrLane := l, corrActive := true, corrAt := t.now } else S

theorem frozenBy_frozenStream {l : Nat} {t : TimeUnit} {S : Stream} (h : S.freezeEn = true) : l ∈ (frozenStream l t S).frozenBy := by
  unfold frozenStream
  extract_lets S1
  have h1 : S1.freezeEn = true := by
    unfold S1
    split <;> exact h
  split
  case isTrue => simp
  case isFalse hin => simpa [h1] using hin

theorem gain_frozenStream {l : Nat} {t : TimeUnit} {S : Stream} (h : S.freezeEn = true) :
    (frozenStream l t S).gain = if S.agcAt = t.now + 1 ∧ S.gainAt ≠ t.now + 1 then S.agcOld else S.gain := by
  unfold frozenStream
  extract_lets S1
  have h1 : S1.gain = if S.agcAt = t.now + 1 ∧ S.gainAt ≠ t.now + 1 then S.agcOld else S.gain := by
    simp only [S1, h, Bool.true_and, Bool.and_eq_true, decide_eq_true_eq]
    split <;> rfl
  split <;> exact h1

theorem detectedStream_agc (l : Nat) (m : Detection) (t : TimeUnit) (S : Stream) :
    (detectedStream l m t S).frozenBy = (frozenStream l t S).frozenBy ∧ (detectedStream l m t S).gain = (frozenStream l t S).gain := by
  unfold detectedStream
  extract_lets S1
  split <;> exact ⟨rfl, rfl⟩

/-- A report leaves the lanes and the streams. -/
theorem reportRecord_radio (s : State) (l : Nat) (m : Detection) :
    (reportRecord s l m).radio.lanes = s.radio.lanes ∧ (reportRecord s l m).radio.streams = s.radio.streams := by
  unfold reportRecord
  extract_lets L C n ws s1
  split
  · exact ⟨rfl, rfl⟩
  · have h1 : s1.radio = s.radio := radio_wrVa _ _ _
    exact ⟨show s1.radio.lanes = _ by rw [h1], show s1.radio.streams = _ by rw [h1]⟩

theorem exec_searchDetection_quiet (hon : mainOn s = true) {l : Fin 64} {m : Detection} (h : (getLane s l.val).busy = false ∨
    (getLane s l.val).lastClove < s.time.clove ∨ m.metric ≤ (getLane s l.val).thresh) : exec (.searchDetection l m) s = .next s := by
  show execSearchDetection l m s = _
  rw [execSearchDetection, inRun_of_mainOn _ hon, if_pos]
  rcases h with h | h | h <;> simp [h]

/-- A detection sets its lane, then each stream that the lane searches, then reports. -/
theorem exec_searchDetection (hon : mainOn s = true) {l : Fin 64} {m : Detection} {L : Lane} (hL : getLane s l.val = L)
    (hbusy : L.busy = true) (hclove : s.time.clove ≤ L.lastClove) (hmetric : L.thresh < m.metric) : ∃ u p, u.radio = s.radio ∧
      u.time = s.time ∧ exec (.searchDetection l m) s = .next (reportRecord (modStreams L.stream (L.nstr + 1) (detectedStream l.val m)
        (modLane u l.val (detectedLane p m u.time.clove))) l.val m) := by
  subst hL
  show ∃ u p, _ ∧ _ ∧ execSearchDetection l m s = _
  rw [execSearchDetection, inRun_of_mainOn _ hon, if_neg (by simp [hbusy, Nat.not_lt.2 hclove, Nat.not_le.2 hmetric])]
  extract_lets f p s1 s2
  have h1 : s1.radio = s.radio ∧ s1.time = s.time := by
    unfold s1
    split <;> exact ⟨rfl, rfl⟩
  have h2 : s2.radio = s.radio ∧ s2.time = s.time := by
    unfold s2
    split <;> exact h1
  exact ⟨s2, p, h2.1, h2.2, rfl⟩

theorem searchDetection_found (hon : mainOn s = true) {l : Fin 64} {m : Detection} {L : Lane} (hL : getLane s l.val = L)
    (hbusy : L.busy = true) (hclove : s.time.clove ≤ L.lastClove) (hmetric : L.thresh < m.metric) :
    ∃ t p, exec (.searchDetection l m) s = .next t ∧ getLane t l.val = detectedLane p m s.time.clove L ∧
      ∀ i, i ≤ L.nstr → (getStream s (L.stream + i)).freezeEn = true →
        getStream t (L.stream + i) = detectedStream l.val m s.time (getStream s (L.stream + i)) := by
  obtain ⟨u, p, hradio, htime, hexec⟩ := exec_searchDetection hon hL hbusy hclove hmetric
  refine ⟨_, p, hexec, ?_, fun i hi hfreeze => ?_⟩
  · have hu : getLane u l.val = L := by rw [getLane, hradio, ← hL, getLane]
    have hne : detectedLane p m u.time.clove (getLane u l.val) ≠ {} := fun h => by
      have hidle : (getLane u l.val).busy = false := congrArg Lane.busy h
      rw [hu, hbusy] at hidle
      exact nomatch hidle
    rw [getLane, (reportRecord_radio _ _ _).1, lanes_modStreams]
    exact (getLane_modLane_self u l.val _ hne).trans (by rw [hu, htime])
  · have hu : ∀ k, getStream (modLane u l.val (detectedLane p m u.time.clove)) k = getStream s k := fun k => by
      show tabGet {} u.radio.streams k = _
      rw [hradio, getStream]
    have hne : detectedStream l.val m u.time (getStream s (L.stream + i)) ≠ {} := fun h => by
      have hin := frozenBy_frozenStream (l := l.val) (t := u.time) hfreeze
      rw [← (detectedStream_agc l.val m u.time _).1, h] at hin
      exact nomatch hin
    rw [getStream, (reportRecord_radio _ _ _).2]
    refine (getStream_modStreams (Nat.lt_succ_of_le hi) ?_).trans ?_
    · rw [hu]
      exact hne
    · rw [hu, ← htime]
      rfl

end Sys2Proof.Machine
end

section
/-! PROOFS. The closing of a symbol's window (R175): what has not arrived is poisoned. -/

namespace Sys2Proof.Machine

open Sys2Proof

variable {s t u : State}

/-! ### Poison (R175) -/

theorem onlyClusters_poisonSample (p c : Nat) (s : State) (g : Nat) : OnlyClusters s (poisonSample p c s g) := by
  unfold poisonSample
  split <;> rfl

theorem granMine_congr (h : t.parts = s.parts) (p c g : Nat) : granMine t p c g = granMine s p c g := by
  rw [granMine, granMine, getHold, getHold, getPart, getPart, h]

/-- A cluster in which a granule is poisoned. -/
def poisonedClu (g : Nat) (cl : Cluster) : Cluster := { cl with sram := setGranPsn cl.sram g true }

theorem getClu_poisonedClu (s : State) (c g : Nat) : getClu (modClu s c (poisonedClu g)) c = poisonedClu g (getClu s c) := by
  refine getClu_modClu_self s c _ fun h => ?_
  have hpsn : granPsn (setGranPsn (getClu s c).sram g true) g = false := congrArg (fun cl : Cluster => granPsn cl.sram g) h
  rw [granPsn_setGranPsn] at hpsn
  exact nomatch hpsn

theorem granPsn_setGranPsn_of_granPsn {m : PMem} {g : Nat} (k : Nat) (h : granPsn m g = true) : granPsn (setGranPsn m k true) g = true := by
  by_cases hk : k = g
  · subst hk
    exact granPsn_setGranPsn m k
  · exact (tabGet_tabSet_other _ _ _ hk).trans h

theorem granPsn_poisonSample_of_granPsn {p c g : Nat} (k : Nat) (h : granPsn (getClu s c).sram g = true) :
    granPsn (getClu (poisonSample p c s k) c).sram g = true := by
  unfold poisonSample
  split
  · exact h
  · exact (congrArg (fun cl : Cluster => granPsn cl.sram g) (getClu_poisonedClu s c k)).trans (granPsn_setGranPsn_of_granPsn k h)

theorem granPsn_poisonSample {p c g : Nat} (h : granMine s p c g = true) : granPsn (getClu (poisonSample p c s g) c).sram g = true := by
  rw [poisonSample, h]
  exact (congrArg (fun cl : Cluster => granPsn cl.sram g) (getClu_poisonedClu s c g)).trans (granPsn_setGranPsn _ g)

/-- Every granule of a list that the partition holds is poisoned, and stays so. -/
theorem granPsn_foldl_poisonSample {p c g : Nat} {gs : List Nat} (hg : g ∈ gs) (h : granMine s p c g = true) :
    granPsn (getClu (gs.foldl (poisonSample p c) s) c).sram g = true := by
  induction gs generalizing s with
  | nil => exact nomatch hg
  | cons k gs ih =>
    rw [List.foldl_cons]
    rcases List.mem_cons.1 hg with rfl | hg
    · exact List.foldlRecOn (motive := fun t => granPsn (getClu t c).sram g = true) gs _ (granPsn_poisonSample h)
        fun t ht k _ => granPsn_poisonSample_of_granPsn k ht
    · exact ih hg ((granMine_congr (onlyClusters_poisonSample p c s k).parts p c g).trans h)

/-! ### What passes before the window closes -/

/-- Two states are alike in the cells, the partitions, the windows that have closed, and where on-time messages have written. -/
def SameArrivals (s t : State) : Prop :=
  t.radio.cells = s.radio.cells ∧ t.parts = s.parts ∧ t.radio.closed = s.radio.closed ∧ symWritten t = symWritten s

theorem SameArrivals.trans (h : SameArrivals s t) (k : SameArrivals t u) : SameArrivals s u := by
  obtain ⟨hcells, hparts, hclosed, hwritten⟩ := h
  obtain ⟨kcells, kparts, kclosed, kwritten⟩ := k
  exact ⟨kcells.trans hcells, kparts.trans hparts, kclosed.trans hclosed, kwritten.trans hwritten⟩

/-- A part that passes marks its sections, which stay where they were written. -/
theorem symWritten_markPassed (cell stream slot sym part : Nat) (s : State) :
    symWritten (markPassed cell stream slot sym part s) = symWritten s := by
  funext c slot' y group sub
  unfold symWritten
  refine List.any_map.trans (congrArg _ (funext fun u => ?_))
  show _ = _
  unfold Function.comp passedSect
  split <;> rfl

theorem sameArrivals_passPart (s : State) (cell stream slot sym part : Nat) : SameArrivals s (passPart s cell stream slot sym part) := by
  obtain ⟨t, honly, heq⟩ := passPart_eq s cell stream slot sym part
  rw [heq]
  have hradio := honly.radio
  refine ⟨?_, honly.parts, ?_, ?_⟩
  · show t.radio.cells = _
    rw [hradio]
    rfl
  · show t.radio.closed = _
    rw [hradio]
    rfl
  · rw [symWritten_markPassed]
    funext c slot' y group sub
    rw [symWritten, getCell, hradio]
    rfl

/-- The state in which all eight parts of a symbol have passed. -/
def passSym (s : State) (cell stream slot sym : Nat) : State :=
  (List.range 8).foldl (fun s part => passPart s cell stream slot sym part) s

theorem sameArrivals_passSym (s : State) (cell stream slot sym : Nat) : SameArrivals s (passSym s cell stream slot sym) :=
  List.foldlRecOn (motive := SameArrivals s) _ _ ⟨rfl, rfl, rfl, rfl⟩ fun t ht part _ =>
    ht.trans (sameArrivals_passPart t cell stream slot sym part)

theorem erasedSubs_congr (h : SameArrivals s t) (c slot y group : Nat) : erasedSubs t c slot y group = erasedSubs s c slot y group := by
  obtain ⟨hcells, -, -, hwritten⟩ := h
  rw [erasedSubs, erasedSubs, getCell, getCell, hcells, hwritten]

/-! ### RX_WINDOW_CLOSE -/

/-- The granules that an antenna group has at some subcarriers of a symbol (R118). -/
def groupGrans (w : List Word) (slot sym group : Nat) (subs : List Nat) : List Nat :=
  subs.map fun i => Config.symBuffer w 0 slot sym + i * antGrans (cNstream w) + group

section

variable {c : Fin 512} {n : Fin 2048} {slot : Nat} {y : Fin 14} {f : Flow} {C : Cell}

/-- The state in which a symbol has passed, and what an antenna group lacks of it is poisoned. -/
def closedSym (s : State) (c n slot y : Nat) (group : Nat) : State :=
  let C := getCell s c
  let t := passSym s c n slot y
  (groupGrans C.ctx slot y group (erasedSubs t c slot y group)).foldl (poisonSample C.part (cCluster C.ctx)) t

theorem exec_rxWindowClose (hon : mainOn s = true) (hC : getCell s c.val = C)
    (hf : C.flows.find? (fun f => !f.down && !f.prach && decide (C.streamFirst + f.idx = n.val)) = some f) :
    exec (.rxWindowClose c n slot y) s = .next (
      if !cellWorks C slot || s.radio.closed.contains { cell := c.val, stream := n.val, slot := slot, sym := y.val } ||
        decide (nowNs s < airTime C.ctx slot y.val + epTa4Max (getEp s f.ep)) then s
      else
        let t := closedSym s c.val n.val slot y.val (f.idx / 16)
        { t with radio := { t.radio with
          closed := t.radio.closed ++ [{ cell := c.val, stream := n.val, slot := slot, sym := y.val }] } }) := by
  subst hC
  show execRxWindowClose c n slot y s = _
  rw [execRxWindowClose, inRun_of_mainOn _ hon]
  dsimp only
  rw [hf]
  rfl

theorem rxWindowClose_early (hon : mainOn s = true) (hC : getCell s c.val = C)
    (hf : C.flows.find? (fun f => !f.down && !f.prach && decide (C.streamFirst + f.idx = n.val)) = some f)
    (hearly : nowNs s < airTime C.ctx slot y.val + epTa4Max (getEp s f.ep)) : exec (.rxWindowClose c n slot y) s = .next s := by
  rw [exec_rxWindowClose hon hC hf, if_pos (by rw [decide_eq_true hearly, Bool.or_true])]

theorem rxWindowClose_due (hon : mainOn s = true) (hC : getCell s c.val = C) (hworks : cellWorks C slot = true)
    (hf : C.flows.find? (fun f => !f.down && !f.prach && decide (C.streamFirst + f.idx = n.val)) = some f)
    (hopen : { cell := c.val, stream := n.val, slot := slot, sym := y.val } ∉ s.radio.closed)
    (hdue : airTime C.ctx slot y.val + epTa4Max (getEp s f.ep) ≤ nowNs s) :
    ∃ t, exec (.rxWindowClose c n slot y) s = .next t ∧
      t.radio.closed = s.radio.closed ++ [{ cell := c.val, stream := n.val, slot := slot, sym := y.val }] ∧
      ∀ g ∈ groupGrans C.ctx slot y.val (f.idx / 16) (erasedSubs s c.val slot y.val (f.idx / 16)),
        granMine s C.part (cCluster C.ctx) g = true → granPsn (getClu t (cCluster C.ctx)).sram g = true := by
  have hrun := exec_rxWindowClose (slot := slot) (y := y) hon hC hf
  rw [if_neg (by simp [hworks, hopen, Nat.not_lt.2 hdue])] at hrun
  obtain ⟨-, hparts, hclosed, -⟩ := sameArrivals_passSym s c.val n.val slot y.val
  refine ⟨_, hrun, ?_, fun g hg hmine => ?_⟩
  · have honly : OnlyClusters (passSym s c.val n.val slot y.val) (closedSym s c.val n.val slot y.val (f.idx / 16)) :=
      onlyClusters_foldl _ _ (onlyClusters_poisonSample _ _)
    show _ ++ _ = _
    rw [honly.radio, hclosed]
  · subst hC
    refine granPsn_foldl_poisonSample ?_ ((granMine_congr hparts _ _ _).trans hmine)
    rwa [erasedSubs_congr (sameArrivals_passSym s c.val n.val slot y.val)]

end

end Sys2Proof.Machine
end

section
/-! PROOFS. What the traffic manager leaves of the radio (R302 to R308, R312): the cells, as it takes a frame and sends others. -/

namespace Sys2Proof.Machine

open Sys2Proof

variable (s : State)

theorem cells_foldl {β : Type} {f : State → β → State} (xs : List β) (hf : ∀ s x, (f s x).radio.cells = s.radio.cells) :
    (xs.foldl f s).radio.cells = s.radio.cells :=
  List.foldlRecOn (motive := fun t => t.radio.cells = s.radio.cells) xs f rfl fun t ht x _ => (hf t x).trans ht

/-! ### Credit and tags (R306 to R308) -/

@[simp] theorem radio_settleCredit (q : Nat) : (settleCredit s q).radio = s.radio := by
  unfold settleCredit
  extract_lets
  split <;> rfl

@[simp] theorem radio_settleSub (port sub : Nat) : (settleSub s port sub).radio = s.radio :=
  radio_foldl s _ radio_settleCredit

@[simp] theorem radio_tagQueue (q : Nat) : (tagQueue s q).radio = s.radio := by
  unfold tagQueue
  extract_lets Q
  split
  · split <;> rfl
  · split
    · split <;> rfl
    · split <;> rfl

@[simp] theorem radio_tagPart (port sub p : Nat) : (tagPart s port sub p).radio = s.radio := by
  unfold tagPart
  split
  · rfl
  · extract_lets
    split
    · rfl
    · split <;> rfl

@[simp] theorem radio_refreshSub (port sub : Nat) : (refreshSub s port sub).radio = s.radio := by
  unfold refreshSub
  extract_lets s1
  exact (radio_foldl s1 _ fun t p => radio_tagPart t port sub p).trans (radio_foldl s _ radio_tagQueue)

/-! ### Frames that are late, begin and come (R303 to R305) -/

theorem radio_sendMiss (ep cell sym : Nat) :
    (sendMiss s ep cell sym).radio = (modEp s ep fun e => { e with txLate := satInc 32 e.txLate 1 }).radio := by
  unfold sendMiss
  extract_lets s1 _ s2
  exact (onlyReports_radio (onlyReports_evPart s2 _ _ _)).trans rfl

@[simp] theorem cells_sendMiss (ep cell sym : Nat) : (sendMiss s ep cell sym).radio.cells = s.radio.cells := by
  rw [radio_sendMiss]
  rfl

@[simp] theorem cells_purgeLate (q : Nat) : (purgeLate s q).radio.cells = s.radio.cells := by
  unfold purgeLate
  extract_lets late Q gone s1
  split
  · rfl
  · refine cells_foldl s1 gone fun t f => ?_
    split
    · exact cells_sendMiss t _ _ _
    · rfl

@[simp] theorem radio_beginFrame (port sub q : Nat) (f : Frame) : (beginFrame s port sub q f).radio = s.radio := by
  unfold beginFrame
  extract_lets Q f1 s1
  exact radio_settleCredit s q

@[simp] theorem cells_startNext (port sub : Nat) : (startNext s port sub).radio.cells = s.radio.cells := by
  unfold startNext
  split
  · rfl
  · extract_lets s1 s2
    have h2 : s2.radio.cells = s.radio.cells := by
      simp only [s2, s1, radio_refreshSub, radio_settleSub]
      exact cells_foldl s _ cells_purgeLate
    split
    · simp [h2]
    · split
      · exact h2
      · split
        · exact h2
        · split
          · exact h2
          · simp [h2]

@[simp] theorem cells_enqueue (q : Nat) (f : Frame) : (enqueue s q f).radio.cells = s.radio.cells := by
  unfold enqueue
  extract_lets Q port sub drop s1
  have h1 : s1.radio = s.radio := radio_settleCredit s q
  split
  · rfl
  · split
    · rfl
    · rw [cells_startNext, radio_refreshSub, h1]

@[simp] theorem cells_sendChecked (q : Nat) (ecpriVlan : Nat → Bool) (f : Frame) :
    (sendChecked s q ecpriVlan f).1.radio.cells = s.radio.cells := by
  unfold sendChecked
  extract_lets Q
  split
  · rfl
  · exact cells_enqueue s q f

end Sys2Proof.Machine
end

section
/-! PROOFS. O57: the sends of the downlink windows and the sections that miss them (R170, R176, R194, R290), and the settlement. -/

namespace Sys2Proof.Machine

open Sys2Proof

variable {s : State}

/-! ### A message that is sent (R170, R290) -/

theorem length_beBytes (n v : Nat) : (beBytes n v).length = n := by rw [beBytes, List.length_reverse, length_leBytes]

theorem length_radioHead (w : List Word) (up : Bool) (slot y : Nat) : (radioHead w up slot y).length = 4 := by
  simp [radioHead, length_beBytes]

theorem length_ecpriFrame (s : State) (p : Nat) (E : Endpoint) (typ : Nat) (body : List Byte) :
    (ecpriFrame s p E typ body).length = 22 + body.length := by
  simp [ecpriFrame, length_beBytes]
  omega

/-- A flow with the sequence number of its next message. -/
def sentFlow (f : Flow) : Flow := { f with lastSeq := some (match f.lastSeq with
  | none => 0
  | some q => (q + 1) % 256) }

theorem cells_sendEcpri (s : State) {c i : Nat} {f : Flow} (typ y stop : Nat) {body : List Byte} (hlen : body.length ≤ 9186) :
    (sendEcpri s c i f typ y stop body).1.radio.cells = (setFlow s c i (sentFlow f)).radio.cells := by
  unfold sendEcpri
  extract_lets C E seq bs
  have hbs : bs.length ≤ 9212 := by
    show (ecpriFrame _ _ _ _ _).length ≤ 9212
    simp only [length_ecpriFrame, List.length_append, length_beBytes]
    omega
  rw [if_neg (Nat.not_lt.2 hbs)]
  exact cells_sendChecked _ _ _ _

theorem sendSect_outside {k : TxKey} {f : Flow} {body : List Byte}
    (hout : inTxWindow s k.cplane (getEp s f.ep) (airTime (getCell s k.cell).ctx k.slot k.sym) = false) : sendSect s k f body = s := by
  rw [sendSect, hout]
  rfl

theorem cells_sendSect {k : TxKey} {f : Flow} {body : List Byte}
    (hin : inTxWindow s k.cplane (getEp s f.ep) (airTime (getCell s k.cell).ctx k.slot k.sym) = true) (hlen : body.length ≤ 9186) :
    (sendSect s k f body).radio.cells = (setFlow s k.cell k.flow (sentFlow f)).radio.cells := by
  unfold sendSect
  extract_lets air E r
  rw [show inTxWindow s k.cplane E air = true from hin, Bool.not_true, if_neg Bool.false_ne_true]
  have hr : r.1.radio.cells = (setFlow s k.cell k.flow (sentFlow f)).radio.cells := cells_sendEcpri s _ _ _ hlen
  split <;> exact hr

theorem flows_setFlow {c i : Nat} {f g : Flow} (hlive : (getCell s c).live = true) (hf : (getCell s c).flows[i]? = some f) :
    (getCell (setFlow s c i g) c).flows[i]? = some g := by
  have hne : { getCell s c with flows := (getCell s c).flows.set i g } ≠ ({} : Cell) := fun h => by
    have hdead : (getCell s c).live = false := congrArg Cell.live h
    rw [hlive] at hdead
    exact nomatch hdead
  obtain ⟨hi, -⟩ := List.getElem?_eq_some_iff.1 hf
  rw [setFlow, getCell_modCell_self s c _ hne, List.getElem?_set_self hi]

/-- A section that goes out in its window gives its flow the next sequence number. -/
theorem flows_sendSect {k : TxKey} {f : Flow} {body : List Byte} (hlive : (getCell s k.cell).live = true)
    (hf : (getCell s k.cell).flows[k.flow]? = some f)
    (hin : inTxWindow s k.cplane (getEp s f.ep) (airTime (getCell s k.cell).ctx k.slot k.sym) = true) (hlen : body.length ≤ 9186) :
    (getCell (sendSect s k f body) k.cell).flows[k.flow]? = some (sentFlow f) := by
  rw [getCell, cells_sendSect hin hlen]
  exact flows_setFlow hlive hf

theorem inTxWindow_of_le {cplane : Bool} {E : Endpoint} {air : Nat} (hmin : nowNs s + txMin cplane E ≤ air)
    (hmax : air ≤ nowNs s + txMax cplane E) : inTxWindow s cplane E air = true := by
  rw [inTxWindow, decide_eq_true hmax, decide_eq_true hmin]
  rfl

/-! ### DL_CPLANE_SEND, DL_UPLANE_SEND and TX_LATE (R176, R194) -/

section

variable {c : Fin 512} {slot j : Nat} {C : Cell} {f : Flow}

theorem live_of_cellWorks (h : cellWorks C slot = true) : C.live = true := by
  rw [cellWorks, Bool.and_assoc, Bool.and_eq_true] at h
  exact h.1

/-- A downlink flow of a cell that works, in a slot of the cell. -/
def SlotFlow (s : State) (c : Fin 512) (slot j : Nat) (C : Cell) (f : Flow) : Prop :=
  mainOn s = true ∧ getCell s c.val = C ∧ slotDue C slot = true ∧ downFlow C j = some f

theorem slotFlow_of_works {f : Flow} (hon : mainOn s = true) (hworks : cellWorks (getCell s c.val) slot = true)
    (hslot : slot % slotCloves (getCell s c.val).ctx = 0) (hf : (getCell s c.val).flows[j]? = some f) (hdown : f.down = true) :
    SlotFlow s c slot j (getCell s c.val) f := by
  refine ⟨hon, rfl, ?_, ?_⟩
  · rw [slotDue, hworks, decide_eq_true hslot]
    rfl
  · rw [downFlow, hf, Option.bind_some, if_pos hdown]

/-- The C-plane message that is sent for what the CSP has made ready. -/
def cplaneBody (C : Cell) (slot : Nat) (m : CpMsg) : List Byte :=
  radioHead C.ctx m.up slot m.startSym.val ++ beBytes 1 m.nsect.toNat ++ beBytes 1 m.secType ++ m.body

theorem exec_dlCplaneSend {m : CpMsg} (h : SlotFlow s c slot m.flow C f) : exec (.dlCplaneSend c slot [m]) s = .next (
    if !m.ready || m.poisoned || !cpSupported C.ctx m then s
    else sendSect s { cell := c.val, slot := slot, sym := 0, cplane := true, flow := m.flow, sect := m.sect } f (cplaneBody C slot m)) := by
  obtain ⟨hon, rfl, hdue, hf⟩ := h
  show execDlCplaneSend c slot [m] s = _
  rw [execDlCplaneSend, inRun_of_mainOn _ hon]
  dsimp only
  rw [hdue, Bool.not_true, if_neg Bool.false_ne_true, List.foldl_cons, List.foldl_nil, hf]
  rfl

theorem dlCplaneSend_held {m : CpMsg} (h : SlotFlow s c slot m.flow C f)
    (hheld : m.ready = false ∨ m.poisoned = true ∨ cpSupported C.ctx m = false) : exec (.dlCplaneSend c slot [m]) s = .next s := by
  rw [exec_dlCplaneSend h, if_pos]
  rcases hheld with hheld | hheld | hheld <;> simp [hheld]

theorem dlCplaneSend_ready {m : CpMsg} (h : SlotFlow s c slot m.flow C f) (hready : m.ready = true) (hclean : m.poisoned = false)
    (hsup : cpSupported C.ctx m = true) : exec (.dlCplaneSend c slot [m]) s = .next
      (sendSect s { cell := c.val, slot := slot, sym := 0, cplane := true, flow := m.flow, sect := m.sect } f (cplaneBody C slot m)) := by
  rw [exec_dlCplaneSend h, if_neg (by simp [hready, hclean, hsup])]

theorem length_cplaneBody {m : CpMsg} (hlen : m.body.length ≤ 9000) : (cplaneBody C slot m).length ≤ 9186 := by
  simp only [cplaneBody, List.length_append, length_radioHead, length_beBytes]
  omega

/-- The U-plane message of a section with its payload. -/
def uplaneBody (C : Cell) (slot y : Nat) (m : DlSection) (pay : List Byte) : List Byte :=
  radioHead C.ctx false slot y ++ sectHead m ++ pay

/-- What DL_UPLANE_SEND does with one section. -/
def uplaneStep (s : State) (c slot y : Nat) (C : Cell) (f : Flow) (m : DlSection) : State :=
  match m.act with
  | .map => if cCompDl C.ctx = 5 then s else mapSect s C slot y f m
  | .send =>
    if !m.ready then s else
    match sectPayload s C slot y f m with
    | none => s
    | some pay => sendSect s { cell := c, slot := slot, sym := y, cplane := false, flow := m.flow, sect := m.sect } f
        (uplaneBody C slot y m pay)

theorem exec_dlUplaneSend {m : DlSection} (y : Fin 14) (h : SlotFlow s c slot m.flow C f) :
    exec (.dlUplaneSend c slot y [m]) s = .next (uplaneStep s c.val slot y.val C f m) := by
  obtain ⟨hon, rfl, hdue, hf⟩ := h
  show execDlUplaneSend c slot y [m] s = _
  rw [execDlUplaneSend, inRun_of_mainOn _ hon]
  dsimp only
  rw [hdue, Bool.not_true, if_neg Bool.false_ne_true, List.foldl_cons, List.foldl_nil, hf]
  rfl

theorem dlUplaneSend_map {m : DlSection} (y : Fin 14) (h : SlotFlow s c slot m.flow C f) (hact : m.act = .map) :
    exec (.dlUplaneSend c slot y [m]) s = .next (if cCompDl C.ctx = 5 then s else mapSect s C slot y.val f m) := by
  rw [exec_dlUplaneSend y h, uplaneStep, hact]

theorem dlUplaneSend_held {m : DlSection} (y : Fin 14) (h : SlotFlow s c slot m.flow C f) (hact : m.act = .send)
    (hheld : m.ready = false ∨ sectPayload s C slot y.val f m = none) : exec (.dlUplaneSend c slot y [m]) s = .next s := by
  rw [exec_dlUplaneSend y h, uplaneStep, hact]
  rcases hheld with hheld | hheld
  · rw [hheld]
    rfl
  · rw [hheld]
    cases m.ready <;> rfl

theorem dlUplaneSend_ready {m : DlSection} {y : Fin 14} {pay : List Byte} (h : SlotFlow s c slot m.flow C f) (hact : m.act = .send)
    (hready : m.ready = true) (hpay : sectPayload s C slot y.val f m = some pay) : exec (.dlUplaneSend c slot y [m]) s = .next
      (sendSect s { cell := c.val, slot := slot, sym := y.val, cplane := false, flow := m.flow, sect := m.sect } f
        (uplaneBody C slot y.val m pay)) := by
  rw [exec_dlUplaneSend y h, uplaneStep, hact, hready, hpay]
  rfl

theorem length_uplaneBody {y : Nat} {m : DlSection} {pay : List Byte} (hlen : pay.length ≤ 9000) :
    (uplaneBody C slot y m pay).length ≤ 9186 := by
  simp only [uplaneBody, sectHead, List.length_append, length_radioHead, length_beBytes]
  omega

/-- The number of a section that misses its window; symbol 0 stands for the slot in the C-plane. -/
def lateKey (c : Fin 512) (slot : Nat) (y : Fin 14) (part : LateSect) : TxKey :=
  { cell := c.val, slot := slot, sym := if part.cplane then 0 else y.val, cplane := part.cplane, flow := part.flow, sect := part.sect }

theorem exec_txLate {y : Fin 14} {part : LateSect} (h : SlotFlow s c slot part.flow C f) : exec (.txLate c slot y part) s = .next (
    if s.radio.txDone.contains (lateKey c slot y part) ||
      decide (nowNs s + txMin part.cplane (getEp s f.ep) ≤ airTime C.ctx slot (lateKey c slot y part).sym) then s
    else sendMiss { s with radio := { s.radio with txDone := s.radio.txDone ++ [lateKey c slot y part] } } f.ep c.val
      (lateKey c slot y part).sym) := by
  obtain ⟨hon, rfl, hdue, hf⟩ := h
  show execTxLate c slot y part s = _
  rw [execTxLate, inRun_of_mainOn _ hon]
  dsimp only
  rw [hf]
  dsimp only
  rw [hdue, Bool.not_true, Bool.false_or]
  rfl

/-- A send that misses its window is counted at its endpoint. -/
theorem txLate_sendMiss (s : State) (ep cell sym : Nat) : (getEp (sendMiss s ep cell sym) ep).txLate = satInc 32 (getEp s ep).txLate 1 := by
  rw [getEp, radio_sendMiss]
  refine congrArg Endpoint.txLate (getEp_modEp_self s ep (fun e => { e with txLate := satInc 32 e.txLate 1 }) fun h => ?_)
  have hzero : min (2 ^ 32 - 1) ((getEp s ep).txLate + 1) = 0 := congrArg Endpoint.txLate h
  omega

theorem txLate_quiet {y : Fin 14} {part : LateSect} (h : SlotFlow s c slot part.flow C f)
    (hquiet : lateKey c slot y part ∈ s.radio.txDone ∨
      nowNs s + txMin part.cplane (getEp s f.ep) ≤ airTime C.ctx slot (lateKey c slot y part).sym) :
    exec (.txLate c slot y part) s = .next s := by
  rw [exec_txLate h, if_pos]
  rcases hquiet with hquiet | hquiet <;> simp [hquiet]

theorem txLate_missed {y : Fin 14} {part : LateSect} (h : SlotFlow s c slot part.flow C f)
    (hnew : lateKey c slot y part ∉ s.radio.txDone)
    (hlate : airTime C.ctx slot (lateKey c slot y part).sym < nowNs s + txMin part.cplane (getEp s f.ep)) :
    ∃ t, exec (.txLate c slot y part) s = .next t ∧ lateKey c slot y part ∈ t.radio.txDone ∧
      (getEp t f.ep).txLate = satInc 32 (getEp s f.ep).txLate 1 := by
  rw [exec_txLate h, if_neg (by simp [hnew, hlate])]
  refine ⟨_, rfl, ?_, txLate_sendMiss _ _ _ _⟩
  rw [radio_sendMiss]
  exact List.mem_append_right _ (List.mem_singleton_self _)

end

/-- Settles O57: the bisection of the AGC factor ends where its test turns (agcBisect_turns); a part that passes changes of the radio only
its stream's symbol and the marks of its sections (passPart_eq); a detection changes each stream of its lane once
(getStream_modStreams); a granule stays poisoned once it is (granPsn_foldl_poisonSample); and the traffic manager leaves the cells, so
that a send's sequence number stays (cells_sendChecked). -/
theorem radioFrontEnd : Obligations.RadioFrontEnd := by
  unfold Obligations.RadioFrontEnd
  refine ⟨fun G => agcFactor_nearest, toSigned_agcPart, fun s hon => ⟨fun n slot y part => ?agc, fun l m => ?search,
    fun c n slot y f => ?window, fun c slot j f => ?downlink⟩⟩
  case agc =>
    intro S C i xs u m p
    refine ⟨exec_agcUpdate_off hon rfl, fun v hv hsect => passed_of_passPart hv hsect, fun hen hworks =>
      ⟨exec_agcUpdate_held hon rfl hen hworks rfl rfl, fun hagc hfree hsome hgain => ?_⟩⟩
    refine (exec_agcUpdate_step hon rfl hen hworks rfl rfl hagc hfree hsome hgain).trans (congrArg _ (modStream_congr ?_))
    have hm : m = ((Nat.max 1 (getStream u n.val).maxStep : Nat) : Int) := by
      rw [show getStream u n.val = symStream slot y.val S from getStream_passPart hen, symStream_maxStep]
    rw [hm]
    rfl
  case search =>
    intro L
    refine ⟨exec_searchDetection_quiet hon, fun hbusy hclove hmetric => ?_⟩
    obtain ⟨t, p, hexec, hlane, hstreams⟩ := searchDetection_found hon rfl hbusy hclove hmetric
    refine ⟨t, BitVec.ofInt 16 p, hexec, hlane, fun i hi => ?_⟩
    intro S hfreeze
    obtain ⟨hfrozen, hgain⟩ := detectedStream_agc l.val m s.time S
    rw [hstreams i hi hfreeze, hfrozen, hgain]
    exact ⟨frozenBy_frozenStream hfreeze, gain_frozenStream hfreeze⟩
  case window =>
    intro C x w hworks hf hopen
    refine ⟨rxWindowClose_early hon rfl hf, fun hdue => ?_⟩
    obtain ⟨t, hexec, hclosed, hpsn⟩ := rxWindowClose_due hon rfl hworks hf hopen hdue
    exact ⟨t, hexec, hclosed, fun i hi => hpsn _ (List.mem_map.2 ⟨i, hi, rfl⟩)⟩
  case downlink =>
    intro C w e q sent hworks hslot hf hdown
    have hdue : SlotFlow s c slot j C f := slotFlow_of_works hon hworks hslot hf hdown
    have hlive : C.live = true := live_of_cellWorks hworks
    refine ⟨fun m hm => ?cplane, fun y m hm => ?uplane, fun y cplane sect => ?late⟩
    case cplane =>
      subst hm
      refine ⟨dlCplaneSend_held hdue, fun hready hclean hsup hlen => ?_⟩
      have hexec := dlCplaneSend_ready hdue hready hclean hsup
      exact ⟨fun hout => hexec.trans (congrArg _ (sendSect_outside hout)), fun hmin hmax =>
        ⟨_, hexec, flows_sendSect hlive hf (inTxWindow_of_le hmin hmax) (length_cplaneBody hlen)⟩⟩
    case uplane =>
      subst hm
      refine ⟨dlUplaneSend_map y hdue, dlUplaneSend_held y hdue, fun pay hact hready hpay hlen => ?_⟩
      have hexec := dlUplaneSend_ready hdue hact hready hpay
      exact ⟨fun hout => hexec.trans (congrArg _ (sendSect_outside hout)), fun hmin hmax =>
        ⟨_, hexec, flows_sendSect hlive hf (inTxWindow_of_le hmin hmax) (length_uplaneBody hlen)⟩⟩
    case late =>
      intro i k late
      exact ⟨fun hquiet => txLate_quiet (part := ⟨cplane, j, sect⟩) hdue (hquiet.imp_right Nat.le_of_not_lt),
        txLate_missed (part := ⟨cplane, j, sect⟩) hdue⟩

end Sys2Proof.Machine
end

section
/-! PROOFS. Time stamps and clove fields (R219, R222), step marks (R424) and the pins of the pulse per second (R438). -/

namespace Sys2Proof.Machine

open Sys2Proof

variable {s : State}

/-! ### Clove fields (R222) -/

/-- The signed comparison of two numbers is their distance modulo 2^32, where that lies within half the range. -/
theorem s32Diff_eq {a b : Nat} {d : Int} (h : ((a : Int) - b) % 2 ^ 32 = d % 2 ^ 32) (hlo : -2 ^ 31 ≤ d) (hhi : d < 2 ^ 31) :
    s32Diff a b = d := by
  have hsame : ofSigned 32 ((a : Int) - b) = ofSigned 32 d := by
    simp only [ofSigned, Nat.cast_pow, Nat.cast_ofNat, h]
  rw [s32Diff, hsame, toSigned_ofSigned (by decide) hlo hhi]

/-- A field names the clove that is as far ahead as it says, up to half the range. -/
theorem cloveOfField_ahead {f d : Nat} (hd : d < 2 ^ 31) (h : (s.time.clove + d) % 2 ^ 32 = f) :
    cloveOfField s f = some (s.time.clove + d) := by
  have hdiff : s32Diff f s.time.clove = d := s32Diff_eq (by omega) (by omega) (by omega)
  simp [cloveOfField, hdiff]

/-- A field that lies behind the current clove names none. -/
theorem cloveOfField_behind {f d : Nat} (hpos : 0 < d) (hd : d ≤ 2 ^ 31) (h : (f + d) % 2 ^ 32 = s.time.clove % 2 ^ 32) :
    cloveOfField s f = none := by
  have hdiff : s32Diff f s.time.clove = -d := s32Diff_eq (by omega) (by omega) (by omega)
  have hneg : -(d : Int) < 0 := by omega
  simp only [cloveOfField, hdiff, if_pos hneg]

/-! ### Step marks (R424) -/

/-- A partition after a step mark at time now. -/
def stepMarked (now : Nat) (P : Part) : Part :=
  match P.stepAt with
  | none => { P with stepAt := some now }
  | some a =>
    let n := Nat.min (2 ^ 32 - 1) ((now - a) / 2)
    { P with stepAt := some now, stepLast := n, stepMax := Nat.max P.stepMax n, stepCnt := P.stepCnt + 1 }

theorem exec_stepMark {p : Fin 64} (v : Word) (hon : mainOn s = true) (hlive : (getPart s p.val).live = true) :
    exec (.stepMark p v) s = .next (modPart s p.val (stepMarked s.time.now)) := by
  show execStepMark p v s = _
  rw [execStepMark, inRun_of_mainOn _ hon, hlive]
  rfl

/-! ### The pins of the pulse per second (R438) -/

theorem exec_ppsInEdge (hon : mainOn s = true) :
    exec .ppsInEdge s = .next { s with time := { s.time with ppsInStamp := stamp s } } :=
  show execPpsInEdge s = _ from inRun_of_mainOn _ hon

theorem exec_ppsOutRise (hon : mainOn s = true) :
    exec .ppsOutRise s = .next (if s.time.ppsOutEn && (decide (s.time.ns ≤ 2) || decide (999999998 ≤ s.time.ns)) then
      { s with time := { s.time with ppsOut := true } } else s) :=
  show execPpsOutRise s = _ from inRun_of_mainOn _ hon

theorem exec_ppsOutFall (hon : mainOn s = true) :
    exec .ppsOutFall s = .next { s with time := { s.time with ppsOut := false } } :=
  show execPpsOutFall s = _ from inRun_of_mainOn _ hon

/-- Settles O33: a stamp is the low word of the reading (R219), a field and the clove that it names differ by a signed word (s32Diff_eq),
and a mark changes its partition by stepMarked alone. -/
theorem timeMarks : Obligations.TimeMarks := by
  unfold Obligations.TimeMarks
  intro s hon
  refine ⟨BitVec.toNat_ofNat _ _, fun f _ => ⟨fun d => cloveOfField_ahead, fun d => cloveOfField_behind⟩, fun p v hlive => ?_,
    exec_ppsInEdge hon, fun hen hns => ?_, fun hdis => ?_, exec_ppsOutFall hon⟩
  · rw [exec_stepMark v hon hlive]
    refine ⟨fun hfirst => congrArg _ (modPart_congr (by simp only [stepMarked, hfirst])), fun a hat => ⟨_, _, rfl, rfl, ?_⟩⟩
    have hmarked : (stepMarked s.time.now (getPart s p.val)).live = true := by
      simpa only [stepMarked, hat] using hlive
    rw [getPart_modPart_self _ _ _ (part_ne_of_live hmarked)]
    simp only [stepMarked, hat, and_self]
  · rw [exec_ppsOutRise hon, if_pos (by simp [hen, hns])]
  · rw [exec_ppsOutRise hon, if_neg (by simp [hdis])]

end Sys2Proof.Machine
end

section
/-! PROOFS. The time unit's two domains (R213, R215 to R217): what each change of the time unit does to its fields, and that no more than
reports goes with it. -/

namespace Sys2Proof.Machine

open Sys2Proof

variable {s t u : State} {d : Bool}

/-! ### States alike but for the time unit and reports -/

/-- Between two states only the time unit and reports differ. -/
def OnlyTime (s t : State) : Prop := OnlyReports { s with time := t.time } t

theorem OnlyReports.time (h : OnlyReports s t) : t.time = s.time := congrArg (·.time) (onlyReports_iff.1 h).1

theorem OnlyReports.withTime (h : OnlyReports s t) (x : TimeUnit) : OnlyReports { s with time := x } { t with time := x } := by
  obtain ⟨hfields, hparts⟩ := onlyReports_iff.1 h
  exact onlyReports_iff.2 ⟨congrArg (fun s : State => { s with time := x }) hfields, hparts⟩

theorem OnlyReports.onlyTime (h : OnlyReports s t) : OnlyTime s t := by
  rw [OnlyTime, h.time]
  exact h

theorem OnlyTime.trans (h : OnlyTime s t) (k : OnlyTime t u) : OnlyTime s u := OnlyReports.trans (h.withTime u.time) k

theorem onlyTime_modTime (s : State) (f : TimeUnit → TimeUnit) : OnlyTime s (modTime s f) := .refl _

theorem onlyTime_ite {c : Prop} [Decidable c] (ht : OnlyTime s t) (hu : OnlyTime s u) : OnlyTime s (if c then t else u) := by
  split <;> assumption

/-! ### Domains -/

@[simp] theorem domOf_modDom_self (s : State) (d : Bool) (f : PtpDom → PtpDom) : domOf (modDom s d f).time d = f (domOf s.time d) := by
  cases d <;> rfl

@[simp] theorem domOf_modDom_other (s : State) (d : Bool) (f : PtpDom → PtpDom) : domOf (modDom s d f).time (!d) = domOf s.time (!d) := by
  cases d <;> rfl

@[simp] theorem active_modDom (s : State) (d : Bool) (f : PtpDom → PtpDom) : (modDom s d f).time.active = s.time.active := by
  cases d <;> rfl

@[simp] theorem auto_modDom (s : State) (d : Bool) (f : PtpDom → PtpDom) : (modDom s d f).time.auto = s.time.auto := by
  cases d <;> rfl

@[simp] theorem activeReq_modDom (s : State) (d : Bool) (f : PtpDom → PtpDom) : (modDom s d f).time.activeReq = s.time.activeReq := by
  cases d <;> rfl

@[simp] theorem reqWaits_modDom (s : State) (d : Bool) (f : PtpDom → PtpDom) : (modDom s d f).time.reqWaits = s.time.reqWaits := by
  cases d <;> rfl

@[simp] theorem reqAt_modDom (s : State) (d : Bool) (f : PtpDom → PtpDom) : (modDom s d f).time.reqAt = s.time.reqAt := by
  cases d <;> rfl

@[simp] theorem now_modDom (s : State) (d : Bool) (f : PtpDom → PtpDom) : (modDom s d f).time.now = s.time.now := by
  cases d <;> rfl

@[simp] theorem cloveRun_modDom (s : State) (d : Bool) (f : PtpDom → PtpDom) : (modDom s d f).time.cloveRun = s.time.cloveRun := by
  cases d <;> rfl

theorem onlyTime_modDom (s : State) (d : Bool) (f : PtpDom → PtpDom) : OnlyTime s (modDom s d f) := onlyTime_modTime _ _

/-! ### TIME_OFFSET (R214) -/

/-- When TIME_OFFSET was last sent, once it has been looked at whether it is due. -/
def offsetEventAfter (s : State) : Option Nat := (offsetCheck s).time.offsetEventAt

/-- Looking for TIME_OFFSET changes nothing of the time unit but when it was last sent, and sends reports. -/
theorem offsetCheck_reports (s : State) :
    OnlyReports { s with time := { s.time with offsetEventAt := offsetEventAfter s } } (offsetCheck s) := by
  have h : ∃ a, OnlyReports { s with time := { s.time with offsetEventAt := a } } (offsetCheck s) := by
    unfold offsetCheck
    extract_lets now o due items s1
    split
    · exact ⟨_, OnlyReports.trans (onlyReports_foldl _ fun t p => onlyReports_evPart t p _ _) (onlyReports_evPool _ _ _)⟩
    · exact ⟨_, .refl s⟩
  obtain ⟨a, ha⟩ := h
  have hafter : offsetEventAfter s = a := congrArg (·.offsetEventAt) ha.time
  rwa [hafter]

@[simp] theorem time_offsetCheck (s : State) : (offsetCheck s).time = { s.time with offsetEventAt := offsetEventAfter s } :=
  (offsetCheck_reports s).time

theorem onlyTime_offsetCheck (s : State) : OnlyTime s (offsetCheck s) := by
  rw [OnlyTime, time_offsetCheck]
  exact offsetCheck_reports s

/-! ### DOMAIN_SWITCH (R216) -/

theorem onlyTime_switchDomain (s : State) (d : Bool) : OnlyTime s (switchDomain s d) :=
  (onlyTime_modTime _ _).trans (onlyTime_offsetCheck _)

@[simp] theorem active_switchDomain (s : State) (d : Bool) : (switchDomain s d).time.active = d := by
  rw [switchDomain, time_offsetCheck]
  rfl

@[simp] theorem reqWaits_switchDomain (s : State) (d : Bool) :
    (switchDomain s d).time.reqWaits = (s.time.reqWaits && decide (s.time.activeReq ≠ d)) := by
  rw [switchDomain, time_offsetCheck]
  rfl

@[simp] theorem domOf_switchDomain (s : State) (d e : Bool) : domOf (switchDomain s d).time e = domOf s.time e := by
  rw [switchDomain, time_offsetCheck]
  rfl

@[simp] theorem holdover_switchDomain (s : State) (d : Bool) : (switchDomain s d).time.holdover = s.time.holdover := by
  rw [switchDomain, time_offsetCheck]
  rfl

@[simp] theorem cloveRun_switchDomain (s : State) (d : Bool) : (switchDomain s d).time.cloveRun = s.time.cloveRun := by
  rw [switchDomain, time_offsetCheck]
  rfl

@[simp] theorem activeReq_switchDomain (s : State) (d : Bool) : (switchDomain s d).time.activeReq = s.time.activeReq := by
  rw [switchDomain, time_offsetCheck]
  rfl

@[simp] theorem auto_switchDomain (s : State) (d : Bool) : (switchDomain s d).time.auto = s.time.auto := by
  rw [switchDomain, time_offsetCheck]
  rfl

/-! ### Holdover (R217) -/

/-- Holdover holds exactly while the cloves run and neither domain is locked. -/
@[simp] theorem holdover_setHoldover (s : State) (d : Bool) :
    (setHoldover s).time.holdover = (s.time.cloveRun && !(domOf s.time d).locked && !(domOf s.time (!d)).locked) := by
  cases d
  · rfl
  · exact Bool.and_right_comm _ _ _

theorem holdover_setHoldover_of_locked (h : (domOf s.time d).locked = true) : (setHoldover s).time.holdover = false := by
  rw [holdover_setHoldover s d, h, Bool.not_true, Bool.and_false, Bool.false_and]

/-! ### DOMAIN_LOCK (R215 to R217) -/

theorem mayLock_of_held (hen : (domOf s.time d).en = true) (hnum : domNumOk (domOf s.time d) = true)
    (hfree : (domOf s.time d).locked = false) (hheld : ∃ a, (domOf s.time d).heldFrom = some a ∧ a + 32000000000 ≤ s.time.now) :
    mayLock s d = true := by
  obtain ⟨a, hfrom, hlong⟩ := hheld
  have hlong' : a + lockTime ≤ s.time.now := hlong
  simp [mayLock, heldLong, hen, hnum, hfree, hfrom, hlong']

/-- A domain that locks is locked, and ends holdover; where that held, or a request waits for the domain, it becomes active, and such a
request does not wait any more. -/
theorem gainLock_locks (s : State) (d : Bool) : (domOf (gainLock s d).time d).locked = true ∧ (gainLock s d).time.holdover = false ∧
    (s.time.holdover = true → (gainLock s d).time.active = d) ∧
    (s.time.reqWaits = true → s.time.activeReq = d → (gainLock s d).time.active = d ∧ (gainLock s d).time.reqWaits = false) ∧
    OnlyTime s (gainLock s d) := by
  unfold gainLock
  extract_lets held s1
  have hlocked : (domOf s1.time d).locked = true := congrArg PtpDom.locked (domOf_modDom_self s d _)
  have hheld : s1.time.holdover = false := holdover_setHoldover_of_locked hlocked
  have hreq : s1.time.activeReq = s.time.activeReq := activeReq_modDom s d _
  have hwaits : s1.time.reqWaits = s.time.reqWaits := reqWaits_modDom s d _
  have h1 : OnlyTime s s1 := (onlyTime_modDom s d _).trans (onlyTime_modTime _ _)
  split
  · refine ⟨?_, ?_, fun _ => active_switchDomain s1 d, fun _ hd => ⟨active_switchDomain s1 d, ?_⟩, h1.trans (onlyTime_switchDomain s1 d)⟩
    · rw [domOf_switchDomain, hlocked]
    · rw [holdover_switchDomain, hheld]
    · simp [hreq, hd]
  · rename_i hnot
    simp only [held, hreq, hwaits, Bool.or_eq_true, Bool.and_eq_true, decide_eq_true_eq, not_or] at hnot
    obtain ⟨hnone, hother⟩ := hnot
    exact ⟨hlocked, hheld, fun h => absurd h hnone, fun hw hd => absurd ⟨hw, hd⟩ hother, h1⟩

theorem exec_domainLock (hon : mainOn s = true) (hrun : s.time.cloveRun = true) (hmay : mayLock s d = true) :
    exec (.domainLock d) s = .next (gainLock s d) := by
  show execDomainLock d s = _
  rw [execDomainLock, inRun_of_mainOn _ hon, hrun, hmay]
  rfl

/-! ### The start of the cloves (R212, R213) -/

/-- The cloves start at a reading of the clock in ns with a fraction. -/
def startAt (s : State) (n : Nat) (frac : BitVec 16) : State :=
  startCloves s (BitVec.ofNat 48 (n / 1000000000)) (n % 1000000000) frac

/-- A clove lasts 125,000 ns (R212). -/
theorem clove_startAt {n : Nat} (frac : BitVec 16) (h : n < 2 ^ 48 * 1000000000) : (startAt s n frac).time.clove = n / 125000 := by
  show 8000 * (BitVec.ofNat 48 (n / 1000000000)).toNat + n % 1000000000 / 125000 = _
  rw [BitVec.toNat_ofNat]
  omega

theorem cycle_startAt (n : Nat) (frac : BitVec 16) : (startAt s n frac).time.cycle = n % 125000 * 2 + frac.toNat / 32768 := by
  show n % 1000000000 % 125000 * 2 + frac.toNat / 32768 = _
  rw [Nat.mod_mod_of_dvd n (by decide)]

theorem locked_startAt (n : Nat) (frac : BitVec 16) (d : Bool) : (domOf (startAt s n frac).time d).locked = (domOf s.time d).locked := by
  have hstep : ∀ x m, (stepDom x m).locked = m.locked := fun x m => by
    unfold stepDom
    split <;> rfl
  cases d <;> exact hstep _ _

theorem holdover_startAt {n : Nat} {frac : BitVec 16} (h : (domOf s.time d).locked = true) : (startAt s n frac).time.holdover = false :=
  holdover_setHoldover_of_locked ((locked_startAt n frac d).trans h)

/-- Starting the cloves changes the time unit alone. -/
theorem startAt_eq (n : Nat) (frac : BitVec 16) : startAt s n frac = { s with time := (startAt s n frac).time } := rfl

/-- What a clock that has yet to start reads where it takes a domain's estimate (R213). -/
def acquired (t : TimeUnit) (d : Bool) : Nat := (((clockNs t : Int) + (domOf t d).ofs) % (2 ^ 48 * 1000000000)).toNat

theorem acquired_lt (t : TimeUnit) (d : Bool) : acquired t d < 2 ^ 48 * 1000000000 := by
  unfold acquired
  omega

/-- The domain that is acquired has its lock and is active; what was left to slew is dropped. -/
def acquiring (s : State) (d : Bool) : State :=
  modTime (modDom s d fun m => { m with locked := true }) fun u =>
    { u with active := d, slewing := false, slewLeft := 0, reqWaits := u.reqWaits && decide (u.activeReq ≠ d) }

theorem locked_acquiring (s : State) (d : Bool) : (domOf (acquiring s d).time d).locked = true :=
  congrArg PtpDom.locked (domOf_modDom_self s d _)

theorem exec_domainAcquire (frac : BitVec 16) (hon : mainOn s = true) (hrun : s.time.cloveRun = false) (hmay : mayLock s d = true) :
    exec (.domainAcquire d frac) s = .next (startAt (acquiring s d) (acquired s.time d) frac) := by
  show execDomainAcquire d frac s = _
  rw [execDomainAcquire, inRun_of_mainOn _ hon, hrun, hmay]
  rfl

/-! ### ANNOUNCE_TIMEOUT (R215 to R217) -/

/-- The active domain that has lost lock hands over to the other, where AUTO is set and that is locked (R216). -/
def fallBack (s : State) (d : Bool) : State :=
  if s.time.auto && decide (s.time.active = d) && (domOf s.time (!d)).locked then switchDomain s (!d) else s

/-- Holdover is taken note of, and stops a slew (R217). -/
def enterHoldover (s : State) : State :=
  if (setHoldover s).time.holdover then
    modTime (setHoldover s) fun t => { t with slewing := false, slewLeft := if t.markSrc then t.slewLeft else 0 }
  else setHoldover s

/-- A domain without its lock. -/
def unlocked (s : State) (d : Bool) : State := modDom s d fun m => { m with locked := false, heldFrom := none }

theorem loseLock_of_locked (h : (domOf s.time d).locked = true) :
    loseLock s d = enterHoldover (fallBack (undoRequest (unlocked s d) d) d) := by
  unfold loseLock
  rw [h]
  rfl

@[simp] theorem domOf_undoRequest (s : State) (d e : Bool) : domOf (undoRequest s d).time e = domOf s.time e := by
  unfold undoRequest
  split
  · rfl
  · split
    · exact domOf_switchDomain _ _ _
    · rfl

@[simp] theorem cloveRun_undoRequest (s : State) (d : Bool) : (undoRequest s d).time.cloveRun = s.time.cloveRun := by
  unfold undoRequest
  split
  · rfl
  · split
    · exact cloveRun_switchDomain _ _
    · rfl

@[simp] theorem auto_undoRequest (s : State) (d : Bool) : (undoRequest s d).time.auto = s.time.auto := by
  unfold undoRequest
  split
  · rfl
  · split
    · exact auto_switchDomain _ _
    · rfl

theorem onlyTime_undoRequest (s : State) (d : Bool) : OnlyTime s (undoRequest s d) := by
  unfold undoRequest
  split
  · exact .refl s
  · exact onlyTime_ite ((onlyTime_switchDomain _ _).trans (onlyTime_modTime _ _)) (.refl s)

/-- A request that took effect before this cycle stands. -/
theorem undoRequest_of_earlier (h : ∀ a w, s.time.reqAt = some (a, w) → a ≠ s.time.now) : undoRequest s d = s := by
  unfold undoRequest
  split
  · rfl
  · exact if_neg fun hnow => h _ _ ‹_› hnow.1

theorem undoRequest_of_now {w : Bool} (hat : s.time.reqAt = some (s.time.now, w)) (hact : s.time.active = d) (hreq : s.time.activeReq = d) :
    undoRequest s d = modTime (switchDomain s w) fun t => { t with reqWaits := true, reqAt := none } := by
  unfold undoRequest
  rw [hat]
  exact if_pos ⟨rfl, hact, hreq⟩

@[simp] theorem domOf_fallBack (s : State) (d e : Bool) : domOf (fallBack s d).time e = domOf s.time e := by
  unfold fallBack
  split
  · exact domOf_switchDomain _ _ _
  · rfl

@[simp] theorem cloveRun_fallBack (s : State) (d : Bool) : (fallBack s d).time.cloveRun = s.time.cloveRun := by
  unfold fallBack
  split
  · exact cloveRun_switchDomain _ _
  · rfl

theorem onlyTime_fallBack (s : State) (d : Bool) : OnlyTime s (fallBack s d) := onlyTime_ite (onlyTime_switchDomain _ _) (.refl s)

theorem fallBack_of_unlocked (h : (domOf s.time (!d)).locked = false) : fallBack s d = s := by
  simp [fallBack, h]

theorem fallBack_of_inactive (h : s.time.active ≠ d) : fallBack s d = s := by
  simp [fallBack, h]

/-- Where AUTO is set and the other domain is locked, a domain that loses its lock is not active any more. -/
theorem active_fallBack (hauto : s.time.auto = true) (hother : (domOf s.time (!d)).locked = true) : (fallBack s d).time.active = !d := by
  by_cases hact : s.time.active = d
  · simp [fallBack, hauto, hact, hother]
  · rw [fallBack_of_inactive hact]
    exact Bool.eq_not.2 hact

/-- Holdover leaves what a request and a switch set. -/
theorem enterHoldover_leaves (s : State) (e : Bool) : (enterHoldover s).time.active = s.time.active ∧
    (enterHoldover s).time.reqWaits = s.time.reqWaits ∧ domOf (enterHoldover s).time e = domOf s.time e := by
  unfold enterHoldover
  split <;> exact ⟨rfl, rfl, rfl⟩

theorem enterHoldover_of_unlocked (hrun : s.time.cloveRun = true) (hd : (domOf s.time d).locked = false)
    (hother : (domOf s.time (!d)).locked = false) :
    (enterHoldover s).time.holdover = true ∧ (enterHoldover s).time.slewing = false := by
  have hheld : (setHoldover s).time.holdover = true := by
    rw [holdover_setHoldover s d, hrun, hd, hother]
    rfl
  rw [enterHoldover, if_pos hheld]
  exact ⟨hheld, rfl⟩

theorem onlyTime_enterHoldover (s : State) : OnlyTime s (enterHoldover s) :=
  onlyTime_ite ((onlyTime_modTime s _).trans (onlyTime_modTime _ _)) (onlyTime_modTime s _)

theorem onlyTime_loseLock (h : (domOf s.time d).locked = true) : OnlyTime s (loseLock s d) := by
  rw [loseLock_of_locked h]
  exact (((onlyTime_modDom s d _).trans (onlyTime_undoRequest _ _)).trans (onlyTime_fallBack _ _)).trans (onlyTime_enterHoldover _)

/-- A domain that loses its lock has none, whatever it hands over to. -/
theorem locked_loseLock (h : (domOf s.time d).locked = true) : (domOf (loseLock s d).time d).locked = false := by
  rw [loseLock_of_locked h, (enterHoldover_leaves _ d).2.2, domOf_fallBack, domOf_undoRequest, unlocked, domOf_modDom_self]

/-- The loss of the last lock is holdover. -/
theorem holdover_loseLock (h : (domOf s.time d).locked = true) (hrun : s.time.cloveRun = true)
    (hother : (domOf s.time (!d)).locked = false) : (loseLock s d).time.holdover = true ∧ (loseLock s d).time.slewing = false := by
  rw [loseLock_of_locked h]
  refine enterHoldover_of_unlocked (d := d) ?_ ?_ ?_
  · rw [cloveRun_fallBack, cloveRun_undoRequest, unlocked, cloveRun_modDom, hrun]
  · rw [domOf_fallBack, domOf_undoRequest, unlocked, domOf_modDom_self]
  · rw [domOf_fallBack, domOf_undoRequest, unlocked, domOf_modDom_other, hother]

theorem active_loseLock_of_auto (h : (domOf s.time d).locked = true) (hauto : s.time.auto = true)
    (hother : (domOf s.time (!d)).locked = true) : (loseLock s d).time.active = !d := by
  rw [loseLock_of_locked h, (enterHoldover_leaves _ d).1]
  refine active_fallBack ?_ ?_
  · rw [auto_undoRequest, unlocked, auto_modDom, hauto]
  · rw [domOf_undoRequest, unlocked, domOf_modDom_other, hother]

theorem active_loseLock_of_earlier (h : (domOf s.time d).locked = true) (hreq : ∀ a w, s.time.reqAt = some (a, w) → a ≠ s.time.now)
    (hother : (domOf s.time (!d)).locked = false) : (loseLock s d).time.active = s.time.active := by
  have hundo : undoRequest (unlocked s d) d = unlocked s d := undoRequest_of_earlier (by simpa [unlocked] using hreq)
  have hback : fallBack (unlocked s d) d = unlocked s d := fallBack_of_unlocked (by rw [unlocked, domOf_modDom_other, hother])
  rw [loseLock_of_locked h, (enterHoldover_leaves _ d).1, hundo, hback, unlocked, active_modDom]

/-- A loss in the very cycle in which a request left the other domain for this one goes back to the other, and the request waits. -/
theorem loseLock_of_now (h : (domOf s.time d).locked = true) (hat : s.time.reqAt = some (s.time.now, !d)) (hact : s.time.active = d)
    (hreq : s.time.activeReq = d) : (loseLock s d).time.active = (!d) ∧ (loseLock s d).time.reqWaits = true := by
  have hundo := undoRequest_of_now (s := unlocked s d) (d := d) (w := !d) (by simpa [unlocked] using hat) (by simpa [unlocked] using hact)
    (by simpa [unlocked] using hreq)
  have hgone : (undoRequest (unlocked s d) d).time.active = !d := by
    rw [hundo]
    exact active_switchDomain _ _
  have hback := fallBack_of_inactive (s := undoRequest (unlocked s d) d) (d := d) (by simp [hgone])
  obtain ⟨hact', hwaits', -⟩ := enterHoldover_leaves (undoRequest (unlocked s d) d) d
  rw [loseLock_of_locked h, hback, hact', hwaits']
  exact ⟨hgone, by rw [hundo]; rfl⟩

theorem exec_announceTimeout (hon : mainOn s = true) : exec (.announceTimeout d) s =
    .next (if s.time.now < (domOf s.time d).annAt + Config.announceTimeout (domOf s.time d).profile then s else loseLock s d) :=
  show execAnnounceTimeout d s = _ from inRun_of_mainOn _ hon

/-! ### ACTIVE_REQ (R216) -/

theorem exec_activeReq (hon : mainOn s = true) : exec (.activeReq d) s = .next (requestDomain s d) :=
  show execActiveReq d s = _ from inRun_of_mainOn _ hon

/-- What a request for a domain does: nothing is left to wait for where the domain is active already or is locked, and the clock moves to
the one that is locked; a request for any other waits. -/
theorem requestDomain_moves (s : State) (d : Bool) : (requestDomain s d).time.activeReq = d ∧ OnlyTime s (requestDomain s d) ∧
    (s.time.active = d → (requestDomain s d).time.active = d ∧ (requestDomain s d).time.reqWaits = false) ∧
    (s.time.active ≠ d → (domOf s.time d).locked = true →
      (requestDomain s d).time.active = d ∧ (requestDomain s d).time.reqWaits = false) ∧
    (s.time.active ≠ d → (domOf s.time d).locked = false →
      (requestDomain s d).time.active = s.time.active ∧ (requestDomain s d).time.reqWaits = true) := by
  unfold requestDomain
  extract_lets s1 was
  have h1 : OnlyTime s s1 := onlyTime_modTime s _
  by_cases hact : s.time.active = d
  · rw [if_pos (show s1.time.active = d from hact)]
    exact ⟨rfl, h1, fun _ => ⟨hact, rfl⟩, fun h => absurd hact h, fun h => absurd hact h⟩
  · rw [if_neg (show ¬ s1.time.active = d from hact)]
    cases hlocked : (domOf s.time d).locked
    case true =>
      rw [if_pos (show (domOf s1.time d).locked = true from hlocked)]
      refine ⟨?_, (h1.trans (onlyTime_switchDomain _ _)).trans (onlyTime_modTime _ _), fun h => absurd h hact, fun _ _ => ?_, nofun⟩
      · exact activeReq_switchDomain _ _
      · exact ⟨active_switchDomain _ _, (reqWaits_switchDomain _ _).trans rfl⟩
    case false =>
      rw [if_neg (show ¬ (domOf s1.time d).locked = true from Bool.eq_false_iff.1 hlocked)]
      exact ⟨rfl, h1.trans (onlyTime_modTime _ _), fun h => absurd h hact, nofun, fun _ _ => ⟨rfl, rfl⟩⟩

/-- Settles O34: the start of the cloves from startAt, a later lock from gainLock_locks, the loss from the lemmas of loseLock, and a
request from requestDomain_moves. -/
theorem timeDomains : Obligations.TimeDomains := by
  unfold Obligations.TimeDomains
  intro s d hon D
  refine ⟨fun hen hnum hfree hheld => ?_, fun hlocked hdue => ?_, fun hearly => ?_, ?_⟩
  · have hmay := mayLock_of_held hen hnum hfree hheld
    refine ⟨fun hrun frac => ?_, fun hrun => ?_⟩
    · intro n
      exact ⟨_, exec_domainAcquire frac hon hrun hmay, rfl, rfl, rfl, rfl, rfl,
        (locked_startAt _ _ _).trans (locked_acquiring s d), holdover_startAt (locked_acquiring s d),
        clove_startAt frac (acquired_lt s.time d), cycle_startAt _ _, rfl⟩
    · obtain ⟨hlocked, hheldover, hact, hreq, honly⟩ := gainLock_locks s d
      exact ⟨_, exec_domainLock hon hrun hmay, hlocked, hheldover, hact, hreq, honly⟩
  · refine ⟨loseLock s d, (exec_announceTimeout hon).trans (congrArg _ (if_neg (Nat.not_lt.2 hdue))), locked_loseLock hlocked,
      onlyTime_loseLock hlocked, holdover_loseLock hlocked, fun hauto _ => active_loseLock_of_auto hlocked hauto,
      active_loseLock_of_earlier hlocked, loseLock_of_now hlocked⟩
  · exact (exec_announceTimeout hon).trans (congrArg _ (if_pos hearly))
  · obtain ⟨hreq, honly, hsame, hmoves, hwaits⟩ := requestDomain_moves s d
    exact ⟨_, exec_activeReq hon, hreq, honly, hsame, hmoves, hwaits⟩

end Sys2Proof.Machine
end

section
/-! PROOFS. Clove markers (R213, R225 to R227, R252). -/

namespace Sys2Proof.Machine

open Sys2Proof

variable {s : State} {link : Fin 24} {m : Marker}

/-! ### Credits (R252) -/

/-- Freeing a receive buffer leaves the time unit. -/
@[simp] theorem time_freeRx (s : State) (l vc n : Nat) : (freeRx s l vc n).time = s.time := by
  unfold freeRx
  extract_lets freed
  split <;> rfl

/-- A link that is alive keeps all but the use of its receive buffers. -/
theorem getLink_freeRx {l : Nat} (vc n : Nat) (h : linkAlive s l = true) :
    ∃ used, getLink (freeRx s l vc n) l = { getLink s l with rxUsed := used } := by
  have hst : (getLink s l).st ≠ 0 := fun h0 => by simp [linkAlive, h0] at h
  unfold freeRx
  extract_lets freed
  split
  · exact ⟨_, rfl⟩
  · exact ⟨_, getLink_modLink_self s l _ fun h0 => hst (congrArg Link.st h0)⟩

theorem linkAlive_freeRx {l : Nat} (vc n : Nat) (h : linkAlive s l = true) : linkAlive (freeRx s l vc n) l = true := by
  obtain ⟨used, hlink⟩ := getLink_freeRx vc n h
  rw [linkAlive, hlink]
  exact h

theorem delayPs_freeRx {l : Nat} (vc n : Nat) (h : linkAlive s l = true) :
    (getLink (freeRx s l vc n) l).delayPs = (getLink s l).delayPs := by
  obtain ⟨used, hlink⟩ := getLink_freeRx vc n h
  rw [hlink]

/-! ### CLOVE_MARKER_RX (R213, R225 to R227) -/

theorem exec_cloveMarkerRx_of_other_clove (hon : mainOn s = true) (halive : linkAlive s link.val = true) (hrun : s.time.cloveRun = true)
    (hindex : m.index.toNat ≠ s.time.clove % 2 ^ 32) :
    exec (.cloveMarkerRx link m) s = .next (markMismatch (freeRx s link.val 2 0) link.val m) := by
  show execCloveMarkerRx link m s = _
  rw [execCloveMarkerRx, inRun_of_mainOn _ hon]
  simp only [linkAlive_freeRx 2 0 halive, time_freeRx, hrun, Bool.not_true, Bool.false_eq_true, if_false]
  exact congrArg _ (if_pos ⟨trivial, hindex⟩)

/-- The chip knows its master by its marker. -/
def knowMaster (s : State) (m : Marker) : State := modTime s fun t => { t with master := some m.master }

/-- The chip follows markers; their phase is taken from the best of the clove, by its hop count and then its link (R226). -/
def followMarker (s : State) (l : Nat) (m : Marker) : State :=
  let better := match s.time.markBest with
    | none => true
    | some (h, k) => decide (m.hop.val < h) || (decide (m.hop.val = h) && decide (l < k))
  let t := modTime s fun t => { t with markSrc := true, markMiss := 0, slewing := false }
  if better then modTime t fun x => { x with markBest := some (m.hop.val, l), markHop := m.hop.val, slewLeft := markPhase t l m } else t

/-- A marker that the chip may follow names its own clove while the cloves run, and comes from a master by less than 15 hops. -/
structure Followable (s : State) (m : Marker) : Prop where
  index : s.time.cloveRun = true → m.index.toNat = s.time.clove % 2 ^ 32
  follows : s.time.rackMaster = false
  hop : m.hop.val ≠ 15
  master : s.time.master = none ∨ s.time.master = some m.master

theorem exec_cloveMarkerRx_of_followable (hon : mainOn s = true) (halive : linkAlive s link.val = true) (h : Followable s m) :
    exec (.cloveMarkerRx link m) s = .next
      (if s.time.cloveRun then followMarker (knowMaster (freeRx s link.val 2 0) m) link.val m
        else markStart (knowMaster (freeRx s link.val 2 0) m) link.val m) := by
  show execCloveMarkerRx link m s = _
  rw [execCloveMarkerRx, inRun_of_mainOn _ hon]
  have htime : (freeRx s link.val 2 0).time = s.time := time_freeRx _ _ _ _
  have hlive : linkAlive (freeRx s link.val 2 0) link.val = true := linkAlive_freeRx 2 0 halive
  obtain ⟨hindex, hfollows, hhop, hmaster⟩ := h
  rw [← htime] at hindex hfollows hmaster ⊢
  dsimp only
  generalize freeRx s link.val 2 0 = u at *
  have hnamed : ¬ (u.time.cloveRun = true ∧ m.index.toNat ≠ u.time.clove % 2 ^ 32) := fun ⟨hrun, hne⟩ => hne (hindex hrun)
  simp only [hlive, hnamed, hfollows, hhop, Bool.not_true, Bool.false_eq_true, if_false]
  rcases hmaster with hnone | hsame
  · rw [hnone]
    cases u.time.cloveRun <;> rfl
  · simp only [hsame, ne_eq, not_true_eq_false, decide_false, Bool.false_eq_true, if_false]
    cases u.time.cloveRun <;> rfl

/-! ### A marker of the clove that runs (R226) -/

/-- The first marker of a clove gives the phase. -/
theorem followMarker_of_none (l : Nat) (h : s.time.markBest = none) : followMarker s l m = modTime s fun x => { x with
    markSrc := true, markMiss := 0, slewing := false
    markBest := some (m.hop.val, l), markHop := m.hop.val, slewLeft := markPhase s l m } := by
  unfold followMarker
  rw [h]
  rfl

/-- One that comes neither by fewer hops nor by a lower link leaves the phase that was taken. -/
theorem followMarker_of_better {l h k : Nat} (hbest : s.time.markBest = some (h, k)) (hle : h < m.hop.val ∨ h = m.hop.val ∧ k ≤ l) :
    followMarker s l m = modTime s fun t => { t with markSrc := true, markMiss := 0, slewing := false } := by
  have hworse : ¬ (m.hop.val < h ∨ m.hop.val = h ∧ l < k) := by omega
  unfold followMarker
  rw [hbest]
  exact if_neg (by simpa using hworse)

/-- Whatever marker it is, the chip follows, and nothing but the time unit changes. -/
theorem followMarker_follows (s : State) (l : Nat) (m : Marker) : (followMarker s l m).time.markSrc = true ∧
    (followMarker s l m).time.markMiss = 0 ∧ (followMarker s l m).time.master = s.time.master ∧
    followMarker s l m = { s with time := (followMarker s l m).time } := by
  unfold followMarker
  extract_lets better t
  split <;> exact ⟨rfl, rfl, rfl, rfl⟩

/-! ### A marker before the cloves run (R213) -/

/-- The delay of a marker from the boundary that it names, in ps. -/
def markDelay (s : State) (l : Nat) (m : Marker) : Nat := (getLink s l).delayPs.toNat + m.res

/-- The chip has heard markers of eight consecutive cloves. -/
def heardEight (s : State) (l : Nat) (m : Marker) : State := modTime s fun t => { t with
  markGood := 8, markIndex := m.index.toNat, markHop := m.hop.val, markSrc := true, markMiss := 0, markBest := some (m.hop.val, l) }

theorem markStart_of_seven (l : Nat) (hgood : s.time.markGood = 7) (hnext : m.index.toNat = (s.time.markIndex + 1) % 2 ^ 32)
    (hnew : m.index.toNat ≠ s.time.markIndex) : markStart s l m =
      startAt (heardEight s l m) (125000 * m.index.toNat + markDelay s l m / 1000) (BitVec.ofNat 16 (65536 * (markDelay s l m % 1000) / 1000)) := by
  unfold markStart
  extract_lets t i n
  have hn : n = 8 := by
    have hnew' : ¬ (t.markGood ≠ 0 ∧ i = t.markIndex) := fun h => hnew h.2
    have hnext' : t.markGood ≠ 0 ∧ i = (t.markIndex + 1) % 2 ^ 32 := ⟨by simp [t, hgood], hnext⟩
    simp only [n, if_neg hnew', if_pos hnext']
    exact congrArg (· + 1) hgood
  clear_value n
  subst hn
  rfl

/-- A delay of less than a clove leaves the clove that the marker names. -/
theorem clove_startAt_of_delay {i ps : Nat} (frac : BitVec 16) (hi : i < 2 ^ 32) (hps : ps < 125000000) :
    (startAt s (125000 * i + ps / 1000) frac).time.clove = i := by
  rw [clove_startAt frac (by omega)]
  omega

/-- The eighth marker in a row starts the cloves at the boundary that it names. -/
theorem markStart_starts (s : State) (l : Nat) (m : Marker) (hgood : s.time.markGood = 7)
    (hnext : m.index.toNat = (s.time.markIndex + 1) % 2 ^ 32) (hnew : m.index.toNat ≠ s.time.markIndex)
    (hdelay : markDelay s l m < 125000000) :
    (markStart s l m).time.cloveRun = true ∧ (markStart s l m).time.clove = m.index.toNat ∧ (markStart s l m).time.markSrc = true ∧
    (markStart s l m).time.markBest = some (m.hop.val, l) ∧ markStart s l m = { s with time := (markStart s l m).time } := by
  rw [markStart_of_seven l hgood hnext hnew]
  exact ⟨rfl, clove_startAt_of_delay _ m.index.isLt hdelay, rfl, rfl, rfl⟩

/-! ### MARKER_TIMEOUT (R227) -/

theorem exec_markerTimeout (hon : mainOn s = true) : exec .markerTimeout s =
    .next (if !s.time.markSrc || decide (s.time.markMiss < 8) then s else
      modTime s fun t => { t with markSrc := false, slewLeft := if t.holdover then 0 else (domOf t t.active).ofs * 8000 }) :=
  show execMarkerTimeout s = _ from inRun_of_mainOn _ hon

/-- Settles O35: what a marker does is said by exec_cloveMarkerRx_of_other_clove and exec_cloveMarkerRx_of_followable, its phase by
followMarker_of_none and followMarker_of_better, and the start of the cloves by markStart_of_seven. -/
theorem cloveMarkers : Obligations.CloveMarkers := by
  unfold Obligations.CloveMarkers
  intro s link m hon halive u
  have htime : u.time = s.time := time_freeRx s _ _ _
  have hdelay : (getLink u link.val).delayPs = (getLink s link.val).delayPs := delayPs_freeRx 2 0 halive
  have hother : s.time.cloveRun = true → m.index.toNat ≠ s.time.clove % 2 ^ 32 →
      exec (.cloveMarkerRx link m) s = .next (markMismatch u link.val m) := exec_cloveMarkerRx_of_other_clove hon halive
  have hmarker : Followable s m → exec (.cloveMarkerRx link m) s =
      .next (if s.time.cloveRun then followMarker (knowMaster u m) link.val m else markStart (knowMaster u m) link.val m) :=
    exec_cloveMarkerRx_of_followable hon halive
  clear_value u
  refine ⟨fun hrun hindex => ?_, fun hrun hindex hfollows hhop hmaster => ?_, fun hrun hfollows hhop hmaster hgood hnext hnew hps => ?_,
    fun hsrc hmiss => ?_, fun hmiss => ?_⟩
  · exact ⟨_, hother hrun hindex, onlyReports_evPool _ _ _⟩
  · obtain ⟨hsrc, hmiss, hknown, honly⟩ := followMarker_follows (knowMaster u m) link.val m
    refine ⟨_, (hmarker ⟨fun _ => hindex, hfollows, hhop, hmaster⟩).trans (congrArg _ (if_pos hrun)), hsrc, hmiss, hknown, honly,
      fun hbest => ?_, fun h k hbest hle => ?_⟩
    · have hnone : (knowMaster u m).time.markBest = none := (congrArg TimeUnit.markBest htime).trans hbest
      rw [followMarker_of_none _ hnone, ← hdelay, ← htime]
      exact ⟨rfl, rfl, rfl⟩
    · have htaken : (knowMaster u m).time.markBest = some (h, k) := (congrArg TimeUnit.markBest htime).trans hbest
      rw [followMarker_of_better htaken hle, ← htime]
      exact ⟨rfl, rfl⟩
  · have hstart := hmarker ⟨fun h => absurd (h.symm.trans hrun) nofun, hfollows, hhop, hmaster⟩
    rw [if_neg (by simp [hrun])] at hstart
    rw [← htime] at hgood hnext hnew
    rw [← hdelay] at hps
    exact ⟨_, hstart, markStart_starts (knowMaster u m) link.val m hgood hnext hnew hps⟩
  · rw [exec_markerTimeout hon, if_neg (by simp [hsrc, Nat.not_lt.2 hmiss])]
    rfl
  · rw [exec_markerTimeout hon, if_pos (by simp [hmiss])]

end Sys2Proof.Machine
end

section
/-! PROOFS. What leaves the clock alone, 1: the state's own operations. Of all that a clove boundary does after the clock itself, only the
look for TIME_OFFSET writes to the time unit, and nothing stops the main clocks (R27, R212). Each function below that leads from a state to
a state has one lemma sameClock_…, which follows its branches. -/

namespace Sys2Proof.Machine

open Sys2Proof

variable {s₀ s : State}

/-! ### The same clock -/

/-- The time unit, and of the power unit what decides whether the main clocks run (R432, R439). -/
def clockCore (t : TimeUnit) (x : Power) : TimeUnit × Bool × Bool × Bool := (t, x.porN, x.pwrOk, x.stopped)

/-- The time unit is as in s₀, and the main clocks run as they do there. -/
def SameClock (s₀ s : State) : Prop := clockCore s.time s.pwr = clockCore s₀.time s₀.pwr

theorem SameClock.refl (s : State) : SameClock s s := rfl

/-- An update of anything else leaves the clock. -/
theorem sameClock_update {time pwr boot sec auth uart rings poolVer outst host hostUp parts lastGen lssHold freed claims nextClaim grants
    clusters hbm radio fab eth cprog health spdm flagsAt fresh out pending} (h : SameClock s₀ s)
    (hcore : clockCore time pwr = clockCore s.time s.pwr) :
    SameClock s₀ ⟨time, pwr, boot, sec, auth, uart, rings, poolVer, outst, host, hostUp, parts, lastGen, lssHold, freed, claims,
      nextClaim, grants, clusters, hbm, radio, fab, eth, cprog, health, spdm, flagsAt, fresh, out, pending⟩ :=
  hcore.trans h

theorem sameClock_ite {c : Prop} [Decidable c] {t u : State} (ht : SameClock s₀ t) (hu : SameClock s₀ u) :
    SameClock s₀ (if c then t else u) := by
  split <;> assumption

theorem sameClock_ite_fst {γ : Type} {c : Prop} [Decidable c] {a b : State × γ} (ha : SameClock s₀ a.1) (hb : SameClock s₀ b.1) :
    SameClock s₀ (if c then a else b).1 := by
  split <;> assumption

/-- Of the states a chain of changes goes through, each has the same clock. -/
theorem sameClock_foldl {β : Type} {f : State → β → State} {l : List β} (h : SameClock s₀ s)
    (hf : ∀ s x, SameClock s₀ s → SameClock s₀ (f s x)) : SameClock s₀ (l.foldl f s) :=
  List.foldlRecOn (motive := SameClock s₀) l f h fun s hs x _ => hf s x hs

theorem sameClock_foldl_fst {β γ : Type} {f : State × γ → β → State × γ} {acc : State × γ} {l : List β} (h : SameClock s₀ acc.1)
    (hf : ∀ acc x, SameClock s₀ acc.1 → SameClock s₀ (f acc x).1) : SameClock s₀ (l.foldl f acc).1 :=
  List.foldlRecOn (motive := fun acc => SameClock s₀ acc.1) l f h fun acc hacc x _ => hf acc x hacc

theorem sameClock_foldl_placing {β : Type} {f : Placing → β → Placing} {x : Placing} {l : List β} (h : SameClock s₀ x.s)
    (hf : ∀ x y, SameClock s₀ x.s → SameClock s₀ (f x y).s) : SameClock s₀ (l.foldl f x).s :=
  List.foldlRecOn (motive := fun x => SameClock s₀ x.s) l f h fun x hx y _ => hf x y hx

/-! ### Entries -/

theorem sameClock_modRing {k : Nat} {f : Ring → Ring} (h : SameClock s₀ s) : SameClock s₀ (modRing s k f) := sameClock_update h rfl
theorem sameClock_modPart {p : Nat} {f : Part → Part} (h : SameClock s₀ s) : SameClock s₀ (modPart s p f) := sameClock_update h rfl
theorem sameClock_modClu {c : Nat} {f : Cluster → Cluster} (h : SameClock s₀ s) : SameClock s₀ (modClu s c f) := sameClock_update h rfl
theorem sameClock_modEq {c q : Nat} {f : Eq → Eq} (h : SameClock s₀ s) : SameClock s₀ (modEq s c q f) := sameClock_update h rfl
theorem sameClock_modEng {c e : Nat} {f : Engine → Engine} (h : SameClock s₀ s) : SameClock s₀ (modEng s c e f) := sameClock_update h rfl
theorem sameClock_modCsp {c x : Nat} {f : CspCtx → CspCtx} (h : SameClock s₀ s) : SameClock s₀ (modCsp s c x f) := sameClock_update h rfl
theorem sameClock_modLa {c l : Nat} {f : LArray → LArray} (h : SameClock s₀ s) : SameClock s₀ (modLa s c l f) := sameClock_update h rfl
theorem sameClock_modPa {c a : Nat} {f : PArray → PArray} (h : SameClock s₀ s) : SameClock s₀ (modPa s c a f) := sameClock_update h rfl
theorem sameClock_modLink {l : Nat} {f : Link → Link} (h : SameClock s₀ s) : SameClock s₀ (modLink s l f) := sameClock_update h rfl
theorem sameClock_modQ {q : Nat} {f : TmQ → TmQ} (h : SameClock s₀ s) : SameClock s₀ (modQ s q f) := sameClock_update h rfl
theorem sameClock_modQp {q : Nat} {f : Qp → Qp} (h : SameClock s₀ s) : SameClock s₀ (modQp s q f) := sameClock_update h rfl
theorem sameClock_modCell {n : Nat} {f : Cell → Cell} (h : SameClock s₀ s) : SameClock s₀ (modCell s n f) := sameClock_update h rfl
theorem sameClock_modStream {n : Nat} {f : Stream → Stream} (h : SameClock s₀ s) : SameClock s₀ (modStream s n f) := sameClock_update h rfl
theorem sameClock_modLane {n : Nat} {f : Lane → Lane} (h : SameClock s₀ s) : SameClock s₀ (modLane s n f) := sameClock_update h rfl
theorem sameClock_modInst {k : Nat} {f : Inst → Inst} (h : SameClock s₀ s) : SameClock s₀ (modInst s k f) := sameClock_update h rfl
theorem sameClock_modPc {c : Nat} {f : PwrClu → PwrClu} (h : SameClock s₀ s) : SameClock s₀ (modPc s c f) := sameClock_update h rfl
theorem sameClock_emit {o : Out} (h : SameClock s₀ s) : SameClock s₀ (emit s o) := sameClock_update h rfl
theorem sameClock_noteFlag {b : W1cBit} (h : SameClock s₀ s) : SameClock s₀ (noteFlag s b) := sameClock_update h rfl
theorem sameClock_takeFree {w : Nat} (h : SameClock s₀ s) : SameClock s₀ (takeFree s w).2 := sameClock_update h rfl

/-! ### Memories -/

theorem sameClock_hostWrite {port a : Nat} {bs : List Byte} (h : SameClock s₀ s) : SameClock s₀ (hostWrite s port a bs) :=
  sameClock_ite (sameClock_update h rfl) h

theorem sameClock_logDirty {p a n : Nat} (h : SameClock s₀ s) : SameClock s₀ (logDirty s p a n) := by
  refine sameClock_ite (sameClock_foldl h fun s g hs => sameClock_ite ?_ ?_) h
  · exact sameClock_update hs rfl
  · exact sameClock_noteFlag (sameClock_modPart hs)

theorem sameClock_hostWriteFor {p a : Nat} {bs : List Byte} (h : SameClock s₀ s) : SameClock s₀ (hostWriteFor s p a bs) :=
  sameClock_ite (sameClock_hostWrite (sameClock_logDirty h)) h

theorem sameClock_wrRun {p va : Nat} {bs : List Byte} {psn : Bool} (h : SameClock s₀ s) : SameClock s₀ (wrRun s p va bs psn) :=
  sameClock_ite (sameClock_update h rfl) (sameClock_ite (sameClock_hostWriteFor h) h)

theorem sameClock_wrVaP {p va : Nat} {bs : List Byte} {psn : Bool} (h : SameClock s₀ s) : SameClock s₀ (wrVaP s p va bs psn) :=
  sameClock_ite (sameClock_foldl_fst h fun _ _ => sameClock_wrRun) h

/-! ### Rings, events and completions -/

theorem sameClock_wrVa {p va : Nat} {bs : List Byte} (h : SameClock s₀ s) : SameClock s₀ (wrVa s p va bs) := sameClock_wrVaP h

theorem sameClock_setDom {d : Nat} {on : Bool} (h : SameClock s₀ s) : SameClock s₀ (setDom s d on) := by
  refine sameClock_update h ?_
  split
  · rfl
  · split <;> rfl

theorem sameClock_writeRec {k : Nat} {x : Held} (h : SameClock s₀ s) : SameClock s₀ (writeRec s k x) :=
  sameClock_ite (sameClock_emit (sameClock_modRing (sameClock_ite (sameClock_hostWrite h) (sameClock_hostWriteFor h))))
    (sameClock_modRing (sameClock_ite (sameClock_hostWrite h) (sameClock_hostWriteFor h)))

theorem sameClock_flushHeld {k : Nat} {l : List Held} (h : SameClock s₀ s) : SameClock s₀ (flushHeld s k l) := by
  induction l generalizing s with
  | nil => exact sameClock_modRing h
  | cons x l ih =>
    exact sameClock_ite (sameClock_modRing h)
      (sameClock_ite (ih (sameClock_writeRec h)) (sameClock_ite (ih (sameClock_modRing h)) (sameClock_modRing h)))

theorem sameClock_deliver {k : Nat} {x : Held} (h : SameClock s₀ s) : SameClock s₀ (deliver s k x) :=
  sameClock_ite (sameClock_modRing h) (sameClock_flushHeld h)

theorem sameClock_evPool {code : Nat} {items : List (Nat × Nat)} (h : SameClock s₀ s) : SameClock s₀ (evPool s code items) :=
  sameClock_deliver h

theorem sameClock_evPart {p code : Nat} {items : List (Nat × Nat)} (h : SameClock s₀ s) : SameClock s₀ (evPart s p code items) :=
  sameClock_ite (sameClock_deliver h) h

theorem sameClock_complete {x : CmdHead} {status : Nat} {res : List Word} (h : SameClock s₀ s) : SameClock s₀ (complete s x status res) :=
  sameClock_deliver h

theorem sameClock_completeWhere {pick : Outst → Bool} {f : Outst → Nat × List Word} (h : SameClock s₀ s) :
    SameClock s₀ (completeWhere s pick f) :=
  sameClock_foldl (sameClock_update h rfl) fun _ _ => sameClock_complete

theorem sameClock_completeWait {w : Wait} {status : Nat} (h : SameClock s₀ s) : SameClock s₀ (completeWait s w status) :=
  sameClock_completeWhere h

/-! ### Slices and watchdogs -/

theorem sameClock_noteSlice {p c l st : Nat} (h : SameClock s₀ s) : SameClock s₀ (noteSlice s p c l st) :=
  sameClock_ite h (sameClock_modPart h)

theorem sameClock_freeCheckpoints {c : Nat} {marks : List Nat} (h : SameClock s₀ s) : SameClock s₀ (freeCheckpoints s c marks) :=
  sameClock_ite h (sameClock_modClu h)

theorem sameClock_endSlices {c l : Nat} (h : SameClock s₀ s) : SameClock s₀ (endSlices s c l) :=
  sameClock_foldl (sameClock_modLa h) fun _ _ hs => sameClock_freeCheckpoints (sameClock_noteSlice (sameClock_emit hs))

theorem sameClock_closeSlice {c l : Nat} {ctx : Bool} (h : SameClock s₀ s) : SameClock s₀ (closeSlice s c l ctx) :=
  sameClock_ite (sameClock_endSlices (sameClock_modLa h)) h

theorem sameClock_modSlice {c l id : Nat} {f : Slice → Slice} (h : SameClock s₀ s) : SameClock s₀ (modSlice s c l id f) := sameClock_modLa h

theorem sameClock_opDone {c l id : Nat} (h : SameClock s₀ s) : SameClock s₀ (opDone s c l id) := sameClock_endSlices (sameClock_modSlice h)

theorem sameClock_watchCluster {n c : Nat} (h : SameClock s₀ s) : SameClock s₀ (watchCluster n s c) :=
  sameClock_foldl h fun _ _ hs => sameClock_ite (sameClock_modPa hs) (sameClock_modPa hs)

theorem sameClock_watchArrays {n : Nat} (h : SameClock s₀ s) : SameClock s₀ (watchArrays s n) :=
  sameClock_foldl h fun _ _ => sameClock_watchCluster

/-! ### Rings in host memory, and measurements -/

theorem sameClock_wrA {r : RingId} {a : Nat} {bs : List Byte} (h : SameClock s₀ s) : SameClock s₀ (wrA s r a bs) := by
  unfold wrA
  split
  · exact sameClock_ite (sameClock_hostWrite h) h
  · exact sameClock_wrVa h

theorem sameClock_measure {i typ svn : Nat} {x : BitVec 384} (h : SameClock s₀ s) : SameClock s₀ (Machine.measure s i typ svn x) :=
  sameClock_update h rfl

end Sys2Proof.Machine
end

section
/-! PROOFS. What leaves the clock alone, 2: traffic, radio, queue pairs, link messages and the CSP. -/

namespace Sys2Proof.Machine

open Sys2Proof

variable {s₀ s : State}

/-! ### Traffic queues -/

theorem sameClock_settleCredit {q : Nat} (h : SameClock s₀ s) : SameClock s₀ (settleCredit s q) := sameClock_ite h (sameClock_modQ h)

theorem sameClock_flushQ {q : Nat} (h : SameClock s₀ s) : SameClock s₀ (flushQ s q) := sameClock_modQ (sameClock_settleCredit h)

/-! ### Occasions -/

theorem sameClock_startOccasion {cell cfg : Nat} (h : SameClock s₀ s) : SameClock s₀ (startOccasion s cell cfg) := by
  unfold startOccasion
  extract_lets
  split
  · exact h
  · exact sameClock_modLane h

theorem sameClock_startOccasions (h : SameClock s₀ s) : SameClock s₀ (startOccasions s) :=
  sameClock_foldl h fun _ _ hs => sameClock_foldl hs fun _ _ hs1 => sameClock_ite (sameClock_startOccasion hs1) hs1

theorem sameClock_endOccasions (h : SameClock s₀ s) : SameClock s₀ (endOccasions s) :=
  sameClock_foldl (sameClock_foldl h fun _ _ hs => sameClock_foldl hs fun _ _ => sameClock_modStream) fun _ _ => sameClock_modLane

/-! ### Queue pairs -/

theorem sameClock_cqWrite {n status op : Nat} {recv : Bool} {imm : Option Nat} {bytes : Nat} {id : List Word} (h : SameClock s₀ s) :
    SameClock s₀ (cqWrite s n status op recv imm bytes id) :=
  sameClock_ite h (sameClock_modQp (sameClock_wrVa h))

theorem sameClock_qpFlush {n f : Nat} (h : SameClock s₀ s) : SameClock s₀ (qpFlush s n f) := by
  induction f generalizing s with
  | zero => exact h
  | succ f ih =>
    have hnext {g : Qp → Qp} {st op len : Nat} {rx : Bool} {imm : Option Nat} {id : List Word} :
        SameClock s₀ (qpFlush (cqWrite (modQp s n g) n st op rx imm len id) n f) := ih (sameClock_cqWrite (sameClock_modQp h))
    unfold qpFlush
    refine sameClock_ite h ?_
    dsimp only
    split
    · exact hnext
    · exact sameClock_ite hnext (sameClock_ite hnext h)

theorem sameClock_dropQp {n : Nat} (h : SameClock s₀ s) : SameClock s₀ (dropQp s n) := sameClock_modQp (sameClock_qpFlush h)

/-! ### Link messages, memory errors and the contexts of the CSP -/

theorem sameClock_putFlit {l : Nat} {m : Msg} (h : SameClock s₀ s) : SameClock s₀ (putFlit s l m) := sameClock_emit (sameClock_modLink h)

theorem sameClock_pumpMsgs {l : Nat} {ms : List Msg} {held : List Nat} (h : SameClock s₀ s) : SameClock s₀ (pumpMsgs l ms held s) := by
  induction ms generalizing held s with
  | nil => exact h
  | cons m ms ih => exact sameClock_ite (ih (sameClock_modLink h)) (ih (sameClock_putFlit h))

theorem sameClock_pumpLink {l : Nat} (h : SameClock s₀ s) : SameClock s₀ (pumpLink s l) := sameClock_pumpMsgs (sameClock_modLink h)

theorem sameClock_sendOn {path : Nat} {m : Msg} (h : SameClock s₀ s) : SameClock s₀ (sendOn s path m) :=
  sameClock_ite (sameClock_emit h) (sameClock_ite h (sameClock_pumpLink (sameClock_modLink h)))

theorem sameClock_disturb {p bitNo : Nat} (h : SameClock s₀ s) : SameClock s₀ (disturb s p bitNo) := by
  unfold disturb
  extract_lets
  split
  · exact h
  · exact sameClock_ite h (sameClock_ite (sameClock_evPart (sameClock_modPart h)) (sameClock_modPart h))

theorem sameClock_disturbLink {link bitNo : Nat} (h : SameClock s₀ s) : SameClock s₀ (disturbLink s link bitNo) := by
  unfold disturbLink
  refine sameClock_foldl h fun s x hs => ?_
  split
  · exact sameClock_ite (sameClock_disturb hs) hs
  · exact hs

theorem sameClock_disturbPc {pc : Nat} (h : SameClock s₀ s) : SameClock s₀ (disturbPc s pc) :=
  sameClock_foldl h fun _ _ hs => sameClock_ite (sameClock_disturb hs) hs

theorem sameClock_retirePage {page : Nat} (h : SameClock s₀ s) : SameClock s₀ (retirePage s page) :=
  sameClock_ite h (sameClock_evPool (sameClock_update h rfl))

theorem sameClock_cacheDrop {p : Nat} {pick : Nat → Bool} (h : SameClock s₀ s) : SameClock s₀ (cacheDrop s p pick) := sameClock_update h rfl

theorem sameClock_linkTraffic {p link : Nat} (h : SameClock s₀ s) : SameClock s₀ (linkTraffic s p link) := by
  unfold linkTraffic
  refine sameClock_foldl h fun s x hs => ?_
  refine sameClock_ite hs ?_
  split
  · exact sameClock_ite (sameClock_disturb hs) hs
  · exact hs

theorem sameClock_useLink {p link : Nat} (h : SameClock s₀ s) : SameClock s₀ (useLink s p link) :=
  sameClock_linkTraffic (sameClock_modPart h)

theorem sameClock_issueFab {o : FabOut} (h : SameClock s₀ s) : SameClock s₀ (issueFab s o) := by
  unfold issueFab
  extract_lets _ _ _ _ _ _ _ _ s1 s2 s3
  have h1 : SameClock s₀ s1 := sameClock_update h rfl
  have h2 : SameClock s₀ s2 := sameClock_ite h1 (sameClock_cacheDrop h1)
  have h3 : SameClock s₀ s3 := sameClock_ite (sameClock_cacheDrop h2) h2
  exact sameClock_ite h3 (sameClock_useLink (sameClock_emit h3))

theorem sameClock_turnCsp {c n : Nat} (h : SameClock s₀ s) : SameClock s₀ (turnCsp s c n) := sameClock_modClu (sameClock_modClu h)

theorem sameClock_pickCsp {c : Nat} (h : SameClock s₀ s) : SameClock s₀ (pickCsp s c) := by
  unfold pickCsp
  extract_lets
  refine sameClock_ite h ?_
  refine sameClock_ite (sameClock_modClu h) ?_
  refine sameClock_ite (sameClock_modClu h) ?_
  split
  · exact sameClock_turnCsp h
  · exact h

theorem sameClock_cspEvent {o : CspCtx} {code : Nat} {items : List (Nat × Nat)} (h : SameClock s₀ s) :
    SameClock s₀ (cspEvent s o code items) :=
  sameClock_ite (sameClock_evPart h) h

theorem sameClock_stopCsp {c x : Nat} (h : SameClock s₀ s) : SameClock s₀ (stopCsp s c x) :=
  sameClock_pickCsp (sameClock_ite (sameClock_modCsp (sameClock_modClu h)) (sameClock_cspEvent (sameClock_modCsp (sameClock_modClu h))))

theorem sameClock_startCsp {c x longest : Nat} {im : List Word} (h : SameClock s₀ s) : SameClock s₀ (startCsp s c x longest im) :=
  sameClock_modCsp (sameClock_modPart h)

theorem sameClock_cspRelease {c : Nat} (h : SameClock s₀ s) : SameClock s₀ (cspRelease s c) :=
  sameClock_pickCsp (sameClock_modClu (sameClock_foldl h fun _ _ => sameClock_modCsp))

theorem sameClock_settleCsp {c x : Nat} (h : SameClock s₀ s) : SameClock s₀ (settleCsp c s x) := by
  unfold settleCsp
  extract_lets s1
  have h1 : SameClock s₀ s1 := sameClock_ite (sameClock_stopCsp h) h
  refine sameClock_ite h ?_
  split
  · exact sameClock_modCsp h1
  · exact h1

theorem sameClock_settleLoad {c x : Nat} (h : SameClock s₀ s) : SameClock s₀ (settleLoad c s x) := by
  unfold settleLoad
  split
  · exact h
  · exact sameClock_ite h (sameClock_completeWait (sameClock_startCsp h))

theorem sameClock_cspPendings {c : Nat} (h : SameClock s₀ s) : SameClock s₀ (cspPendings s c) :=
  sameClock_ite h (sameClock_foldl (sameClock_ite (sameClock_cspRelease (sameClock_foldl h fun _ _ => sameClock_settleCsp))
    (sameClock_foldl h fun _ _ => sameClock_settleCsp)) fun _ _ => sameClock_settleLoad)

theorem sameClock_cspBoundary {c : Nat} (h : SameClock s₀ s) : SameClock s₀ (cspBoundary s c) :=
  sameClock_cspPendings (sameClock_modClu h)

theorem sameClock_askStop {c x : Nat} (h : SameClock s₀ s) : SameClock s₀ (askStop s c x) := sameClock_cspPendings (sameClock_modCsp h)

end Sys2Proof.Machine
end

section
/-! PROOFS. What leaves the clock alone, 3: page tables, coding pools, DMA, cells and stops. -/

namespace Sys2Proof.Machine

open Sys2Proof

variable {s₀ s : State}

/-! ### Page tables and the cardamom engines -/

theorem sameClock_setTable {g v : Nat} (h : SameClock s₀ s) : SameClock s₀ (setTable s g v) := sameClock_update h rfl

theorem sameClock_replaceTable {p old new : Nat} (h : SameClock s₀ s) : SameClock s₀ (replaceTable s p old new) :=
  sameClock_modPart (sameClock_setTable (sameClock_setTable h))

theorem sameClock_repairTable {p bad good : Nat} (h : SameClock s₀ s) : SameClock s₀ (repairTable s p bad good) := by
  unfold repairTable
  split
  · exact h
  · exact sameClock_retirePage (sameClock_replaceTable h)

theorem sameClock_walkVa {p va : Nat} (h : SameClock s₀ s) : SameClock s₀ (walkVa s p va) := by
  unfold walkVa
  refine sameClock_foldl h fun s x hs => ?_
  extract_lets
  split
  · exact sameClock_ite (sameClock_repairTable hs) hs
  · exact hs

theorem sameClock_walkAll {p : Nat} {vas : List Nat} (h : SameClock s₀ s) : SameClock s₀ (walkAll s p vas) :=
  sameClock_foldl h fun _ _ => sameClock_walkVa

theorem sameClock_flushQs {c : Nat} {qs : List Nat} (h : SameClock s₀ s) : SameClock s₀ (flushQs s c qs) :=
  sameClock_foldl h fun _ _ => sameClock_modEq

theorem sameClock_dropEngine {c e : Nat} (h : SameClock s₀ s) : SameClock s₀ (dropEngine s c e) := sameClock_flushQs (sameClock_modEng h)

theorem sameClock_poisonGranule {p g : Nat} {t : List Word} (h : SameClock s₀ s) : SameClock s₀ (poisonGranule s p t g) := by
  refine sameClock_ite ?_ (sameClock_ite (sameClock_modPa h) (sameClock_ite ?_ h))
  · exact sameClock_modClu h
  · exact sameClock_update h rfl

theorem sameClock_poisonRest {E : Engine} {P : EngPort} (h : SameClock s₀ s) : SameClock s₀ (poisonRest s E P) :=
  sameClock_foldl h fun _ _ => sameClock_poisonGranule

theorem sameClock_poisonAhead {qs : List Nat} {n : Nat} {E : Engine} (h : SameClock s₀ s) : SameClock s₀ (poisonAhead qs n s E) := by
  induction n generalizing s E with
  | zero => exact h
  | succ n ih =>
    unfold poisonAhead
    extract_lets w wr s1
    have h1 : SameClock s₀ s1 := by
      refine sameClock_ite ?_ h
      split
      · exact sameClock_poisonRest h
      · exact h
    split
    · exact h1
    · exact ih h1

theorem sameClock_poisonOutputs {c e : Nat} {qs : List Nat} (h : SameClock s₀ s) : SameClock s₀ (poisonOutputs s c e qs) := by
  unfold poisonOutputs
  extract_lets _ s1
  have h1 : SameClock s₀ s1 := by
    unfold s1
    split
    · exact sameClock_ite (sameClock_poisonRest h) h
    · exact h
  exact sameClock_poisonAhead h1

theorem sameClock_checkUnmap {p : Nat} (h : SameClock s₀ s) : SameClock s₀ (checkUnmap s p) := sameClock_ite h (sameClock_completeWait h)

/-! ### Coding pools and DMA -/

theorem sameClock_jobExpire {pool : Nat} {j : Job} (h : SameClock s₀ s) : SameClock s₀ (jobExpire s pool j) :=
  sameClock_emit (sameClock_wrVaP h)

theorem sameClock_noteSoft {p a len : Nat} (h : SameClock s₀ s) : SameClock s₀ (noteSoft s p a len) :=
  sameClock_ite h (sameClock_update h rfl)

theorem sameClock_jobStart {pool n : Nat} {j : Job} (h : SameClock s₀ s) : SameClock s₀ (jobStart s pool n j) := by
  unfold jobStart
  split
  · exact sameClock_ite (sameClock_modInst h) (sameClock_modInst (sameClock_noteSoft (sameClock_wrVa h)))
  · exact sameClock_modInst h

theorem sameClock_jobFeed {pool f : Nat} (h : SameClock s₀ s) : SameClock s₀ (jobFeed s pool f) := by
  induction f generalizing s with
  | zero => exact h
  | succ f ih =>
    unfold jobFeed
    split
    · exact h
    · refine sameClock_ite (ih (sameClock_jobExpire (sameClock_update h rfl))) ?_
      split
      · exact h
      · exact sameClock_ite h (ih (sameClock_jobStart (sameClock_update h rfl)))

theorem sameClock_feedPool {pool : Nat} (h : SameClock s₀ s) : SameClock s₀ (feedPool s pool) := sameClock_jobFeed h

theorem sameClock_dropJobs {p : Nat} (h : SameClock s₀ s) : SameClock s₀ (dropJobs s p) := sameClock_update h rfl

theorem sameClock_dropExport {p ent : Nat} (h : SameClock s₀ s) : SameClock s₀ (dropExport s p ent) :=
  sameClock_foldl (sameClock_modPart h) fun _ _ hs => sameClock_update hs rfl

theorem sameClock_closeExports (h : SameClock s₀ s) : SameClock s₀ (closeExports s) :=
  sameClock_foldl h fun _ _ hs => sameClock_foldl hs fun _ _ hs1 => sameClock_ite hs1 (sameClock_completeWait (sameClock_dropExport hs1))

theorem sameClock_checkQuiet {p : Nat} (h : SameClock s₀ s) : SameClock s₀ (checkQuiet s p) :=
  sameClock_ite (sameClock_checkUnmap h) (sameClock_ite (sameClock_completeWait (sameClock_checkUnmap h)) (sameClock_checkUnmap h))

theorem sameClock_modSeg {id seg : Nat} {f : DmaSeg → DmaSeg} (h : SameClock s₀ s) : SameClock s₀ (modSeg s id seg f) :=
  sameClock_update h rfl

theorem sameClock_dmaCheck {d : Dma} (h : SameClock s₀ s) : SameClock s₀ (dmaCheck s d) :=
  sameClock_ite (sameClock_update h rfl) (sameClock_completeWhere (sameClock_update h rfl))

theorem sameClock_failSeg {id seg status : Nat} (h : SameClock s₀ s) : SameClock s₀ (failSeg s id seg status) := by
  unfold failSeg
  split
  · exact h
  · exact sameClock_dmaCheck h

theorem sameClock_issuePart {d : Dma} {g : DmaSeg} (h : SameClock s₀ s) : SameClock s₀ (issuePart s d g) := by
  unfold issuePart
  extract_lets s1
  have h1 : SameClock s₀ s1 := sameClock_walkAll h
  split
  · exact sameClock_failSeg h1
  · split
    · exact sameClock_failSeg h1
    · exact sameClock_issueFab (sameClock_modSeg h1)

theorem sameClock_issueFlag {d : Dma} {g : DmaSeg} (h : SameClock s₀ s) : SameClock s₀ (issueFlag s d g) := by
  unfold issueFlag
  extract_lets s1
  have h1 : SameClock s₀ s1 := by
    unfold s1
    split
    · exact sameClock_ite h (sameClock_issueFab h)
    · exact h
  exact sameClock_dmaCheck h1

theorem sameClock_pumpDma {n : Nat} (h : SameClock s₀ s) : SameClock s₀ (pumpDma n s) := by
  induction n generalizing s with
  | zero => exact h
  | succ n ih =>
    unfold pumpDma
    split
    · exact h
    · exact sameClock_ite h (ih (sameClock_ite (sameClock_issueFlag h) (sameClock_issuePart h)))

theorem sameClock_runDma (h : SameClock s₀ s) : SameClock s₀ (runDma s) := sameClock_pumpDma h

theorem sameClock_checkReach {node : Nat} (h : SameClock s₀ s) : SameClock s₀ (checkReach s node) :=
  sameClock_ite (sameClock_ite h (sameClock_evPool (sameClock_update h rfl))) (sameClock_update h rfl)

theorem sameClock_repath (h : SameClock s₀ s) : SameClock s₀ (repath s) :=
  sameClock_foldl h fun _ _ hs => sameClock_ite hs (sameClock_ite (sameClock_update hs rfl)
    (sameClock_sendOn (sameClock_useLink (sameClock_update hs rfl))))

/-! ### Reset notices, cells and stops -/

theorem sameClock_noticeCheck {p : Nat} {late : Bool} (h : SameClock s₀ s) : SameClock s₀ (noticeCheck s p late) :=
  sameClock_ite h (sameClock_ite (sameClock_modPart h) (sameClock_completeWait (sameClock_modPart h)))

theorem sameClock_sendCtl {node : Nat} {m : Msg} (h : SameClock s₀ s) : SameClock s₀ (sendCtl s node m) := sameClock_sendOn h

theorem sameClock_peerReset {node part : Nat} {gen : BitVec 16} (h : SameClock s₀ s) : SameClock s₀ (peerReset s node part gen) :=
  sameClock_closeExports (sameClock_update h rfl)

theorem sameClock_sendNotice {p : Nat} {gen : BitVec 16} (h : SameClock s₀ s) : SameClock s₀ (sendNotice s p gen) :=
  sameClock_foldl (sameClock_modPart (sameClock_update (sameClock_ite (sameClock_peerReset h) h) rfl)) fun _ _ => sameClock_sendCtl

theorem sameClock_releaseCell {n : Nat} (h : SameClock s₀ s) : SameClock s₀ (releaseCell s n) := by
  unfold releaseCell
  extract_lets _ s1 s2 s3 s4
  have h1 : SameClock s₀ s1 := sameClock_foldl h fun _ _ hs => sameClock_modQ (sameClock_flushQ hs)
  have h2 : SameClock s₀ s2 := sameClock_foldl h1 fun _ _ => sameClock_modStream
  have h3 : SameClock s₀ s3 := sameClock_foldl h2 fun _ _ => sameClock_modLane
  exact sameClock_update (sameClock_modCell h3) rfl

theorem sameClock_endCell {n : Nat} (h : SameClock s₀ s) : SameClock s₀ (endCell s n) :=
  sameClock_completeWait (sameClock_completeWait (sameClock_releaseCell (sameClock_ite h (sameClock_wrVa h))))

theorem sameClock_takeImage {n : Nat} {bs : List Byte} {soft : List (Nat × List Byte)} (h : SameClock s₀ s) :
    SameClock s₀ (takeImage s n bs soft) :=
  sameClock_modCell (sameClock_foldl (sameClock_foldl h fun _ _ => sameClock_modStream)
    fun _ _ hs => sameClock_noteSoft (sameClock_wrVa hs))

theorem sameClock_readImage {n : Nat} (h : SameClock s₀ s) : SameClock s₀ (readImage s n) := by
  unfold readImage
  extract_lets
  split
  · exact sameClock_completeWait (sameClock_releaseCell h)
  · split
    · exact sameClock_completeWait (sameClock_releaseCell h)
    · exact sameClock_ite (sameClock_completeWait (sameClock_releaseCell h)) (sameClock_completeWait (sameClock_takeImage h))

theorem sameClock_radioBoundary (h : SameClock s₀ s) : SameClock s₀ (radioBoundary s) := by
  unfold radioBoundary
  extract_lets _ _ s1 s2 s3
  have h1 : SameClock s₀ s1 := sameClock_foldl h fun _ _ => sameClock_endCell
  have h2 : SameClock s₀ s2 := sameClock_foldl h1 fun _ _ => sameClock_readImage
  have h3 : SameClock s₀ s3 := sameClock_foldl h2 fun _ _ => sameClock_modCell
  exact sameClock_startOccasions (sameClock_endOccasions h3)

theorem sameClock_overruns {ended : Nat} {use : List (Nat × Nat × Nat)} (h : SameClock s₀ s) : SameClock s₀ (overruns s ended use) :=
  sameClock_foldl h fun _ _ hs => sameClock_ite (sameClock_evPart hs) hs

theorem sameClock_resetAllowances (h : SameClock s₀ s) : SameClock s₀ (resetAllowances s) :=
  sameClock_foldl h fun _ _ => sameClock_modQ

theorem sameClock_dropCells {p : Nat} (h : SameClock s₀ s) : SameClock s₀ (dropCells s p) :=
  sameClock_foldl h fun _ _ => sameClock_modCell

theorem sameClock_poisonArray {p c l : Nat} (h : SameClock s₀ s) : SameClock s₀ (poisonArray p c s l) :=
  sameClock_foldl h fun _ _ => sameClock_poisonOutputs

theorem sameClock_stopArray {p c : Nat} {abort : Bool} {l : Nat} (h : SameClock s₀ s) : SameClock s₀ (stopArray p c abort s l) := by
  unfold stopArray
  extract_lets s1 _ s2 s3 s4
  have h1 : SameClock s₀ s1 := sameClock_poisonArray h
  have h2 : SameClock s₀ s2 := sameClock_foldl h1 fun _ _ hs => sameClock_emit hs
  have h3 : SameClock s₀ s3 := sameClock_ite (sameClock_foldl h2 fun _ _ => sameClock_emit) h2
  have h4 : SameClock s₀ s4 := sameClock_ite (sameClock_modPa h3) h3
  exact sameClock_modLa h4

theorem sameClock_stopContexts {p c : Nat} (h : SameClock s₀ s) : SameClock s₀ (stopContexts p c s) :=
  sameClock_foldl h fun _ _ hs => sameClock_ite (sameClock_askStop (sameClock_modCsp hs)) hs

theorem sameClock_stopCluster {p : Nat} {abort : Bool} {c : Nat} (h : SameClock s₀ s) : SameClock s₀ (stopCluster p abort s c) :=
  sameClock_stopContexts (sameClock_modClu (sameClock_foldl h fun _ _ => sameClock_stopArray))

theorem sameClock_dropUnsent {p : Nat} (h : SameClock s₀ s) : SameClock s₀ (dropUnsent s p) :=
  sameClock_update h rfl

theorem sameClock_dropRequests {p : Nat} (h : SameClock s₀ s) : SameClock s₀ (dropRequests s p) :=
  sameClock_update (sameClock_dropUnsent h) rfl

theorem sameClock_dropQps {p : Nat} (h : SameClock s₀ s) : SameClock s₀ (dropQps s p) := sameClock_foldl h fun _ _ => sameClock_dropQp

theorem sameClock_dropPartJobs {p : Nat} (h : SameClock s₀ s) : SameClock s₀ (dropPartJobs s p) :=
  sameClock_foldl (sameClock_dropJobs h) fun _ _ => sameClock_jobFeed

theorem sameClock_stopWork {p : Nat} {abort : Bool} (h : SameClock s₀ s) : SameClock s₀ (stopWork s p abort) :=
  sameClock_dropQps (sameClock_dropPartJobs (sameClock_dropCells (sameClock_dropRequests
    (sameClock_modPart (sameClock_foldl (sameClock_update h rfl) fun _ _ => sameClock_stopCluster)))))

theorem sameClock_stopPart {p : Nat} {abort : Bool} (h : SameClock s₀ s) : SameClock s₀ (stopPart s p abort) :=
  sameClock_completeWhere (sameClock_stopWork h)

theorem sameClock_advanceGen {p : Nat} {g : BitVec 16} (h : SameClock s₀ s) : SameClock s₀ (advanceGen s p g) :=
  sameClock_noticeCheck (sameClock_sendNotice (sameClock_update (sameClock_modPart h) rfl))

theorem sameClock_resetPart {p : Nat} {abort : Bool} (h : SameClock s₀ s) : SameClock s₀ (resetPart s p abort) := by
  unfold resetPart
  exact sameClock_ite (sameClock_modPart (sameClock_stopPart h)) (sameClock_advanceGen (sameClock_stopPart h))

theorem sameClock_faultStop {p cause c a : Nat} (h : SameClock s₀ s) : SameClock s₀ (faultStop s p cause c a) := by
  unfold faultStop
  exact sameClock_resetPart (sameClock_evPool (sameClock_evPart h))

end Sys2Proof.Machine
end

section
/-! PROOFS. What leaves the clock alone, 4: chip links, clove programs and placing. -/

namespace Sys2Proof.Machine

open Sys2Proof

variable {s₀ s : State}

/-! ### Chip links -/

theorem sameClock_linkLost {l st : Nat} (h : SameClock s₀ s) : SameClock s₀ (linkLost s l st) :=
  sameClock_ite (sameClock_modLink h) (sameClock_foldl
    (sameClock_repath (sameClock_update (sameClock_disturbLink (sameClock_modLink h)) rfl)) fun _ _ => sameClock_checkReach)

theorem sameClock_stopCut {node : Nat} (h : SameClock s₀ s) : SameClock s₀ (stopCut s node) :=
  sameClock_foldl h fun _ _ hs => sameClock_faultStop (sameClock_takeFree hs)

theorem sameClock_linkFailed {l st : Nat} (h : SameClock s₀ s) : SameClock s₀ (linkFailed s l st) :=
  sameClock_foldl (sameClock_linkLost h) fun _ _ => sameClock_stopCut

theorem sameClock_chargeLane {l j : Nat} (h : SameClock s₀ s) : SameClock s₀ (chargeLane s l j) :=
  sameClock_ite h (sameClock_ite (sameClock_ite (sameClock_linkFailed (sameClock_evPool (sameClock_modLink (sameClock_modLink h))))
    (sameClock_evPool (sameClock_modLink (sameClock_modLink h)))) (sameClock_modLink h))

theorem sameClock_fastRetrain {l : Nat} {own : Bool} {lane : Option Nat} (h : SameClock s₀ s) :
    SameClock s₀ (fastRetrain s l own lane) := by
  unfold fastRetrain
  extract_lets _ s1 s2 _ s3
  have h1 : SameClock s₀ s1 := sameClock_ite (sameClock_sendOn h) h
  have h2 : SameClock s₀ s2 := sameClock_modLink h1
  have h3 : SameClock s₀ s3 := sameClock_ite h (sameClock_disturbLink (sameClock_update h2 rfl))
  refine sameClock_ite h ?_
  split
  · exact sameClock_chargeLane h3
  · exact h3

theorem sameClock_sendMarkers (h : SameClock s₀ s) : SameClock s₀ (sendMarkers s) :=
  sameClock_ite h (sameClock_foldl (sameClock_ite h (sameClock_takeFree h)) fun _ _ => sameClock_sendOn)

/-! ### Clove programs and placing -/

theorem sameClock_evTarget {t code : Nat} {items : List (Nat × Nat)} (h : SameClock s₀ s) : SameClock s₀ (evTarget s t code items) :=
  sameClock_ite (sameClock_evPool h) (sameClock_evPart h)

theorem sameClock_timersStep {swap : Bool} {b : Nat} (h : SameClock s₀ s) : SameClock s₀ (timersStep s swap b) :=
  sameClock_foldl h fun _ _ hs => sameClock_ite hs (sameClock_update hs rfl)

theorem sameClock_edgeStep {i : Nat} (h : SameClock s₀ s) : SameClock s₀ (edgeStep s i) :=
  sameClock_ite (sameClock_ite h (sameClock_update h rfl)) (sameClock_ite (sameClock_evTarget (sameClock_ite h (sameClock_update h rfl)))
    (sameClock_ite h (sameClock_update h rfl)))

theorem sameClock_edgesStep (h : SameClock s₀ s) : SameClock s₀ (edgesStep s) := sameClock_foldl h fun _ _ => sameClock_edgeStep

theorem sameClock_exchange (h : SameClock s₀ s) : SameClock s₀ (exchange s).1 := by
  unfold exchange
  split
  · exact sameClock_ite_fst h (sameClock_completeWait (sameClock_update (sameClock_measure h) rfl))
  · exact h

theorem sameClock_programStep (h : SameClock s₀ s) : SameClock s₀ (programStep s) :=
  sameClock_edgesStep (sameClock_timersStep (sameClock_exchange h))

theorem sameClock_loadCard {p c e : Nat} {im : List Word} {hs : Tab Nat} (h : SameClock s₀ s) : SameClock s₀ (loadCard s p c e im hs) :=
  sameClock_foldl (sameClock_modPart (sameClock_modEng h)) fun _ _ => sameClock_modEq

theorem sameClock_placeDescs {x : Placing} {p c first : Nat} {ss : List Section} (h : SameClock s₀ x.s) :
    SameClock s₀ (placeDescs x p c first ss).1.s :=
  List.foldlRecOn (motive := fun acc : Placing × Tab Nat => SameClock s₀ acc.1.s) ss _ h fun _ hacc _ _ => by
    dsimp only
    split
    · exact sameClock_modPart hacc
    · exact hacc

theorem sameClock_placeCard {x : Placing} {p c : Nat} {hs : Tab Nat} {y : Section} (h : SameClock s₀ x.s) :
    SameClock s₀ (placeCard x p c hs y).s := by
  unfold placeCard
  extract_lets
  split
  · exact sameClock_loadCard h
  · exact h

theorem sameClock_placeCsp {x : Placing} {p c : Nat} {y : Section} (h : SameClock s₀ x.s) : SameClock s₀ (placeCsp x p c y).s := by
  unfold placeCsp
  extract_lets
  split
  · exact sameClock_startCsp h
  · exact h

theorem sameClock_placeStream {x : Placing} {p c first : Nat} {y : Section} (h : SameClock s₀ x.s) :
    SameClock s₀ (placeStream x p c first y).s := by
  unfold placeStream
  extract_lets
  split
  · exact h
  · exact sameClock_modLa h

theorem sameClock_placeShard {x : Placing} {p shard c first : Nat} {g : Prog} {again : Bool} (h : SameClock s₀ x.s) :
    SameClock s₀ (placeShard x p g again shard c first).s := by
  refine sameClock_foldl_placing (sameClock_foldl_placing (sameClock_foldl_placing (sameClock_placeDescs h) ?_) ?_) ?_
  · exact fun _ _ hx => sameClock_placeCard hx
  · exact fun _ _ hx => sameClock_placeCsp hx
  · exact fun _ _ => sameClock_placeStream

theorem sameClock_dropPlaced {p : Nat} {hs : List Nat} (h : SameClock s₀ s) : SameClock s₀ (dropPlaced s p hs) :=
  sameClock_foldl h fun _ _ hs => sameClock_ite hs (sameClock_modPart hs)

end Sys2Proof.Machine
end

section
/-! PROOFS. What leaves the clock alone, 5: substitution, tasks, launches and claims. -/

namespace Sys2Proof.Machine

open Sys2Proof

variable {s₀ s : State}

/-! ### Substitution and array groups -/

theorem sameClock_dropWork {p : Nat} {engs ctxs descs : List Nat} (h : SameClock s₀ s) : SameClock s₀ (dropWork s p engs ctxs descs) :=
  sameClock_dropPlaced (sameClock_foldl (sameClock_foldl h fun _ _ => sameClock_dropEngine) fun _ _ => sameClock_askStop)

theorem sameClock_replayEngine {qs : List Nat} {c e : Nat} (h : SameClock s₀ s) : SameClock s₀ (replayEngine qs c s e) := by
  unfold replayEngine
  extract_lets
  split
  · exact h
  · exact sameClock_modEng (sameClock_flushQs h)

theorem sameClock_portBack {c e q : Nat} (h : SameClock s₀ s) : SameClock s₀ (portBack s c e q) := by
  unfold portBack
  extract_lets
  split
  · exact sameClock_ite (sameClock_modEng h) h
  · exact h

theorem sameClock_replayTaker {sls : List Slice} {outs : List Nat} {c e : Nat} {acc : State × Tab Nat} (h : SameClock s₀ acc.1) :
    SameClock s₀ (replayTaker sls outs c acc e).1 := by
  unfold replayTaker
  extract_lets
  refine sameClock_ite_fst (sameClock_foldl h fun _ _ hs => sameClock_ite (sameClock_portBack hs) hs) ?_
  split
  · exact sameClock_modEng h
  · exact h

theorem sameClock_substitute {c : Nat} (h : SameClock s₀ s) : SameClock s₀ (substitute s c) := by
  unfold substitute
  split
  · exact h
  · refine sameClock_foldl (sameClock_modClu (sameClock_modPa (sameClock_modLa (sameClock_foldl ?_ fun _ _ => sameClock_modEq))))
      fun _ _ hs => sameClock_replayEngine hs
    exact sameClock_foldl_fst h fun _ _ => sameClock_replayTaker

theorem sameClock_abortOp {c l p id : Nat} {d : List Word} (h : SameClock s₀ s) : SameClock s₀ (abortOp s c l p id d) :=
  sameClock_ite (sameClock_modLa h) (sameClock_opDone (sameClock_emit h))

theorem sameClock_stopFeeders {c p : Nat} {ops : List (List Word)} (h : SameClock s₀ s) : SameClock s₀ (stopFeeders s c p ops) :=
  sameClock_flushQs (sameClock_foldl (sameClock_foldl h fun _ _ => sameClock_modEng) fun _ _ => sameClock_modEng)

theorem sameClock_stopSlice {c l p : Nat} {ctx : Bool} (h : SameClock s₀ s) : SameClock s₀ (stopSlice s c l p ctx) :=
  sameClock_closeSlice (sameClock_stopFeeders (sameClock_foldl (sameClock_modSlice (sameClock_modLa h)) fun _ _ => sameClock_abortOp))

theorem sameClock_stopClosing {c l p : Nat} (h : SameClock s₀ s) : SameClock s₀ (stopClosing s c l p) :=
  sameClock_foldl (sameClock_modLa (sameClock_foldl h fun _ _ => sameClock_modSlice)) fun _ _ => sameClock_stopFeeders

theorem sameClock_takeArray {p c l : Nat} (h : SameClock s₀ s) : SameClock s₀ (takeArray s p c l) := by
  unfold takeArray
  extract_lets _ _ s1 s2
  have h2 : SameClock s₀ s2 := sameClock_foldl (sameClock_stopClosing h) fun _ _ hs =>
    sameClock_ite (sameClock_stopSlice hs) (sameClock_ite (sameClock_closeSlice hs) hs)
  exact sameClock_ite (sameClock_emit h2) h2

theorem sameClock_finishTask {p : Nat} {t : Machine.Task} {status : Nat} (h : SameClock s₀ s) : SameClock s₀ (finishTask s p t status) :=
  sameClock_completeWhere (sameClock_update (sameClock_modPart (sameClock_dropWork h)) rfl)

theorem sameClock_revokeGroups {ks : List Nat} {b : Nat} (h : SameClock s₀ s) : SameClock s₀ (revokeGroups s ks b) :=
  sameClock_foldl h fun _ _ hs => sameClock_ite hs (sameClock_modPart hs)

theorem sameClock_announce (h : SameClock s₀ s) : SameClock s₀ (announce s) :=
  sameClock_foldl h fun _ _ hs => sameClock_foldl hs fun _ _ hs1 => sameClock_foldl hs1 fun _ _ hs2 => sameClock_modLa hs2

theorem sameClock_finishRun {p status : Nat} (h : SameClock s₀ s) : SameClock s₀ (finishRun s p status) :=
  sameClock_completeWhere (sameClock_modPart (sameClock_update h rfl))

theorem sameClock_checkRunEnd {p : Nat} (h : SameClock s₀ s) : SameClock s₀ (checkRunEnd s p) := by
  unfold checkRunEnd
  split
  · exact h
  · exact sameClock_ite (sameClock_finishRun h) h

theorem sameClock_compareTwin {p : Nat} {m : TwinMsg} (h : SameClock s₀ s) : SameClock s₀ (compareTwin s p m) := by
  unfold compareTwin
  extract_lets
  split
  · exact h
  · extract_lets _ diff₁ s1 s2
    have h1 : SameClock s₀ s1 := sameClock_modPart h
    have h2 : SameClock s₀ s2 := sameClock_modPart h1
    clear_value diff₁
    split
    · exact sameClock_checkRunEnd h1
    · extract_lets _ _ s3
      have h3 : SameClock s₀ s3 := sameClock_evPool (sameClock_evPart (sameClock_noteFlag (sameClock_modPart h2)))
      exact sameClock_ite (sameClock_checkRunEnd (sameClock_modPart h1)) (sameClock_ite
        (sameClock_checkRunEnd (sameClock_evPool (sameClock_evPart (sameClock_noteFlag (sameClock_modPart h2)))))
        (sameClock_ite (sameClock_sendOn (sameClock_modPart h3)) (sameClock_checkRunEnd h3)))

theorem sameClock_loseTwin {p : Nat} (h : SameClock s₀ s) : SameClock s₀ (loseTwin s p) :=
  sameClock_checkRunEnd (sameClock_evPart (sameClock_noteFlag (sameClock_modPart h)))

theorem sameClock_loseOpen {p : Nat} (h : SameClock s₀ s) : SameClock s₀ (loseOpen s p) := sameClock_ite (sameClock_loseTwin h) h

theorem sameClock_chargeAll {l : List (Nat × Nat)} (h : SameClock s₀ s) : SameClock s₀ (chargeAll s l) :=
  sameClock_foldl h fun _ _ hs => sameClock_ite hs (sameClock_modPart hs)

theorem sameClock_takeArrays {p : Nat} {ks : List Nat} (h : SameClock s₀ s) : SameClock s₀ (takeArrays s p ks) :=
  sameClock_foldl h fun _ _ => sameClock_takeArray

theorem sameClock_dropStreams {p : Nat} {ks : List Nat} (h : SameClock s₀ s) : SameClock s₀ (dropStreams s p ks) :=
  sameClock_foldl h fun _ _ => sameClock_modLa

theorem sameClock_takeTask {p : Nat} {t : Machine.Task} (h : SameClock s₀ s) : SameClock s₀ (takeTask s p t) :=
  sameClock_modPart (sameClock_dropWork (sameClock_dropStreams (sameClock_takeArrays h)))

theorem sameClock_takeWhere {pick : Machine.Part → Machine.Task → Bool} (h : SameClock s₀ s) : SameClock s₀ (takeWhere s pick) :=
  sameClock_foldl h fun _ _ hs => sameClock_foldl hs fun _ _ => sameClock_takeTask

theorem sameClock_freezeStep {p : Nat} (h : SameClock s₀ s) : SameClock s₀ (freezeStep s p) :=
  sameClock_ite (sameClock_checkQuiet (sameClock_modPart (sameClock_takeArrays h)))
    (sameClock_ite (sameClock_completeWait (sameClock_modPart h)) h)

theorem sameClock_twinFreeze {p : Nat} (h : SameClock s₀ s) : SameClock s₀ (twinFreeze s p) := by
  unfold twinFreeze
  split
  · exact h
  · exact sameClock_ite h (sameClock_completeWhere (sameClock_modPart h))

theorem sameClock_placeLocal {x : Placing} {p : Nat} {g : Prog} {again : Bool} {l : List Shard} (h : SameClock s₀ x.s) :
    SameClock s₀ (placeLocal x p g again l).s :=
  sameClock_foldl_placing h fun _ _ hx => by
    split
    · exact sameClock_placeShard hx
    · exact hx

theorem sameClock_failLaunch {p status : Nat} (h : SameClock s₀ s) : SameClock s₀ (failLaunch s p status) :=
  sameClock_completeWhere (sameClock_modPart h)

theorem sameClock_startLaunch {p : Nat} {L : Launch} (h : SameClock s₀ s) : SameClock s₀ (startLaunch s p L) := by
  unfold startLaunch
  extract_lets ks s0 s1 s2 x
  have h0 : SameClock s₀ s0 := sameClock_takeWhere h
  have h1 : SameClock s₀ s1 := sameClock_modPart h0
  have hx : SameClock s₀ x.s := sameClock_placeLocal (sameClock_ite (sameClock_disturb h1) h1)
  exact sameClock_ite (sameClock_failLaunch h) (sameClock_ite (sameClock_modPart hx) (sameClock_failLaunch h0))

theorem sameClock_launchStep {p : Nat} (h : SameClock s₀ s) : SameClock s₀ (launchStep s p) := by
  unfold launchStep
  split
  · exact h
  · exact sameClock_ite (sameClock_startLaunch h) h

theorem sameClock_decideClaim {c : Claim} (h : SameClock s₀ s) : SameClock s₀ (decideClaim s c) :=
  sameClock_ite (sameClock_completeWait (sameClock_update h rfl))
    (sameClock_completeWait (sameClock_wrA (sameClock_update (sameClock_update h rfl) rfl)))

theorem sameClock_claimStep (h : SameClock s₀ s) : SameClock s₀ (claimStep s) :=
  sameClock_foldl (sameClock_update h rfl) fun _ _ => sameClock_decideClaim

theorem sameClock_dealShards {x : Placing} {p : Nat} {g : Prog} {again : Bool} {ks : List Nat} (h : SameClock s₀ x.s) :
    SameClock s₀ (dealShards x p g again ks).s :=
  sameClock_foldl_placing h fun _ _ => sameClock_placeShard

theorem sameClock_placeTask {p : Nat} {t : Machine.Task} {ks : List Nat} (h : SameClock s₀ s) : SameClock s₀ (placeTask s p t ks) := by
  unfold placeTask
  extract_lets s1 g x
  have h1 : SameClock s₀ s1 := sameClock_modPart h
  have hx : SameClock s₀ x.s := by
    unfold x
    split
    · exact sameClock_dealShards h1
    · exact sameClock_placeLocal h1
  exact sameClock_ite (sameClock_modPart hx) (sameClock_finishTask h)

theorem sameClock_promote (h : SameClock s₀ s) : SameClock s₀ (promote s) :=
  sameClock_foldl h fun _ _ hs => sameClock_ite hs (sameClock_modPart hs)

theorem sameClock_revokeUntil {p need n : Nat} {ks taken : List Nat} (h : SameClock s₀ s) :
    SameClock s₀ (revokeUntil s p ks taken need n) := by
  induction n generalizing s with
  | zero => exact h
  | succ n ih =>
    unfold revokeUntil
    refine sameClock_ite h ?_
    split
    · exact h
    · exact ih (sameClock_modPart h)

theorem sameClock_considerTask {acc : State × List Nat} {x : Nat × Machine.Task} (h : SameClock s₀ acc.1) :
    SameClock s₀ (considerTask acc x).1 :=
  sameClock_ite_fst (sameClock_placeTask h) (sameClock_ite_fst h (sameClock_revokeUntil h))

theorem sameClock_taskStep (h : SameClock s₀ s) : SameClock s₀ (taskStep s) :=
  sameClock_foldl_fst (sameClock_promote h) fun _ _ => sameClock_considerTask

theorem sameClock_noticeStep (h : SameClock s₀ s) : SameClock s₀ (noticeStep s) :=
  sameClock_foldl (sameClock_revokeGroups h) fun _ _ => sameClock_modPart

theorem sameClock_giveArray {c l : Nat} {new : Option Nat} (h : SameClock s₀ s) : SameClock s₀ (giveArray s c l new) := by
  unfold giveArray
  extract_lets _ s1 _ _ s2
  have h1 : SameClock s₀ s1 := by
    unfold s1
    split
    · exact sameClock_takeArray h
    · exact h
  have h2 : SameClock s₀ s2 := sameClock_ite (sameClock_modClu h1) h1
  refine sameClock_ite h ?_
  split
  · exact sameClock_modLa h1
  · exact sameClock_modLa (sameClock_ite h2 (sameClock_modPa h2))

theorem sameClock_giveGroup {k : Nat} (h : SameClock s₀ s) : SameClock s₀ (giveGroup s k) :=
  sameClock_foldl h fun _ _ => sameClock_giveArray

theorem sameClock_giveSaffron {c : Nat} (h : SameClock s₀ s) : SameClock s₀ (giveSaffron s c) := sameClock_giveArray (sameClock_giveArray h)

theorem sameClock_assignStep (h : SameClock s₀ s) : SameClock s₀ (assignStep s) := by
  refine sameClock_update (sameClock_foldl (sameClock_foldl (sameClock_update h rfl) ?_) ?_) rfl
  · exact fun _ _ hs => sameClock_giveGroup hs
  · exact fun _ _ => sameClock_giveSaffron

theorem sameClock_scheduleStep {charges : List (Nat × Nat)} (h : SameClock s₀ s) : SameClock s₀ (scheduleStep s charges) := by
  unfold scheduleStep
  extract_lets s1 s2 s3 s4 s5
  have h1 : SameClock s₀ s1 := sameClock_takeWhere h
  have h2 : SameClock s₀ s2 := sameClock_foldl h1 fun _ _ hs => sameClock_freezeStep hs
  have h3 : SameClock s₀ s3 := sameClock_foldl h2 fun _ _ hs => sameClock_twinFreeze hs
  have h4 : SameClock s₀ s4 := sameClock_foldl h3 fun _ _ hs => sameClock_launchStep hs
  have h5 : SameClock s₀ s5 := sameClock_taskStep (sameClock_claimStep h4)
  exact sameClock_announce (sameClock_assignStep (sameClock_chargeAll (sameClock_noticeStep h5)))

end Sys2Proof.Machine
end

section
/-! PROOFS. What leaves the clock alone, 6: power, tests and the end of a clove. -/

namespace Sys2Proof.Machine

open Sys2Proof

variable {s₀ s : State}

/-! ### Power, tests and retired pages -/

theorem sameClock_applyAction {a : Option PwrAction} (h : SameClock s₀ s) : SameClock s₀ (applyAction s a) := by
  unfold applyAction
  extract_lets
  split
  · exact sameClock_ite h (sameClock_update (sameClock_modPc h) rfl)
  · exact sameClock_ite h (sameClock_update (sameClock_modPart h) rfl)
  · split
    · exact h
    · extract_lets s1
      have h1 : SameClock s₀ s1 := sameClock_update h rfl
      split
      · exact sameClock_modPc h1
      · exact sameClock_modPart h1

theorem sameClock_throttleRuns {a : Option PwrAction} (h : SameClock s₀ s) : SameClock s₀ (throttleRuns s a) := by
  unfold throttleRuns
  split
  · exact sameClock_foldl h fun _ _ hs => sameClock_disturb hs
  · exact sameClock_disturb h
  · exact h

theorem sameClock_pruneActions (h : SameClock s₀ s) : SameClock s₀ (pruneActions s) := sameClock_update h rfl

theorem sameClock_applyDue (h : SameClock s₀ s) : SameClock s₀ (applyDue s) :=
  sameClock_foldl (sameClock_update h rfl) fun _ _ hs => sameClock_throttleRuns (sameClock_applyAction hs)

theorem sameClock_throttleEvents {old : State} (h : SameClock s₀ s) : SameClock s₀ (throttleEvents old s) := by
  unfold throttleEvents
  extract_lets s1
  have h1 : SameClock s₀ s1 := sameClock_foldl h fun _ _ hs => sameClock_ite (sameClock_evPart hs) hs
  exact sameClock_ite (sameClock_evPool h1) h1

theorem sameClock_decidePower {env : BoundaryEnv} (h : SameClock s₀ s) : SameClock s₀ (decidePower s env) := by
  unfold decidePower
  extract_lets _ _ _ _ _ _ s1 _ s2 _ s3
  have h1 : SameClock s₀ s1 := sameClock_foldl h fun _ _ hs => sameClock_applyAction hs
  have h2 : SameClock s₀ s2 := sameClock_update h rfl
  have h3 : SameClock s₀ s3 := sameClock_update h2 rfl
  refine sameClock_ite ?_ (sameClock_ite (sameClock_update h rfl) (sameClock_ite (sameClock_update h rfl)
    (sameClock_ite h (sameClock_update h rfl))))
  split
  · exact sameClock_update h2 rfl
  · exact sameClock_ite h2 (sameClock_evPool (sameClock_foldl h3 fun _ _ => sameClock_evPart))

theorem sameClock_domOffStep {d : Nat} (h : SameClock s₀ s) : SameClock s₀ (domOffStep s d) := by
  unfold domOffStep
  extract_lets _ _ _ s1
  have h1 : SameClock s₀ s1 := sameClock_setDom (sameClock_update h rfl)
  exact sameClock_ite h (sameClock_update h1 rfl)

theorem sameClock_hbmOffStep {n : Nat} (h : SameClock s₀ s) : SameClock s₀ (hbmOffStep s n) := sameClock_ite h (sameClock_update h rfl)

theorem sameClock_domStep {d : Nat} (h : SameClock s₀ s) : SameClock s₀ (domStep s d) := by
  unfold domStep
  extract_lets s1 _ _ _ s2 s3
  have h1 : SameClock s₀ s1 := sameClock_domOffStep h
  have h2 : SameClock s₀ s2 := sameClock_ite (sameClock_setDom (sameClock_update h1 rfl)) h1
  have h3 : SameClock s₀ s3 := sameClock_ite (sameClock_completeWait h2) h2
  exact sameClock_update h3 rfl

theorem sameClock_powerStep {env : BoundaryEnv} (h : SameClock s₀ s) : SameClock s₀ (powerStep s env) := by
  unfold powerStep
  extract_lets old _ s1 s2 s3
  have h2 : SameClock s₀ s2 := sameClock_foldl (sameClock_update h rfl) fun _ _ hs => sameClock_modPc hs
  have h3 : SameClock s₀ s3 := sameClock_throttleEvents (sameClock_applyDue (sameClock_pruneActions h2))
  exact sameClock_decidePower (sameClock_foldl (sameClock_foldl h3 fun _ _ => sameClock_domStep) fun _ _ => sameClock_hbmOffStep)

theorem sameClock_beginTest {c : Nat} (h : SameClock s₀ s) : SameClock s₀ (beginTest s c) := sameClock_ite (sameClock_modClu h) h

theorem sameClock_testStep {c : Nat} (h : SameClock s₀ s) : SameClock s₀ (testStep s c) :=
  sameClock_ite (sameClock_announce (sameClock_revokeGroups h)) (sameClock_beginTest h)

theorem sameClock_movePage {g n : Nat} (h : SameClock s₀ s) : SameClock s₀ (movePage s g n) :=
  sameClock_modPart (sameClock_update h rfl)

theorem sameClock_moveTable {g : Nat} (h : SameClock s₀ s) : SameClock s₀ (moveTable s g) := by
  unfold moveTable
  split
  · exact h
  · exact sameClock_replaceTable h

theorem sameClock_movePages {pc : Nat} {gs : List Nat} (h : SameClock s₀ s) : SameClock s₀ (movePages s pc gs) := by
  induction gs generalizing s with
  | nil => exact h
  | cons g gs ih =>
    unfold movePages
    split
    · exact h
    · exact ih (sameClock_movePage h)

theorem sameClock_retireStep (h : SameClock s₀ s) : SameClock s₀ (retireStep s) := by
  unfold retireStep
  split
  · exact h
  · exact sameClock_ite (sameClock_foldl (sameClock_movePages (sameClock_disturbPc h)) fun _ _ => sameClock_moveTable)
      (sameClock_completeWait (sameClock_update (sameClock_foldl (sameClock_movePages (sameClock_disturbPc h)) fun _ _ =>
        sameClock_moveTable) rfl))

/-! ### The end of a clove, and what the boundary releases -/

theorem sameClock_noteWait {c q : Nat} (h : SameClock s₀ s) : SameClock s₀ (noteWait c s q) := sameClock_ite (sameClock_modEq h) h

theorem sameClock_noteWaits (h : SameClock s₀ s) : SameClock s₀ (noteWaits s) :=
  sameClock_foldl h fun _ _ hs => sameClock_foldl hs fun _ _ => sameClock_noteWait

theorem sameClock_cyclesPass {n : Nat} (h : SameClock s₀ s) : SameClock s₀ (cyclesPass s n) :=
  sameClock_ite (sameClock_noteWaits (sameClock_watchArrays h)) h

theorem sameClock_spoofEvent {p : Nat} (h : SameClock s₀ s) : SameClock s₀ (spoofEvent s p) :=
  sameClock_ite h (sameClock_modPart (sameClock_evPart h))

theorem sameClock_missEvent {c q : Nat} (h : SameClock s₀ s) : SameClock s₀ (missEvent s c q) :=
  sameClock_ite h (sameClock_modEq (sameClock_evPart h))

theorem sameClock_missEvents {c : Nat} (h : SameClock s₀ s) : SameClock s₀ (missEvents s c) :=
  sameClock_foldl h fun _ _ => sameClock_missEvent

theorem sameClock_rollRun {p : Nat} (h : SameClock s₀ s) : SameClock s₀ (rollRun s p) := by
  unfold rollRun
  split
  · exact h
  · exact sameClock_ite h (sameClock_modPart h)

theorem sameClock_endClove {env : BoundaryEnv} (h : SameClock s₀ s) : SameClock s₀ (endClove s env) := by
  unfold endClove
  extract_lets s1 s2 s3 s4 s5
  have h2 : SameClock s₀ s2 := sameClock_foldl (sameClock_cyclesPass h) fun _ _ => sameClock_spoofEvent
  have h3 : SameClock s₀ s3 := sameClock_foldl h2 fun _ _ => sameClock_missEvents
  have h4 : SameClock s₀ s4 := sameClock_foldl h3 fun _ _ => sameClock_loseOpen
  exact sameClock_overruns (sameClock_foldl h4 fun _ _ => sameClock_rollRun)

theorem sameClock_releaseCsp {c : Nat} (h : SameClock s₀ s) : SameClock s₀ (releaseCsp s c) :=
  sameClock_cspBoundary (sameClock_modClu h)

theorem sameClock_linkStep {l : Nat} (h : SameClock s₀ s) : SameClock s₀ (linkStep s l) :=
  sameClock_ite (sameClock_ite (sameClock_modLink (sameClock_modLink h)) (sameClock_fastRetrain (sameClock_modLink h)))
    (sameClock_modLink h)

theorem sameClock_lssResize {c : Nat} (h : SameClock s₀ s) : SameClock s₀ (lssResize s c) := sameClock_ite h (sameClock_modClu h)

theorem sameClock_holdRelease {x : Nat × Nat} (h : SameClock s₀ s) : SameClock s₀ (holdRelease s x) :=
  sameClock_ite (sameClock_noticeCheck (sameClock_update (sameClock_lssResize h) rfl)) (sameClock_lssResize h)

theorem sameClock_swapStep {p : Nat} (h : SameClock s₀ s) : SameClock s₀ (swapStep s p) :=
  sameClock_ite (sameClock_completeWhere (sameClock_modPart h)) h

theorem sameClock_twinStep {p : Nat} (h : SameClock s₀ s) : SameClock s₀ (twinStep s p) := by
  unfold twinStep
  extract_lets
  split
  · exact h
  · extract_lets _ s1
    have h1 : SameClock s₀ s1 := sameClock_sendOn h
    refine sameClock_ite h ?_
    split
    · exact h1
    · exact sameClock_ite h1 (sameClock_ite (sameClock_loseTwin h1) (sameClock_compareTwin h1))

theorem sameClock_healthStep (h : SameClock s₀ s) : SameClock s₀ (healthStep s) :=
  sameClock_ite h (sameClock_evPool (sameClock_update h rfl))

end Sys2Proof.Machine
end

section
/-! PROOFS. SNAP, and the clock after a clove boundary (R212, R213, R221). -/

namespace Sys2Proof.Machine

open Sys2Proof

variable {s s₀ : State} {v : Word}

/-! ### The clock over a boundary -/

/-- The clock may differ from that of s₀ in the time of the last TIME_OFFSET alone. -/
def AlmostSameClock (s₀ s : State) : Prop :=
  ∃ a, clockCore s.time s.pwr = clockCore { s₀.time with offsetEventAt := a } s₀.pwr

theorem AlmostSameClock.time (h : AlmostSameClock s₀ s) : ∃ a, s.time = { s₀.time with offsetEventAt := a } :=
  h.imp fun _ ha => congrArg Prod.fst ha

theorem AlmostSameClock.mainOn (h : AlmostSameClock s₀ s) : mainOn s = mainOn s₀ :=
  h.elim fun _ ha => congrArg (fun x : TimeUnit × Bool × Bool × Bool => x.2.1 && x.2.2.1 && !x.2.2.2) ha

theorem SameClock.almost {t : State} (h : SameClock s₀ s) (ht : AlmostSameClock s t) : AlmostSameClock s₀ t := by
  obtain ⟨a, ha⟩ := ht
  exact ⟨a, ha.trans (congrArg (fun x : TimeUnit × Bool × Bool × Bool => ({ x.1 with offsetEventAt := a }, x.2)) h)⟩

theorem almostSameClock_offsetCheck (s : State) : AlmostSameClock s (offsetCheck s) := by
  obtain ⟨hrest, -⟩ := onlyReports_iff.1 (offsetCheck_reports s)
  exact ⟨offsetEventAfter s, congrArg (fun s : State => clockCore s.time s.pwr) hrest⟩

theorem almostSameClock_releaseStep (s : State) : AlmostSameClock s (releaseStep s) := by
  unfold releaseStep
  extract_lets _ s1 s2 s3 s4 s5 s6 s7 s8 s9 s10
  have h1 : SameClock s s1 := sameClock_foldl (.refl s) fun _ _ hs => sameClock_modClu hs
  have h2 : SameClock s s2 := sameClock_foldl h1 fun _ _ hs => sameClock_releaseCsp hs
  have h3 : SameClock s s3 := sameClock_foldl h2 fun _ _ hs => sameClock_feedPool hs
  have h4 : SameClock s s4 := sameClock_runDma (sameClock_foldl h3 fun _ _ hs => sameClock_linkStep hs)
  have h5 : SameClock s s5 := sameClock_resetAllowances (sameClock_radioBoundary h4)
  have h6 : SameClock s s6 := sameClock_foldl h5 fun _ _ hs => sameClock_holdRelease hs
  have h7 : SameClock s s7 := sameClock_foldl h6 fun _ _ hs => sameClock_swapStep hs
  have h8 : SameClock s s8 := sameClock_foldl h7 fun _ _ hs => sameClock_checkUnmap hs
  have h9 : SameClock s s9 := sameClock_foldl h8 fun _ _ hs => sameClock_twinStep hs
  have h10 : SameClock s s10 := sameClock_foldl (sameClock_retireStep h9) fun _ _ hs => sameClock_testStep hs
  obtain ⟨a, ha⟩ := (sameClock_sendMarkers h10).almost (almostSameClock_offsetCheck _)
  exact ⟨a, (sameClock_healthStep (.refl _)).trans ha⟩

/-- A boundary advances the clock; of all else it does, only the look for TIME_OFFSET writes to the time unit. -/
theorem almostSameClock_boundary (s : State) (env : BoundaryEnv) :
    AlmostSameClock { s with time := advanceClock s.time } (boundary s env) := by
  unfold boundary
  extract_lets charges s1 s2 s3 s4 s5
  have h1 : SameClock s s1 := sameClock_endClove (.refl s)
  have h2 : SameClock { s with time := advanceClock s.time } s2 :=
    congrArg (fun x : TimeUnit × Bool × Bool × Bool => (advanceClock x.1, x.2)) h1
  have h3 : SameClock _ s3 := sameClock_foldl h2 fun _ _ hs => sameClock_substitute hs
  exact (sameClock_powerStep (sameClock_scheduleStep (sameClock_programStep h3))).almost (almostSameClock_releaseStep _)

theorem mainOn_withTime (s : State) (t : TimeUnit) : mainOn { s with time := t } = mainOn s := rfl

theorem mainOn_boundary (s : State) (env : BoundaryEnv) : mainOn (boundary s env) = mainOn s :=
  (almostSameClock_boundary s env).mainOn.trans (mainOn_withTime s _)

/-- The clock of the next clove begins where its index says (R212). -/
theorem advanceClock_reading (t : TimeUnit) : (advanceClock t).clove = t.clove + 1 ∧ (advanceClock t).cycle = 0 ∧
    (advanceClock t).ns = 125000 * (t.clove + 1) % 1000000000 ∧ (advanceClock t).frac = 0 ∧ (advanceClock t).cloveRun = t.cloveRun := by
  simp only [advanceClock, slewClove, and_self]

theorem clock_boundary (s : State) (env : BoundaryEnv) :
    (boundary s env).time.clove = s.time.clove + 1 ∧ (boundary s env).time.cycle = 0 ∧
    (boundary s env).time.ns = 125000 * (s.time.clove + 1) % 1000000000 ∧ (boundary s env).time.frac = 0 ∧
    (boundary s env).time.cloveRun = s.time.cloveRun := by
  obtain ⟨a, ha⟩ := (almostSameClock_boundary s env).time
  rw [ha]
  exact advanceClock_reading s.time

theorem exec_cloveBoundary (env : BoundaryEnv) (hon : mainOn s = true) :
    exec (.cloveBoundary env) s = .next (if s.time.cloveRun then boundary s env else s) :=
  show execCloveBoundary env s = _ from inRun_of_mainOn _ hon

/-! ### SNAP -/

/-- What SNAP latches: the clock's fields, and the clove index, which is the clock index while no cloves run (R221). -/
def snapped (s : State) : State := { s with time := { s.time with
  snapSec := s.time.sec, snapNs := s.time.ns, snapFrac := s.time.frac
  snapClove := BitVec.ofNat 64 (if s.time.cloveRun then s.time.clove else 8000 * s.time.sec.toNat + s.time.ns / 125000) } }

theorem execSnap_eq (s : State) : execSnap s = .next (if mainOn s then snapped s else s) := by
  unfold execSnap inRun snapped
  rfl

theorem exec_snap (hon : mainOn s = true) : exec .snap s = .next (snapped s) := show execSnap s = _ from inRun_of_mainOn _ hon

/-! ### TIME_CTL.SNAP -/

/-- A word with the bit TIME_CTL.SNAP cleared. -/
abbrev clearSnap (v : Word) : Word := v &&& ~~~(0x100000 : Word)

theorem bit_clearSnap (v : Word) (i : Nat) : bit (clearSnap v) i = (bit v i && decide (i ≠ 20)) := by
  have hmask : clearSnap v = v &&& ~~~(BitVec.twoPow 32 20) := rfl
  by_cases hi : i < 32
  · simp [bit, hmask, hi]
  · simp [bit, BitVec.getLsbD_of_ge _ i (by omega : 32 ≤ i)]

theorem fld_clearSnap (v : Word) {h l : Nat} (hl : l ≤ h) (hh : h < 20) : fld (clearSnap v) h l = fld v h l := by
  refine Nat.eq_of_testBit_eq fun i => ?_
  simp only [fld, Nat.testBit_mod_two_pow, Nat.testBit_shiftRight]
  by_cases hi : i < h - l + 1
  · have hbit := bit_clearSnap v (l + i)
    rw [decide_eq_true (by omega : l + i ≠ 20), Bool.and_true] at hbit
    rw [show (clearSnap v).toNat.testBit (l + i) = v.toNat.testBit (l + i) from hbit]
  · simp [hi]

theorem wfld_clearSnap (w : Nat) (v : Word) {h l : Nat} (hl : l ≤ h) (hh : h < 20) : wfld w (clearSnap v) h l = wfld w v h l := by
  rw [wfld, wfld, fld_clearSnap v hl hh]

/-- A write of TIME_CTL with SNAP set writes the other fields, then latches. -/
theorem writeTimeCtl_of_snap (s : State) (hv : bit v 20 = true) : writeTimeCtl s v = within (writeTimeCtl s (clearSnap v)) execSnap := by
  simp [writeTimeCtl, bit_clearSnap, wfld_clearSnap, hv]

theorem exec_writeTimeCtl (v : Word) (hon : mainOn s = true) (hready : s.boot.st = .ready) :
    exec (.registerWrite (.pf 0) 0x400000 v) s = .next (writeTimeCtl s v) := by
  show execRegisterWrite (.pf 0) 0x400000 v s = _
  rw [execRegisterWrite, inRun_of_mainOn _ hon]
  simp [writeWindow, writeTime, hready]

/-- Settles O46: SNAP latches in one state; after a boundary, which writes to the clock only through advanceClock, it latches the new
clove's index. -/
theorem snapshotAndBoundary : Obligations.SnapshotAndBoundary := by
  refine ⟨fun s hon => exec_snap hon, fun s v hon hready hv => ?_, fun s env hon hrun => ?_, fun s env hon hrun => ?_⟩
  · refine ⟨_, _, exec_writeTimeCtl _ hon hready, execSnap_eq _, ?_⟩
    rw [exec_writeTimeCtl v hon hready, writeTimeCtl_of_snap s hv, within, execSnap_eq]
  · obtain ⟨hclove, hcycle, hns, hfrac, hruns⟩ := clock_boundary s env
    refine ⟨boundary s env, _, ?_, exec_snap ((mainOn_boundary s env).trans hon), hclove, hcycle, hns, hfrac, ?_⟩
    · rw [exec_cloveBoundary env hon, if_pos hrun]
    · rw [snapped, hruns, hrun, if_pos rfl, hclove]
  · rw [exec_cloveBoundary env hon, hrun, if_neg Bool.false_ne_true]

end Sys2Proof.Machine
end

section
/-! PROOFS. O27: programs (R376), tasks (R329, R333), launches (R240) and radio claims (R337) as their commands record them. -/

namespace Sys2Proof.Machine

open Sys2Proof

variable {s t : State} {p : Nat} {r : RingId} {k : Pkt}

/-! ### Programs (R376) -/

/-- A binary that passes PROG_LOAD's checks has a section table. -/
theorem progSections_of_progLoadErrs {bs : List Byte} (hbytes : progBytes s p k = some bs) (hok : progLoadErrs p k s = []) :
    ∃ ss, progSections bs = some ss := by
  cases hss : progSections bs with
  | some ss => exact ⟨ss, rfl⟩
  | none =>
    rw [progLoadErrs, hbytes] at hok
    simp only [hss] at hok
    exact absurd (List.append_eq_nil_iff.1 hok).2 (List.cons_ne_nil _ _)

/-- PROG_LOAD enters the program that its binary spells. -/
theorem exec_progLoad (hready : FwReady s r 0x24 k) {bs : List Byte} {ss : List Section} (hbytes : progBytes s (ringP r) k = some bs)
    (hss : progSections bs = some ss) (hok : progLoadErrs (ringP r) k s = []) :
    ∃ t, exec (.progLoad r k) s = .next t ∧
      OnlyReports (modPart s (ringP r) (fun P => { P with progs := tabSet {} P.progs (newProg s (ringP r)) {
        live := true, nshard := shardCount (fld (wd (wordsOf 16 (bs.take 64)) 2) 15 0), hash := Config.sha384 bs,
        resume := (wd (wordsOf 16 (bs.take 64)) 4).toNat, maxWcet := fld (wd (wordsOf 16 (bs.take 64)) 5) 17 0,
        sections := ss } })) t := by
  obtain ⟨t, ht, honly⟩ := exec_done (i := .progLoad r k) (errs := progLoadErrs (ringP r) k) rfl hready hok rfl
  refine ⟨t, ht, .trans ?_ honly⟩
  have hbytes' : (progBytes (startCmd s r) (ringP r) k).getD [] = bs := congrArg (·.getD []) hbytes
  simp only [hbytes', hss]
  exact onlyReports_of_parts rfl rfl

/-! ### Tasks (R329, R333) -/

/-- The task that TASK_SUBMIT queues. -/
def submittedTask (s : State) (p : Nat) (k : Pkt) : Task :=
  { id := (getPart s p).nextTask, prog := fld (wd k.w 0) 15 0, ngroup := fld (wd k.w 0) 22 16, half := bit (wd k.w 0) 23
    place := if fld48 k.w 1 = 0 then [] else shardsOf s p (fld (wd k.w 0) 15 0) (fld48 k.w 1)
    submitted := nextCommit s, subAt := s.time.now, waitFrom := s.time.clove
    promoted := false, held := [], placedAt := 0, revokeAt := 0, status := 0, safeTo := 0, again := false
    descs := [], engs := [], ctxs := [] }

/-- N of a partition as it queues a task (R333). -/
def caughtUp (s : State) (p : Nat) : BitVec 64 :=
  if (getPart s p).tasks = [] then match nMin s p with
    | some m => if nLess (getPart s p).nUse m then m else (getPart s p).nUse
    | none => (getPart s p).nUse
  else (getPart s p).nUse

/-- A partition with one more task. -/
def withTask (t : Task) (n : BitVec 64) (P : Part) : Part := { P with tasks := P.tasks ++ [t], nextTask := P.nextTask + 1, nUse := n }

/-- TASK_SUBMIT queues its task and waits for it. -/
theorem exec_taskSubmit (hready : FwReady s r 0x26 k) (hok : taskErrs (ringP r) k s = []) :
    ∃ t, exec (.taskSubmit r k) s = .next t ∧
      OnlyReports (waiting (modPart s (ringP r) (withTask (submittedTask s (ringP r) k) (caughtUp s (ringP r)))) r 0x26 k
        (.task (getPart s (ringP r)).nextTask) []) t := by
  obtain ⟨t, ht, honly⟩ := exec_fwRun_of_ok (i := .taskSubmit r k) (errs := taskErrs (ringP r) k) rfl hready hok
  refine ⟨t, ht, .trans ?_ honly⟩
  exact onlyReports_of_parts rfl rfl

theorem onlyReports_tasks (h : OnlyReports s t) (p : Nat) :
    (getPart t p).tasks = (getPart s p).tasks ∧ (getPart t p).nUse = (getPart s p).nUse :=
  have hP := (onlyReports_iff.1 h).2 p
  ⟨congrArg (·.tasks) hP, congrArg (·.nUse) hP⟩

theorem onlyReports_launch (h : OnlyReports s t) (p : Nat) : (getPart t p).launch = (getPart s p).launch :=
  congrArg (·.launch) ((onlyReports_iff.1 h).2 p)

theorem onlyReports_outst (h : OnlyReports s t) : t.outst = s.outst := congrArg (·.outst) (onlyReports_iff.1 h).1

/-! ### Launches (R240) -/

/-- The launch that LAUNCH_AT records. -/
def recordedLaunch (s : State) (p : Nat) (k : Pkt) : Launch :=
  { clove := (launchClove s k).getD 0, prog := fld (wd k.w 0) 15 0, timing := bit (wd k.w 0) 16, twin := bit (wd k.w 0) 17
    freeze := bit (wd k.w 0) 18, seedLo := wd k.w 4, seedHi := wd k.w 5, runId := wd k.w 6
    twinChip := BitVec.ofNat 16 (fld (wd k.w 7) 15 0), twinPart := BitVec.ofNat 8 (fld (wd k.w 7) 23 16)
    place := shardsOf s p (fld (wd k.w 0) 15 0) (fld48 k.w 2), placeAddr := fld48 k.w 2
    running := false, sigs := [], lastSigs := [], sums := [], distNow := false, distLast := false, distEver := false
    links := [], freezeAt := 0, compared := 0, ended := false, status := 0, endClove := 0, endCycle := 0, endedIn := 0, diverged := false
    twinRx := none, descs := [], engs := [], ctxs := [] }

theorem part_ne_of_launch {P : Part} {L : Launch} (h : P.launch = some L) : P ≠ {} := fun hP => by rw [hP] at h; exact nomatch h

/-- A partition that is changed and has a launch then reads as changed. -/
theorem getPart_modPart_of_launch {L : Launch} (f : Part → Part) (h : (f (getPart s p)).launch = some L) :
    getPart (modPart s p f) p = f (getPart s p) := getPart_modPart_self s p f (part_ne_of_launch h)

/-- A change of any partition that is none of its launch leaves the launch of one that has it. -/
theorem launch_modPart {L : Launch} {q : Nat} {f : Part → Part} (hf : ∀ P, (f P).launch = P.launch) (h : (getPart s p).launch = some L) :
    (getPart (modPart s q f) p).launch = some L := by
  by_cases hq : q = p
  · subst hq
    have hL := (hf _).trans h
    rw [getPart_modPart_of_launch f hL, hL]
  · rw [getPart_modPart_other _ _ hq, h]

/-- A mark of tasks for revocation leaves launches. -/
theorem launch_revokeGroups {L : Launch} (ks : List Nat) (b : Nat) (h : (getPart s p).launch = some L) :
    (getPart (revokeGroups s ks b) p).launch = some L :=
  List.foldlRecOn (motive := fun t => (getPart t p).launch = some L) _ _ h fun t ht q _ => by
    split
    · exact ht
    · exact launch_modPart (fun _ => rfl) ht

/-- What arrays are told of revocations is no change of partitions. -/
theorem parts_announce (s : State) : (announce s).parts = s.parts :=
  List.foldlRecOn (motive := fun t : State => t.parts = s.parts) _ _ rfl fun _ ht _ _ =>
    List.foldlRecOn (motive := fun t : State => t.parts = s.parts) _ _ ht fun _ ht _ _ =>
      List.foldlRecOn (motive := fun t : State => t.parts = s.parts) _ _ ht fun _ ht _ _ => ht

/-- The clove of a launch that passes its checks. -/
theorem launchClove_of_launchErrs (hok : launchErrs p k s = []) : ∃ L, launchClove s k = some L := by
  have hpass := (errsOf_eq_nil_iff _).1 (List.append_eq_nil_iff.1 hok).2 _ (.tail _ (.tail _ (.tail _ (.head _))))
  cases hL : launchClove s k with
  | some L => exact ⟨L, rfl⟩
  | none => simp [hL] at hpass

/-- LAUNCH_AT records its launch. -/
theorem exec_launchAt (hready : FwReady s r 0x27 k) (hok : launchErrs (ringP r) k s = []) :
    ∃ t, exec (.launchAt r k) s = .next t ∧ (getPart t (ringP r)).launch = some (recordedLaunch s (ringP r) k) := by
  obtain ⟨t, ht, honly⟩ := exec_fwRun_of_ok (i := .launchAt r k) (errs := launchErrs (ringP r) k) rfl hready hok
  refine ⟨t, ht, (onlyReports_launch honly _).trans ?_⟩
  have hrecorded : (getPart (modPart (startCmd s r) (ringP r) fun P => { P with launch := some (recordedLaunch s (ringP r) k) })
      (ringP r)).launch = some (recordedLaunch s (ringP r) k) := by
    rw [getPart_modPart_of_launch _ rfl]
  show (getPart (if (recordedLaunch s (ringP r) k).clove = s.time.clove + 1 then _ else _ : State) (ringP r)).launch = _
  split
  · rw [getPart, parts_announce]
    exact launch_revokeGroups _ _ hrecorded
  · exact hrecorded

/-! ### Radio claims (R337) -/

/-- The frame of a claim that passes its checks. -/
theorem frame_of_claimErrs (hok : claimErrs r k s = []) : ∃ F, cloveOfField s (wd k.w 0).toNat = some F := by
  have hpass := (errsOf_eq_nil_iff _).1 (List.append_eq_nil_iff.1 hok).2 _ (.tail _ (.tail _ (.tail _ (.tail _ (.head _)))))
  cases hF : cloveOfField s (wd k.w 0).toNat with
  | some F => exact ⟨F, rfl⟩
  | none => simp [hF] at hpass

/-- The claim that RAD_CLAIM records. -/
def recordedClaim (s : State) (r : RingId) (k : Pkt) : Claim :=
  { id := s.nextClaim, part := fld (wd k.w 5) 7 0, frame := (cloveOfField s (wd k.w 0).toNat).getD 0, nframes := fld (wd k.w 1) 6 0
    ngroup := fld (wd k.w 1) 13 7, clusters := BitVec.ofNat 20 (fld (wd k.w 2) 19 0), ring := r, grantAddr := fld48 k.w 3 }

theorem answers_radClaim (hready : FwReady s r 0x37 k) (hok : claimErrs r k s = []) :
    Answers (.radClaim r k) s (waiting { s with claims := s.claims ++ [recordedClaim s r k], nextClaim := s.nextClaim + 1 } r 0x37 k
      (.claim s.nextClaim) []) := by
  have hok' : claimErrs r k (startCmd s r) = [] := hok
  obtain ⟨t, ht, honly⟩ := exec_fwRun_of_ok (i := .radClaim r k) (errs := claimErrs r k) rfl hready hok'
  refine ⟨t, ht, .trans ?_ honly⟩
  exact onlyReports_of_parts rfl rfl

/-- Settles O27: each command's checks and effect look at nothing that firmware reports, and the revocations that a launch announces leave
the launch itself. -/
theorem programCommands : Obligations.ProgramCommands := by
  intro s r k p
  refine ⟨fun hready bs hbytes hok => ?_, fun hready hlive hfree => ?_, fun hready hok => ?_, fun hready hok => ?_, fun hready hok => ?_⟩
  · obtain ⟨ss, hss⟩ := progSections_of_progLoadErrs hbytes hok
    obtain ⟨t, ht, honly⟩ := exec_progLoad hready hbytes hss hok
    exact ⟨t, ss, ht, hss, honly⟩
  · have hok : progHandleErrs s p (fld (wd k.w 0) 15 0) ++ errsOf [(progUsed (getPart s p) (fld (wd k.w 0) 15 0), stBusy)] = [] := by
      rw [progHandleErrs, if_pos hlive, hfree]
      rfl
    obtain ⟨t, ht, honly⟩ := exec_done (i := .progUnload r k)
      (errs := fun s => progHandleErrs s p (fld (wd k.w 0) 15 0) ++ errsOf [(progUsed (getPart s p) (fld (wd k.w 0) 15 0), stBusy)])
      rfl hready hok rfl
    refine ⟨t, ht, .trans ?_ honly⟩
    exact onlyReports_of_parts rfl rfl
  · obtain ⟨t, ht, honly⟩ := exec_taskSubmit hready hok
    have hread := getPart_modPart_self s p (withTask (submittedTask s p k) (caughtUp s p))
      (part_ne_of_live (live_of_fwReady hready rfl))
    obtain ⟨htasks, hnUse⟩ := onlyReports_tasks honly p
    refine ⟨t, submittedTask s p k, ht, htasks.trans (congrArg Part.tasks hread), rfl, rfl, rfl, rfl, rfl,
      (hnUse.trans (congrArg Part.nUse hread)).trans (ite_not _ _ _).symm, ?_⟩
    rw [onlyReports_outst honly]
    exact List.length_append
  · obtain ⟨t, ht, hlaunch⟩ := exec_launchAt hready hok
    obtain ⟨L, hL⟩ := launchClove_of_launchErrs hok
    refine ⟨t, recordedLaunch s p k, ht, ?_, hlaunch, rfl, rfl, rfl, rfl, rfl, rfl, rfl⟩
    rw [hL, recordedLaunch, hL, Option.getD_some]
  · obtain ⟨F, hF⟩ := frame_of_claimErrs hok
    refine ⟨F, recordedClaim s r k, hF, ?_, rfl, rfl, rfl, rfl, answers_radClaim hready hok⟩
    rw [recordedClaim, hF, Option.getD_some]

end Sys2Proof.Machine
end

section
/-! PROOFS. The work of a partition as its programs end (R242, R329, R330, R443): what the closing of slices and the dropping of
descriptors leave of its tasks, its launch and its groups, and what the end of a task or a run then changes. -/

namespace Sys2Proof.Machine

open Sys2Proof

variable {s₀ s t : State} {p : Nat}

/-! ### Completions that follow an end -/

/-- Of the commands that wait, those that are picked have completed; the rest of it is reports. -/
theorem onlyReports_completeWhere (s : State) (pick : Outst → Bool) (f : Outst → Nat × List Word) :
    OnlyReports { s with outst := s.outst.filter fun o => !pick o } (completeWhere s pick f) :=
  onlyReports_foldl _ fun _ _ => onlyReports_complete _ _ _ _

/-- No command waits any more that has been picked. -/
theorem not_pick_of_mem_completeWhere {pick : Outst → Bool} {f : Outst → Nat × List Word} {o : Outst}
    (ho : o ∈ (completeWhere s pick f).outst) : pick o = false := by
  rw [onlyReports_outst (onlyReports_completeWhere s pick f)] at ho
  simpa using (List.mem_filter.1 ho).2

theorem onlyReports_freed (h : OnlyReports s t) : t.freed = s.freed := congrArg (·.freed) (onlyReports_iff.1 h).1

/-! ### A partition's tasks and launch but for their outcomes -/

theorem getPart_congr (h : t.parts = s.parts) (p : Nat) : getPart t p = getPart s p := by rw [getPart, h, getPart]

/-- A partition of a canonical table reads as it was changed. -/
theorem getPart_modPart_of_wf (hwf : tabWf {} s.parts = true) (p : Nat) (f : Part → Part) :
    getPart (modPart s p f) p = f (getPart s p) := tabGet_tabSet_wf ({} : Part) hwf p _

/-- A task but for the status that its slices give it (R329). -/
def taskCore (t : Task) : Task := { t with status := 0 }

/-- A launch but for the status that its slices give it (R249). -/
def launchCore (L : Launch) : Launch := { L with status := 0 }

/-- What slices that end leave of a partition's tasks, launch and twin state. -/
def partWork (P : Part) : List Task × Option Launch × Nat := (P.tasks.map taskCore, P.launch.map launchCore, P.twinState)

/-- Partition p has the work that it had in s₀; the clock and the freed groups are those of s₀. -/
def WorkKept (p : Nat) (s₀ s : State) : Prop :=
  tabWf {} s.parts = true ∧ partWork (getPart s p) = partWork (getPart s₀ p) ∧
    s.time = s₀.time ∧ s.freed = s₀.freed

theorem WorkKept.refl (hwf : tabWf {} s.parts = true) : WorkKept p s s := ⟨hwf, rfl, rfl, rfl⟩

theorem WorkKept.wf (h : WorkKept p s₀ s) : tabWf {} s.parts = true := h.1

theorem WorkKept.time (h : WorkKept p s₀ s) : s.time = s₀.time := h.2.2.1

theorem WorkKept.freed (h : WorkKept p s₀ s) : s.freed = s₀.freed := h.2.2.2

theorem workKept_ite {c : Prop} [Decidable c] {u : State} (ht : WorkKept p s₀ t) (hu : WorkKept p s₀ u) :
    WorkKept p s₀ (if c then t else u) := by
  split <;> assumption

theorem workKept_foldl {β : Type} {f : State → β → State} {l : List β} (h : WorkKept p s₀ s)
    (hf : ∀ s x, WorkKept p s₀ s → WorkKept p s₀ (f s x)) : WorkKept p s₀ (l.foldl f s) :=
  List.foldlRecOn (motive := WorkKept p s₀) l f h fun s hs x _ => hf s x hs

/-- A change of any partition that leaves the work of it. -/
theorem workKept_modPart {q : Nat} {f : Part → Part} (h : WorkKept p s₀ s) (hf : ∀ P, partWork (f P) = partWork P) :
    WorkKept p s₀ (modPart s q f) := by
  obtain ⟨hwf, hwork, hrest⟩ := h
  refine ⟨tabWf_tabMod _ _ _ hwf, ?_, hrest⟩
  by_cases hq : q = p
  · subst hq
    rw [getPart_modPart_of_wf hwf, hf, hwork]
  · rw [getPart_modPart_other _ _ hq, hwork]

theorem workKept_modClu {c : Nat} {f : Cluster → Cluster} (h : WorkKept p s₀ s) : WorkKept p s₀ (modClu s c f) := h
theorem workKept_modLa {c l : Nat} {f : LArray → LArray} (h : WorkKept p s₀ s) : WorkKept p s₀ (modLa s c l f) := h
theorem workKept_emit {o : Out} (h : WorkKept p s₀ s) : WorkKept p s₀ (emit s o) := h

/-- The outcome of a slice is all that its end gives to tasks and launches. -/
theorem workKept_noteSlice {q c l st : Nat} (h : WorkKept p s₀ s) : WorkKept p s₀ (noteSlice s q c l st) := by
  refine workKept_ite h (workKept_modPart h fun P => ?_)
  refine Prod.ext ?_ (Prod.ext ?_ rfl)
  · refine List.map_map.trans (List.map_congr_left fun t _ => ?_)
    simp only [Function.comp_apply]
    split <;> rfl
  · refine (Option.map_map _ _ _).trans (congrFun (congrArg _ (funext fun L => ?_)) _)
    simp only [Function.comp_apply]
    split <;> rfl

theorem workKept_freeCheckpoints {c : Nat} {marks : List Nat} (h : WorkKept p s₀ s) : WorkKept p s₀ (freeCheckpoints s c marks) :=
  workKept_ite h (workKept_modClu h)

theorem workKept_endSlices {c l : Nat} (h : WorkKept p s₀ s) : WorkKept p s₀ (endSlices s c l) :=
  workKept_foldl (workKept_modLa h) fun _ _ hs => workKept_freeCheckpoints (workKept_noteSlice (workKept_emit hs))

theorem workKept_closeSlice {c l : Nat} {ctx : Bool} (h : WorkKept p s₀ s) : WorkKept p s₀ (closeSlice s c l ctx) :=
  workKept_ite (workKept_endSlices (workKept_modLa h)) h

theorem workKept_closeGroups {q : Nat} {groups : List Nat} (h : WorkKept p s₀ s) : WorkKept p s₀ (closeGroups s q groups) :=
  workKept_foldl h fun _ _ hs => workKept_foldl hs fun _ _ hs => workKept_foldl hs fun _ _ hs => workKept_ite (workKept_closeSlice hs) hs

/-- Descriptors that go with their program are none of a partition's work. -/
theorem workKept_dropDescs {q : Nat} {descs : List Nat} (h : WorkKept p s₀ s) : WorkKept p s₀ (dropWork s q [] [] descs) :=
  workKept_foldl h fun _ _ hs => workKept_ite hs (workKept_modPart hs fun _ => rfl)

theorem WorkKept.nextCommit (h : WorkKept p s₀ s) : nextCommit s = nextCommit s₀ := by
  rw [Machine.nextCommit, h.time, Machine.nextCommit]

/-- A partition's only task stays its only one, under its number and on its groups. -/
theorem WorkKept.task {t : Task} (h : WorkKept p s₀ s) (ht : (getPart s₀ p).tasks = [t]) :
    ∃ u : Task, (getPart s p).tasks = [u] ∧ taskCore u = taskCore t := by
  obtain ⟨-, hwork, -⟩ := h
  have htasks : (getPart s p).tasks.map taskCore = (getPart s₀ p).tasks.map taskCore := congrArg Prod.fst hwork
  rw [ht] at htasks
  exact List.map_eq_singleton_iff.1 htasks

/-- A partition's launch stays, and so does its twin state. -/
theorem WorkKept.launch {L : Launch} (h : WorkKept p s₀ s) (hL : (getPart s₀ p).launch = some L) :
    ∃ M, (getPart s p).launch = some M ∧ launchCore M = launchCore L ∧ (getPart s p).twinState = (getPart s₀ p).twinState := by
  obtain ⟨-, hwork, -⟩ := h
  have hlaunch : (getPart s p).launch.map launchCore = (getPart s₀ p).launch.map launchCore := congrArg (·.2.1) hwork
  rw [hL] at hlaunch
  obtain ⟨M, hM, hcore⟩ := Option.map_eq_some_iff.1 hlaunch
  exact ⟨M, hM, hcore, congrArg (·.2.2) hwork⟩

/-! ### Tasks (R329, R330) -/

/-- A partition without the task of a number. -/
def withoutTask (i : Nat) (P : Part) : Part := { P with tasks := P.tasks.filter (fun x => decide (x.id ≠ i)) }

/-- The only task of a partition leaves it: its groups are free from the next boundary that can be committed (R25), and no command waits
for it. -/
theorem finishTask_effect {t : Task} (hwf : tabWf {} s.parts = true) (ht : (getPart s p).tasks = [t]) (status : Nat) :
    (getPart (finishTask s p t status) p).tasks = [] ∧
      (finishTask s p t status).freed = s.freed ++ t.held.map (fun k => (k, nextCommit s)) ∧
      ∀ o ∈ (finishTask s p t status).outst, ¬(o.why = .task t.id ∧ ringOwner o.ring = some p) := by
  have hdrop : WorkKept p s (dropWork s p [] [] t.descs) := workKept_dropDescs (.refl hwf)
  refine ⟨?_, ?_, fun o ho => ?_⟩
  · obtain ⟨u, hu, hcore⟩ := hdrop.task ht
    have hid : u.id = t.id := congrArg (·.id) hcore
    have hgone := congrArg Part.tasks (getPart_modPart_of_wf hdrop.wf p (withoutTask t.id))
    rw [finishTask, (onlyReports_tasks (onlyReports_completeWhere _ _ _) p).1]
    refine hgone.trans ?_
    simp [withoutTask, hu, hid]
  · refine (onlyReports_freed (onlyReports_completeWhere _ _ _)).trans ?_
    show (dropWork s p [] [] t.descs).freed ++ t.held.map (fun k => (k, nextCommit (dropWork s p [] [] t.descs))) = _
    rw [hdrop.freed, hdrop.nextCommit]
  · have hpick := not_pick_of_mem_completeWhere ho
    simpa using hpick

/-- A task whose work is done ends. -/
theorem exec_taskEnd {p : Fin 64} {t : Task} (hon : mainOn s = true) (hwf : tabWf {} s.parts = true)
    (ht : (getPart s p.val).tasks = [t]) (hheld : t.held ≠ []) (hdone : workDone s p.val t.held t.engs t.ctxs = true) :
    ∃ u : Task, taskCore u = taskCore t ∧ (getPart (closeGroups s p.val t.held) p.val).tasks = [u] ∧
      exec (.taskEnd p t.id) s = .next (finishTask (closeGroups s p.val t.held) p.val u u.status) := by
  have hclosed : WorkKept p.val s (closeGroups s p.val t.held) := workKept_closeGroups (.refl hwf)
  obtain ⟨u, hu, hcore⟩ := hclosed.task ht
  have hid : u.id = t.id := congrArg (·.id) hcore
  refine ⟨u, hcore, hu, ?_⟩
  show execTaskEnd p t.id s = _
  rw [execTaskEnd, inRun_of_mainOn _ hon]
  simp [ht, hheld, hdone, hu, hid]

/-- A task whose work is not done stays. -/
theorem exec_taskEnd_of_working {p : Fin 64} {t : Task} (hon : mainOn s = true) (ht : (getPart s p.val).tasks = [t])
    (hworks : workDone s p.val t.held t.engs t.ctxs = false) : exec (.taskEnd p t.id) s = .next s := by
  show execTaskEnd p t.id s = _
  rw [execTaskEnd, inRun_of_mainOn _ hon]
  simp [ht, hworks]

/-! ### Runs (R242, R249) -/

/-- A run's launch as its end leaves it. -/
def endedLaunch (clove : Nat) (L : Launch) : Launch := { L with ended := true, endedIn := clove }

/-- A partition whose run has ended in a clove. -/
def endedPart (clove : Nat) (P : Part) : Part := noteRunEnd { P with launch := P.launch.map (endedLaunch clove) }

/-- What is noted of a run's last write (R242) is none of its launch. -/
theorem noteRunEnd_work (P : Part) : (noteRunEnd P).launch = P.launch ∧ (noteRunEnd P).twinState = P.twinState := by
  unfold noteRunEnd
  split
  · split <;> exact ⟨rfl, rfl⟩
  · exact ⟨rfl, rfl⟩

/-- The state in which a run's slices have closed and its descriptors have gone. -/
def runClosed (s : State) (p : Nat) (L : Launch) : State := dropWork (closeGroups s p (placeGroups s L.place)) p [] [] L.descs

theorem workKept_runClosed {L : Launch} (hwf : tabWf {} s.parts = true) : WorkKept p s (runClosed s p L) :=
  workKept_dropDescs (workKept_closeGroups (.refl hwf))

/-- The state in which a run has also given up its groups, but where it may freeze. -/
def runGivenUp (s : State) (p : Nat) (L : Launch) : State :=
  if mayFreeze L then runClosed s p L
  else { runClosed s p L with
    freed := (runClosed s p L).freed ++ (placeGroups s L.place).map (fun k => (k, nextCommit (runClosed s p L))) }

theorem parts_runGivenUp (s : State) (p : Nat) (L : Launch) : (runGivenUp s p L).parts = (runClosed s p L).parts := by
  unfold runGivenUp
  split <;> rfl

theorem time_runGivenUp (s : State) (p : Nat) (L : Launch) : (runGivenUp s p L).time = (runClosed s p L).time := by
  unfold runGivenUp
  split <;> rfl

/-- The state that a run's end is recorded in. -/
def runEnded (s : State) (p : Nat) (L : Launch) : State :=
  modPart (runGivenUp s p L) p (endedPart (runGivenUp s p L).time.clove)

theorem exec_runEnd {p : Fin 64} {L : Launch} (hon : mainOn s = true) (hL : (getPart s p.val).launch = some L) (hruns : L.running = true)
    (hopen : L.ended = false) (hstate : (getPart s p.val).twinState ≠ 3)
    (hdone : workDone s p.val (placeGroups s L.place) L.engs L.ctxs = true) :
    exec (.runEnd p) s = .next (checkRunEnd (runEnded s p.val L) p.val) := by
  show execRunEnd p s = _
  rw [execRunEnd, inRun_of_mainOn _ hon]
  simp only [hL, hruns, hopen, hstate, hdone, Bool.not_true, Bool.or_false, decide_false, Bool.false_eq_true, if_false]
  rfl

/-- What a run's end leaves before its completion: its launch, marked as ended. -/
theorem runEnded_effect {L : Launch} (hwf : tabWf {} s.parts = true) (hL : (getPart s p).launch = some L) :
    ∃ M, launchCore M = launchCore L ∧ (getPart (runEnded s p L) p).launch = some (endedLaunch s.time.clove M) ∧
      (getPart (runEnded s p L) p).twinState = (getPart s p).twinState ∧ tabWf {} (runEnded s p L).parts = true ∧
      (mayFreeze L = false → (runEnded s p L).freed = s.freed ++ (placeGroups s L.place).map (fun k => (k, nextCommit s))) := by
  have hkept : WorkKept p s (runClosed s p L) := workKept_runClosed hwf
  obtain ⟨M, hM, hcore, hstate⟩ := hkept.launch hL
  have hpart := getPart_congr (parts_runGivenUp s p L) p
  have hclove : (runGivenUp s p L).time.clove = s.time.clove := by rw [time_runGivenUp, hkept.time]
  have hwf' : tabWf {} (runGivenUp s p L).parts = true := (congrArg (tabWf {}) (parts_runGivenUp s p L)).trans hkept.wf
  have hread : getPart (runEnded s p L) p = endedPart s.time.clove (getPart (runClosed s p L) p) := by
    rw [runEnded, getPart_modPart_of_wf hwf', hpart, hclove]
  obtain ⟨hlaunch, htwin⟩ := noteRunEnd_work
    { getPart (runClosed s p L) p with launch := (getPart (runClosed s p L) p).launch.map (endedLaunch s.time.clove) }
  refine ⟨M, hcore, ?_, ?_, tabWf_tabMod _ _ _ hwf', fun hstays => ?_⟩
  · rw [hread, endedPart, hlaunch, hM, Option.map_some]
  · rw [hread, endedPart, htwin, hstate]
  · rw [runEnded, modPart_freed, runGivenUp, hstays, ← hkept.freed, ← hkept.nextCommit]
    rfl

/-- A partition without its launch; its twin stays frozen. -/
def withoutLaunch (P : Part) : Part := { P with launch := none, twinState := if P.twinState = 3 then 3 else 0 }

/-- A run that may not freeze any more completes: its launch goes. -/
theorem finishRun_effect {L : Launch} (hwf : tabWf {} s.parts = true) (hL : (getPart s p).launch = some L) (hstays : mayFreeze L = false)
    (status : Nat) : (getPart (finishRun s p status) p).launch = none ∧ (finishRun s p status).freed = s.freed ∧
      ∀ o ∈ (finishRun s p status).outst, o.why ≠ .run p := by
  refine ⟨?_, ?_, fun o ho => ?_⟩
  · rw [finishRun, onlyReports_launch (onlyReports_completeWhere _ _ _) p]
    exact congrArg Part.launch (getPart_modPart_of_wf hwf p withoutLaunch)
  · rw [finishRun, onlyReports_freed (onlyReports_completeWhere _ _ _)]
    show s.freed ++ _ = _
    simp [hL, hstays]
  · have hpick := not_pick_of_mem_completeWhere ho
    simpa using hpick

theorem checkRunEnd_of_unended {L : Launch} (hL : (getPart s p).launch = some L) (hopen : L.ended = false) : checkRunEnd s p = s := by
  unfold checkRunEnd
  rw [hL]
  simp [hopen]

/-- A run that is not a twin completes as it ends. -/
theorem checkRunEnd_of_ended {L : Launch} (hL : (getPart s p).launch = some L) (hended : L.ended = true) (htwin : L.twin = false)
    (hfreeze : L.freezeAt = 0) (hstate : (getPart s p).twinState ≠ 3) : checkRunEnd s p = finishRun s p L.status := by
  unfold checkRunEnd
  rw [hL]
  simp [hended, htwin, hfreeze, hstate]

/-- A twin run whose last clove is not compared goes on (R249). -/
theorem checkRunEnd_of_comparing {L : Launch} (hL : (getPart s p).launch = some L) (htwin : L.twin = true)
    (hstate : (getPart s p).twinState = 1) (hopen : L.compared < L.endedIn) : checkRunEnd s p = s := by
  unfold checkRunEnd
  rw [hL]
  simp [htwin, hstate, hopen]

/-- A task whose work is done leaves its partition. -/
theorem taskEnd_effect {p : Fin 64} {t : Task} (hon : mainOn s = true) (hwf : tabWf {} s.parts = true)
    (ht : (getPart s p.val).tasks = [t]) (hheld : t.held ≠ []) (hdone : workDone s p.val t.held t.engs t.ctxs = true) :
    ∃ u, exec (.taskEnd p t.id) s = .next u ∧ (getPart u p.val).tasks = [] ∧
      u.freed = s.freed ++ t.held.map (fun k => (k, nextCommit s)) ∧
      ∀ o ∈ u.outst, ¬(o.why = .task t.id ∧ ringOwner o.ring = some p.val) := by
  obtain ⟨v, hcore, hv, hexec⟩ := exec_taskEnd hon hwf ht hheld hdone
  have hid : v.id = t.id := congrArg (·.id) hcore
  have hgroups : v.held = t.held := congrArg (·.held) hcore
  have hclosed : WorkKept p.val s (closeGroups s p.val t.held) := workKept_closeGroups (.refl hwf)
  obtain ⟨htasks, hfree, houtst⟩ := finishTask_effect hclosed.wf hv v.status
  refine ⟨_, hexec, htasks, ?_, hid ▸ houtst⟩
  rw [hfree, hclosed.freed, hclosed.nextCommit, hgroups]

/-- A run that is no twin completes as its work is done. -/
theorem runEnd_effect {p : Fin 64} {L : Launch} (hon : mainOn s = true) (hwf : tabWf {} s.parts = true)
    (hL : (getPart s p.val).launch = some L) (hruns : L.running = true) (hopen : L.ended = false) (htwin : L.twin = false)
    (hstate : (getPart s p.val).twinState ≠ 3) (hfreeze : L.freezeAt = 0)
    (hdone : workDone s p.val (placeGroups s L.place) L.engs L.ctxs = true) :
    ∃ u, exec (.runEnd p) s = .next u ∧ (getPart u p.val).launch = none ∧
      u.freed = s.freed ++ (placeGroups s L.place).map (fun k => (k, nextCommit s)) ∧ ∀ o ∈ u.outst, o.why ≠ .run p.val := by
  obtain ⟨M, hcore, hlaunch, htwinState, hwf', hfreed⟩ := runEnded_effect hwf hL
  have hMtwin : M.twin = false := (congrArg (·.twin) hcore : M.twin = L.twin).trans htwin
  have hMfreeze : M.freezeAt = 0 := (congrArg (·.freezeAt) hcore : M.freezeAt = L.freezeAt).trans hfreeze
  obtain ⟨hnone, hsame, houtst⟩ := finishRun_effect hwf' hlaunch (by rw [mayFreeze, endedLaunch, hMtwin, Bool.false_and])
    (endedLaunch s.time.clove M).status
  rw [hfreed (by rw [mayFreeze, htwin, Bool.false_and])] at hsame
  refine ⟨_, exec_runEnd hon hL hruns hopen hstate hdone, ?_⟩
  rw [checkRunEnd_of_ended hlaunch rfl hMtwin hMfreeze (htwinState ▸ hstate)]
  exact ⟨hnone, hsame, houtst⟩

/-- A twin run whose work is done ends, and waits for the comparison of its last clove (R249). -/
theorem twinRunEnd_effect {p : Fin 64} {L : Launch} (hon : mainOn s = true) (hwf : tabWf {} s.parts = true)
    (hL : (getPart s p.val).launch = some L) (hruns : L.running = true) (hopen : L.ended = false) (htwin : L.twin = true)
    (hstate : (getPart s p.val).twinState = 1) (hbehind : L.compared < s.time.clove)
    (hdone : workDone s p.val (placeGroups s L.place) L.engs L.ctxs = true) :
    ∃ u M, exec (.runEnd p) s = .next u ∧ (getPart u p.val).launch = some M ∧ M.ended = true ∧ M.endedIn = s.time.clove := by
  obtain ⟨M, hcore, hlaunch, htwinState, -, -⟩ := runEnded_effect hwf hL
  have hMtwin : M.twin = true := (congrArg (·.twin) hcore : M.twin = L.twin).trans htwin
  have hMcompared : M.compared = L.compared := congrArg (·.compared) hcore
  refine ⟨_, endedLaunch s.time.clove M, exec_runEnd hon hL hruns hopen (by rw [hstate]; decide) hdone, ?_, rfl, rfl⟩
  rw [checkRunEnd_of_comparing hlaunch hMtwin (htwinState.trans hstate) (hMcompared ▸ hbehind)]
  exact hlaunch

end Sys2Proof.Machine
end

section
/-! PROOFS. O54: the comparison of twins (R245, R246), freeze notices (R247), and the ends of tasks and runs. -/

namespace Sys2Proof.Machine

open Sys2Proof

variable {s t : State} {p : Nat} {L : Launch} {m : TwinMsg} {via : Fin 25}

/-! ### Messages that leave the receive buffer of their link (R252) -/

/-- The state in which a message that came by a link, or from this chip itself, has been taken. -/
def received (s : State) (via : Fin 25) : State := if via.val < 24 then freeRx s via.val 2 0 else s

theorem freeRx_eq_received (s : State) (via : Fin 25) : (if via.val < 24 then freeRx s via.val 2 0 else s) = received s via := rfl

theorem parts_freeRx (s : State) (l vc n : Nat) : (freeRx s l vc n).parts = s.parts := by
  unfold freeRx
  extract_lets freed
  split <;> rfl

theorem chipId_freeRx (s : State) (l vc n : Nat) : (freeRx s l vc n).fab.chipId = s.fab.chipId := by
  unfold freeRx
  extract_lets freed
  split <;> rfl

@[simp] theorem time_received (s : State) (via : Fin 25) : (received s via).time = s.time := by
  unfold received
  split
  · exact time_freeRx _ _ _ _
  · rfl

@[simp] theorem getPart_received (s : State) (via : Fin 25) (p : Nat) : getPart (received s via) p = getPart s p := by
  unfold received
  split
  · exact getPart_congr (parts_freeRx _ _ _ _) p
  · rfl

@[simp] theorem runClusters_received (s : State) (via : Fin 25) (L : Launch) : runClusters (received s via) L = runClusters s L := by
  have hchip : (received s via).fab.chipId = s.fab.chipId := by
    unfold received
    split
    · exact chipId_freeRx _ _ _ _
    · rfl
  rw [runClusters, runClusters, localShards, localShards, hchip]

@[simp] theorem twinOpen_received (s : State) (via : Fin 25) (p : Nat) : twinOpen (received s via) p = twinOpen s p := by
  rw [twinOpen, getPart_received, time_received, twinOpen]

@[simp] theorem nextCommit_received (s : State) (via : Fin 25) : nextCommit (received s via) = nextCommit s := by
  rw [nextCommit, time_received, nextCommit]

theorem parts_pumpMsgs (l : Nat) (ms : List Msg) (held : List Nat) (s : State) : (pumpMsgs l ms held s).parts = s.parts := by
  induction ms generalizing s held with
  | nil => rfl
  | cons m r ih =>
    unfold pumpMsgs
    split
    · exact ih _ _
    · exact ih _ _

/-- A message that is sent leaves the partitions. -/
theorem parts_sendOn (s : State) (path : Nat) (m : Msg) : (sendOn s path m).parts = s.parts := by
  unfold sendOn
  split
  · rfl
  · split
    · rfl
    · exact parts_pumpMsgs _ _ _ _

/-! ### A partition as reports leave it -/

/-- A partition that is changed, and has a launch then, stands as changed but for what reports set. -/
theorem partCore_of_modPart {f : Part → Part} (hL : (f (getPart s p)).launch = some L) (h : OnlyReports (modPart s p f) t) :
    partCore t p = { f (getPart s p) with dirtyOver := false } := by
  rw [(onlyReports_iff.1 h).2 p, partCore, getPart_modPart_of_launch f hL]

/-- Its launch is as changed, and a launch that has not ended does not complete (R249). -/
theorem checkRunEnd_of_modPart {f : Part → Part} (hL : (f (getPart s p)).launch = some L) (hended : L.ended = false)
    (h : OnlyReports (modPart s p f) t) : checkRunEnd t p = t := by
  have hlaunch := (onlyReports_launch h p).trans (congrArg Part.launch (getPart_modPart_of_launch f hL))
  exact checkRunEnd_of_unended (hlaunch.trans hL) hended

theorem onlyReports_checkRunEnd {f : Part → Part} (hL : (f (getPart s p)).launch = some L) (hended : L.ended = false)
    (h : OnlyReports (modPart s p f) t) : OnlyReports (modPart s p f) (checkRunEnd t p) := by
  rw [checkRunEnd_of_modPart hL hended h]
  exact h

theorem modPart_modPart_of_launch {f : Part → Part} (g : Part → Part) (hL : (f (getPart s p)).launch = some L) :
    modPart (modPart s p f) p g = modPart s p (fun P => g (f P)) := modPart_modPart s p f g (part_ne_of_launch hL)

/-! ### Comparison of twins (R245, R246) -/

theorem twinOpen_of_launch (hL : (getPart s p).launch = some L) (hopen : twinOpen s p = true) :
    L.running = true ∧ L.twin = true ∧ (getPart s p).twinState = 1 := by
  unfold twinOpen at hopen
  simp only [hL, Bool.and_eq_true, decide_eq_true_eq] at hopen
  obtain ⟨⟨⟨⟨hruns, htwin⟩, hstate⟩, -⟩, -⟩ := hopen
  exact ⟨hruns, htwin, hstate⟩

/-- A partition whose twin's message is lost. -/
def suspended (P : Part) : Part := { P with twinLostF := true, twinState := 2 }

/-- A loss suspends the comparison of a run that goes on. -/
theorem onlyReports_loseTwin (hL : (getPart s p).launch = some L) (hended : L.ended = false) :
    OnlyReports (modPart s p suspended) (loseTwin s p) := by
  refine onlyReports_checkRunEnd (f := suspended) hL hended (.trans ?_ (onlyReports_evPart _ _ _ _))
  exact onlyReports_of_parts rfl rfl

theorem loseTwin_effect (hL : (getPart s p).launch = some L) (hended : L.ended = false) :
    (getPart (loseTwin s p) p).twinLostF = true ∧ (getPart (loseTwin s p) p).twinState = 2 ∧ (getPart (loseTwin s p) p).launch = some L := by
  have hcore := partCore_of_modPart (f := suspended) hL (onlyReports_loseTwin hL hended)
  exact ⟨congrArg (·.twinLostF) hcore, congrArg (·.twinState) hcore, (congrArg (·.launch) hcore).trans hL⟩

/-- The clusters whose signatures differ from the twin's. -/
def differing (s : State) (L : Launch) (m : TwinMsg) : List Nat :=
  (runClusters s L).filter (fun c => decide (sigOf m c ≠ some (tabGet 0 L.lastSigs c)))

theorem differing_eq_nil_iff : differing s L m = [] ↔ ∀ c ∈ runClusters s L, sigOf m c = some (tabGet 0 L.lastSigs c) := by
  simp [differing]

theorem differing_eq_cons (h : ∃ c ∈ runClusters s L, sigOf m c ≠ some (tabGet 0 L.lastSigs c)) : ∃ c cs, differing s L m = c :: cs := by
  refine List.exists_cons_of_ne_nil fun hnil => ?_
  obtain ⟨c, hc, hdiff⟩ := h
  exact hdiff (differing_eq_nil_iff.1 hnil c hc)

/-- A launch whose clove before clove n + 1 is compared. -/
def compared (n : Nat) (m : TwinMsg) (L : Launch) : Launch :=
  { L with compared := n, distEver := L.distEver || m.disturb, twinRx := none }

/-- A partition with a launch. -/
def withLaunch (L : Launch) (P : Part) : Part := { P with launch := some L }

theorem compareTwin_of_equal (hL : (getPart s p).launch = some L) (hended : L.ended = false) (hdiff : differing s L m = []) :
    compareTwin s p m = modPart s p (withLaunch (compared (s.time.clove - 1) m L)) := by
  unfold differing at hdiff
  simp only [compareTwin, hL, hdiff]
  exact checkRunEnd_of_modPart (f := withLaunch (compared (s.time.clove - 1) m L)) rfl hended (.refl _)

/-- A partition that counts one more clove after its first divergence. -/
def mismatched (L : Launch) (P : Part) : Part := { P with launch := some L, twinMismatch := satInc 32 P.twinMismatch 1 }

theorem compareTwin_of_mismatch (hL : (getPart s p).launch = some L) (hended : L.ended = false) {c : Nat} {cs : List Nat}
    (hdiff : differing s L m = c :: cs) (hdiverged : L.diverged = true) :
    compareTwin s p m = modPart s p (mismatched (compared (s.time.clove - 1) m L)) := by
  unfold differing at hdiff
  simp only [compareTwin, hL, hdiff]
  rw [if_pos hdiverged, modPart_modPart_of_launch _ rfl]
  exact checkRunEnd_of_modPart (f := mismatched (compared (s.time.clove - 1) m L)) rfl hended (.refl _)

/-- A partition that notes its first divergence, of some clusters in clove n. -/
def divergedIn (n : Nat) (clusters : List Nat) (L : Launch) (P : Part) : Part :=
  { P with launch := some L, twinClusters := BitVec.ofNat 20 (cluMap clusters), twinDivClove := BitVec.ofNat 32 n }

/-- A divergence of time suspends the comparison. -/
def divergedInTime (n : Nat) (clusters : List Nat) (L : Launch) (P : Part) : Part :=
  { divergedIn n clusters L P with twinTdiv := true, twinState := 2 }

/-- A divergence of data is kept with the launch. -/
def divergedInData (n : Nat) (clusters : List Nat) (L : Launch) (P : Part) : Part :=
  { divergedIn n clusters { L with diverged := true } P with twinDiv := true }

/-- The events of a divergence, to the partition and to the pool, are reports, and so is a flag. -/
theorem onlyReports_tellDivergence (s : State) (b : W1cBit) (items : List (Nat × Nat)) :
    OnlyReports s (evPool (evPart (noteFlag s b) p 0x0403 items) 0x0403 items) :=
  .trans (t := noteFlag s b) (onlyReports_of_parts rfl rfl) ((onlyReports_evPart _ _ _ _).trans (onlyReports_evPool _ _ _))

theorem onlyReports_compareTwin_of_time (hL : (getPart s p).launch = some L) (hended : L.ended = false) {c : Nat} {cs : List Nat}
    (hdiff : differing s L m = c :: cs) (hdiverged : L.diverged = false) (hdist : (L.distEver || m.disturb) = true) :
    OnlyReports (modPart s p (divergedInTime (s.time.clove - 1) (c :: cs) (compared (s.time.clove - 1) m L))) (compareTwin s p m) := by
  unfold differing at hdiff
  simp only [compareTwin, hL, hdiff]
  rw [if_neg (by simp [hdiverged]), if_pos hdist, modPart_modPart_of_launch (s := s) _ rfl,
    modPart_modPart_of_launch (s := s) _ rfl]
  exact onlyReports_checkRunEnd rfl hended (onlyReports_tellDivergence _ _ _)

/-- A partition whose run freezes at boundary b (R247). -/
def freezesAt (b : Nat) (P : Part) : Part := { P with launch := P.launch.map (fun L => { L with freezeAt := b }) }

/-- A divergence of data is told, and freezes the run where FREEZE asks for it, with a notice to the twin. -/
theorem compareTwin_of_data (hL : (getPart s p).launch = some L) {c : Nat} {cs : List Nat} (hdiff : differing s L m = c :: cs)
    (hdiverged : L.diverged = false) (hdist : (L.distEver || m.disturb) = false) :
    ∃ v, OnlyReports (modPart s p (divergedInData (s.time.clove - 1) (c :: cs) (compared (s.time.clove - 1) m L))) v ∧
      compareTwin s p m = if L.freeze then
          sendOn (modPart v p (freezesAt (v.time.clove + 1))) (chipPath v L.twinChip) (.freeze L.twinChip L.twinPart L.runId)
        else checkRunEnd v p := by
  unfold differing at hdiff
  simp only [compareTwin, hL, hdiff]
  rw [if_neg (by simp [hdiverged]), if_neg (by simp [hdist]), modPart_modPart_of_launch (s := s) _ rfl,
    modPart_modPart_of_launch (s := s) _ rfl]
  exact ⟨_, onlyReports_tellDivergence (p := p) _ (.twinDiv p) _, rfl⟩

theorem compareTwin_time_effect (hL : (getPart s p).launch = some L) (hended : L.ended = false)
    (hdiff : ∃ c ∈ runClusters s L, sigOf m c ≠ some (tabGet 0 L.lastSigs c)) (hdiverged : L.diverged = false)
    (hdist : (L.distEver || m.disturb) = true) :
    (getPart (compareTwin s p m) p).twinTdiv = true ∧ (getPart (compareTwin s p m) p).twinState = 2 ∧
      (getPart (compareTwin s p m) p).twinDiv = (getPart s p).twinDiv := by
  obtain ⟨c, cs, hcons⟩ := differing_eq_cons hdiff
  have hcore := partCore_of_modPart rfl (onlyReports_compareTwin_of_time hL hended hcons hdiverged hdist)
  exact ⟨congrArg (·.twinTdiv) hcore, congrArg (·.twinState) hcore, congrArg (·.twinDiv) hcore⟩

theorem compareTwin_mismatch_effect (hL : (getPart s p).launch = some L) (hended : L.ended = false)
    (hdiff : ∃ c ∈ runClusters s L, sigOf m c ≠ some (tabGet 0 L.lastSigs c)) (hdiverged : L.diverged = true) :
    (getPart (compareTwin s p m) p).twinMismatch = satInc 32 (getPart s p).twinMismatch 1 := by
  obtain ⟨c, cs, hcons⟩ := differing_eq_cons hdiff
  rw [compareTwin_of_mismatch hL hended hcons hdiverged]
  exact congrArg Part.twinMismatch (getPart_modPart_of_launch (mismatched _) rfl)

theorem compareTwin_data_effect (hL : (getPart s p).launch = some L) (hended : L.ended = false)
    (hdiff : ∃ c ∈ runClusters s L, sigOf m c ≠ some (tabGet 0 L.lastSigs c)) (hdiverged : L.diverged = false)
    (hdist : (L.distEver || m.disturb) = false) :
    ∃ M, (getPart (compareTwin s p m) p).twinDiv = true ∧ (getPart (compareTwin s p m) p).twinTdiv = (getPart s p).twinTdiv ∧
      (getPart (compareTwin s p m) p).twinState = (getPart s p).twinState ∧
      (getPart (compareTwin s p m) p).twinDivClove = BitVec.ofNat 32 (s.time.clove - 1) ∧
      (getPart (compareTwin s p m) p).launch = some M ∧ M.freezeAt = if L.freeze then s.time.clove + 1 else L.freezeAt := by
  obtain ⟨c, cs, hcons⟩ := differing_eq_cons hdiff
  obtain ⟨v, honly, hcompare⟩ := compareTwin_of_data hL hcons hdiverged hdist
  have hcore := partCore_of_modPart rfl honly
  have hlaunch : (getPart v p).launch = some _ := congrArg (·.launch) hcore
  have hclove : v.time.clove = s.time.clove := congrArg (·.time.clove) (onlyReports_iff.1 honly).1
  rw [hcompare]
  cases hfreeze : L.freeze with
  | true =>
    rw [if_pos rfl, getPart_congr (parts_sendOn _ _ _), hclove]
    have hfrozen : (freezesAt (s.time.clove + 1) (getPart v p)).launch = some _ := congrArg (Option.map _) hlaunch
    rw [getPart_modPart_of_launch _ hfrozen]
    exact ⟨_, congrArg (·.twinDiv) hcore, congrArg (·.twinTdiv) hcore, congrArg (·.twinState) hcore, congrArg (·.twinDivClove) hcore,
      hfrozen, rfl⟩
  | false =>
    rw [if_neg Bool.false_ne_true, checkRunEnd_of_unended hlaunch hended]
    exact ⟨_, congrArg (·.twinDiv) hcore, congrArg (·.twinTdiv) hcore, congrArg (·.twinState) hcore, congrArg (·.twinDivClove) hcore,
      hlaunch, rfl⟩

/-! ### Messages of the twin (R245 to R247) -/

/-- A message of the clove before this one is lost, or compared. -/
theorem exec_twinSignatureRx {p : Fin 64} (hon : mainOn s = true) (hL : (getPart s p.val).launch = some L)
    (hopen : twinOpen s p.val = true) (hclove : m.clove = BitVec.ofNat 32 (s.time.clove - 1)) :
    exec (.twinSignatureRx p ⟨m, via⟩) s = .next (if m.runId ≠ L.runId ∨ 200000 < s.time.cycle then loseTwin (received s via) p.val
      else compareTwin (received s via) p.val m) := by
  obtain ⟨hruns, htwin, hstate⟩ := twinOpen_of_launch hL hopen
  show execTwinSignatureRx p ⟨m, via⟩ s = _
  rw [execTwinSignatureRx, inRun_of_mainOn _ hon]
  simp only [freeRx_eq_received, getPart_received, time_received, twinOpen_received, hL]
  simp [hruns, htwin, hstate, hopen, hclove]

theorem launch_received (hL : (getPart s p).launch = some L) : (getPart (received s via) p).launch = some L :=
  (congrArg Part.launch (getPart_received s via p)).trans hL

/-- A message of another run, or one that comes too late, counts as lost. -/
theorem exec_twinSignatureRx_of_lost {p : Fin 64} (hon : mainOn s = true) (hL : (getPart s p.val).launch = some L)
    (hopen : twinOpen s p.val = true) (hclove : m.clove = BitVec.ofNat 32 (s.time.clove - 1))
    (hlost : m.runId ≠ L.runId ∨ 200000 < s.time.cycle) :
    exec (.twinSignatureRx p ⟨m, via⟩) s = .next (loseTwin (received s via) p.val) := by
  rw [exec_twinSignatureRx hon hL hopen hclove, if_pos hlost]

theorem exec_twinSignatureRx_of_compared {p : Fin 64} (hon : mainOn s = true) (hL : (getPart s p.val).launch = some L)
    (hopen : twinOpen s p.val = true) (hclove : m.clove = BitVec.ofNat 32 (s.time.clove - 1)) (hrun : m.runId = L.runId)
    (hintime : s.time.cycle ≤ 200000) :
    exec (.twinSignatureRx p ⟨m, via⟩) s = .next (compareTwin (received s via) p.val m) := by
  rw [exec_twinSignatureRx hon hL hopen hclove, if_neg (not_or.2 ⟨not_not.2 hrun, Nat.not_lt.2 hintime⟩)]

/-- A message of the clove that runs is kept until the clove has ended. -/
theorem exec_twinSignatureRx_of_running_clove {p : Fin 64} (hon : mainOn s = true) (hL : (getPart s p.val).launch = some L)
    (hruns : L.running = true) (htwin : L.twin = true) (hstate : (getPart s p.val).twinState = 1) (hpos : 0 < s.time.clove)
    (hclove : m.clove = BitVec.ofNat 32 s.time.clove) :
    exec (.twinSignatureRx p ⟨m, via⟩) s = .next (modPart (received s via) p.val (withLaunch { L with twinRx := some m })) := by
  have hother : BitVec.ofNat 32 s.time.clove ≠ BitVec.ofNat 32 (s.time.clove - 1) := fun h => by
    have hmod := congrArg BitVec.toNat h
    simp only [BitVec.toNat_ofNat] at hmod
    omega
  show execTwinSignatureRx p ⟨m, via⟩ s = _
  rw [execTwinSignatureRx, inRun_of_mainOn _ hon]
  simp only [freeRx_eq_received, getPart_received, time_received, hL, hruns, htwin, hstate, hclove, if_neg hother]
  rfl

theorem exec_twinLost {p : Fin 64} (hon : mainOn s = true) :
    exec (.twinLost p) s = .next (if twinOpen s p.val && decide (200000 ≤ s.time.cycle) then loseTwin s p.val else s) :=
  inRun_of_mainOn _ hon

/-- A freeze notice of the run freezes it at the next boundary that can be committed. -/
theorem exec_freezeNoticeRx {p : Fin 64} {i : Word} (hon : mainOn s = true) (hL : (getPart s p.val).launch = some L)
    (hruns : L.running = true) (htwin : L.twin = true) (hfreeze : L.freezeAt = 0) (hstate : (getPart s p.val).twinState ≠ 3) :
    exec (.freezeNoticeRx p ⟨i, via⟩) s = .next (if i = L.runId then
      modPart (received s via) p.val (withLaunch { L with freezeAt := nextCommit s }) else received s via) := by
  show execFreezeNoticeRx p ⟨i, via⟩ s = _
  rw [execFreezeNoticeRx, inRun_of_mainOn _ hon]
  simp only [freeRx_eq_received, getPart_received, nextCommit_received, hL]
  refine congrArg _ (ite_congr (propext ?_) (fun _ => rfl) fun _ => rfl)
  simp [hruns, htwin, hfreeze, hstate, eq_comm (a := L.runId)]

/-- Settles O54: an end finds the partition's work as it was but for the outcomes of its slices, and a comparison of twins that has
written its partition only reports, and sends a freeze notice. -/
theorem tasksAndTwinRuns : Obligations.TasksAndTwinRuns := by
  intro s p hon hwf
  refine ⟨fun t => taskEnd_effect hon hwf, fun t => exec_taskEnd_of_working hon, fun L hL => ?_⟩
  refine ⟨runEnd_effect hon hwf hL, twinRunEnd_effect hon hwf hL, fun hopen hended hlate => ?_, fun hearly => ?_,
    fun m via => ⟨fun hopen hended hclove => ⟨fun hlost => ?_, fun hrun hintime => ?_⟩,
      exec_twinSignatureRx_of_running_clove hon hL⟩, fun i via => exec_freezeNoticeRx hon hL⟩
  · refine ⟨_, ?_, loseTwin_effect hL hended⟩
    rw [exec_twinLost hon, hopen, decide_eq_true hlate, Bool.true_and, if_pos rfl]
  · rw [exec_twinLost hon, decide_eq_false (Nat.not_le.2 hearly), Bool.and_false, if_neg Bool.false_ne_true]
  · obtain ⟨hflag, hstate, -⟩ := loseTwin_effect (launch_received (via := via) hL) hended
    exact ⟨_, exec_twinSignatureRx_of_lost hon hL hopen hclove hlost, hflag, hstate⟩
  · have hexec := exec_twinSignatureRx_of_compared (via := via) hon hL hopen hclove hrun hintime
    have hlaunch := launch_received (via := via) hL
    obtain ⟨-, -, hstate⟩ := twinOpen_of_launch hL hopen
    rw [← runClusters_received s via]
    refine ⟨fun hsame => ?_, fun hdiff => ⟨fun hdiverged => ?_, fun hdiverged hever hdist => ?_, fun hdiverged hdist => ?_⟩⟩
    · rw [hexec, compareTwin_of_equal hlaunch hended (differing_eq_nil_iff.2 hsame), time_received]
      rfl
    · have hcount := compareTwin_mismatch_effect hlaunch hended hdiff hdiverged
      rw [getPart_received] at hcount
      exact ⟨_, hexec, hcount⟩
    · have heffect := compareTwin_data_effect hlaunch hended hdiff hdiverged (by rw [hever, hdist]; rfl)
      rw [getPart_received, time_received, hstate] at heffect
      obtain ⟨M, hdiv, htdiv, hcomparing, hin, hM, hfreezes⟩ := heffect
      exact ⟨_, M, hexec, hdiv, htdiv, hcomparing, hin, hM, hfreezes⟩
    · have heffect := compareTwin_time_effect hlaunch hended hdiff hdiverged hdist
      rw [getPart_received] at heffect
      exact ⟨_, hexec, heffect⟩

end Sys2Proof.Machine
end

section
/-! PROOFS. Flits and paths (R252, R253, R285). The statement asks no canonical table of the links: outside the invariant (Inv, which O47
keeps) a link that goes back to its reset value uncovers another entry of its key. -/

namespace Sys2Proof.Machine

open Sys2Proof

/-- A running machine whose table of links has two entries of link 6, the link of plane 0. The first is read: in it nothing but one credit
of channel 2 differs from a link at reset. Behind it stands one that is up. -/
def twiceLinked : State := { State.reset with
  pwr := { porN := true, pwrOk := true }
  fab := { State.reset.fab with links := [(6, { rxUsed := [(2, 1)] }), (6, { st := 3 })] } }

/-- PATH_DOWN frees the credit of its message, so the first entry is as at reset and leaves the table. The second one is read. -/
theorem st_pathDown_twiceLinked : ∀ t, exec (.pathDown 0 0) twiceLinked = .next t → (getLink t 6).st = 3 := by
  intro t ht
  obtain rfl := Host.Outcome.next.inj ht
  decide +kernel

/-- Refutes O39: in twiceLinked, whose links are not canonical, the link that is read is down, and PATH_DOWN of its plane leaves it up;
the statement says that no link changes its state. -/
theorem not_flitsAndPaths : ¬ Obligations.FlitsAndPaths := by
  unfold Obligations.FlitsAndPaths
  intro h
  obtain ⟨-, -, -, hpath⟩ := h twiceLinked 0 (by decide)
  obtain ⟨t, ht, -, hst⟩ := hpath 0 0 (by decide)
  exact absurd ((st_pathDown_twiceLinked t ht).symm.trans (hst 6)) (by decide)

end Sys2Proof.Machine
end

section
/-! PROOFS. FAB_DMA (R282 to R284). The statement asks no canonical table of the rings: outside the invariant (Inv, which O47 keeps) a
ring whose only packet starts goes back to its reset value and uncovers another entry of its key, with another base in host memory. Where
the completion of an earlier FAB_DMA is written then decides what a put reads there. -/

namespace Sys2Proof.Machine

open Sys2Proof

/-- FAB_DMA on ring 0 of partition 0: a put of one segment, whose entry lies at address 4096. -/
def putOfOneSegment : Pkt :=
  { verMinor := 0, verMajor := 1, fence := false, notify := false, rsv0 := 0, part := 0, rsv1 := 0, gen := 1, tag := 2, rsv3 := 0
    w := [1, 4096, 0, 1, 0] }

/-- An earlier FAB_DMA of the partition, whose one segment names a page that is not mapped. -/
def unmappedPut : Dma :=
  { id := 1, part := 0, get := false, segs := [{ n := 0, e := [0, 0, 0x400000, 0, 8] }], map := 0, psn := false, fails := []
    ring := .part 0 0 }

/-- A running machine with one partition. Its page 0 is host memory, in which the entry of a segment of 8 bytes from address 0 to page 1
lies, and page 1 is a fabric window. The table of rings has two entries of ring 0. The first is read: nothing but the packet of
putOfOneSegment differs from a ring at reset. Behind it stands one with its completion ring at 8192. -/
def twiceRinged : State := { State.reset with
  pwr := { porN := true, pwrOk := true }
  boot := { State.reset.boot with st := .ready }
  hostUp := 1
  host := [(0, [(4106, 0x20), (4112, 8)])]
  rings := [(0, { fetched := [pktWords 0x40 putOfOneSegment] }), (0, { cplBaseAct := 8192 })]
  parts := [(0, { live := true, gen := 1, nring := 1, version := some (1, 0)
                  pt := [(0, { v := true, kind := 2 }), (1, { v := true, kind := 1, target := 2 ^ 44 })] })]
  outst := [{ ring := .part 0 0, opcode := 0x40, part := 0, gen := 1, tag := 1, notify := false, why := .dma 1, fence := false, res := [] }]
  fab := { State.reset.fab with dma := [unmappedPut], nextDma := 2 } }

/-- The bytes that the requests of the retransmit store carry. -/
def dataSent (s : State) : List (List Byte) := s.fab.outst.map fun o => o.req.data

theorem dma_ready_twiceRinged : FwReady twiceRinged (.part 0 0) 0x40 putOfOneSegment ∧
    fabDmaErrs (.part 0 0) putOfOneSegment twiceRinged = [] := by
  unfold FwReady
  decide +kernel

/-- The packet starts, so the first entry of the ring is as at reset and leaves the table. The completion of the earlier command goes to
8192, and the put reads the zeros at address 0. -/
theorem dataSent_fabDma_twiceRinged : ∀ t, exec (.fabDma (.part 0 0) putOfOneSegment) twiceRinged = .next t →
    dataSent t = [[0, 0, 0, 0, 0, 0, 0, 0]] := by
  intro t ht
  obtain rfl := Host.Outcome.next.inj ht
  decide +kernel

/-- Refutes O28: in twiceRinged, whose rings are not canonical, FAB_DMA going on in the state in which the packet has not started writes
the completion of the earlier command at address 0, and the put then sends that; the command sends zeros. -/
theorem not_fabricAndServiceCommands : ¬ Obligations.FabricAndServiceCommands := by
  unfold Obligations.FabricAndServiceCommands
  intro h
  obtain ⟨hready, hok⟩ := dma_ready_twiceRinged
  obtain ⟨hdma, -⟩ := h twiceRinged (.part 0 0) putOfOneSegment
  obtain ⟨u, hu, honly⟩ := hdma hready hok
  have hsent := congrArg dataSent (onlyReports_iff.1 honly).1
  exact absurd (hsent.symm.trans (dataSent_fabDma_twiceRinged u hu)) (by decide +kernel)

end Sys2Proof.Machine
end

section
/-! PROOFS. What leaves the fabric alone: reports, disturbances, and what a stop of a partition does outside the fabric (R141, R238, R341,
R344). Every change of another part of the state is such, so only the cases and the chains of changes have to be followed. -/

namespace Sys2Proof.Machine

open Sys2Proof

/-- The fabric with its links is as in s₀. -/
def SameFabric (s₀ s : State) : Prop := s.fab = s₀.fab

variable {s₀ s : State}

theorem SameFabric.refl (s : State) : SameFabric s s := rfl

theorem sameFabric_ite {c : Prop} [Decidable c] {t u : State} (ht : SameFabric s₀ t) (hu : SameFabric s₀ u) :
    SameFabric s₀ (if c then t else u) := by
  split <;> assumption

/-- Of the states a chain of such changes goes through, each has the fabric of the first. -/
theorem sameFabric_foldl {β : Type} {f : State → β → State} {l : List β} (h : SameFabric s₀ s)
    (hf : ∀ t x, SameFabric s₀ t → SameFabric s₀ (f t x)) : SameFabric s₀ (l.foldl f s) :=
  List.foldlRecOn (motive := SameFabric s₀) l f h fun t ht x _ => hf t x ht

theorem sameFabric_modPart {p : Nat} {f : Part → Part} (h : SameFabric s₀ s) : SameFabric s₀ (modPart s p f) := h
theorem sameFabric_modClu {c : Nat} {f : Cluster → Cluster} (h : SameFabric s₀ s) : SameFabric s₀ (modClu s c f) := h
theorem sameFabric_modCsp {c x : Nat} {f : CspCtx → CspCtx} (h : SameFabric s₀ s) : SameFabric s₀ (modCsp s c x f) := h
theorem sameFabric_emit {o : Out} (h : SameFabric s₀ s) : SameFabric s₀ (emit s o) := h

theorem SameFabric.getLink (h : SameFabric s₀ s) (l : Nat) : getLink s l = getLink s₀ l :=
  congrArg (fun x : Fabric => tabGet ({} : Link) x.links l) h

/-! ### Reports and memory -/

theorem onlyReports_fab {t : State} (h : OnlyReports s t) : t.fab = s.fab := congrArg (·.fab) (onlyReports_iff.1 h).1

theorem onlyMemory_fab {t : State} (h : OnlyMemory s t) : t.fab = s.fab := congrArg (·.fab) h

@[simp] theorem fab_evPool (s : State) (code : Nat) (items : List (Nat × Nat)) : (evPool s code items).fab = s.fab :=
  onlyReports_fab (onlyReports_evPool _ _ _)

@[simp] theorem fab_evPart (s : State) (p code : Nat) (items : List (Nat × Nat)) : (evPart s p code items).fab = s.fab :=
  onlyReports_fab (onlyReports_evPart _ _ _ _)

@[simp] theorem fab_completeWhere (s : State) (pick : Outst → Bool) (f : Outst → Nat × List Word) :
    (completeWhere s pick f).fab = s.fab :=
  (onlyReports_fab (onlyReports_completeWhere s pick f)).trans rfl

@[simp] theorem fab_completeWait (s : State) (w : Wait) (status : Nat) : (completeWait s w status).fab = s.fab := fab_completeWhere _ _ _

@[simp] theorem fab_wrVaP (s : State) (p va : Nat) (bs : List Byte) (psn : Bool) : (wrVaP s p va bs psn).fab = s.fab :=
  onlyMemory_fab (onlyMemory_wrVaP _ _ _ _ _)

@[simp] theorem fab_wrVa (s : State) (p va : Nat) (bs : List Byte) : (wrVa s p va bs).fab = s.fab := fab_wrVaP _ _ _ _ _

theorem sameFabric_evPart {p code : Nat} {items : List (Nat × Nat)} (h : SameFabric s₀ s) : SameFabric s₀ (evPart s p code items) :=
  (fab_evPart _ _ _ _).trans h

theorem sameFabric_completeWait {w : Wait} {status : Nat} (h : SameFabric s₀ s) : SameFabric s₀ (completeWait s w status) :=
  (fab_completeWait _ _ _).trans h

theorem sameFabric_wrVaP {p va : Nat} {bs : List Byte} {psn : Bool} (h : SameFabric s₀ s) : SameFabric s₀ (wrVaP s p va bs psn) :=
  (fab_wrVaP _ _ _ _ _).trans h

theorem sameFabric_wrVa {p va : Nat} {bs : List Byte} (h : SameFabric s₀ s) : SameFabric s₀ (wrVa s p va bs) := sameFabric_wrVaP h

/-! ### Disturbances (R238) -/

theorem sameFabric_disturb {p b : Nat} (h : SameFabric s₀ s) : SameFabric s₀ (disturb s p b) := by
  unfold disturb
  extract_lets
  split
  · exact h
  · exact sameFabric_ite h (sameFabric_ite (sameFabric_evPart h) h)

@[simp] theorem fab_disturbLink (s : State) (link b : Nat) : (disturbLink s link b).fab = s.fab := by
  unfold disturbLink
  refine sameFabric_foldl (.refl s) fun t p ht => ?_
  split
  · exact sameFabric_ite (sameFabric_disturb ht) ht
  · exact ht

@[simp] theorem fab_linkTraffic (s : State) (p link : Nat) : (linkTraffic s p link).fab = s.fab := by
  unfold linkTraffic
  refine sameFabric_foldl (.refl s) fun t q ht => sameFabric_ite ht ?_
  split
  · exact sameFabric_ite (sameFabric_disturb ht) ht
  · exact ht

@[simp] theorem fab_useLink (s : State) (p link : Nat) : (useLink s p link).fab = s.fab := fab_linkTraffic _ _ _

/-! ### The contexts of the CSP (R144, R148, R159) -/

theorem sameFabric_pickCsp {c : Nat} (h : SameFabric s₀ s) : SameFabric s₀ (pickCsp s c) := by
  unfold pickCsp
  extract_lets
  refine sameFabric_ite h (sameFabric_ite (sameFabric_modClu h) (sameFabric_ite (sameFabric_modClu h) ?_))
  split
  · exact sameFabric_modClu (sameFabric_modClu h)
  · exact h

theorem sameFabric_stopCsp {c x : Nat} (h : SameFabric s₀ s) : SameFabric s₀ (stopCsp s c x) :=
  have h1 := sameFabric_modCsp (sameFabric_modClu h)
  sameFabric_pickCsp (sameFabric_ite h1 (sameFabric_ite (sameFabric_evPart h1) h1))

theorem sameFabric_settleCsp {c x : Nat} (h : SameFabric s₀ s) : SameFabric s₀ (settleCsp c s x) := by
  unfold settleCsp
  extract_lets s1
  have h1 : SameFabric s₀ s1 := sameFabric_ite (sameFabric_stopCsp h) h
  refine sameFabric_ite h ?_
  split
  · exact sameFabric_modCsp h1
  · exact h1

theorem sameFabric_cspRelease {c : Nat} (h : SameFabric s₀ s) : SameFabric s₀ (cspRelease s c) :=
  sameFabric_pickCsp (sameFabric_modClu (sameFabric_foldl h fun _ _ => sameFabric_modCsp))

theorem sameFabric_settleLoad {c x : Nat} (h : SameFabric s₀ s) : SameFabric s₀ (settleLoad c s x) := by
  unfold settleLoad
  split
  · exact h
  · exact sameFabric_ite h (sameFabric_completeWait (sameFabric_modCsp (sameFabric_modPart h)))

theorem sameFabric_askStop {c x : Nat} (h : SameFabric s₀ s) : SameFabric s₀ (askStop s c x) := by
  unfold askStop cspPendings
  have h0 : SameFabric s₀ (modCsp s c x fun o => { o with stopPending := true }) := sameFabric_modCsp h
  extract_lets s1 s2
  have h1 : SameFabric s₀ s1 := sameFabric_foldl h0 fun _ _ => sameFabric_settleCsp
  have h2 : SameFabric s₀ s2 := sameFabric_ite (sameFabric_cspRelease h1) h1
  exact sameFabric_ite h0 (sameFabric_foldl h2 fun _ _ => sameFabric_settleLoad)

/-! ### A partition's work stops (R37, R341) -/

theorem sameFabric_poisonRest {E : Engine} {P : EngPort} (h : SameFabric s₀ s) : SameFabric s₀ (poisonRest s E P) :=
  sameFabric_foldl h fun _ _ ht => sameFabric_ite (sameFabric_modClu ht) (sameFabric_ite (sameFabric_modClu ht) (sameFabric_ite ht ht))

theorem sameFabric_poisonAhead {qs : List Nat} {n : Nat} {E : Engine} (h : SameFabric s₀ s) : SameFabric s₀ (poisonAhead qs n s E) := by
  induction n generalizing s E with
  | zero => exact h
  | succ n ih =>
    unfold poisonAhead
    extract_lets w wr s1
    have h1 : SameFabric s₀ s1 := by
      refine sameFabric_ite ?_ h
      split
      · exact sameFabric_poisonRest h
      · exact h
    split
    · exact h1
    · exact ih h1

theorem sameFabric_poisonOutputs {c e : Nat} {qs : List Nat} (h : SameFabric s₀ s) : SameFabric s₀ (poisonOutputs s c e qs) := by
  unfold poisonOutputs
  extract_lets _ s1
  have h1 : SameFabric s₀ s1 := by
    unfold s1
    split
    · exact sameFabric_ite (sameFabric_poisonRest h) h
    · exact h
  exact sameFabric_poisonAhead h1

theorem sameFabric_stopArray {p c : Nat} {abort : Bool} {l : Nat} (h : SameFabric s₀ s) : SameFabric s₀ (stopArray p c abort s l) := by
  unfold stopArray
  extract_lets s1 _ s2 s3 s4
  have h1 : SameFabric s₀ s1 := sameFabric_foldl h fun _ _ => sameFabric_poisonOutputs
  have h2 : SameFabric s₀ s2 := sameFabric_foldl h1 fun _ _ => sameFabric_emit
  have h3 : SameFabric s₀ s3 := sameFabric_ite (sameFabric_foldl h2 fun _ _ => sameFabric_emit) h2
  have h4 : SameFabric s₀ s4 := sameFabric_ite (sameFabric_modClu h3) h3
  exact sameFabric_modClu h4

theorem sameFabric_stopCluster {p : Nat} {abort : Bool} {c : Nat} (h : SameFabric s₀ s) : SameFabric s₀ (stopCluster p abort s c) :=
  sameFabric_foldl (sameFabric_modClu (sameFabric_foldl h fun _ _ => sameFabric_stopArray)) fun _ _ ht =>
    sameFabric_ite (sameFabric_askStop (sameFabric_modCsp ht)) ht

/-! ### Cells, coding jobs and queue pairs of a partition that stops (R295, R341) -/

theorem sameFabric_dropCells {p : Nat} (h : SameFabric s₀ s) : SameFabric s₀ (dropCells s p) := sameFabric_foldl h fun _ _ ht => ht

theorem sameFabric_jobStart {pool n : Nat} {j : Job} (h : SameFabric s₀ s) : SameFabric s₀ (jobStart s pool n j) := by
  have hsoft {t : State} {p a len : Nat} (ht : SameFabric s₀ t) : SameFabric s₀ (noteSoft t p a len) := sameFabric_ite ht ht
  have hinst {t : State} {k : Nat} {f : Inst → Inst} (ht : SameFabric s₀ t) : SameFabric s₀ (modInst t k f) := ht
  unfold jobStart
  split
  · exact sameFabric_ite (hinst h) (hinst (hsoft (sameFabric_wrVa h)))
  · exact hinst h

theorem sameFabric_jobFeed {pool f : Nat} (h : SameFabric s₀ s) : SameFabric s₀ (jobFeed s pool f) := by
  induction f generalizing s with
  | zero => exact h
  | succ f ih =>
    unfold jobFeed
    split
    · exact h
    · extract_lets drop
      have hdrop : SameFabric s₀ (drop s) := h
      refine sameFabric_ite (ih (sameFabric_emit (sameFabric_wrVaP hdrop))) ?_
      split
      · exact h
      · exact sameFabric_ite h (ih (sameFabric_jobStart hdrop))

theorem sameFabric_dropPartJobs {p : Nat} (h : SameFabric s₀ s) : SameFabric s₀ (dropPartJobs s p) :=
  have hjobs : SameFabric s₀ (dropJobs s p) := h
  sameFabric_foldl hjobs fun _ _ => sameFabric_jobFeed

theorem sameFabric_qpFlush {n f : Nat} (h : SameFabric s₀ s) : SameFabric s₀ (qpFlush s n f) := by
  have hqp {t : State} {g : Qp → Qp} (ht : SameFabric s₀ t) : SameFabric s₀ (modQp t n g) := ht
  induction f generalizing s with
  | zero => exact h
  | succ f ih =>
    have hnext {g : Qp → Qp} {st op len : Nat} {rx : Bool} {imm : Option Nat} {id : List Word} :
        SameFabric s₀ (qpFlush (cqWrite (modQp s n g) n st op rx imm len id) n f) :=
      ih (sameFabric_ite (hqp h) (hqp (sameFabric_wrVa (hqp h))))
    unfold qpFlush
    refine sameFabric_ite h ?_
    dsimp only
    split
    · exact hnext
    · exact sameFabric_ite hnext (sameFabric_ite hnext h)

theorem sameFabric_dropQps {p : Nat} (h : SameFabric s₀ s) : SameFabric s₀ (dropQps s p) :=
  sameFabric_foldl h fun _ _ ht => show SameFabric s₀ (qpFlush _ _ _) from sameFabric_qpFlush ht

end Sys2Proof.Machine
end

section
/-! PROOFS. What the work of the fabric leaves as it was: everything but the fabric itself, HEALTH, partitions and reports; and what messages
on links leave of the fabric: everything but the links (R238, R252, R253). -/

namespace Sys2Proof.Machine

open Sys2Proof

variable {s₀ s t : State}

/-! ### States alike but for the fabric -/

/-- A state with the fabric, HEALTH, the partitions and the reports of another. -/
def withFabric (s t : State) : State :=
  { t with
    rings := s.rings, host := s.host, out := s.out, parts := s.parts, flagsAt := s.flagsAt, fab := s.fab, health := s.health }

/-- Only the fabric, HEALTH, partitions and reports have changed since s₀. -/
def OnlyFabric (s₀ s : State) : Prop := withFabric s₀ s = s₀

theorem OnlyFabric.refl (s : State) : OnlyFabric s s := rfl

theorem OnlyFabric.trans {u : State} (h : OnlyFabric s t) (k : OnlyFabric t u) : OnlyFabric s u := (congrArg (withFabric s) k).trans h

theorem OnlyFabric.hbm (h : OnlyFabric s₀ s) : s.hbm = s₀.hbm := congrArg (·.hbm) h

theorem OnlyFabric.time (h : OnlyFabric s₀ s) : s.time = s₀.time := congrArg (·.time) h

theorem OnlyFabric.pwr (h : OnlyFabric s₀ s) : s.pwr = s₀.pwr := congrArg (·.pwr) h

theorem OnlyReports.onlyFabric (h : OnlyReports s t) : OnlyFabric s t :=
  show withFabric s (withReports s t) = s from congrArg (withFabric s) (onlyReports_iff.1 h).1

theorem onlyFabric_ite {c : Prop} [Decidable c] {u : State} (ht : OnlyFabric s₀ t) (hu : OnlyFabric s₀ u) :
    OnlyFabric s₀ (if c then t else u) := by
  split <;> assumption

theorem onlyFabric_foldl {β : Type} {f : State → β → State} {l : List β} (h : OnlyFabric s₀ s)
    (hf : ∀ t x, OnlyFabric s₀ t → OnlyFabric s₀ (f t x)) : OnlyFabric s₀ (l.foldl f s) :=
  List.foldlRecOn (motive := OnlyFabric s₀) l f h fun t ht x _ => hf t x ht

theorem onlyFabric_fab {f : Fabric} (h : OnlyFabric s₀ s) : OnlyFabric s₀ { s with fab := f } := h
theorem onlyFabric_modPart {p : Nat} {f : Part → Part} (h : OnlyFabric s₀ s) : OnlyFabric s₀ (modPart s p f) := h
theorem onlyFabric_modLink {l : Nat} {f : Link → Link} (h : OnlyFabric s₀ s) : OnlyFabric s₀ (modLink s l f) := h
theorem onlyFabric_emit {o : Out} (h : OnlyFabric s₀ s) : OnlyFabric s₀ (emit s o) := h

theorem onlyFabric_evPool {code : Nat} {items : List (Nat × Nat)} (h : OnlyFabric s₀ s) : OnlyFabric s₀ (evPool s code items) :=
  h.trans (onlyReports_evPool _ _ _).onlyFabric

theorem onlyFabric_evPart {p code : Nat} {items : List (Nat × Nat)} (h : OnlyFabric s₀ s) : OnlyFabric s₀ (evPart s p code items) :=
  h.trans (onlyReports_evPart _ _ _ _).onlyFabric

/-! ### Disturbances and messages -/

theorem onlyFabric_disturb {p b : Nat} (h : OnlyFabric s₀ s) : OnlyFabric s₀ (disturb s p b) := by
  unfold disturb
  extract_lets
  split
  · exact h
  · exact onlyFabric_ite h (onlyFabric_ite (onlyFabric_evPart (onlyFabric_modPart h)) (onlyFabric_modPart h))

theorem onlyFabric_disturbLink {link b : Nat} (h : OnlyFabric s₀ s) : OnlyFabric s₀ (disturbLink s link b) := by
  unfold disturbLink
  refine onlyFabric_foldl h fun t p ht => ?_
  split
  · exact onlyFabric_ite (onlyFabric_disturb ht) ht
  · exact ht

theorem onlyFabric_linkTraffic {p link : Nat} (h : OnlyFabric s₀ s) : OnlyFabric s₀ (linkTraffic s p link) := by
  unfold linkTraffic
  refine onlyFabric_foldl h fun t q ht => onlyFabric_ite ht ?_
  split
  · exact onlyFabric_ite (onlyFabric_disturb ht) ht
  · exact ht

theorem onlyFabric_useLink {p link : Nat} (h : OnlyFabric s₀ s) : OnlyFabric s₀ (useLink s p link) :=
  onlyFabric_linkTraffic (onlyFabric_modPart h)

theorem onlyFabric_pumpMsgs {l : Nat} {ms : List Msg} {held : List Nat} (h : OnlyFabric s₀ s) : OnlyFabric s₀ (pumpMsgs l ms held s) := by
  induction ms generalizing held s with
  | nil => exact h
  | cons m ms ih => exact onlyFabric_ite (ih (onlyFabric_modLink h)) (ih (onlyFabric_emit (onlyFabric_modLink h)))

theorem onlyFabric_sendOn {path : Nat} {m : Msg} (h : OnlyFabric s₀ s) : OnlyFabric s₀ (sendOn s path m) :=
  onlyFabric_ite (onlyFabric_emit h) (onlyFabric_ite h (onlyFabric_pumpMsgs (onlyFabric_modLink (onlyFabric_modLink h))))

theorem onlyFabric_freeRx {l vc n : Nat} (h : OnlyFabric s₀ s) : OnlyFabric s₀ (freeRx s l vc n) :=
  onlyFabric_ite h (onlyFabric_emit (onlyFabric_modLink h))

theorem onlyFabric_arrived {via vc n p : Nat} (h : OnlyFabric s₀ s) : OnlyFabric s₀ (arrived s via vc n p) :=
  onlyFabric_ite (onlyFabric_linkTraffic (onlyFabric_freeRx h)) h

/-! ### What messages leave of the fabric -/

/-- The fabric but for its links. -/
def fabRest (s : State) : Fabric := { s.fab with links := [] }

theorem fabRest_congr (h : t.fab = s.fab) : fabRest t = fabRest s := by rw [fabRest, fabRest, h]

@[simp] theorem fabRest_modLink (s : State) (l : Nat) (f : Link → Link) : fabRest (modLink s l f) = fabRest s := rfl

theorem fabRest_pumpMsgs (l : Nat) (ms : List Msg) (held : List Nat) (s : State) : fabRest (pumpMsgs l ms held s) = fabRest s := by
  induction ms generalizing held s with
  | nil => rfl
  | cons m ms ih =>
    unfold pumpMsgs
    split
    · exact ih _ _
    · exact ih _ _

@[simp] theorem fabRest_sendOn (s : State) (path : Nat) (m : Msg) : fabRest (sendOn s path m) = fabRest s := by
  unfold sendOn
  split
  · rfl
  · split
    · rfl
    · exact fabRest_pumpMsgs _ _ _ _

@[simp] theorem fabRest_freeRx (s : State) (l vc n : Nat) : fabRest (freeRx s l vc n) = fabRest s := by
  unfold freeRx
  extract_lets freed
  split <;> rfl

@[simp] theorem fabRest_arrived (s : State) (via vc n p : Nat) : fabRest (arrived s via vc n p) = fabRest s := by
  unfold arrived
  split
  · exact (fabRest_congr (fab_linkTraffic _ _ _)).trans (fabRest_freeRx _ _ _ _)
  · rfl

end Sys2Proof.Machine
end

section
/-! PROOFS. What messages and the stop of partitions leave of the links: everything but the flits, credits and messages of the sender
(R252, R253, R341). A link without a canonical table reads back what was written to it where it is not in the reset state, so the statements
speak of a canonical table, of a link that is not down, or of messages that go to links that are up. -/

namespace Sys2Proof.Machine

open Sys2Proof

variable {s₀ s t u : State} {l : Nat}

/-! ### The state of a link but for its sender -/

/-- A link but for what its sender counts and holds. -/
def quiet (k : Link) : Link := { k with txSeq := 0, txCtr := 0, replay := [], txUsed := [], txq := [] }

/-- A change of a link that leaves all but the sender. -/
abbrev Sends (f : Link → Link) : Prop := ∀ k, quiet (f k) = quiet k

theorem st_of_quiet {k k' : Link} (h : quiet k' = quiet k) : k'.st = k.st := congrArg (·.st) h

theorem ne_default_of_st {k : Link} (h : k.st ≠ 0) : k ≠ {} := fun hk => h (hk ▸ rfl)

/-- The links' table is canonical. -/
abbrev LinksWf (s : State) : Prop := tabWf {} s.fab.links = true

/-- A change of a link is read back, where the table is canonical or the link is not down afterwards. -/
theorem getLink_modLink {f : Link → Link} (h : LinksWf s ∨ (f (getLink s l)).st ≠ 0) : getLink (modLink s l f) l = f (getLink s l) := by
  obtain h | h := h
  · exact tabGet_tabSet_wf _ h l _
  · exact getLink_modLink_self _ l f (ne_default_of_st h)

theorem linksWf_modLink {f : Link → Link} (h : LinksWf s) : LinksWf (modLink s l f) := tabWf_tabMod _ _ _ h

/-! ### Messages on one link -/

/-- From s to t only the sender of link l has worked. -/
structure SendsOn (l : Nat) (s t : State) : Prop where
  wf : LinksWf s → LinksWf t
  other : ∀ j, j ≠ l → getLink t j = getLink s j
  own : LinksWf s ∨ (getLink s l).st ≠ 0 → quiet (getLink t l) = quiet (getLink s l)

theorem SendsOn.refl (l : Nat) (s : State) : SendsOn l s s := ⟨id, fun _ _ => rfl, fun _ => rfl⟩

theorem SendsOn.sameFabric (h : SendsOn l s t) (hf : u.fab = t.fab) : SendsOn l s u := by
  have hlinks : u.fab.links = t.fab.links := congrArg (·.links) hf
  obtain ⟨hwf, hother, hown⟩ := h
  refine ⟨?_, ?_, ?_⟩ <;> simpa only [LinksWf, getLink, hlinks]

theorem SendsOn.modLink {f : Link → Link} (h : SendsOn l s t) (hf : Sends f := by exact fun _ => rfl) : SendsOn l s (modLink t l f) := by
  refine ⟨linksWf_modLink ∘ h.wf, fun j hj => ?_, fun hs => ?_⟩
  · exact (getLink_modLink_other _ f hj.symm).trans (h.other j hj)
  · have ht : LinksWf t ∨ (f (getLink t l)).st ≠ 0 := by
      rw [st_of_quiet (hf _), st_of_quiet (h.own hs)]
      exact hs.imp_left h.wf
    rw [getLink_modLink ht, hf, h.own hs]

theorem SendsOn.pumpMsgs {ms : List Msg} {held : List Nat} (h : SendsOn l s t) : SendsOn l s (pumpMsgs l ms held t) := by
  induction ms generalizing held t with
  | nil => exact h
  | cons m ms ih =>
    unfold Machine.pumpMsgs
    split
    · exact ih h.modLink
    · exact ih (h.modLink.sameFabric rfl)

theorem SendsOn.pumpLink (h : SendsOn l s t) : SendsOn l s (pumpLink t l) := h.modLink.pumpMsgs

theorem sendsOn_sendOn (hl : l < 24) (s : State) (m : Msg) : SendsOn l s (sendOn s l m) := by
  unfold sendOn
  rw [if_neg (by omega), if_neg (by omega)]
  exact (SendsOn.refl l s).modLink.pumpLink

/-! ### Messages on links that are up -/

/-- Since s₀ only senders of links that are up have worked. -/
structure OnlyTraffic (s₀ s : State) : Prop where
  wf : LinksWf s₀ → LinksWf s
  link : ∀ j, quiet (getLink s j) = quiet (getLink s₀ j)

theorem OnlyTraffic.refl (s : State) : OnlyTraffic s s := ⟨id, fun _ => rfl⟩

theorem OnlyTraffic.trans (h : OnlyTraffic s t) (k : OnlyTraffic t u) : OnlyTraffic s u :=
  ⟨k.wf ∘ h.wf, fun j => (k.link j).trans (h.link j)⟩

theorem OnlyTraffic.sameLinks (h : OnlyTraffic s₀ s) (hf : t.fab.links = s.fab.links) : OnlyTraffic s₀ t := by
  obtain ⟨hwf, hlink⟩ := h
  constructor <;> simpa only [LinksWf, getLink, hf]

theorem OnlyTraffic.sameFabric (h : OnlyTraffic s₀ s) (hf : t.fab = s.fab) : OnlyTraffic s₀ t := h.sameLinks (congrArg (·.links) hf)

theorem SendsOn.onlyTraffic (h : SendsOn l s t) (hup : linkAlive s l = true) : OnlyTraffic s t := by
  refine ⟨h.wf, fun j => ?_⟩
  by_cases hj : j = l
  · subst hj
    refine h.own (.inr fun h0 => ?_)
    simp [linkAlive, h0] at hup
  · rw [h.other j hj]

/-- A path leads to this chip, nowhere, or over a link that is up. -/
def PathUp (s : State) (path : Nat) : Prop := 24 ≤ path ∨ linkAlive s path = true

theorem onlyTraffic_sendOn {path : Nat} (hpath : PathUp s path) (m : Msg) : OnlyTraffic s (sendOn s path m) := by
  by_cases hp : 24 ≤ path
  · unfold sendOn
    split
    · exact (OnlyTraffic.refl s).sameLinks rfl
    · rw [if_pos (by omega)]
      exact .refl s
  · exact (sendsOn_sendOn (by omega) s m).onlyTraffic (hpath.resolve_left hp)

theorem onlyTraffic_ite {c : Prop} [Decidable c] (ht : OnlyTraffic s₀ t) (hu : OnlyTraffic s₀ u) :
    OnlyTraffic s₀ (if c then t else u) := by
  split <;> assumption

theorem onlyTraffic_foldl {β : Type} {f : State → β → State} {xs : List β} (h : OnlyTraffic s₀ s)
    (hf : ∀ t x, OnlyTraffic s₀ t → OnlyTraffic s₀ (f t x)) : OnlyTraffic s₀ (xs.foldl f s) :=
  List.foldlRecOn (motive := OnlyTraffic s₀) xs f h fun t ht x _ => hf t x ht

/-! ### Paths (R271) -/

theorem bestPath_mem (line : Nat) (ps : List Nat) : bestPath line ps = 25 ∨ bestPath line ps ∈ ps := by
  induction ps with
  | nil => exact .inl rfl
  | cons a ps ih =>
    cases ps with
    | nil => exact .inr List.mem_cons_self
    | cons b ps =>
      unfold bestPath
      extract_lets r
      split
      · exact .inr List.mem_cons_self
      · exact ih.imp_right (List.mem_cons_of_mem a)

theorem pathUp_of_mem_pathsTo {node path : Nat} (h : path ∈ pathsTo s node) : PathUp s path := by
  unfold pathsTo at h
  split at h
  · exact .inl (List.mem_singleton.1 h).ge
  · refine .inr ?_
    split at h
    · simp only [planeLinks, List.mem_map, List.mem_filter, Bool.and_eq_true] at h
      obtain ⟨i, ⟨-, hup, -⟩, rfl⟩ := h
      exact hup
    · unfold directLinks at h
      split at h
      · simp only [List.mem_filter, Bool.and_eq_true] at h
        exact h.2.1.1
      · cases h

theorem pathUp_bestPath (s : State) (line node : Nat) : PathUp s (bestPath line (pathsTo s node)) := by
  obtain h | h := bestPath_mem line (pathsTo s node)
  · exact .inl (by omega)
  · exact pathUp_of_mem_pathsTo h

theorem onlyTraffic_sendCtl {node : Nat} {m : Msg} (h : OnlyTraffic s₀ s) : OnlyTraffic s₀ (sendCtl s node m) :=
  h.trans (onlyTraffic_sendOn (pathUp_bestPath s 0 node) m)

/-! ### Links that go and come (R271, R285, R286) -/

/-- A link that is up in one of two states whose links differ only in their senders is up in the other. -/
theorem OnlyTraffic.linkAlive (h : OnlyTraffic s t) (l : Nat) : linkAlive t l = linkAlive s l := by
  rw [Machine.linkAlive, Machine.linkAlive, st_of_quiet (h.link l)]

theorem PathUp.of_links {path : Nat} (h : PathUp s path) (ht : t.fab.links = s.fab.links) : PathUp t path := by
  unfold PathUp Machine.linkAlive getLink at h ⊢
  rw [ht]
  exact h

theorem onlyTraffic_checkReach {node : Nat} (h : OnlyTraffic s₀ s) : OnlyTraffic s₀ (checkReach s node) :=
  onlyTraffic_ite (onlyTraffic_ite h (h.sameLinks (congrArg (·.links) (fab_evPool _ _ _)))) (h.sameLinks rfl)

theorem onlyTraffic_repath (h : OnlyTraffic s₀ s) : OnlyTraffic s₀ (repath s) := by
  unfold repath
  refine onlyTraffic_foldl h fun t o ht => ?_
  extract_lets ps np _ v
  have hv : OnlyTraffic s₀ v := ht.sameLinks rfl
  have hfab : (useLink v o.req.part.val np).fab = v.fab := fab_useLink _ _ _
  have hpath : PathUp (useLink v o.req.part.val np) np :=
    (pathUp_bestPath t (o.req.addr.toNat / 64) o.dst).of_links (congrArg (·.links) hfab)
  exact onlyTraffic_ite ht (onlyTraffic_ite hv ((hv.sameFabric hfab).trans (onlyTraffic_sendOn hpath _)))

theorem onlyTraffic_reachAll (h : OnlyTraffic s₀ s) : OnlyTraffic s₀ (reachAll s) :=
  onlyTraffic_foldl h fun _ _ ht => onlyTraffic_ite (onlyTraffic_ite (onlyTraffic_checkReach ht) ht) (ht.sameLinks rfl)

/-- LINK_DOWN leaves of the links what it takes the one down leaves, and of the others all but their senders. -/
theorem onlyTraffic_linkLost (s : State) (l st : Nat) : OnlyTraffic (modLink s l (fun k => linkDown k st)) (linkLost s l st) := by
  unfold linkLost
  extract_lets _ _ d _ _ e
  have hf : OnlyTraffic d e := (OnlyTraffic.refl d).sameFabric (fab_disturbLink d l 1)
  exact onlyTraffic_ite (.refl d) (onlyTraffic_foldl (onlyTraffic_repath hf) fun _ _ => onlyTraffic_checkReach)

/-! ### The stop of partitions (R341, R420) -/

/-- Since s₀ no link but what its sender does has changed, where the table was canonical or the link not down. -/
structure LinksStand (s₀ s : State) : Prop where
  wf : LinksWf s₀ → LinksWf s
  link : ∀ j, LinksWf s₀ ∨ (getLink s₀ j).st ≠ 0 → quiet (getLink s j) = quiet (getLink s₀ j)

theorem OnlyTraffic.linksStand (h : OnlyTraffic s t) : LinksStand s t := ⟨h.wf, fun j _ => h.link j⟩

theorem LinksStand.trans (h : LinksStand s t) (k : LinksStand t u) : LinksStand s u := by
  refine ⟨k.wf ∘ h.wf, fun j hj => (k.link j ?_).trans (h.link j hj)⟩
  rw [st_of_quiet (h.link j hj)]
  exact hj.imp_left h.wf

theorem LinksStand.sameLinks (h : LinksStand s₀ s) (hf : t.fab.links = s.fab.links) : LinksStand s₀ t :=
  h.trans ((OnlyTraffic.refl s).sameLinks hf).linksStand

theorem LinksStand.sameFabric (h : LinksStand s₀ s) (hf : SameFabric s t) : LinksStand s₀ t := h.sameLinks (congrArg (·.links) hf)

theorem linksStand_ite {c : Prop} [Decidable c] (ht : LinksStand s₀ t) (hu : LinksStand s₀ u) : LinksStand s₀ (if c then t else u) := by
  split <;> assumption

theorem linksStand_foldl {β : Type} {f : State → β → State} {xs : List β} (h : LinksStand s₀ s)
    (hf : ∀ t x, LinksStand s₀ t → LinksStand s₀ (f t x)) : LinksStand s₀ (xs.foldl f s) :=
  List.foldlRecOn (motive := LinksStand s₀) xs f h fun t ht x _ => hf t x ht

/-- A change of every value that leaves the default is read back, where the table is canonical or the value does not become the default. -/
theorem tabGet_tabMapV_eq {α : Type} [DecidableEq α] {d : α} {f : α → α} (hd : f d = d) {T : Tab α} {i : Nat}
    (h : tabWf d T = true ∨ f (tabGet d T i) ≠ d) : tabGet d (tabMapV d T f) i = f (tabGet d T i) := by
  by_cases hne : f (tabGet d T i) = d
  · obtain hg | hg := tabGet_tabMapV f (h.resolve_right (not_not_intro hne)) i
    · exact hg.trans hne.symm
    · exact hg
  · clear h
    induction T with
    | nil => exact absurd hd hne
    | cons e T ih =>
      obtain ⟨k, v⟩ := e
      by_cases hk : k = i
      · subst hk
        simp only [tabGet, if_true] at hne ⊢
        simp [tabMapV, tabGet, hne]
      · simp only [tabGet, if_neg hk] at hne ⊢
        have hi := ih hne
        simp only [tabMapV, List.map_cons, List.filter_cons] at hi ⊢
        split <;> simpa [tabGet, hk] using hi

/-- A link without the requests of a partition that wait on it. -/
def withoutUnsent (s : State) (p : Nat) (k : Link) : Link :=
  { k with txq := k.txq.filter (fun m => match m with
    | .request q => !ownReqOf s p q
    | _ => true) }

theorem links_dropUnsent (s : State) (p : Nat) : (dropUnsent s p).fab.links = tabMapV {} s.fab.links (withoutUnsent s p) := rfl

theorem sends_withoutUnsent (s : State) (p : Nat) : Sends (withoutUnsent s p) := fun _ => rfl

theorem linksStand_dropUnsent {p : Nat} (h : LinksStand s₀ s) : LinksStand s₀ (dropUnsent s p) := by
  refine h.trans ⟨fun hs => ?_, fun j hj => ?_⟩
  · rw [LinksWf, links_dropUnsent]
    exact tabWf_tabMapV _ hs
  · have hread : tabGet {} (tabMapV {} s.fab.links (withoutUnsent s p)) j = withoutUnsent s p (getLink s j) :=
      tabGet_tabMapV_eq rfl (hj.imp_right ne_default_of_st)
    rw [getLink, links_dropUnsent, hread, sends_withoutUnsent]

theorem linksStand_dropRequests {p : Nat} (h : LinksStand s₀ s) : LinksStand s₀ (dropRequests s p) :=
  (linksStand_dropUnsent h).sameLinks rfl

theorem linksStand_stopWork {p : Nat} {abort : Bool} (h : LinksStand s₀ s) : LinksStand s₀ (stopWork s p abort) := by
  unfold stopWork
  extract_lets s1 s2 s3
  have h2 : SameFabric s1 s2 := sameFabric_foldl (.refl s1) fun _ _ => sameFabric_stopCluster
  have h3 : LinksStand s₀ s3 := (h.sameFabric (t := s1) rfl).sameFabric (show s3.fab = s1.fab from h2)
  exact (linksStand_dropRequests h3).sameFabric (sameFabric_dropQps (sameFabric_dropPartJobs (sameFabric_dropCells (.refl _))))

theorem linksStand_stopPart {p : Nat} {abort : Bool} (h : LinksStand s₀ s) : LinksStand s₀ (stopPart s p abort) :=
  (linksStand_stopWork h).sameFabric (fab_completeWhere _ _ _)

theorem linksStand_dropExport {p ent : Nat} (h : LinksStand s₀ s) : LinksStand s₀ (dropExport s p ent) :=
  linksStand_foldl (h.sameLinks rfl) fun _ _ ht => ht.sameLinks rfl

theorem linksStand_closeExports (h : LinksStand s₀ s) : LinksStand s₀ (closeExports s) :=
  linksStand_foldl h fun _ _ ht => linksStand_foldl ht fun _ _ hu =>
    linksStand_ite hu ((linksStand_dropExport hu).sameFabric (fab_completeWait _ _ _))

theorem linksStand_peerReset {node part : Nat} {gen : BitVec 16} (h : LinksStand s₀ s) : LinksStand s₀ (peerReset s node part gen) :=
  linksStand_closeExports (h.sameLinks rfl)

theorem linksStand_sendNotice {p : Nat} {gen : BitVec 16} (h : LinksStand s₀ s) : LinksStand s₀ (sendNotice s p gen) := by
  unfold sendNotice
  extract_lets nodes s1 s2 s3
  have h1 : LinksStand s₀ s1 := linksStand_ite (linksStand_peerReset h) h
  exact linksStand_foldl (h1.sameLinks rfl) fun _ _ ht => ht.trans (onlyTraffic_sendCtl (.refl _)).linksStand

theorem linksStand_noticeCheck {p : Nat} {late : Bool} (h : LinksStand s₀ s) : LinksStand s₀ (noticeCheck s p late) := by
  unfold noticeCheck
  extract_lets open_ s1
  exact linksStand_ite h (linksStand_ite (h.sameLinks rfl) ((h.sameLinks (t := s1) rfl).sameFabric (fab_completeWait _ _ _)))

theorem linksStand_advanceGen {p : Nat} {g : BitVec 16} (h : LinksStand s₀ s) : LinksStand s₀ (advanceGen s p g) := by
  unfold advanceGen
  exact linksStand_noticeCheck (linksStand_sendNotice (h.sameLinks rfl))

theorem linksStand_resetPart {p : Nat} {abort : Bool} (h : LinksStand s₀ s) : LinksStand s₀ (resetPart s p abort) := by
  have hstop := linksStand_stopPart (p := p) (abort := abort) h
  unfold resetPart
  generalize stopPart s p abort = t at hstop
  exact linksStand_ite (hstop.sameLinks rfl) (linksStand_advanceGen hstop)

theorem linksStand_faultStop {p cause c a : Nat} (h : LinksStand s₀ s) : LinksStand s₀ (faultStop s p cause c a) := by
  unfold faultStop
  exact linksStand_resetPart ((h.sameFabric (fab_evPart _ _ _ _)).sameFabric (fab_evPool _ _ _))

theorem linksStand_stopCut {node : Nat} (h : LinksStand s₀ s) : LinksStand s₀ (stopCut s node) :=
  linksStand_foldl h fun _ _ ht => linksStand_faultStop (ht.sameLinks rfl)

/-- A fault that takes a link down, and the partitions that it stops, leave of the links all but their senders. -/
theorem linksStand_linkFailed (s : State) (l st : Nat) : LinksStand (modLink s l (fun k => linkDown k st)) (linkFailed s l st) := by
  unfold linkFailed
  exact linksStand_foldl (onlyTraffic_linkLost s l st).linksStand fun _ _ => linksStand_stopCut

/-- What the fault leaves of the link itself. -/
theorem getLink_linkFailed {st : Nat} (h : LinksWf s ∨ st ≠ 0) :
    quiet (getLink (linkFailed s l st) l) = quiet (linkDown (getLink s l) st) := by
  have hget : getLink (modLink s l (fun k => linkDown k st)) l = linkDown (getLink s l) st :=
    getLink_modLink (f := fun k => linkDown k st) h
  rw [(linksStand_linkFailed s l st).link l ?_, hget]
  rw [hget]
  exact h.imp_left linksWf_modLink

end Sys2Proof.Machine
end

section
/-! PROOFS. O36: training attempts, their end and their failures (R252 to R256, R259, R263, R264). An attempt works on one link, so every
stage leads from a state with that link written to another such state. -/

namespace Sys2Proof.Machine

open Sys2Proof

variable {s t : State} {l : Nat} {k : Link} {o : Training}

/-! ### A state with one link written -/

/-- A state with one of its links as given. -/
def withLinkAs (s : State) (l : Nat) (k : Link) : State := modLink s l (fun _ => k)

theorem modLink_withLinkAs (hk : k ≠ {}) (f : Link → Link) : modLink (withLinkAs s l k) l f = withLinkAs s l (f k) :=
  congrArg (fun T => { s with fab := { s.fab with links := T } }) (tabMod_tabMod ({} : Link) s.fab.links l (fun _ => k) f hk)

theorem getLink_withLinkAs (hk : k ≠ {}) : getLink (withLinkAs s l k) l = k := getLink_modLink_self s l (fun _ => k) hk

theorem getLink_withLinkAs_other {j : Nat} (hj : j ≠ l) : getLink (withLinkAs s l k) j = getLink s j :=
  getLink_modLink_other s _ hj.symm

/-! ### The stages of an attempt (R254) -/

theorem inStage_withLinkAs (hk : k ≠ {}) (n : Nat) : inStage (withLinkAs s l k) l n = (decide (k.st = 1) && decide (k.stage = n)) := by
  rw [inStage, getLink_withLinkAs hk]

/-- A link whose attempt has come to a stage. -/
def atStage (s : State) (k : Link) (n : Nat) : Link := { k with stage := n, stageAt := s.time.now }

theorem enterStage_withLinkAs (hk : k ≠ {}) (n : Nat) :
    enterStage (withLinkAs s l k) l n = withLinkAs s l (atStage s k n) := modLink_withLinkAs hk _

theorem inStage_eq_false_of_st (h : (getLink s l).st ≠ 1) (n : Nat) : inStage s l n = false := by simp [inStage, h]

/-- A link right after the start of an attempt. -/
def attempted (s : State) (k : Link) : Link :=
  { k with
    st := 1, stage := 0, attemptAt := s.time.now, stageAt := s.time.now, heardAt := s.time.now, prk := none
    disAct := k.laneDis, widthAct := k.widthReq, widthAt := 0, widthNow := false, partnerW := none }

theorem attempted_ne (s : State) (k : Link) : attempted s k ≠ {} := ne_default_of_st one_ne_zero

/-- A link whose attempt has passed LOCK with the lanes m. -/
def lockedAs (s : State) (k : Link) (m : BitVec 4) : Link := atStage s { k with locked := m } 3

/-- A link whose attempt has met a partner. -/
def metAs (k : Link) (i : Ident) : Link := { k with partner := i.partner, node := i.node.toNat, isSwitch := i.isSwitch, met := true }

/-- A link whose attempt has passed IDENT. -/
def identifiedAs (s : State) (k : Link) (i : Ident) : Link :=
  atStage s { metAs k i with leader := decide (s.fab.chipId.toNat < i.partner.toNat) } 4

/-- A link whose attempt has passed MEASURE too. -/
def measuredAs (s : State) (k : Link) (i : Ident) (d : BitVec 32) : Link := atStage s { identifiedAs s k i with delayPs := d } 5

/-- The partner ends the attempt: it has this chip's ID, or one of the two is outside the rack (R256). -/
def Foreign (s : State) (i : Ident) : Prop :=
  64 ≤ ownNode s ∨ (!i.isSwitch) = true ∧ (i.partner = s.fab.chipId ∨ 64 ≤ i.node.toNat)

theorem trainLock_withLinkAs {m : BitVec 4} (hk : k.st = 1) (hm : o.locked = some m) (hfree : (laneSet { k with locked := m }).isSome = true) :
    trainLock (withLinkAs s l k) l o = withLinkAs s l (lockedAs s k m) := by
  have hne : k ≠ {} := ne_default_of_st (by omega)
  have hne' : ({ k with locked := m } : Link) ≠ {} := ne_default_of_st (show k.st ≠ 0 by omega)
  unfold trainLock
  simp only [hm]
  rw [modLink_withLinkAs hne, getLink_withLinkAs hne', if_neg (by simp [Option.isSome_iff_ne_none.1 hfree]), enterStage_withLinkAs hne']
  rfl

theorem trainIdent_withLinkAs {i : Ident} (hk : k.st = 1) (hi : o.ident = some i) (hpass : ¬ Foreign s i) :
    trainIdent (withLinkAs s l k) l o = withLinkAs s l (identifiedAs s k i) := by
  have hne : k ≠ {} := ne_default_of_st (by omega)
  have hst : ∀ x : Link, x.st = k.st → x ≠ {} := fun x hx => ne_default_of_st (by omega)
  unfold trainIdent
  simp only [hi]
  rw [modLink_withLinkAs hne, if_neg (by exact hpass), modLink_withLinkAs (by exact hst _ rfl), enterStage_withLinkAs (by exact hst _ rfl)]
  rfl

theorem trainIdent_of_foreign {i : Ident} (hk : k.st = 1) (hi : o.ident = some i) (hforeign : Foreign s i) :
    trainIdent (withLinkAs s l k) l o = trainFail (evPool (withLinkAs s l (metAs k i)) 0x0502 [(1, l)]) l := by
  have hne : k ≠ {} := ne_default_of_st (by omega)
  unfold trainIdent
  simp only [hi]
  rw [modLink_withLinkAs hne]
  exact if_pos hforeign

theorem trainMeasure_withLinkAs {d : BitVec 32} (hk : k.st = 1) (hd : o.delayPs = some d) :
    trainMeasure (withLinkAs s l k) l o = withLinkAs s l (atStage s { k with delayPs := d } 5) := by
  have hst : ∀ x : Link, x.st = k.st → x ≠ {} := fun x hx => ne_default_of_st (by omega)
  unfold trainMeasure
  simp only [hd]
  rw [modLink_withLinkAs (hst k rfl), enterStage_withLinkAs (by exact hst _ rfl)]

/-! ### The end of an attempt -/

/-- A link whose attempt has failed; e is when the pool manager last heard of it (R255). -/
def failedAs (s : State) (k : Link) (e : Option Nat) : Link :=
  { k with st := 2, failures := k.failures + 1, nextTry := s.time.now + backoff (k.failures + 1), lastFailEvent := e }

theorem trainFail_effect (s : State) (l : Nat) :
    (∃ e, getLink (trainFail s l) l = failedAs s (getLink s l) e) ∧ ∀ j, j ≠ l → getLink (trainFail s l) j = getLink s j := by
  unfold trainFail
  extract_lets k n tell s1
  have hfab : (if tell = true then evPool s1 0x0501 [(1, l), (1, k.stage)] else s1).fab = s1.fab :=
    sameFabric_ite (fab_evPool _ _ _) (.refl s1)
  have hlink : ∀ j, getLink (if tell = true then evPool s1 0x0501 [(1, l), (1, k.stage)] else s1) j = getLink s1 j :=
    SameFabric.getLink hfab
  refine ⟨⟨if tell then some s.time.now else k.lastFailEvent, (hlink l).trans ?_⟩, fun j hj => (hlink j).trans ?_⟩
  · exact getLink_modLink_self s l _ (ne_default_of_st two_ne_zero)
  · exact getLink_modLink_other s _ hj.symm

/-- SECURE (R264): a partner that authenticates gives the link its key; one that fails leaves it down until SERVICE. -/
theorem trainSecure_effect {ok : Bool} (hk : k.st = 1) (ha : o.auth = some ok) :
    (∃ t, trainSecure (withLinkAs s l k) l o = t ∧ ∀ j, j ≠ l → getLink t j = getLink s j) ∧
    getLink (trainSecure (withLinkAs s l k) l o) l =
      if ok && s.sec.identKey then
        { k with prk := some (Config.freeValue 384 s.fresh), txEpoch := 0, rxEpoch := 0, keyAt := s.time.now }
      else { k with st := 0, authFail := true } := by
  have hne : k ≠ {} := ne_default_of_st (by omega)
  unfold trainSecure
  simp only [ha, show (withLinkAs s l k).sec = s.sec from rfl]
  split
  · refine ⟨⟨_, rfl, fun j hj => ?_⟩, ?_⟩
    · exact (getLink_modLink_other _ _ hj.symm).trans (getLink_withLinkAs_other hj)
    · have hget : getLink (takeFree (withLinkAs s l k) 384).2 l = k := getLink_withLinkAs hne
      refine (getLink_modLink_self _ l _ (ne_default_of_st ?_)).trans ?_
      · simp only [hget]
        omega
      · simp only [hget]
        rfl
  · have hfail : ({ k with st := 0, authFail := true } : Link) ≠ {} := fun h => Bool.noConfusion (congrArg (·.authFail) h)
    rw [modLink_withLinkAs hne]
    refine ⟨⟨_, rfl, fun j hj => ?_⟩, ?_⟩
    · exact (SameFabric.getLink (fab_evPool _ _ _) j).trans (getLink_withLinkAs_other hj)
    · exact (SameFabric.getLink (fab_evPool _ _ _) l).trans (getLink_withLinkAs hfail)

/-! ### A whole attempt -/

/-- An attempt that no partner answers stays in DETECT. -/
theorem train_of_unanswered (hk : k.st = 1) (h0 : k.stage = 0) (ho : o.answered = false) : train (withLinkAs s l k) l o = withLinkAs s l k := by
  have hne : k ≠ {} := ne_default_of_st (by omega)
  simp [train, inStage_withLinkAs hne, h0, ho]

/-- The work of DETECT, EQUALISE and LOCK is done: lanes m have locked, and enough of them are free. -/
structure Locks (k : Link) (o : Training) (m : BitVec 4) : Prop where
  answered : o.answered = true
  equalised : o.equalised = true
  locked : o.locked = some m
  free : (laneSet { k with locked := m }).isSome = true

/-- The stages of an attempt through LOCK. -/
def trainLow (s : State) (l : Nat) (o : Training) : State :=
  let s := if inStage s l 0 && o.answered then enterStage s l 1 else s
  let s := if inStage s l 1 && o.equalised then enterStage s l 2 else s
  if inStage s l 2 then trainLock s l o else s

/-- The stages of an attempt from IDENT on. -/
def trainOn (s : State) (l : Nat) (o : Training) : State :=
  let s := if inStage s l 3 then trainIdent s l o else s
  let s := if inStage s l 4 then trainMeasure s l o else s
  if inStage s l 5 && (getLink s l).prk.isNone then trainSecure s l o else s

theorem train_eq (s : State) (l : Nat) (o : Training) : train s l o = trainOn (trainLow s l o) l o := rfl

theorem trainLow_of_locks {m : BitVec 4} (hk : k.st = 1) (h0 : k.stage = 0) (ho : Locks k o m) :
    trainLow (withLinkAs s l k) l o = withLinkAs s l (lockedAs s k m) := by
  obtain ⟨hanswered, hequalised, hlocked, hfree⟩ := ho
  have hst : ∀ x : Link, x.st = k.st → x ≠ {} := fun x hx => ne_default_of_st (by omega)
  unfold trainLow
  extract_lets a b
  have ha : a = withLinkAs s l (atStage s k 1) :=
    (if_pos (by simp [inStage_withLinkAs (hst k rfl), hk, h0, hanswered])).trans (enterStage_withLinkAs (hst k rfl) 1)
  have hb : b = withLinkAs s l (atStage s k 2) := by
    unfold b
    rw [ha, inStage_withLinkAs (hst (atStage s k 1) rfl), enterStage_withLinkAs (hst (atStage s k 1) rfl)]
    exact if_pos (by simp [atStage, hk, hequalised])
  rw [hb, inStage_withLinkAs (hst (atStage s k 2) rfl), trainLock_withLinkAs (k := atStage s k 2) hk hlocked hfree]
  exact if_pos (by simp [atStage, hk])

/-- An attempt at IDENT that meets a partner of this rack comes to SECURE. -/
theorem trainOn_of_partner {i : Ident} {d : BitVec 32} (hk : k.st = 1) (h3 : k.stage = 3) (hprk : k.prk = none)
    (hi : o.ident = some i) (hpass : ¬ Foreign s i) (hd : o.delayPs = some d) :
    trainOn (withLinkAs s l k) l o = trainSecure (withLinkAs s l (measuredAs s k i d)) l o := by
  have hst : ∀ x : Link, x.st = k.st → x ≠ {} := fun x hx => ne_default_of_st (by omega)
  unfold trainOn
  extract_lets a b
  have ha : a = withLinkAs s l (identifiedAs s k i) :=
    (if_pos (by simp [inStage_withLinkAs (hst k rfl), hk, h3])).trans (trainIdent_withLinkAs hk hi hpass)
  have hb : b = withLinkAs s l (measuredAs s k i d) := by
    unfold b
    rw [ha, inStage_withLinkAs (hst (identifiedAs s k i) rfl), trainMeasure_withLinkAs (k := identifiedAs s k i) hk hd]
    exact if_pos (by simp [identifiedAs, metAs, atStage, hk])
  rw [hb]
  refine if_pos ?_
  rw [inStage_withLinkAs (hst (measuredAs s k i d) rfl), getLink_withLinkAs (hst (measuredAs s k i d) rfl)]
  simp [measuredAs, metAs, identifiedAs, atStage, hk, hprk]

/-- An attempt at IDENT that meets this chip's own ID, or a node outside the rack, fails. -/
theorem trainOn_of_foreign {i : Ident} (hk : k.st = 1) (h3 : k.stage = 3) (hi : o.ident = some i) (hforeign : Foreign s i) :
    trainOn (withLinkAs s l k) l o = trainFail (evPool (withLinkAs s l (metAs k i)) 0x0502 [(1, l)]) l := by
  have hident := trainIdent_of_foreign (l := l) hk hi hforeign
  obtain ⟨⟨e, hfail⟩, -⟩ := trainFail_effect (evPool (withLinkAs s l (metAs k i)) 0x0502 [(1, l)]) l
  have hout : ∀ n, inStage (trainFail (evPool (withLinkAs s l (metAs k i)) 0x0502 [(1, l)]) l) l n = false :=
    inStage_eq_false_of_st (by rw [hfail]; exact (by decide : (2 : Nat) ≠ 1))
  have hin : inStage (withLinkAs s l k) l 3 = true := by simp [inStage_withLinkAs (ne_default_of_st (k := k) (by omega)), hk, h3]
  simp [trainOn, hin, hident, hout]

/-! ### Free lanes (R259, R260) -/

theorem mem_lanesFree {k : Link} {j : Nat} :
    j ∈ lanesFree k ↔ j < 4 ∧ k.locked.getLsbD j = true ∧ k.lanesRet.getLsbD j = false ∧ k.disAct.getLsbD j = false := by
  simp [lanesFree, and_assoc]

theorem laneSet_isSome (h : lanesFree k ≠ []) : (laneSet k).isSome = true := by
  obtain ⟨j, r, hf⟩ := List.exists_cons_of_ne_nil h
  unfold laneSet
  extract_lets f has req
  rw [show f = j :: r from hf]
  split
  · rfl
  · split
    · rfl
    · split <;> rfl

/-- A lane that has locked and is neither retired nor disabled is free. -/
theorem lanesFree_ne_nil (h : k.locked &&& ~~~k.lanesRet &&& ~~~k.disAct ≠ 0) : lanesFree k ≠ [] := by
  intro hnil
  refine h (BitVec.eq_of_getLsbD_eq fun j hj => ?_)
  have hj' : ¬(j < 4 ∧ k.locked.getLsbD j = true ∧ k.lanesRet.getLsbD j = false ∧ k.disAct.getLsbD j = false) := by
    rw [← mem_lanesFree, hnil]
    exact List.not_mem_nil
  simp only [BitVec.getLsbD_and, BitVec.getLsbD_not, hj, decide_true, Bool.true_and, BitVec.ofNat_eq_ofNat, BitVec.getLsbD_zero]
  simp only [hj, true_and, not_and, Bool.not_eq_false] at hj'
  cases hl : k.locked.getLsbD j <;> cases hr : k.lanesRet.getLsbD j <;> simp_all

/-! ### The rows of O36 -/

section Rows

variable {link : Fin 24}

/-- An enabled link that is down starts an attempt. -/
theorem exec_linkTrainAttempt_of_mayTrain (hon : mainOn s = true) (hmay : mayTrain s link.val = true) :
    exec (.linkTrainAttempt link o) s =
      .next (train (withLinkAs s link.val (attempted s (getLink s link.val))) link.val o) := by
  have hst : (getLink s link.val).st ≠ 1 := by
    intro h1
    simp [mayTrain, h1] at hmay
  have hhear : hear (withLinkAs s link.val (attempted s (getLink s link.val))) link.val o =
      withLinkAs s link.val (attempted s (getLink s link.val)) := by
    unfold hear
    split
    · exact modLink_withLinkAs (attempted_ne s _) _
    · rfl
  show execLinkTrainAttempt link o s = _
  rw [execLinkTrainAttempt, inRun_of_mainOn _ hon]
  refine congrArg _ ((if_neg hst).trans ((if_pos hmay).trans ?_))
  exact congrArg (fun x => train x link.val o) hhear

/-- An attempt that no partner answers leaves the link in DETECT. -/
theorem attempt_unanswered (hon : mainOn s = true) (hmay : mayTrain s link.val = true) (ho : o.answered = false) :
    exec (.linkTrainAttempt link o) s = .next (withLinkAs s link.val (attempted s (getLink s link.val))) := by
  rw [exec_linkTrainAttempt_of_mayTrain hon hmay, train_of_unanswered rfl rfl ho]

/-- A link that has come up at a width on lanes (R252 to R255, R263). -/
def upAs (k : Link) (w : Nat) (ls : List Nat) : Link :=
  { k with
    st := 3, stage := 6, width := w, lanesUp := laneMask ls, failures := 0, lastFailEvent := none
    txCtr := 0, rxSeq := 0, txSeq := 0, badTags := 0, ownReq := false, charged := 0
    rxUsed := [], txUsed := [], replay := [], txq := [] }

theorem upAs_ne (k : Link) (w : Nat) (ls : List Nat) : upAs k w ls ≠ {} := ne_default_of_st three_ne_zero

/-- A link may come up: its attempt has ended SECURE in time, with a key. -/
structure MayRise (s : State) (k : Link) : Prop where
  st : k.st = 1
  stage : k.stage = 5
  prk : k.prk.isSome = true
  intime : overdue s k = false

theorem exec_linkUp {w : Nat} {ls : List Nat} (hon : mainOn s = true) (hk : MayRise s (getLink s link.val))
    (hlanes : laneSet (getLink s link.val) = some (w, ls)) :
    exec (.linkUp link) s = .next (reachAll (repath (withLinkAs s link.val (upAs (getLink s link.val) w ls)))) := by
  obtain ⟨hst, hstage, hprk, hintime⟩ := hk
  show execLinkUp link s = _
  rw [execLinkUp, inRun_of_mainOn _ hon]
  simp only [hst, hstage, Option.isNone_eq_false_iff.2 hprk, hintime, hlanes, ne_eq, not_true_eq_false, Bool.false_eq_true, or_self, if_false]
  rfl

/-- LINK_UP leaves of the other links all but their senders. -/
theorem onlyTraffic_linkUp (s : State) (k : Link) : OnlyTraffic (withLinkAs s l k) (reachAll (repath (withLinkAs s l k))) :=
  onlyTraffic_reachAll (onlyTraffic_repath (.refl _))

theorem repath_of_outst_nil (h : s.fab.outst = []) : repath s = s := by rw [repath, h, List.foldl_nil]

/-- With no request outstanding no message goes out. -/
theorem links_reachAll_of_outst_nil (h : s.fab.outst = []) : (reachAll s).fab.links = s.fab.links := by
  refine (List.foldlRecOn (motive := fun t : State => t.fab.outst = [] ∧ t.fab.links = s.fab.links) (otherNodes s) _
    ⟨h, rfl⟩ fun t ht n _ => ?_).2
  obtain ⟨hout, hlinks⟩ := ht
  split
  · rw [if_neg (by simp [hout])]
    exact ⟨hout, hlinks⟩
  · exact ⟨hout, hlinks⟩

/-- An attempt that exceeds a limit, or whose partner falls silent, fails (R254, R255). -/
theorem exec_trainStageTimeout (hon : mainOn s = true) (hst : (getLink s link.val).st = 1) (hover : overdue s (getLink s link.val) = true) :
    exec (.trainStageTimeout link) s = .next (trainFail s link.val) := by
  show execTrainStageTimeout link s = _
  rw [execTrainStageTimeout, inRun_of_mainOn _ hon]
  exact congrArg _ (if_pos ⟨hst, hover⟩)

theorem exec_partnerSilence (hon : mainOn s = true) (hst : (getLink s link.val).st = 1) (hstage : (getLink s link.val).stage ≠ 0)
    (hsilent : (getLink s link.val).heardAt + msCycles 1 ≤ s.time.now) :
    exec (.partnerSilence link) s = .next (trainFail s link.val) := by
  show execPartnerSilence link s = _
  rw [execPartnerSilence, inRun_of_mainOn _ hon]
  exact congrArg _ (if_pos ⟨hst, hstage, hsilent⟩)

end Rows

/-- An attempt that is answered, equalised, locked and measured meets its partner, and authenticates it or not. -/
theorem attempt_answered {m : BitVec 4} {i : Ident} {d : BitVec 32} {ok : Bool} (hk : k.st = 1) (h0 : k.stage = 0) (hprk : k.prk = none)
    (ho : Locks k o m) (hi : o.ident = some i) (hown : ownNode s < 64) (hd : o.delayPs = some d) (ha : o.auth = some ok)
    (hnode : i.isSwitch = true ∨ i.node.toNat < 64) :
    let t := train (withLinkAs s l k) l o
    (∀ j, j ≠ l → getLink t j = getLink s j) ∧ (getLink t l).partner = i.partner ∧ (getLink t l).node = i.node.toNat ∧
    (i.isSwitch = false → i.partner = s.fab.chipId → (getLink t l).st = 2 ∧ (getLink t l).failures = k.failures + 1) ∧
    ((i.isSwitch = true ∨ i.partner ≠ s.fab.chipId) → (getLink t l).delayPs = d ∧
      (ok = true → s.sec.identKey = true → (getLink t l).st = 1 ∧ (getLink t l).stage = 5 ∧ (getLink t l).prk.isSome = true) ∧
      (ok = false → (getLink t l).st = 0 ∧ (getLink t l).authFail = true)) := by
  have hlow := trainLow_of_locks (s := s) (l := l) hk h0 ho
  have hlocked : (lockedAs s k m).st = 1 := hk
  rw [train_eq, hlow]
  by_cases hforeign : Foreign s i
  · -- the partner ends the attempt
    have hself : i.isSwitch = false ∧ i.partner = s.fab.chipId := by
      obtain hout | ⟨hswitch, hid⟩ := hforeign
      · omega
      · have hsw : i.isSwitch = false := by simpa using hswitch
        exact ⟨hsw, hid.resolve_right (by simpa [hsw] using hnode)⟩
    rw [trainOn_of_foreign hlocked rfl hi hforeign]
    have hmet : metAs (lockedAs s k m) i ≠ {} := ne_default_of_st (show k.st ≠ 0 by omega)
    have hlink : ∀ j, getLink (evPool (withLinkAs s l (metAs (lockedAs s k m) i)) 0x0502 [(1, l)]) j =
        getLink (withLinkAs s l (metAs (lockedAs s k m) i)) j := SameFabric.getLink (fab_evPool _ _ _)
    obtain ⟨⟨e, hown⟩, hother⟩ := trainFail_effect (evPool (withLinkAs s l (metAs (lockedAs s k m) i)) 0x0502 [(1, l)]) l
    rw [hlink l, getLink_withLinkAs hmet] at hown
    dsimp only
    rw [hown]
    refine ⟨fun j hj => (hother j hj).trans ((hlink j).trans (getLink_withLinkAs_other hj)), rfl, rfl, fun _ _ => ⟨rfl, rfl⟩, ?_⟩
    rintro (hsw | hid)
    · simp [hself.1] at hsw
    · exact absurd hself.2 hid
  · rw [trainOn_of_partner hlocked rfl hprk hi hforeign hd]
    obtain ⟨⟨t, ht, hother⟩, hown⟩ := trainSecure_effect (s := s) (l := l) (k := measuredAs s (lockedAs s k m) i d) hk ha
    rw [← ht] at hother
    dsimp only
    refine ⟨hother, ?_, ?_, fun hsw hid => ?_, fun _ => ⟨?_, fun hok hkey => ?_, fun hok => ?_⟩⟩
    · rw [hown]; split <;> rfl
    · rw [hown]; split <;> rfl
    · exact absurd (.inr ⟨by simp [hsw], .inl hid⟩) hforeign
    · rw [hown]; split <;> rfl
    · rw [hown, if_pos (by simp [hok, hkey])]
      exact ⟨hk, rfl, rfl⟩
    · rw [hown, if_neg (by simp [hok])]
      exact ⟨rfl, rfl⟩

/-- Settles O36: an attempt writes one link, stage by stage; LINK_UP writes it and sends what waits for a path; a failure writes it and
reports. -/
theorem linkTraining : Obligations.LinkTraining := by
  unfold Obligations.LinkTraining
  refine ⟨fun s l o hon hmay => ⟨fun ho => ?_, fun m i d ok hanswered hequalised hlocked hfree hi hown hd ha hnode => ?_⟩,
    fun s l w ls hon hst hstage hprk hintime hlanes => ?_, fun s l hon hst i hi => ?_⟩
  · refine ⟨_, attempt_unanswered hon hmay ho, fun j hj => getLink_withLinkAs_other hj, ?_⟩
    exact getLink_withLinkAs (attempted_ne s _)
  · refine ⟨_, exec_linkTrainAttempt_of_mayTrain hon hmay, ?_⟩
    have hlanes : (laneSet { attempted s (getLink s l.val) with locked := m }).isSome = true := laneSet_isSome (lanesFree_ne_nil (by exact hfree))
    exact attempt_answered (k := attempted s (getLink s l.val)) rfl rfl rfl ⟨hanswered, hequalised, hlocked, hlanes⟩ hi hown hd ha hnode
  · refine ⟨_, exec_linkUp hon ⟨hst, hstage, hprk, hintime⟩ hlanes, ?_⟩
    obtain ⟨-, hlink⟩ := onlyTraffic_linkUp (l := l.val) s (upAs (getLink s l.val) w ls)
    have hup := hlink l.val
    rw [getLink_withLinkAs (upAs_ne _ _ _)] at hup
    refine ⟨st_of_quiet hup, congrArg (·.width) hup, congrArg (·.lanesUp) hup, congrArg (·.failures) hup, congrArg (·.rxSeq) hup,
      fun j hj => ?_, fun hout j hj => ?_⟩
    · exact (st_of_quiet (hlink j)).trans (congrArg (·.st) (getLink_withLinkAs_other hj))
    · rw [repath_of_outst_nil (by exact hout), getLink, links_reachAll_of_outst_nil (by exact hout)]
      exact getLink_withLinkAs_other hj
  · obtain ⟨⟨e, hself⟩, hother⟩ := trainFail_effect s l.val
    have hfails : exec i s = .next (trainFail s l.val) := by
      obtain ⟨rfl, hover⟩ | ⟨rfl, hstage, hsilent⟩ := hi
      · exact exec_trainStageTimeout hon hst (by rw [overdue, Bool.or_eq_true, decide_eq_true_iff, decide_eq_true_iff]; exact hover)
      · exact exec_partnerSilence hon hst hstage hsilent
    refine ⟨_, hfails, ?_, ?_, ?_, hother⟩
    all_goals rw [hself]; rfl

end Sys2Proof.Machine
end

section
/-! PROOFS. O38, O52: SERVICE, and the lanes a link runs on (R252, R257, R259, R260, R262). -/

namespace Sys2Proof.Machine

open Sys2Proof

variable {s₀ s t : State} {l : Nat} {k r : Link} {o : Training} {link : Fin 24}

/-! ### SERVICE (R262) -/

theorem onlyFabric_checkReach {node : Nat} (h : OnlyFabric s₀ s) : OnlyFabric s₀ (checkReach s node) :=
  onlyFabric_ite (onlyFabric_ite h (onlyFabric_evPool (onlyFabric_fab h))) (onlyFabric_fab h)

theorem onlyFabric_repath (h : OnlyFabric s₀ s) : OnlyFabric s₀ (repath s) :=
  onlyFabric_foldl h fun _ _ ht =>
    onlyFabric_ite ht (onlyFabric_ite (onlyFabric_fab ht) (onlyFabric_sendOn (onlyFabric_useLink (onlyFabric_fab ht))))

theorem onlyFabric_linkLost (s : State) (l st : Nat) : OnlyFabric s (linkLost s l st) := by
  unfold linkLost
  extract_lets was before d _ _ e
  have hd : OnlyFabric s d := onlyFabric_modLink (.refl s)
  have he : OnlyFabric s e := onlyFabric_disturbLink hd
  exact onlyFabric_ite hd (onlyFabric_foldl (onlyFabric_repath (by exact he)) fun _ _ => onlyFabric_checkReach)

/-- The power of a link's group does not come from the fabric. -/
theorem OnlyFabric.linkPowered (h : OnlyFabric s t) (l : Nat) : linkPowered t l = linkPowered s l :=
  (show _ = Machine.linkPowered (withFabric s t) l from rfl).trans (congrArg (fun x => Machine.linkPowered x l) h)

/-- A link whose history SERVICE has cleared. -/
def serviced (k : Link) : Link :=
  { k with lanesRet := 0, charges := [], retrains := 0, authFail := false, failures := 0, lastFailEvent := none, nextTry := 0 }

theorem exec_service (hon : mainOn s = true) : exec (.service link) s = .next (modLink (linkLost s link.val 0) link.val serviced) := by
  show execService link s = _
  rw [execService, inRun_of_mainOn _ hon]
  rfl

/-- SERVICE leaves the link down, and of its state what the loss and the clearing leave. -/
theorem getLink_service (hwf : LinksWf s) (l : Nat) :
    quiet (getLink (modLink (linkLost s l 0) l serviced) l) = quiet (serviced (linkDown (getLink s l) 0)) := by
  obtain ⟨hwf', hlink⟩ := onlyTraffic_linkLost s l 0
  have hlost : quiet (getLink (linkLost s l 0) l) = quiet (linkDown (getLink s l) 0) := by
    rw [hlink l, getLink_modLink (f := fun k => linkDown k 0) (.inl hwf)]
  rw [getLink_modLink (.inl (hwf' (linksWf_modLink hwf)))]
  exact congrArg serviced hlost

/-- Settles O38: SERVICE leaves the link down and its history clear, and an enabled link with power may then train. -/
theorem serviceTrainsAnew : Obligations.ServiceTrainsAnew := by
  unfold Obligations.ServiceTrainsAnew
  intro s l hon hwf
  have hlink := getLink_service hwf l.val
  have hfabric : OnlyFabric s (modLink (linkLost s l.val 0) l.val serviced) := onlyFabric_modLink (onlyFabric_linkLost s l.val 0)
  have hst := st_of_quiet hlink
  have hen : (getLink (modLink (linkLost s l.val 0) l.val serviced) l.val).en = (getLink s l.val).en := congrArg (·.en) hlink
  have hauth : (getLink (modLink (linkLost s l.val 0) l.val serviced) l.val).authFail = false := congrArg (·.authFail) hlink
  refine ⟨_, exec_service hon, congrArg (·.lanesRet) hlink, congrArg (·.charges) hlink, congrArg (·.retrains) hlink, hst, hen,
    fun o hen' hpower ho => ?_⟩
  have hmay : mayTrain (modLink (linkLost s l.val 0) l.val serviced) l.val = true := by
    simp only [mayTrain, hen, hen', hfabric.linkPowered, hpower, hauth, hst]
    rfl
  have hon' : mainOn (modLink (linkLost s l.val 0) l.val serviced) = true := (congrArg mainOn hfabric).trans hon
  refine ⟨_, attempt_unanswered hon' hmay ho, ?_⟩
  rw [getLink_withLinkAs (attempted_ne _ _)]
  exact ⟨rfl, rfl⟩

/-! ### Lane sets (R259, R260) -/

/-- All four lanes are free where each is. -/
theorem lanesFree_eq_all (h : [0, 1, 2, 3].all (fun j => (lanesFree k).contains j) = true) : lanesFree k = [0, 1, 2, 3] := by
  refine List.filter_eq_self.2 fun j hj => ?_
  have hfree : j ∈ lanesFree k := by simpa using List.all_eq_true.1 h j hj
  exact (List.mem_filter.1 hfree).2

theorem runsWidest_of_laneSet {w : Nat} {ls : List Nat} (h : laneSet k = some (w, ls)) (hw : r.width = w) (hls : r.lanesUp = laneMask ls) :
    runsWidest k r := by
  have hall : (lanesFree k = [0, 1, 2, 3]) ↔ [0, 1, 2, 3].all (fun j => (lanesFree k).contains j) = true :=
    ⟨fun h => by rw [h]; rfl, lanesFree_eq_all⟩
  have hpair : ∀ a b, (a ∈ lanesFree k ∧ b ∈ lanesFree k) ↔ [a, b].all (fun j => (lanesFree k).contains j) = true := by simp
  unfold laneSet at h
  unfold runsWidest
  extract_lets f has req at h
  split_ifs at h with h4 h01 h23
  · obtain ⟨rfl, rfl⟩ := Prod.mk.inj (Option.some.inj h)
    rw [if_pos ⟨h4.1, hall.2 h4.2⟩]
    exact ⟨hw, hls⟩
  all_goals rw [if_neg (fun h => h4 ⟨h.1, hall.1 h.2⟩)]
  · obtain ⟨rfl, rfl⟩ := Prod.mk.inj (Option.some.inj h)
    rw [if_pos ⟨h01.1, (hpair 0 1).2 h01.2⟩]
    exact ⟨hw, hls⟩
  all_goals rw [if_neg (fun h => h01 ⟨h.1, (hpair 0 1).1 h.2⟩)]
  · obtain ⟨rfl, rfl⟩ := Prod.mk.inj (Option.some.inj h)
    rw [if_pos ⟨h23.1, (hpair 2 3).2 h23.2⟩]
    exact ⟨hw, hls⟩
  · rw [if_neg (fun h => h23 ⟨h.1, (hpair 2 3).1 h.2⟩)]
    have hlowest : (match lanesFree k with | [] => none | j :: _ => some (2, [j])) = some (w, ls) := h
    cases hf : lanesFree k with
    | nil => simp [hf] at hlowest
    | cons j rest =>
      obtain ⟨rfl, rfl⟩ : 2 = w ∧ [j] = ls := by simpa [hf] using hlowest
      exact ⟨hw, hls.trans (by simp [laneMask])⟩

/-! ### The end of a fast retrain (R257, R259, R260) -/

/-- A link at the end of its fast retrain, before its lanes are chosen. -/
def settledAs (s : State) (k : Link) (locked : BitVec 4) : Link :=
  { k with
    locked := locked, disAct := k.laneDis, widthAct := BitVec.ofNat 2 (retrainWidth s k)
    widthAt := if (dueWidth s k).isSome then 0 else k.widthAt, widthNow := false, partnerW := none, ownReq := false, charged := 0 }

theorem settledAs_ne {locked : BitVec 4} (hst : k.st = 4) : settledAs s k locked ≠ {} := ne_default_of_st (show k.st ≠ 0 by omega)

theorem exec_laneLockTimeout_early {locked : BitVec 4} (hon : mainOn s = true) (hearly : retrainOver s (getLink s link.val) locked = false) :
    exec (.laneLockTimeout link locked) s = .next s := by
  show execLaneLockTimeout link locked s = _
  rw [execLaneLockTimeout, inRun_of_mainOn _ hon]
  exact congrArg _ (if_pos (by simp [hearly]))

/-- What LANE_LOCK_TIMEOUT does once the retrain is over. -/
theorem exec_laneLockTimeout_over {locked : BitVec 4} (hon : mainOn s = true) (hst : (getLink s link.val).st = 4)
    (hover : retrainOver s (getLink s link.val) locked = true) :
    exec (.laneLockTimeout link locked) s = .next (
      match laneSet (settledAs s (getLink s link.val) locked) with
      | none => linkFailed (withLinkAs s link.val (settledAs s (getLink s link.val) locked)) link.val 0
      | some (w, ls) => pumpLink (withLinkAs s link.val
          { settledAs s (getLink s link.val) locked with st := 3, width := w, lanesUp := laneMask ls }) link.val) := by
  show execLaneLockTimeout link locked s = _
  rw [execLaneLockTimeout, inRun_of_mainOn _ hon]
  refine congrArg _ ((if_neg (by simp [hst, hover])).trans ?_)
  have hread := getLink_withLinkAs (s := s) (l := link.val) (settledAs_ne (s := s) (locked := locked) hst)
  show (match laneSet (getLink (withLinkAs s link.val (settledAs s (getLink s link.val) locked)) link.val) with
    | none => linkFailed (withLinkAs s link.val (settledAs s (getLink s link.val) locked)) link.val 0
    | some (w, ls) => pumpLink (modLink (withLinkAs s link.val (settledAs s (getLink s link.val) locked)) link.val
        (fun k => { k with st := 3, width := w, lanesUp := laneMask ls })) link.val) = _
  rw [hread]
  simp only [modLink_withLinkAs (settledAs_ne hst)]

/-- A link that has ended its fast retrain on lanes that give a width. -/
def resumedAs (s : State) (k : Link) (locked : BitVec 4) (w : Nat) (ls : List Nat) : Link :=
  { settledAs s k locked with st := 3, width := w, lanesUp := laneMask ls }

/-- A link whose lanes give a width is back on them, and sends what waited. -/
theorem laneLockTimeout_resumes {locked : BitVec 4} {w : Nat} {ls : List Nat} (hon : mainOn s = true)
    (hst : (getLink s link.val).st = 4) (hover : retrainOver s (getLink s link.val) locked = true)
    (hlanes : laneSet (settledAs s (getLink s link.val) locked) = some (w, ls)) :
    ∃ t, exec (.laneLockTimeout link locked) s = .next t ∧
      quiet (getLink t link.val) = quiet (resumedAs s (getLink s link.val) locked w ls) ∧
      ∀ j, j ≠ link.val → getLink t j = getLink s j := by
  have hne : resumedAs s (getLink s link.val) locked w ls ≠ {} := ne_default_of_st three_ne_zero
  have hread := getLink_withLinkAs (s := s) (l := link.val) hne
  obtain ⟨-, hother, hown⟩ :=
    (SendsOn.refl link.val (withLinkAs s link.val (resumedAs s (getLink s link.val) locked w ls))).pumpLink
  rw [exec_laneLockTimeout_over hon hst hover, hlanes]
  refine ⟨_, rfl, ?_, fun j hj => (hother j hj).trans (getLink_withLinkAs_other hj)⟩
  rw [hread] at hown
  exact hown (.inr three_ne_zero)

/-- Settles O52: LINK_UP and the end of a fast retrain put the link on its lane set. -/
theorem laneSets : Obligations.LaneSets := by
  unfold Obligations.LaneSets
  refine fun s l hon => ⟨fun hst hstage hprk hintime hfree => ?_, fun locked hst hover hfree => ?_⟩
  · obtain ⟨⟨w, ls⟩, hlanes⟩ := Option.isSome_iff_exists.1 (laneSet_isSome hfree)
    obtain ⟨-, hlink⟩ := onlyTraffic_linkUp (l := l.val) s (upAs (getLink s l.val) w ls)
    have hup := hlink l.val
    rw [getLink_withLinkAs (upAs_ne _ _ _)] at hup
    exact ⟨_, exec_linkUp hon ⟨hst, hstage, hprk, hintime⟩ hlanes, st_of_quiet hup,
      runsWidest_of_laneSet hlanes (congrArg (·.width) hup) (congrArg (·.lanesUp) hup)⟩
  · obtain ⟨⟨w, ls⟩, hlanes⟩ := Option.isSome_iff_exists.1 (laneSet_isSome hfree)
    obtain ⟨t, hexec, hown, -⟩ := laneLockTimeout_resumes hon hst hover (by exact hlanes)
    exact ⟨t, hexec, st_of_quiet hown, runsWidest_of_laneSet hlanes (congrArg (·.width) hown) (congrArg (·.lanesUp) hown)⟩

end Sys2Proof.Machine
end

section
/-! PROOFS. O37: fast retrains (R257 to R261). One starts with its request sent and its lane charged; all else that a request does is in the
state of its link. -/

namespace Sys2Proof.Machine

open Sys2Proof

variable {s t : State} {l : Nat} {k : Link} {link : Fin 24}

/-! ### The start of a retrain (R257, R258) -/

/-- A link right after the start of a fast retrain. -/
def retrainingAs (s : State) (k : Link) (own : Bool) : Link :=
  { k with st := 4, charged := 0, ownReq := own, retrainAt := s.time.now, retrains := satInc 16 k.retrains 1 }

/-- The lane that caused a retrain is charged, where there is one. -/
def chargeCause (s : State) (l : Nat) : Option Nat → State
  | some j => chargeLane s l j
  | none => s

/-- The request of this end for a retrain goes to the partner. -/
def retrainAsked (s : State) (l : Nat) (own : Bool) (lane : Option Nat) : State :=
  if own then sendOn s l (.retrain lane (dueWidth s (getLink s l))) else s

/-- A retrain has started. -/
def retrainBegun (s : State) (l : Nat) (own : Bool) (lane : Option Nat) : State :=
  let t := modLink (retrainAsked s l own lane) l (fun k => { k with
    st := 4, charged := 0, ownReq := own, retrainAt := (retrainAsked s l own lane).time.now, retrains := satInc 16 k.retrains 1 })
  disturbLink { t with health := { t.health with retrains := satInc 32 t.health.retrains 1 } } l 0

theorem fastRetrain_of_up {own : Bool} {lane : Option Nat} (hst : (getLink s l).st = 3) :
    fastRetrain s l own lane = chargeCause (retrainBegun s l own lane) l lane := by
  unfold fastRetrain
  simp only [hst]
  cases lane <;> rfl

theorem time_retrainAsked (s : State) (l : Nat) (own : Bool) (lane : Option Nat) : (retrainAsked s l own lane).time = s.time :=
  (onlyFabric_ite (onlyFabric_sendOn (.refl s)) (.refl s)).time

theorem time_retrainBegun (s : State) (l : Nat) (own : Bool) (lane : Option Nat) : (retrainBegun s l own lane).time = s.time :=
  (onlyFabric_disturbLink (.refl _)).time.trans (time_retrainAsked s l own lane)

theorem sendsOn_retrainAsked (hl : l < 24) (s : State) (own : Bool) (lane : Option Nat) : SendsOn l s (retrainAsked s l own lane) := by
  unfold retrainAsked
  split
  · exact sendsOn_sendOn hl s _
  · exact .refl l s

theorem getLink_retrainBegun {own : Bool} {lane : Option Nat} (hl : l < 24) (hst : (getLink s l).st = 3) :
    quiet (getLink (retrainBegun s l own lane) l) = quiet (retrainingAs s (getLink s l) own) ∧
      ∀ j, j ≠ l → getLink (retrainBegun s l own lane) j = getLink s j := by
  obtain ⟨-, hother, hown⟩ := sendsOn_retrainAsked hl s own lane
  have htime := time_retrainAsked s l own lane
  have hlink := SameFabric.getLink (s₀ := modLink (retrainAsked s l own lane) l (fun k => { k with
    st := 4, charged := 0, ownReq := own, retrainAt := (retrainAsked s l own lane).time.now, retrains := satInc 16 k.retrains 1 }))
    (s := retrainBegun s l own lane) (fab_disturbLink _ _ _)
  refine ⟨?_, fun j hj => (hlink j).trans ((getLink_modLink_other _ _ hj.symm).trans (hother j hj))⟩
  rw [hlink l, getLink_modLink_self _ l _ (ne_default_of_st four_ne_zero), htime]
  exact congrArg (fun k => retrainingAs s k own) (hown (.inr (by omega)))

/-! ### The rows that ask for a retrain -/

/-- A link whose partner asks for a retrain. -/
def askedAs (s : State) (l : Nat) (w : Option (Fin 3)) : State :=
  modLink (freeRx s l 2 0) l (fun k => { k with partnerW := match w with
    | some x => some x.val
    | none => k.partnerW })

theorem exec_retrain (hon : mainOn s = true) : exec (.retrain link) s = .next (fastRetrain s link.val true none) := by
  show execRetrain link s = _
  rw [execRetrain, inRun_of_mainOn _ hon]

theorem exec_laneLockLoss {lane : Fin 4} (hon : mainOn s = true) :
    exec (.laneLockLoss link lane) s = .next (fastRetrain s link.val true (some lane.val)) := by
  show execLaneLockLoss link lane s = _
  rw [execLaneLockLoss, inRun_of_mainOn _ hon]

theorem exec_retrainRequestRx_of_up {lane : Option (Fin 4)} {w : Option (Fin 3)} (hon : mainOn s = true) (hst : (getLink s link.val).st = 3) :
    exec (.retrainRequestRx ⟨link, lane, w⟩) s =
      .next (fastRetrain (askedAs s link.val w) link.val false (lane.map (fun j => j.val))) := by
  show execRetrainRequestRx ⟨link, lane, w⟩ s = _
  rw [execRetrainRequestRx, inRun_of_mainOn _ hon]
  simp only [hst]
  rfl

theorem getLink_askedAs {w : Option (Fin 3)} (hst : (getLink s l).st = 3) :
    ∃ used, getLink (askedAs s l w) l = { getLink s l with
      rxUsed := used
      partnerW := match w with
        | some x => some x.val
        | none => (getLink s l).partnerW } := by
  obtain ⟨used, hfree⟩ := getLink_freeRx (s := s) 2 0 (by simp [linkAlive, hst] : linkAlive s l = true)
  refine ⟨used, (getLink_modLink_self _ l _ (ne_default_of_st ?_)).trans ?_⟩
  · simp [hfree, hst]
  · simp only [hfree]

theorem getLink_freeRx_other {j vc n : Nat} (hj : j ≠ l) : getLink (freeRx s l vc n) j = getLink s j := by
  unfold freeRx
  extract_lets freed
  split
  · rfl
  · exact getLink_modLink_other s _ hj.symm

/-- A row that asks for a retrain of a link that is up: of this end, or of the partner. -/
theorem retrainRow {lane : Option (Fin 4)} {w : Option (Fin 3)} {i : Instr} {own : Bool} (hon : mainOn s = true)
    (hst : (getLink s link.val).st = 3)
    (hi : own = true ∧ exec i s = .next (fastRetrain s link.val true (lane.map (fun j => j.val))) ∨
      own = false ∧ i = .retrainRequestRx ⟨link, lane, w⟩) :
    ∃ u used pw, exec i s = .next (fastRetrain u link.val own (lane.map (fun j => j.val))) ∧ u.time = s.time ∧
      (∀ j, j ≠ link.val → getLink u j = getLink s j) ∧ getLink u link.val = { getLink s link.val with rxUsed := used, partnerW := pw } ∧
      (own = false → ∀ x, w = some x → pw = some x.val) := by
  obtain ⟨rfl, hexec⟩ | ⟨rfl, rfl⟩ := hi
  · exact ⟨s, _, _, hexec, rfl, fun _ _ => rfl, rfl, nofun⟩
  · obtain ⟨used, hasked⟩ := getLink_askedAs (w := w) hst
    refine ⟨_, used, _, exec_retrainRequestRx_of_up hon hst, time_freeRx s _ _ _, fun j hj => ?_, hasked, ?_⟩
    · exact (getLink_modLink_other _ _ hj.symm).trans (getLink_freeRx_other hj)
    · rintro - x rfl
      rfl

/-! ### Requests that merge (R258) -/

theorem fastRetrain_of_retraining {own : Bool} (hst : (getLink s l).st = 4) : fastRetrain s l own none = s := by simp [fastRetrain, hst]

/-- The partner's request that meets a retrain under way is paced by the leader. -/
def pacedAs (s : State) (l : Nat) : State :=
  if (getLink s l).st = 4 ∧ (getLink s l).ownReq ∧ !(getLink s l).leader then
    modLink (freeRx s l 2 0) l (fun k => { k with retrainAt := (freeRx s l 2 0).time.now })
  else freeRx s l 2 0

theorem getLink_pacedAs (hst : (getLink s l).st = 4) :
    getLink (pacedAs s l) l = { getLink (freeRx s l 2 0) l with
      retrainAt := if (getLink s l).ownReq && !(getLink s l).leader then s.time.now else (getLink s l).retrainAt } := by
  obtain ⟨used, hfree⟩ := getLink_freeRx (s := s) 2 0 (by simp [linkAlive, hst] : linkAlive s l = true)
  unfold pacedAs
  by_cases hpace : (getLink s l).ownReq && !(getLink s l).leader
  · rw [if_pos ⟨hst, by simpa using hpace⟩, if_pos hpace, getLink_modLink_self _ l _ (ne_default_of_st ?_), time_freeRx]
    simp [hfree, hst]
  · rw [if_neg (fun h => hpace (by simpa using h.2)), if_neg hpace, hfree]

theorem retrainRequestRx_merges {w : Option (Fin 3)} (hon : mainOn s = true) (hst : (getLink s link.val).st = 4) :
    ∃ t, exec (.retrainRequestRx ⟨link, none, w⟩) s = .next t ∧
      getLink t link.val = { getLink (pacedAs s link.val) link.val with
        partnerW := match w with
          | some x => some x.val
          | none => (getLink s link.val).partnerW } := by
  obtain ⟨used, hfree⟩ := getLink_freeRx (s := s) 2 0 (by simp [linkAlive, hst] : linkAlive s link.val = true)
  have hpaced := getLink_pacedAs hst
  have hpst : (getLink (pacedAs s link.val) link.val).st = 4 := by rw [hpaced, hfree]; exact hst
  have hpw : (getLink (pacedAs s link.val) link.val).partnerW = (getLink s link.val).partnerW := by rw [hpaced, hfree]
  have hread := getLink_modLink_self (pacedAs s link.val) link.val (fun k => { k with partnerW := match w with
    | some x => some x.val
    | none => k.partnerW }) (ne_default_of_st (hpst.trans_ne four_ne_zero))
  refine ⟨_, ?_, hread.trans (by simp only [hpw])⟩
  show execRetrainRequestRx ⟨link, none, w⟩ s = _
  rw [execRetrainRequestRx, inRun_of_mainOn _ hon]
  refine congrArg _ ((if_neg (by simp [hst])).trans ?_)
  exact fastRetrain_of_retraining ((congrArg (·.st) hread).trans hpst)

/-! ### Lanes that cause retrains (R258, R261) -/

/-- How often a lane has caused a retrain in the last 10 s. -/
def recentCharges (now : Nat) (k : Link) (j : Nat) : Nat :=
  (k.charges.filter (fun x => decide (now ≤ x.2 + tenSeconds) && decide (x.1 = j))).length

/-- A link one of whose lanes has been charged. -/
def chargedAs (now : Nat) (k : Link) (j : Nat) : Link :=
  { k with
    charges := (k.charges.filter (fun x => decide (now ≤ x.2 + tenSeconds))) ++ [(j, now)]
    charged := k.charged ||| BitVec.ofNat 4 (2 ^ j) }

/-- A link one of whose lanes has been retired. -/
def retiredAs (k : Link) (j : Nat) : Link := { k with lanesRet := k.lanesRet ||| BitVec.ofNat 4 (2 ^ j) }

theorem charges_chargedAs (now : Nat) (k : Link) (j : Nat) :
    ((chargedAs now k j).charges.filter (fun x => decide (x.1 = j))).length = recentCharges now k j + 1 := by
  simp [chargedAs, recentCharges, List.filter_append, List.filter_filter, Bool.and_comm]

/-- The lane is retired, and with the last one the link fails. -/
def retireLane (s : State) (l j : Nat) : State :=
  let t := evPool (modLink s l (fun k => retiredAs k j)) 0x0503 [(1, l), (1, j)]
  if (getLink t l).lanesRet = 0xF then linkFailed t l 5 else t

/-- A lane of a retrain that has none charged yet is charged, and with the fourth charge in 10 s retired. -/
theorem chargeLane_eq {j : Nat} (hj : j < 4) (hnone : (getLink s l).charged = 0) (hkept : (getLink s l).lanesRet.getLsbD j = false) :
    chargeLane s l j =
      if 3 ≤ recentCharges s.time.now (getLink s l) j then retireLane (withLinkAs s l (chargedAs s.time.now (getLink s l) j)) l j
      else withLinkAs s l (chargedAs s.time.now (getLink s l) j) := by
  have hcount := charges_chargedAs s.time.now (getLink s l) j
  unfold chargeLane
  extract_lets k recent t
  rw [if_neg (by simp [k, hnone, hj])]
  have hiff : (4 ≤ (recent.filter (fun x => decide (x.1 = j))).length ∧ (!k.lanesRet.getLsbD j) = true) ↔
      3 ≤ recentCharges s.time.now (getLink s l) j := by
    rw [show (recent.filter (fun x => decide (x.1 = j))).length = _ from hcount]
    simp only [k, hkept, Bool.not_false, and_true]
    omega
  exact if_congr hiff rfl rfl

theorem getLink_retireLane {j : Nat} (hk : getLink s l = k) (hst : k.st ≠ 0) :
    quiet (getLink (retireLane s l j) l) =
      quiet (if (retiredAs k j).lanesRet = 0xF then linkDown (retiredAs k j) 5 else retiredAs k j) := by
  have hread : getLink (evPool (modLink s l (fun k => retiredAs k j)) 0x0503 [(1, l), (1, j)]) l = retiredAs k j := by
    rw [SameFabric.getLink (fab_evPool _ _ _) l, getLink_modLink_self _ l _ (ne_default_of_st (by rw [hk]; exact hst)), hk]
  unfold retireLane
  simp only [hread]
  split
  · rw [getLink_linkFailed (.inr (by decide)), hread]
  · rw [hread]

theorem getLsbD_laneBit : ∀ lane : Fin 4, (0 ||| BitVec.ofNat 4 (2 ^ lane.val) : BitVec 4).getLsbD lane.val = true := by decide

/-- A row that names the cause of a retrain of a link that is up charges the lane, or retires it. -/
theorem laneCause {lane : Fin 4} {w : Option (Fin 3)} {i : Instr} (hon : mainOn s = true) (hst : (getLink s link.val).st = 3)
    (hkept : (getLink s link.val).lanesRet.getLsbD lane.val = false)
    (hi : i = .laneLockLoss link lane ∨ i = .retrainRequestRx ⟨link, some lane, w⟩) :
    ∃ t k, exec i s = .next t ∧ k.st = 4 ∧ k.lanesRet = (getLink s link.val).lanesRet ∧ k.charged.getLsbD lane.val = true ∧
      if 3 ≤ recentCharges s.time.now (getLink s link.val) lane.val then
        quiet (getLink t link.val) = quiet (if (retiredAs k lane.val).lanesRet = 0xF then linkDown (retiredAs k lane.val) 5 else
          retiredAs k lane.val)
      else getLink t link.val = k := by
  obtain ⟨own, u, used, pw, hexec, htime, hown⟩ : ∃ own u used pw, exec i s = .next (fastRetrain u link.val own (some lane.val)) ∧
      u.time = s.time ∧ getLink u link.val = { getLink s link.val with rxUsed := used, partnerW := pw } := by
    obtain rfl | rfl := hi
    · exact ⟨true, s, _, _, exec_laneLockLoss hon, rfl, rfl⟩
    · obtain ⟨u, used, pw, hexec, htime, -, hown, -⟩ :=
        retrainRow (own := false) (lane := some lane) (w := w) hon hst (.inr ⟨rfl, rfl⟩)
      exact ⟨false, u, used, pw, hexec, htime, hown⟩
  have hu : (getLink u link.val).st = 3 := by rw [hown]; exact hst
  obtain ⟨hquiet, -⟩ := getLink_retrainBegun (own := own) (lane := some lane.val) link.isLt hu
  rw [hown] at hquiet
  generalize hb : retrainBegun u link.val own (some lane.val) = b at hquiet
  have hbtime : b.time = s.time := by rw [← hb, time_retrainBegun, htime]
  have hcharges : (getLink b link.val).charges = (getLink s link.val).charges := congrArg (·.charges) hquiet
  have hrecent : recentCharges b.time.now (getLink b link.val) lane.val = recentCharges s.time.now (getLink s link.val) lane.val := by
    rw [recentCharges, recentCharges, hcharges, hbtime]
  have hret : (getLink b link.val).lanesRet = (getLink s link.val).lanesRet := congrArg (·.lanesRet) hquiet
  have hnone : (getLink b link.val).charged = 0 := congrArg (·.charged) hquiet
  have hbst : (chargedAs b.time.now (getLink b link.val) lane.val).st = 4 := st_of_quiet hquiet
  have hread := getLink_withLinkAs (s := b) (l := link.val) (ne_default_of_st (hbst.trans_ne four_ne_zero))
  refine ⟨_, chargedAs b.time.now (getLink b link.val) lane.val, hexec.trans (congrArg _ (fastRetrain_of_up hu)), hbst, hret, ?_, ?_⟩
  · simp only [chargedAs, hnone]
    exact getLsbD_laneBit lane
  · rw [hb, chargeCause, chargeLane_eq lane.isLt hnone (by rw [hret]; exact hkept), hrecent]
    split
    · exact getLink_retireLane hread (hbst.trans_ne four_ne_zero)
    · exact hread

/-- Settles O37: a request starts a retrain once, whoever asks; the end of its time ends it. -/
theorem fastRetrains : Obligations.FastRetrains := by
  unfold Obligations.FastRetrains
  refine fun s l hon => ⟨fun hst i own w hi => ?_, fun hst => ⟨?_, fun w => ?_⟩, fun lane i w hst hkept hi => ?_,
    fun locked hst => ⟨exec_laneLockTimeout_early hon, fun hover => ⟨fun w ls hlanes => ?_, fun hlanes hwf => ?_⟩⟩⟩
  · -- a request starts one
    have hrow : own = true ∧ exec i s = .next (fastRetrain s l.val true none) ∨ own = false ∧ i = .retrainRequestRx ⟨l, none, w⟩ := by
      obtain ⟨rfl, ho⟩ | ⟨rfl, ho⟩ := hi
      · exact .inl ⟨ho, exec_retrain hon⟩
      · exact .inr ⟨ho, rfl⟩
    obtain ⟨u, used, pw, hexec, htime, hother, hown, hpw⟩ := retrainRow (lane := none) hon hst hrow
    have hu : (getLink u l.val).st = 3 := by rw [hown]; exact hst
    obtain ⟨hquiet, hother'⟩ := getLink_retrainBegun (own := own) (lane := none) l.isLt hu
    rw [hown] at hquiet
    exact ⟨_, hexec.trans (congrArg _ (fastRetrain_of_up hu)), st_of_quiet hquiet, congrArg (·.ownReq) hquiet,
      (congrArg (·.retrainAt) hquiet).trans (congrArg (·.now) htime), congrArg (·.retrains) hquiet,
      fun ho x hx => (congrArg (·.partnerW) hquiet).trans (hpw ho x hx), fun j hj => (hother' j hj).trans (hother j hj)⟩
  · rw [exec_retrain hon, fastRetrain_of_retraining hst]
  · -- the partner's request merges
    obtain ⟨t, hexec, hlink⟩ := retrainRequestRx_merges (w := w) hon hst
    rw [getLink_pacedAs hst] at hlink
    exact ⟨t, hexec, hlink⟩
  · -- a lane is charged, or retired
    obtain ⟨t, k, hexec, hkst, hkret, hkbit, hlink⟩ := laneCause hon hst hkept hi
    refine ⟨fun hfew => ⟨t, hexec, ?_⟩, fun hmany => ⟨t, hexec, ?_⟩⟩
    · rw [if_neg (by exact Nat.not_le.2 hfew)] at hlink
      rw [hlink]
      exact ⟨hkst, hkbit, hkret⟩
    · rw [if_pos (by exact hmany)] at hlink
      have hret : (retiredAs k lane.val).lanesRet = (getLink s l.val).lanesRet ||| BitVec.ofNat 4 (2 ^ lane.val) :=
        congrArg (· ||| BitVec.ofNat 4 (2 ^ lane.val)) hkret
      rw [← hret]
      split at hlink
      · exact ⟨congrArg (·.lanesRet) hlink, (st_of_quiet hlink).trans (if_pos (by assumption)).symm⟩
      · exact ⟨congrArg (·.lanesRet) hlink, ((st_of_quiet hlink).trans hkst).trans (if_neg (by assumption)).symm⟩
  · -- its lanes give a width
    obtain ⟨t, hexec, hown, hother⟩ := laneLockTimeout_resumes hon hst hover (by exact hlanes)
    exact ⟨t, hexec, st_of_quiet hown, congrArg (·.width) hown, congrArg (·.lanesUp) hown, congrArg (·.widthAct) hown,
      congrArg (·.locked) hown, hother⟩
  · -- they give none
    have hnone : laneSet (settledAs s (getLink s l.val) locked) = none := hlanes
    refine ⟨_, exec_laneLockTimeout_over hon hst hover, ?_⟩
    rw [hnone]
    exact st_of_quiet (getLink_linkFailed (.inl (linksWf_modLink hwf)))

end Sys2Proof.Machine
end

section
/-! PROOFS. O41: invalidations and the router (R267, R276 to R279). Messages on links leave the router's entries. -/

namespace Sys2Proof.Machine

open Sys2Proof

variable {s t : State}

/-! ### Invalidations (R276) -/

theorem out_invalRange (s : State) (p va n : Nat) : (invalRange s p va n).out = s.out := by
  unfold invalRange
  split
  · rfl
  · refine List.foldlRecOn (motive := fun t : State => t.out = s.out) _ _ rfl fun t ht r _ => ?_
    split
    · exact ht
    · exact ht

theorem invalRange_of_all {p va n : Nat} (hn : 268435456 ≤ n) : invalRange s p va n = cacheDrop s p (fun _ => true) := if_pos hn

theorem not_mem_cacheDrop {p : Nat} {y : CacheLine} (hy : y ∈ (cacheDrop s p (fun _ => true)).fab.cache) : y.part ≠ p := by
  simpa [cacheDrop] using (List.mem_filter.1 hy).2

/-- An entry that completes with OK says so, and its slice keeps its status. -/
theorem foDone_ok (s : State) (p c : Nat) (sl : Option (Nat × Nat)) :
    (foDone s p c sl stOk).out = s.out ++ [.fabOp c stOk] ∧ (foDone s p c sl stOk).fab.cache = s.fab.cache := ⟨rfl, rfl⟩

theorem exec_fabOpInval {c : FabSource} {p : Fin 64} {e : List Word} (hon : mainOn s = true) (hlive : (getPart s p.val).live = true)
    (hop : foOp e = 7) :
    exec (.fabOpInval c p e) s = .next (
      if !(foErrs s p.val e).isEmpty then
        foDone s p.val c.cluster.val (issuer s c.cluster.val c.array.val c.ctx p.val) (lowest (foErrs s p.val e))
      else foDone (invalRange s p.val (foRemote e) (wd e 5).toNat) p.val c.cluster.val
        (issuer s c.cluster.val c.array.val c.ctx p.val) stOk) := by
  show execFabOpInval c p e s = _
  rw [execFabOpInval, inRun_of_mainOn _ hon]
  exact congrArg _ (if_neg (by simp [hop, hlive]))

/-! ### The router's entries -/

/-- The state with other entries in the router. -/
def withComb (s : State) (l : List Comb) : State := { s with fab := { s.fab with comb := l } }

theorem withComb_self {l : List Comb} (h : s.fab.comb = l) : withComb s l = s := by subst h; rfl

theorem comb_forwardReq (s : State) (q : FabReq) : (forwardReq s q).fab.comb = s.fab.comb :=
  congrArg (·.comb) (fabRest_sendOn s (routePath s q) (.request q))

theorem comb_arrived (s : State) (via vc n p : Nat) : (arrived s via vc n p).fab.comb = s.fab.comb :=
  congrArg (·.comb) (fabRest_arrived s via vc n p)

theorem combineEn_arrived (s : State) (via vc n p : Nat) : (arrived s via vc n p).fab.combineEn = s.fab.combineEn :=
  congrArg (·.combineEn) (fabRest_arrived s via vc n p)

/-- The entries with a write noted at the loads of its line (R277). -/
def notedAt (q : FabReq) (l : List Comb) : List Comb :=
  l.map (fun x => if x.req.op.val = 0 ∧ reqLine x.req = reqLine q then { x with writers := x.writers ++ [(q.node.val, q.part.val)] } else x)

/-- The router may combine a request (R278). -/
def mayCombine (s : State) (q : FabReq) : Bool := s.fab.combineEn && q.stage.isNone && q.members.isEmpty

/-- What the router does with a request that has come. -/
def routed (s : State) (q : FabReq) : State :=
  let t := if q.op.val = 0 then s else withComb s (notedAt q s.fab.comb)
  let u := (t.fab.comb.filter (fun x => flushes q x && !(mayCombine s q && joins t q x))).foldl flushComb t
  if mayCombine s q then routeReq u q else forwardReq u q

theorem exec_fabricRouterRx (hon : mainOn s = true) (r : FabReq) (via : Fin 25) :
    exec (.fabricRouterRx ⟨r, via⟩) s =
      .next (routed (arrived s via.val 0 (bindSource s via.val r).data.length (bindSource s via.val r).part.val)
        (bindSource s via.val r)) := by
  show execFabricRouterRx ⟨r, via⟩ s = _
  rw [execFabricRouterRx, inRun_of_mainOn _ hon]
  rfl

/-- With no entry nothing is flushed. -/
theorem routed_of_comb_nil {q : FabReq} (h : s.fab.comb = []) : routed s q = if mayCombine s q then routeReq s q else forwardReq s q := by
  have hnoted : (if q.op.val = 0 then s else withComb s (notedAt q s.fab.comb)) = s := by
    rw [h]
    split
    · rfl
    · exact withComb_self h
  unfold routed
  rw [hnoted]
  dsimp only
  rw [h]
  rfl

theorem routeReq_of_comb_nil {q : FabReq} (h : s.fab.comb = []) :
    routeReq s q =
      let x : Comb := { req := q, members := [q], opened := s.time.now, writers := [] }
      if q.op.val = 0 then forwardReq (withComb s [x]) q else if combinable q then withComb s [x] else forwardReq s q := by
  unfold routeReq
  rw [h]
  rfl

/-- A request that is no atomic joins nothing and is not held. -/
theorem routeReq_of_store {q : FabReq} (hop : q.op.val = 1) (h : s.fab.comb = []) : routeReq s q = forwardReq s q := by
  rw [routeReq_of_comb_nil h]
  simp [hop, combinable]

theorem flushComb_single {x : Comb} (h : s.fab.comb = [x]) (hop : x.req.op.val ≠ 0) :
    flushComb s x = forwardReq (withComb s []) (combined x) := by
  unfold flushComb
  rw [if_neg hop, h]
  simp [withComb]

/-- A store flushes the atomic entry of its line (R279). -/
theorem routed_of_store {q : FabReq} {x : Comb} (h : s.fab.comb = [x]) (hx : x.req.op.val ≠ 0) (hop : q.op.val = 1)
    (hline : reqLine q = reqLine x.req) : routed s q = forwardReq (forwardReq (withComb s []) (combined x)) q := by
  have hnoted : (if q.op.val = 0 then s else withComb s (notedAt q s.fab.comb)) = s := by
    rw [if_neg (by omega)]
    refine withComb_self ?_
    rw [h, notedAt, List.map_singleton, if_neg (by rintro ⟨hload, -⟩; exact hx hload)]
  have hflush : (s.fab.comb.filter (fun y => flushes q y && !(mayCombine s q && joins s q y))).foldl flushComb s =
      forwardReq (withComb s []) (combined x) := by
    have hjoins : joins s q x = false := by simp [joins, combinable, hop]
    have hflushes : flushes q x = true := by
      simp only [flushes, hx, hline, decide_not, decide_false, decide_true, Bool.not_false, Bool.true_or, Bool.and_true]
    rw [h, List.filter_cons_of_pos (by simp [hjoins, hflushes]), List.filter_nil]
    exact flushComb_single h hx
  unfold routed
  rw [hnoted]
  dsimp only
  rw [hflush]
  refine (ite_congr rfl (fun _ => routeReq_of_store hop ?_) fun _ => rfl).trans (ite_self _)
  exact comb_forwardReq _ _

/-- An atomic entry that has been held for 64 ns is sent on; an earlier one is not (R278). -/
theorem exec_combineTimeout {x : Comb} (hon : mainOn s = true) (hcomb : s.fab.comb = [x]) (hx : x.req.op.val ≠ 0) :
    exec .combineTimeout s =
      .next (if x.opened + 128 ≤ s.time.now then forwardReq (withComb s []) (combined x) else s) := by
  show execCombineTimeout s = _
  rw [execCombineTimeout, inRun_of_mainOn _ hon]
  refine congrArg _ ?_
  rw [hcomb]
  split
  · next hdue =>
    rw [List.filter_cons_of_pos (by rw [Bool.and_eq_true, decide_eq_true_iff, decide_eq_true_iff]; exact ⟨hx, hdue⟩), List.filter_nil]
    exact flushComb_single hcomb hx
  · next hearly => rw [List.filter_cons_of_neg (by simp [hearly]), List.filter_nil, List.foldl_nil]

/-- Settles O41: the cache's lines, the source's binding, and the router's cases for no entry and for one. -/
theorem fabricRouter : Obligations.FabricRouter := by
  unfold Obligations.FabricRouter
  refine ⟨fun s c a x p e hon hlive hop => ⟨fun herrs => ?_, fun herrs => ?_⟩,
    fun s r via hon => ⟨fun hvia hswitch => ?_, fun hcomb => ?_, fun x hcomb hx hop _ _ hline => ?_⟩,
    fun s x hon hcomb hx => ⟨fun hdue => ?_, fun hearly => ?_⟩⟩
  · rw [exec_fabOpInval hon hlive hop, if_pos (by simpa using herrs)]
  · obtain ⟨hout, hcache⟩ := foDone_ok (invalRange s p.val (foRemote e) (wd e 5).toNat) p.val c.val (issuer s c.val a.val x p.val)
    refine ⟨_, (exec_fabOpInval hon hlive hop).trans (by rw [herrs]; rfl), hcache, hout.trans (by rw [out_invalRange]), fun hn y hy => ?_⟩
    rw [hcache, invalRange_of_all hn] at hy
    exact not_mem_cacheDrop hy
  · simp [bindSource, hvia, hswitch]
  · -- the router holds no entry
    dsimp only
    rw [exec_fabricRouterRx hon]
    generalize bindSource s via.val r = q
    have hempty := (comb_arrived s via.val 0 q.data.length q.part.val).trans hcomb
    have hen := combineEn_arrived s via.val 0 q.data.length q.part.val
    have hnow : (arrived s via.val 0 q.data.length q.part.val).time.now = s.time.now :=
      congrArg (·.now) (onlyFabric_arrived (.refl s)).time
    generalize arrived s via.val 0 q.data.length q.part.val = u at *
    have hmay : q.stage = none → q.members = [] → mayCombine u q = s.fab.combineEn := fun hs hm => by simp [mayCombine, hs, hm, hen]
    rw [routed_of_comb_nil hempty, routeReq_of_comb_nil hempty, ← hnow]
    refine ⟨fun hoff => ?_, fun hcombine hstage hmembers => ?_⟩
    · rw [if_neg (by simp [mayCombine, hen, hoff])]
    · rw [if_pos ((hmay hstage hmembers).trans hcombine)]
      refine ⟨fun hc => ?_, fun hload => ?_, fun hload hc => ?_⟩
      · have hatomic : q.op.val ≠ 0 := fun h0 => by simp [combinable, h0] at hc
        dsimp only
        rw [if_neg hatomic, if_pos hc]
        rfl
      · dsimp only
        rw [if_pos hload]
        rfl
      · dsimp only
        rw [if_neg hload, if_neg (by simp [hc])]
  · -- a store meets the atomic entry of its line
    dsimp only at *
    rw [exec_fabricRouterRx hon]
    generalize bindSource s via.val r = q at *
    have hone := (comb_arrived s via.val 0 q.data.length q.part.val).trans hcomb
    rw [routed_of_store hone hx hop hline]
    rfl
  · rw [exec_combineTimeout hon hcomb hx, if_pos hdue]
    rfl
  · rw [exec_combineTimeout hon hcomb hx, if_neg (by omega)]

end Sys2Proof.Machine
end

section
/-! PROOFS. O42: a request at the chip it names (R267, R268, R272, R273, R283, R352). What has arrived leaves what the checks read; an answer
leaves memory. -/

namespace Sys2Proof.Machine

open Sys2Proof

variable {s₀ s t u : State} {q : FabReq}

/-! ### What traffic leaves of the partitions (R238) -/

/-- A partition but for what reports and disturbances note. -/
def lasting (P : Part) : Part := { P with dirtyOver := false, disturb := 0, launch := none }

/-- Since s only reports and disturbances have been noted at partitions. -/
def PartsLast (s t : State) : Prop := ∀ p, lasting (getPart t p) = lasting (getPart s p)

theorem PartsLast.refl (s : State) : PartsLast s s := fun _ => rfl

theorem PartsLast.trans (h : PartsLast s t) (k : PartsLast t u) : PartsLast s u := fun p => (k p).trans (h p)

theorem partsLast_of_parts (h : t.parts = s.parts) : PartsLast s t := fun p => by rw [getPart_congr h]

theorem OnlyReports.partsLast (h : OnlyReports s t) : PartsLast s t := fun p =>
  show lasting (partCore t p) = lasting (partCore s p) from congrArg lasting ((onlyReports_iff.1 h).2 p)

theorem partsLast_disturb (s : State) (p b : Nat) : PartsLast s (disturb s p b) := by
  unfold disturb
  extract_lets P
  split
  case h_1 => exact .refl s
  case h_2 L hL =>
    have hmod : PartsLast s (modPart s p fun P => { P with
        disturb := P.disturb ||| BitVec.ofNat 6 (2 ^ b), launch := some { L with distNow := true } }) := by
      intro j
      by_cases hj : p = j
      · subst hj
        rw [getPart_modPart_self _ _ _ fun h => by simpa using congrArg Part.launch h]
        rfl
      · rw [getPart_modPart_other _ _ hj]
    split
    · exact .refl s
    · split
      · exact hmod.trans (onlyReports_evPart _ _ _ _).partsLast
      · exact hmod

theorem partsLast_linkTraffic (s : State) (p link : Nat) : PartsLast s (linkTraffic s p link) := by
  refine List.foldlRecOn (motive := PartsLast s) _ _ (.refl s) fun t ht o _ => ?_
  split
  · exact ht
  · split
    · split
      · exact ht.trans (partsLast_disturb t o 4)
      · exact ht
    · exact ht

theorem partsLast_arrived (s : State) (via vc n p : Nat) : PartsLast s (arrived s via vc n p) := by
  unfold arrived
  split
  · exact (partsLast_of_parts (parts_freeRx s via vc n)).trans (partsLast_linkTraffic _ _ _)
  · exact .refl s

theorem PartsLast.live (h : PartsLast s t) (p : Nat) : (getPart t p).live = (getPart s p).live :=
  show (lasting (getPart t p)).live = (lasting (getPart s p)).live from congrArg Part.live (h p)

theorem PartsLast.exps (h : PartsLast s t) (p : Nat) : (getPart t p).exps = (getPart s p).exps :=
  show (lasting (getPart t p)).exps = (lasting (getPart s p)).exps from congrArg Part.exps (h p)

theorem PartsLast.gen (h : PartsLast s t) (p : Nat) : (getPart t p).gen = (getPart s p).gen :=
  show (lasting (getPart t p)).gen = (lasting (getPart s p)).gen from congrArg Part.gen (h p)

/-- Which entry admits a request depends on what lasts. -/
theorem PartsLast.admitting (h : PartsLast s t) (q : FabReq) : admitting t q = admitting s q := by
  simp only [Machine.admitting, liveParts, h.live, h.exps]

/-! ### Answers (R273) -/

theorem onlyFabric_sendResp {node line : Nat} {r : FabResp} {p : Nat} (h : OnlyFabric s₀ s) : OnlyFabric s₀ (sendResp s node line r p) :=
  onlyFabric_sendOn (onlyFabric_ite (onlyFabric_linkTraffic h) h)

theorem onlyFabric_dropComb {x : Option Comb} (h : OnlyFabric s₀ s) : OnlyFabric s₀ (dropComb s x) := by
  cases x with
  | none => exact h
  | some x => exact onlyFabric_fab h

theorem onlyFabric_respond {status : Nat} {data : List Byte} {psn : Bool} (h : OnlyFabric s₀ s) :
    OnlyFabric s₀ (respond s q status data psn) :=
  onlyFabric_foldl h fun _ _ ht => onlyFabric_foldl (onlyFabric_sendResp (onlyFabric_dropComb (onlyFabric_fab ht))) fun _ _ =>
    onlyFabric_sendResp

theorem onlyFabric_denyReq (h : OnlyFabric s₀ s) : OnlyFabric s₀ (denyReq s q) := onlyFabric_respond (onlyFabric_fab h)

@[simp] theorem fabRest_sendResp (s : State) (node line : Nat) (r : FabResp) (p : Nat) : fabRest (sendResp s node line r p) = fabRest s := by
  unfold sendResp
  rw [fabRest_sendOn]
  split
  · exact fabRest_congr (fab_linkTraffic _ _ _)
  · rfl

/-- The answers that a destination has kept, and the requests it has denied. -/
def answersKept (s : State) : Nat × Nat := (s.fab.done.length, s.fab.denied)

theorem answersKept_dropComb (s : State) (x : Option Comb) : answersKept (dropComb s x) = answersKept s := by cases x <;> rfl

theorem answersKept_sendResp (s : State) (node line : Nat) (r : FabResp) (p : Nat) : answersKept (sendResp s node line r p) = answersKept s :=
  show ((fabRest (sendResp s node line r p)).done.length, (fabRest (sendResp s node line r p)).denied) = _ from by
    rw [fabRest_sendResp]
    rfl

/-- A chain of steps that each keep one answer. -/
theorem answersKept_foldl {β : Type} {f : State → β → State} (hf : ∀ t x, answersKept (f t x) = (t.fab.done.length + 1, t.fab.denied))
    (l : List β) (s : State) : answersKept (l.foldl f s) = (s.fab.done.length + l.length, s.fab.denied) := by
  induction l generalizing s with
  | nil => rfl
  | cons x l ih =>
    obtain ⟨hdone, hdenied⟩ := Prod.mk.inj (hf s x)
    rw [List.foldl_cons, ih, hdone, hdenied, List.length_cons, Nat.add_right_comm, Nat.add_assoc]

/-- One answer is kept for each source of a request. -/
theorem answersKept_respond (s : State) (q : FabReq) (status : Nat) (data : List Byte) (psn : Bool) :
    answersKept (respond s q status data psn) = (s.fab.done.length + (sourcesOf q).length, s.fab.denied) := by
  refine answersKept_foldl (fun t x => ?_) (sourcesOf q) s
  refine (List.foldlRecOn (motive := fun u => answersKept u = (t.fab.done.length + 1, t.fab.denied)) _ _ ?_ fun u hu m _ =>
    (answersKept_sendResp _ _ _ _ _).trans hu)
  rw [answersKept_sendResp, answersKept_dropComb]
  simp [answersKept]

theorem answersKept_denyReq (s : State) (q : FabReq) :
    answersKept (denyReq s q) = (s.fab.done.length + (sourcesOf q).length, s.fab.denied + 1) := answersKept_respond _ q stDenied [] false

/-! ### The checks of a destination (R267, R273, R352) -/

/-- What a chip does with a request for it that has arrived. -/
def judged (u : State) (q : FabReq) (ecc : Ecc) : State :=
  if !genOk u q then u
  else if repeats u q then answerAgain u q
  else if fabBad q.addr.toNat then respond u q stBounds [] false
  else if (sourcesOf q).any (fun m => decide (peerGen u m.1 m.2.1 = 0)) then
    (match targetOwner u q.addr.toNat with
     | some p => denyReq (evPart u p 0x0601 [(1, 1), (1, q.node.val), (1, q.part.val), (8, fabOff q.addr.toNat)]) q
     | none => denyReq u q)
  else takeReq u q ecc

theorem exec_fabricRequestRx_other {r : FabReq} {via : Fin 25} {ecc : Ecc} (hon : mainOn s = true)
    (hnode : fabNode (bindSource s via.val r).addr.toNat ≠ ownNode s) : exec (.fabricRequestRx ⟨r, via⟩ ecc) s = .next s := by
  show execFabricRequestRx ⟨r, via⟩ ecc s = _
  rw [execFabricRequestRx, inRun_of_mainOn _ hon]
  exact congrArg _ (if_pos hnode)

theorem exec_fabricRequestRx_here {r : FabReq} {via : Fin 25} {ecc : Ecc} (hon : mainOn s = true)
    (hnode : fabNode (bindSource s via.val r).addr.toNat = ownNode s) :
    exec (.fabricRequestRx ⟨r, via⟩ ecc) s =
      .next (judged (arrived s via.val 0 (bindSource s via.val r).data.length (bindSource s via.val r).part.val)
        (bindSource s via.val r) ecc) := by
  show execFabricRequestRx ⟨r, via⟩ ecc s = _
  rw [execFabricRequestRx, inRun_of_mainOn _ hon]
  exact congrArg _ (if_neg (by simpa using hnode))

/-- A request passes the checks before its entry: its generation is current, it is no repeat, and it names an address. -/
structure Passes (u : State) (q : FabReq) : Prop where
  gen : peerGen u q.node.val q.part.val = 0 ∨ peerGen u q.node.val q.part.val = q.gen
  fresh : repeats u q = false
  addr : fabBad q.addr.toNat = false

theorem genOk_of_gen (h : peerGen u q.node.val q.part.val = 0 ∨ peerGen u q.node.val q.part.val = q.gen) : genOk u q = true := by
  simpa [genOk] using h

/-- With a source that has no generation, or without an entry, a request is denied. -/
theorem judged_denies {ecc : Ecc} (h : Passes u q)
    (hdeny : (∃ m ∈ sourcesOf q, peerGen u m.1 m.2.1 = 0) ∨ q.stage = none ∧ admitting u q = none) :
    ∃ v, judged u q ecc = denyReq v q ∧ OnlyFabric u v ∧ v.fab = u.fab := by
  obtain ⟨hgen, hfresh, haddr⟩ := h
  unfold judged
  rw [if_neg (by simp [genOk_of_gen hgen]), if_neg (by simp [hfresh]), if_neg (by simp [haddr])]
  by_cases hnone : ∃ m ∈ sourcesOf q, peerGen u m.1 m.2.1 = 0
  · rw [if_pos (by simpa [List.any_eq_true] using hnone)]
    split
    · exact ⟨_, rfl, onlyFabric_evPart (.refl u), fab_evPart _ _ _ _⟩
    · exact ⟨u, rfl, .refl u, rfl⟩
  · obtain ⟨hstage, hent⟩ := hdeny.resolve_left hnone
    rw [if_neg (by simpa [List.any_eq_true] using hnone)]
    refine ⟨u, ?_, .refl u, rfl⟩
    simp [takeReq, hent, hstage]

/-- With generations for its sources a request is taken. -/
theorem judged_takes {ecc : Ecc} (h : Passes u q) (hsrc : ∀ m ∈ sourcesOf q, peerGen u m.1 m.2.1 ≠ 0) :
    judged u q ecc = takeReq u q ecc := by
  obtain ⟨hgen, hfresh, haddr⟩ := h
  unfold judged
  rw [if_neg (by simp [genOk_of_gen hgen]), if_neg (by simp [hfresh]), if_neg (by simp [haddr]), if_neg]
  simpa [List.any_eq_true] using hsrc

/-- A store that an entry permits goes to memory, and is answered. -/
theorem takeReq_store {ecc : Ecc} {p ent b : Nat} (hent : admitting u q = some (p, ent)) (hstage : q.stage = none) (hop : q.op.val = 1)
    (hplace : placeOf u (fabOff q.addr.toNat) = .hbm b) :
    takeReq u q ecc = respond { u with hbm := { u.hbm with m := putBytes u.hbm.m b q.data q.psn } } q stOk [] false := by
  simp [takeReq, hent, hstage, hop, applyReq, requestEcc, targetLost, hplace, writeTarget]

theorem takeReq_early {ecc : Ecc} {p ent : Nat} (hent : admitting u q = some (p, ent)) (hstage : q.stage = none) (hop : q.op.val = 2)
    (hearly : allEarlier u q = false) :
    takeReq u q ecc = { u with fab := { u.fab with flagsHeld := u.fab.flagsHeld ++ [{ q := q, owner := p, ent := ent }] } } := by
  simp [takeReq, hent, hstage, hop, hearly]

theorem takeReq_stage {ecc : Ecc} {p ent : Nat} {y : Stage} (hent : admitting u q = some (p, ent)) (hstage : q.stage = some y)
    (hnone : u.fab.staged = []) (hroom : stagedUse u + q.data.length ≤ stageBytes) :
    takeReq u q ecc = { u with fab := { u.fab with
      staged := [{ node := q.node.val, part := q.part.val, dma := y.dma, seg := y.seg.val, parts := [q] }] } } := by
  simp [takeReq, hent, hstage, stagePart, hnone, Nat.not_lt.2 hroom]

/-! ### What has arrived leaves of the checks -/

/-- What the checks of a destination read of the fabric. -/
theorem fab_of_fabRest {α : Type} (f : Fabric → α) (hf : ∀ b : Fabric, f { b with links := [] } = f b) (h : fabRest t = fabRest s) :
    f t.fab = f s.fab := (hf t.fab).symm.trans ((congrArg f h).trans (hf s.fab))

theorem peerGen_of_fabRest (h : fabRest t = fabRest s) (node part : Nat) : peerGen t node part = peerGen s node part :=
  fab_of_fabRest (fun b => tabGet 0 b.peerGen (64 * node + part)) (fun _ => rfl) h

theorem repeats_of_fabRest (h : fabRest t = fabRest s) (q : FabReq) : repeats t q = repeats s q :=
  fab_of_fabRest (fun b => (sourcesOf q).any (fun m => b.done.any (fun x => decide (x.node = m.1) && decide (x.seq = m.2.2.toNat))) ||
    b.flagsHeld.any (fun h => decide (h.q.node = q.node) && decide (h.q.seq = q.seq)) ||
    b.staged.any (fun g => g.parts.any (fun y => decide (y.node = q.node) && decide (y.seq = q.seq)))) (fun _ => rfl) h

theorem allEarlier_of_fabRest (h : fabRest t = fabRest s) (q : FabReq) : allEarlier t q = allEarlier s q :=
  fab_of_fabRest (fun b => decide (q.writes ≤ tabGet 0 b.wrRx (64 * q.node.val + q.part.val))) (fun _ => rfl) h

theorem placeOf_congr (hhbm : t.hbm = s.hbm) (h : fabRest t = fabRest s) (off : Nat) : placeOf t off = placeOf s off := by
  have hwin : t.fab.windows = s.fab.windows := fab_of_fabRest (·.windows) (fun _ => rfl) h
  rw [placeOf, placeOf, hhbm, hwin]

theorem stagedUse_of_fabRest (h : fabRest t = fabRest s) : stagedUse t = stagedUse s := by
  have hstaged : t.fab.staged = s.fab.staged := fab_of_fabRest (·.staged) (fun _ => rfl) h
  have hdma : t.fab.dma = s.fab.dma := fab_of_fabRest (·.dma) (fun _ => rfl) h
  rw [stagedUse, stagedUse, hstaged, hdma]

/-- An ordered flag whose earlier requests have been answered is applied; another waits (R272). -/
theorem exec_orderedFlagApply {h : HeldFlag} (hon : mainOn s = true) (hheld : s.fab.flagsHeld = [h]) :
    exec (.orderedFlagApply h.q.node h.q.part) s = .next (if allEarlier s h.q then
      closeExports (
        let u := { s with fab := { s.fab with flagsHeld := [] } }
        if (tabGet {} (getPart s h.owner).exps h.ent).used then applyReq u h.owner h.q else denyReq u h.q)
      else s) := by
  show execOrderedFlagApply h.q.node h.q.part s = _
  rw [execOrderedFlagApply, inRun_of_mainOn _ hon, hheld]
  refine congrArg _ ?_
  by_cases hall : allEarlier s h.q = true
  · rw [if_pos hall, List.find?_cons_of_pos (by simp [hall])]
    dsimp only
    rw [List.erase_cons_head]
    rfl
  · simp [hall]

/-- Settles O42: what a request finds when it has arrived is what it would have found before. -/
theorem fabricDestination : Obligations.FabricDestination := by
  unfold Obligations.FabricDestination
  refine ⟨fun s r via ecc hon => ?_, fun s h hon hheld => ⟨fun hall => ?_, fun hall => ?_⟩⟩
  · dsimp only
    refine ⟨exec_fabricRequestRx_other hon, fun hnode => ?_⟩
    rw [exec_fabricRequestRx_here hon hnode]
    generalize bindSource s via.val r = q
    have hfabric : OnlyFabric s (arrived s via.val 0 q.data.length q.part.val) := onlyFabric_arrived (.refl s)
    have hrest : fabRest (arrived s via.val 0 q.data.length q.part.val) = fabRest s := fabRest_arrived _ _ _ _ _
    have hparts : PartsLast s (arrived s via.val 0 q.data.length q.part.val) := partsLast_arrived _ _ _ _ _
    generalize arrived s via.val 0 q.data.length q.part.val = u at *
    have hpeer := peerGen_of_fabRest hrest
    refine ⟨fun hgen hold => ?_, fun hgen hrepeat => ?_, fun hgen hfresh haddr => ?_⟩
    · rw [judged, if_pos]
      rw [Bool.not_eq_true', genOk, hpeer, decide_eq_false hgen, decide_eq_false hold]
      rfl
    · rw [judged, if_neg, if_pos]
      · rw [repeats_of_fabRest hrest, hrepeat]
      · simp [genOk_of_gen (hpeer _ _ ▸ hgen)]
    · have hpass : Passes u q := ⟨hpeer _ _ ▸ hgen, (repeats_of_fabRest hrest q).trans hfresh, haddr⟩
      refine ⟨fun hdeny => ?_, fun hsrc p ent hent => ?_⟩
      · -- denied
        obtain ⟨v, hv, hvfabric, hvfab⟩ := judged_denies (ecc := ecc) hpass (by simpa only [hpeer, hparts.admitting] using hdeny)
        obtain ⟨hdone, hdenied⟩ := Prod.mk.inj (answersKept_denyReq v q)
        have hvrest : fabRest v = fabRest s := (fabRest_congr hvfab).trans hrest
        refine ⟨_, congrArg _ hv, (hfabric.trans (hvfabric.trans (onlyFabric_denyReq (.refl v)))).hbm, hdenied.trans ?_, hdone.trans ?_⟩
        · exact fab_of_fabRest (·.denied + 1) (fun _ => rfl) hvrest
        · exact fab_of_fabRest (·.done.length + (sourcesOf q).length) (fun _ => rfl) hvrest
      · have htake : judged u q ecc = takeReq u q ecc := judged_takes hpass (by simpa only [hpeer] using hsrc)
        have hent' : admitting u q = some (p, ent) := (hparts.admitting q).trans hent
        rw [htake]
        refine ⟨fun hstage hop b hplace hwf => ?_, fun hstage hop hearly => ?_, fun y hstage hnone hroom => ?_⟩
        · -- a store
          have hplace' : placeOf u (fabOff q.addr.toNat) = .hbm b := (placeOf_congr hfabric.hbm hrest _).trans hplace
          rw [takeReq_store hent' hstage hop hplace']
          have hmem := (onlyFabric_respond (q := q) (status := stOk) (data := []) (psn := false)
            (.refl { u with hbm := { u.hbm with m := putBytes u.hbm.m b q.data q.psn } })).hbm
          refine ⟨_, rfl, fun i hi => ?_, fun j hj => ?_⟩
          · rw [hmem]
            exact rdByte_wrBytes_in q.data (by rw [hfabric.hbm]; exact hwf) hi
          · rw [hmem]
            refine (rdByte_wrBytes_other u.hbm.m.mem q.data hj).trans ?_
            rw [hfabric.hbm]
        · -- an ordered flag
          rw [takeReq_early hent' hstage hop ((allEarlier_of_fabRest hrest q).trans hearly)]
        · -- a part of a segment
          have hnone' : u.fab.staged = [] := (fab_of_fabRest (·.staged) (fun _ => rfl) hrest).trans hnone
          rw [takeReq_stage hent' hstage hnone' (by rw [stagedUse_of_fabRest hrest]; exact hroom)]
  · rw [exec_orderedFlagApply hon hheld, if_pos hall]
  · rw [exec_orderedFlagApply hon hheld, if_neg (by simp [hall])]

end Sys2Proof.Machine
end

section
/-! PROOFS. Requests of this chip on their way: what the work around them leaves of the fabric, what the issue of one changes, and what a
FAB_DMA that goes on leaves (R271 to R275, R281 to R284, R325, R411). -/

namespace Sys2Proof.Machine

open Sys2Proof

variable {s₀ s t u : State}

/-! ### Walks, signatures and local writes -/

theorem sameFabric_retirePage {g : Nat} (h : SameFabric s₀ s) : SameFabric s₀ (retirePage s g) :=
  sameFabric_ite h ((fab_evPool _ _ _).trans h)

theorem sameFabric_walkVa {p va : Nat} (h : SameFabric s₀ s) : SameFabric s₀ (walkVa s p va) := by
  refine sameFabric_foldl h fun t x ht => ?_
  extract_lets P n
  split
  · refine sameFabric_ite ?_ ht
    unfold repairTable
    split
    · exact ht
    · exact sameFabric_retirePage (by exact ht)
  · exact ht

@[simp] theorem fab_walkAll (s : State) (p : Nat) (vas : List Nat) : (walkAll s p vas).fab = s.fab :=
  sameFabric_foldl (.refl s) fun _ _ => sameFabric_walkVa

theorem sameFabric_sigAdd {p c space addr : Nat} {w : Writer} {data : GranuleBits} {psn : Bool} (h : SameFabric s₀ s) :
    SameFabric s₀ (sigAdd s p c w space addr data psn) := sameFabric_ite h (sameFabric_ite h h)

@[simp] theorem fab_foSig (s : State) (p c : Nat) (e : List Word) (ga : Nat) (d : List Byte × Bool) : (foSig s p c e ga d).fab = s.fab :=
  sameFabric_ite (.refl s) (sameFabric_ite (sameFabric_sigAdd (.refl s)) (sameFabric_foldl (.refl s) fun _ _ => sameFabric_sigAdd))

@[simp] theorem fab_wrLocal (s : State) (p c va : Nat) (bs : List Byte) (psn : Bool) : (wrLocal s p c va bs psn).fab = s.fab :=
  sameFabric_ite (.refl s) (sameFabric_wrVaP (sameFabric_ite (.refl s) (.refl s)))

theorem sameFabric_noteOp {p c st : Nat} {sl : Option (Nat × Nat)} (h : SameFabric s₀ s) : SameFabric s₀ (noteOp s p c sl st) := by
  refine sameFabric_ite h ?_
  split
  · exact h
  · exact sameFabric_ite h (sameFabric_ite h h)

/-! ### The issue of a request (R271 to R275) -/

/-- A request as it waits in the retransmit store: under the next sequence number to its node, on the path of its line. -/
def sentAs (s : State) (o : FabOut) : FabOut :=
  { o with
    req := { o.req with
      seq := BitVec.ofNat 32 (tabGet 0 s.fab.seqTx (fabNode o.req.addr.toNat))
      writes := tabGet 0 s.fab.wrTx (64 * o.req.part.val + fabNode o.req.addr.toNat) }
    dst := fabNode o.req.addr.toNat, issued := s.time.now, path := pathOf s o.req.addr.toNat, noPathAt := s.time.now }

theorem onlyFabric_issueFab {o : FabOut} (h : OnlyFabric s₀ s) : OnlyFabric s₀ (issueFab s o) := by
  unfold issueFab
  extract_lets ga node key _ q path o1 _ s1 s2 s3
  have h1 : OnlyFabric s₀ s1 := h
  have h2 : OnlyFabric s₀ s2 := onlyFabric_ite h1 h1
  have h3 : OnlyFabric s₀ s3 := onlyFabric_ite h2 h2
  exact onlyFabric_ite h3 (onlyFabric_useLink (onlyFabric_emit h3))

/-- The fabric after a request has been issued: it waits at the end of the store, and lines may have left the cache. -/
theorem fab_issueFab (s : State) (o : FabOut) :
    ∃ tx cache, (issueFab s o).fab = { s.fab with
        seqTx := tabMod 0 s.fab.seqTx (fabNode o.req.addr.toNat) (fun n => (n + 1) % 2 ^ 32)
        wrTx := tx, outst := s.fab.outst ++ [sentAs s o], cache := cache } ∧
      (∀ y ∈ cache, y ∈ s.fab.cache) ∧
      (o.req.op ≠ 0 → ∀ y ∈ cache, y.part = o.req.part.val → y.addr ≠ o.req.addr.toNat / 64) := by
  unfold issueFab
  extract_lets ga node key _ q path o1 _ s1 s2 s3
  have hend : (if path = 25 then s3 else useLink (emit s3 (.fabric node q)) q.part.val path).fab = s3.fab :=
    sameFabric_ite (.refl s3) (fab_useLink _ _ _)
  have h2 : s2.fab = { s1.fab with cache := s2.fab.cache } := by
    unfold s2
    split <;> rfl
  have h3 : s3.fab = { s2.fab with cache := s3.fab.cache } := by
    unfold s3
    split <;> rfl
  have hsub : ∀ y ∈ s3.fab.cache, y ∈ s2.fab.cache := by
    unfold s3
    split
    · exact fun y hy => (List.mem_filter.1 hy).1
    · exact fun y hy => hy
  refine ⟨_, s3.fab.cache, hend.trans (h3.trans (congrArg (fun f : Fabric => { f with cache := s3.fab.cache }) h2)), fun y hy => ?_,
    fun hop y hy hpart haddr => ?_⟩
  · have hy2 := hsub y hy
    unfold s2 at hy2
    split at hy2
    · exact hy2
    · exact (List.mem_filter.1 hy2).1
  · have hy2 := hsub y hy
    unfold s2 at hy2
    rw [if_neg (show ¬q.op = 0 from hop)] at hy2
    have hkept : (!(decide (y.part = o.req.part.val) && decide (y.addr = o.req.addr.toNat / 64))) = true := (List.mem_filter.1 hy2).2
    simp [hpart, haddr] at hkept

theorem outst_issueFab (s : State) (o : FabOut) : (issueFab s o).fab.outst = s.fab.outst ++ [sentAs s o] := by
  obtain ⟨tx, cache, hfab, -⟩ := fab_issueFab s o
  rw [hfab]

/-! ### A FAB_DMA that goes on (R282 to R284) -/

/-- No timeout has been counted since s₀ (R284). -/
def SameTimeouts (s₀ s : State) : Prop := s.fab.timeouts = s₀.fab.timeouts

theorem sameTimeouts_of_fab (h : SameTimeouts s₀ s) (hf : t.fab = s.fab) : SameTimeouts s₀ t :=
  (congrArg (fun f : Fabric => f.timeouts) hf).trans h

theorem sameTimeouts_ite {c : Prop} [Decidable c] (ht : SameTimeouts s₀ t) (hu : SameTimeouts s₀ u) :
    SameTimeouts s₀ (if c then t else u) := by
  split <;> assumption

theorem sameTimeouts_issueFab {o : FabOut} (h : SameTimeouts s₀ s) : SameTimeouts s₀ (issueFab s o) := by
  obtain ⟨tx, cache, hfab, -⟩ := fab_issueFab s o
  exact (congrArg (fun f : Fabric => f.timeouts) hfab).trans h

theorem sameTimeouts_dmaCheck {d : Dma} (h : SameTimeouts s₀ s) : SameTimeouts s₀ (dmaCheck s d) := by
  unfold dmaCheck
  exact sameTimeouts_ite h (sameTimeouts_of_fab (by exact h) (fab_completeWhere _ _ _))

theorem sameTimeouts_failSeg {id seg status : Nat} (h : SameTimeouts s₀ s) : SameTimeouts s₀ (failSeg s id seg status) := by
  unfold failSeg
  split
  · exact h
  · exact sameTimeouts_dmaCheck h

theorem sameTimeouts_issuePart {d : Dma} {g : DmaSeg} (h : SameTimeouts s₀ s) : SameTimeouts s₀ (issuePart s d g) := by
  unfold issuePart
  extract_lets v
  have hv : SameTimeouts s₀ v := sameTimeouts_of_fab h (fab_walkAll _ _ _)
  split
  · exact sameTimeouts_failSeg hv
  · split
    · exact sameTimeouts_failSeg hv
    · exact sameTimeouts_issueFab (by exact hv)

theorem sameTimeouts_issueFlag {d : Dma} {g : DmaSeg} (h : SameTimeouts s₀ s) : SameTimeouts s₀ (issueFlag s d g) := by
  refine sameTimeouts_dmaCheck ?_
  split
  · exact sameTimeouts_ite h (sameTimeouts_issueFab h)
  · exact h

theorem sameTimeouts_pumpDma {n : Nat} (h : SameTimeouts s₀ s) : SameTimeouts s₀ (pumpDma n s) := by
  induction n generalizing s with
  | zero => exact h
  | succ n ih =>
    unfold pumpDma
    split
    · exact h
    · exact sameTimeouts_ite h (ih (sameTimeouts_ite (sameTimeouts_issueFlag h) (sameTimeouts_issuePart h)))

theorem pumpDma_of_idle (h : dmaNext s = none) (n : Nat) : pumpDma n s = s := by
  cases n with
  | zero => rfl
  | succ n => rw [pumpDma, h]

theorem runDma_of_dma_nil (h : s.fab.dma = []) : runDma s = s := pumpDma_of_idle (by rw [dmaNext, h]; rfl) _

/-! ### The end of a request (R273, R281) -/

/-- The store of requests, the segments and the count of timeouts. -/
def fabWork (s : State) : List FabOut × List Dma × Nat := (s.fab.outst, s.fab.dma, s.fab.timeouts)

theorem fabWork_of_fab (h : t.fab = s.fab) : fabWork t = fabWork s := by rw [fabWork, fabWork, h]

theorem sameTimeouts_of_work (h : fabWork t = fabWork s) : SameTimeouts s t :=
  congrArg (fun w : List FabOut × List Dma × Nat => w.2.2) h

theorem dma_of_work (h : fabWork t = fabWork s) : t.fab.dma = s.fab.dma := congrArg (fun w : List FabOut × List Dma × Nat => w.2.1) h

theorem outst_of_work (h : fabWork t = fabWork s) : t.fab.outst = s.fab.outst := congrArg (fun w : List FabOut × List Dma × Nat => w.1) h

/-- Keeping a line changes the cache alone. -/
theorem cacheKeep_eq (s : State) (x : CacheLine) : ∃ cache, cacheKeep s x = { s with fab := { s.fab with cache := cache } } := by
  unfold cacheKeep
  split
  · exact ⟨s.fab.cache, rfl⟩
  · exact ⟨_, rfl⟩

theorem fabWork_cacheKeep (s : State) (x : CacheLine) : fabWork (cacheKeep s x) = fabWork s := by
  obtain ⟨cache, h⟩ := cacheKeep_eq s x
  rw [h]
  rfl

theorem fabWork_keepLines (s : State) (p ga : Nat) (bs : List Byte) (psn : Bool) : fabWork (keepLines s p ga bs psn) = fabWork s :=
  List.foldlRecOn (motive := fun t => fabWork t = fabWork s) _ _ rfl fun t ht _ _ => (fabWork_cacheKeep t _).trans ht

theorem fabWork_foDone (s : State) (p c : Nat) (sl : Option (Nat × Nat)) (st : Nat) : fabWork (foDone s p c sl st) = fabWork s :=
  (fabWork_of_fab (sameFabric_noteOp (.refl _))).trans rfl

theorem fabWork_finishLine (s : State) (o : FabOut) (st : Nat) : fabWork (finishLine s o st) = fabWork s := by
  unfold finishLine
  extract_lets now
  split
  · rfl
  · exact (fabWork_foDone _ _ _ _ _).trans rfl

theorem fab_finishData (s : State) (o : FabOut) (status : Nat) (data : List Byte) (psn : Bool) : (finishData s o status data psn).fab = s.fab :=
  sameFabric_ite (fab_wrLocal _ _ _ _ _ _) (sameFabric_ite (fab_wrLocal _ _ _ _ _ _) (.refl s))

theorem fab_noteStore (s : State) (p c st : Nat) : (noteStore s p c st).fab = s.fab := sameFabric_ite (.refl s) (.refl s)

theorem fab_checkQuiet (s : State) (p : Nat) : (checkQuiet s p).fab = s.fab := by
  have hunmap : SameFabric s (checkUnmap s p) := sameFabric_ite (.refl s) (fab_completeWait _ _ _)
  exact sameFabric_ite hunmap (sameFabric_ite (sameFabric_completeWait hunmap) hunmap)

/-- An answer to a part of a segment keeps the count of timeouts, and with no segment left it changes nothing. -/
theorem segPart_effect (s : State) (o : FabOut) (status : Nat) (data : List Byte) (psn : Bool) :
    SameTimeouts s (segPart s o status data psn) ∧ (s.fab.dma = [] → fabWork (segPart s o status data psn) = fabWork s) := by
  unfold segPart
  split
  · refine ⟨rfl, fun h => ?_⟩
    simp [modSeg, fabWork, h]
  · refine ⟨sameTimeouts_failSeg rfl, fun h => ?_⟩
    rw [failSeg, findSeg, h]
    rfl

/-- The store without a request. -/
def outstWithout (s : State) (o : FabOut) : List FabOut :=
  s.fab.outst.filter (fun x => !(decide (x.dst = o.dst) && decide (x.req.seq = o.req.seq)))

/-- The end of a request takes it from the store; no timeout is counted. -/
theorem finishOut_effect (s : State) (o : FabOut) (status : Nat) (data : List Byte) (psn : Bool) :
    SameTimeouts s (finishOut s o status data psn) ∧
      (s.fab.dma = [] → (finishOut s o status data psn).fab.outst = outstWithout s o) := by
  unfold finishOut
  extract_lets p _ v good w returns x
  have hw : fabWork w = fabWork v := by
    unfold w
    split
    · exact fabWork_keepLines _ _ _ _ _
    · rfl
  have hx : SameTimeouts w x ∧ (w.fab.dma = [] → fabWork x = fabWork w) := by
    unfold x
    split
    · exact ⟨rfl, fun _ => rfl⟩
    · split
      · have hline := (fabWork_finishLine (finishData w o status data psn) o
          (worse (if status = stOk ∧ returns = true ∧ psn = true then stPoisoned else status)
            (localStatus w o status))).trans (fabWork_of_fab (fab_finishData w o status data psn))
        exact ⟨sameTimeouts_of_work hline, fun _ => hline⟩
      · split
        · have hnote := fabWork_of_fab (fab_noteStore w p o.cluster status)
          exact ⟨sameTimeouts_of_work hnote, fun _ => hnote⟩
        · split
          · exact segPart_effect w o status data psn
          · exact ⟨rfl, fun _ => rfl⟩
  have hquiet := fabWork_of_fab (fab_checkQuiet x p)
  refine ⟨?_, fun hdma => ?_⟩
  · have hws : SameTimeouts v w := sameTimeouts_of_work hw
    exact sameTimeouts_pumpDma ((sameTimeouts_of_work hquiet).trans (hx.1.trans hws))
  · have hwdma : w.fab.dma = [] := (dma_of_work hw).trans hdma
    have hall := hquiet.trans (hx.2 hwdma)
    rw [runDma_of_dma_nil ((dma_of_work hall).trans hwdma)]
    exact outst_of_work (hall.trans hw)

end Sys2Proof.Machine
end

section
/-! PROOFS. O43: responses, timeouts and reset notices (R252, R273, R281, R284, R286, R351). -/

namespace Sys2Proof.Machine

open Sys2Proof

variable {s₀ s t : State}

/-! ### Responses and timeouts -/

theorem outst_arrived (s : State) (via vc n p : Nat) : (arrived s via vc n p).fab.outst = s.fab.outst :=
  fab_of_fabRest (·.outst) (fun _ => rfl) (fabRest_arrived s via vc n p)

theorem dma_arrived (s : State) (via vc n p : Nat) : (arrived s via vc n p).fab.dma = s.fab.dma :=
  fab_of_fabRest (·.dma) (fun _ => rfl) (fabRest_arrived s via vc n p)

/-- The response to the one request outstanding, with no entry in the router, ends it. -/
theorem exec_fabricResponseRx {a : FabResp} {via : Fin 25} {o : FabOut} (hon : mainOn s = true) (hcomb : s.fab.comb = [])
    (hout : s.fab.outst = [o]) (hdst : o.dst = a.node.val) (hseq : o.req.seq = a.seq) :
    exec (.fabricResponseRx ⟨a, via⟩) s =
      .next (finishOut (arrived s via.val 1 a.data.length o.req.part.val) o a.status.toNat a.data a.psn) := by
  have hfind : s.fab.outst.find? (fun o => decide (o.dst = a.node.val) && decide (o.req.seq = a.seq)) = some o := by
    rw [hout]
    exact List.find?_cons_of_pos (by simp [hdst, hseq])
  have hfan : ∀ u : State, u.fab.comb = [] → ∀ n, fanOut u n a = ([], none) := fun u hu n => by simp [fanOut, hu]
  have hempty := hfan _ ((comb_arrived s via.val 1 a.data.length o.req.part.val).trans hcomb)
  show execFabricResponseRx ⟨a, via⟩ s = _
  rw [execFabricResponseRx, inRun_of_mainOn _ hon]
  dsimp only
  rw [hfind]
  dsimp only
  rw [hempty]
  rfl

theorem outstWithout_single {o : FabOut} (h : s.fab.outst = [o]) : outstWithout s o = [] := by simp [outstWithout, h]

/-- A request has waited too long, for a path or for its response (R281, R284). -/
theorem overdueReq_iff (s : State) (o : FabOut) :
    overdueReq s o = true ↔ if o.kind = 3 then o.path = 25 ∧ o.noPathAt + fabTimeoutCycles s ≤ s.time.now
      else o.issued + fabTimeoutCycles s ≤ s.time.now := by
  unfold overdueReq
  split <;> simp

theorem fabWork_checkReach (s : State) (node : Nat) : fabWork (checkReach s node) = fabWork s := by
  unfold checkReach
  split
  · split
    · rfl
    · exact (fabWork_of_fab (fab_evPool _ _ _)).trans rfl
  · rfl

/-- The state in which a timeout has been counted and reported. -/
def timeoutNoted (s : State) (o : FabOut) (node : Nat) : State :=
  checkReach (evPart { s with
    fab := { s.fab with timeouts := s.fab.timeouts + 1 }
    health := { s.health with timeouts := satInc 32 s.health.timeouts 1 } } o.req.part.val 0x0505 [(1, node), (8, o.req.addr.toNat)]) node

theorem fabWork_timeoutNoted (s : State) (o : FabOut) (node : Nat) :
    fabWork (timeoutNoted s o node) = (s.fab.outst, s.fab.dma, s.fab.timeouts + 1) :=
  (fabWork_checkReach _ _).trans ((fabWork_of_fab (fab_evPart _ _ _ _)).trans rfl)

theorem exec_fabTimeout {n : Fin 64} {q : Word} {o : FabOut} (hon : mainOn s = true) (hout : s.fab.outst = [o]) (hdst : o.dst = n.val)
    (hseq : o.req.seq = q) :
    exec (.fabTimeout n q) s = .next (if overdueReq s o then finishOut (timeoutNoted s o n.val) o stTimeout [] false else s) := by
  have hfind : s.fab.outst.find? (fun o => decide (o.dst = n.val) && decide (o.req.seq = q)) = some o := by
    rw [hout]
    exact List.find?_cons_of_pos (by simp [hdst, hseq])
  show execFabTimeout n q s = _
  rw [execFabTimeout, inRun_of_mainOn _ hon]
  dsimp only
  rw [hfind]
  dsimp only
  cases overdueReq s o <;> rfl

/-! ### Reset notices (R351) -/

/-- Since s₀ no generation of a peer has changed, nor this chip's node. -/
def SamePeers (s₀ s : State) : Prop := s.fab.peerGen = s₀.fab.peerGen ∧ s.fab.node = s₀.fab.node

theorem samePeers_of_fab (h : SamePeers s₀ s) (hf : t.fab = s.fab) : SamePeers s₀ t := by
  unfold SamePeers
  rw [hf]
  exact h

theorem samePeers_foldl {β : Type} {f : State → β → State} {l : List β} (h : SamePeers s₀ s)
    (hf : ∀ t x, SamePeers s₀ t → SamePeers s₀ (f t x)) : SamePeers s₀ (l.foldl f s) :=
  List.foldlRecOn (motive := SamePeers s₀) l f h fun t ht x _ => hf t x ht

theorem samePeers_dropExport {p ent : Nat} (h : SamePeers s₀ s) : SamePeers s₀ (dropExport s p ent) :=
  samePeers_foldl (by exact h) fun _ _ ht => ht

theorem samePeers_closeExports (h : SamePeers s₀ s) : SamePeers s₀ (closeExports s) := by
  refine samePeers_foldl h fun t p ht => samePeers_foldl ht fun u x hu => ?_
  split
  · exact hu
  · exact samePeers_of_fab (samePeers_dropExport hu) (fab_completeWait _ _ _)

/-- A notice sets the generation of its source and no other. -/
theorem peerReset_effect (s : State) (n p : Nat) (g : BitVec 16) :
    (peerReset s n p g).fab.peerGen = tabSet 0 s.fab.peerGen (64 * n + p) g ∧ (peerReset s n p g).fab.node = s.fab.node :=
  samePeers_closeExports (s₀ := { s with fab := { s.fab with
    peerGen := tabSet 0 s.fab.peerGen (64 * n + p) g
    wrRx := tabSet 0 s.fab.wrRx (64 * n + p) 0
    flagsHeld := s.fab.flagsHeld.filter (fun h => !(decide (h.q.node.val = n) && decide (h.q.part.val = p)))
    staged := s.fab.staged.filter (fun g => !(decide (g.node = n) && decide (g.part = p))) } }) ⟨rfl, rfl⟩

/-- The chip takes a message to itself at once. -/
theorem sendCtl_own (s : State) (m : Msg) : sendCtl s (ownNode s) m = emit s (.deliver m) := by
  have hpath : bestPath 0 (pathsTo s (ownNode s)) = 24 := by rw [pathsTo, if_pos rfl]; rfl
  rw [sendCtl, hpath, sendOn, if_pos rfl]

theorem exec_resetNoticeRx {n p : Fin 64} {g : BitVec 16} {via : Fin 25} (hon : mainOn s = true) :
    exec (.resetNoticeRx ⟨n, via⟩ p g) s =
      .next (sendCtl (peerReset (received s via) n.val p.val g) n.val (.noticeAck n.val p.val)) := by
  show execResetNoticeRx ⟨n, via⟩ p g s = _
  rw [execResetNoticeRx, inRun_of_mainOn _ hon]
  rfl

theorem fabRest_received (s : State) (via : Fin 25) : fabRest (received s via) = fabRest s := by
  unfold received
  split
  · exact fabRest_freeRx _ _ _ _
  · rfl

/-- With no node left to acknowledge, the wait for a notice ends. -/
theorem noticeOpen_noticeCheck {p : Nat} {late : Bool} (hlive : (getPart s p).live = true)
    (hend : late = true ∨ s.fab.notices = []) : (getPart (noticeCheck s p late) p).noticeOpen = false := by
  unfold noticeCheck
  extract_lets open_ t
  have hclosed : ¬(open_ && !late) = true := by
    obtain rfl | hnone := hend
    · simp
    · simp [open_, hnone]
  rw [if_neg hclosed]
  have ht : (getPart t p).noticeOpen = false := by
    unfold t
    rw [getPart_modPart_self _ _ _ (part_ne_of_live (by exact hlive))]
  split
  · exact ht
  · have hcore : partCore (completeWait t (.notice p) stOk) p = partCore t p := by
      refine (onlyReports_iff.1 (onlyReports_completeWhere t (fun o => decide (o.why = .notice p)) _)).2 p
    exact (congrArg Part.noticeOpen hcore).trans ht

/-- The notices of a partition without a node that has acknowledged. -/
def withoutNode (n p : Nat) (ns : List (Nat × BitVec 16 × List Nat)) : List (Nat × BitVec 16 × List Nat) :=
  (ns.map (fun x => if x.1 = p then (x.1, x.2.1, x.2.2.filter (fun y => decide (y ≠ n))) else x)).filter (fun x => !x.2.2.isEmpty)

theorem exec_resetNoticeAckRx {n p : Fin 64} {via : Fin 25} {g : BitVec 16} (hon : mainOn s = true)
    (hnotices : s.fab.notices = [(p.val, g, [n.val])]) :
    ∃ u, exec (.resetNoticeAckRx ⟨n, via⟩ p) s = .next (noticeCheck u p.val false) ∧ u.fab.notices = [] ∧ u.parts = s.parts := by
  obtain ⟨r, hr⟩ : ∃ r, r = if via.val < 24 then freeRx s via.val 1 0 else s := ⟨_, rfl⟩
  have hrest : fabRest r = fabRest s ∧ r.parts = s.parts := by
    rw [hr]
    split
    · exact ⟨fabRest_freeRx _ _ _ _, parts_freeRx _ _ _ _⟩
    · exact ⟨rfl, rfl⟩
  have hsame : r.fab.notices = s.fab.notices := fab_of_fabRest (·.notices) (fun _ => rfl) hrest.1
  refine ⟨{ r with fab := { r.fab with notices := withoutNode n.val p.val r.fab.notices } }, ?_, ?_, hrest.2⟩
  · show execResetNoticeAckRx ⟨n, via⟩ p s = _
    rw [execResetNoticeAckRx, inRun_of_mainOn _ hon, hr]
    rfl
  · show withoutNode n.val p.val r.fab.notices = []
    rw [hsame, hnotices]
    simp [withoutNode]

theorem parts_sendCtl (s : State) (node : Nat) (m : Msg) : (sendCtl s node m).parts = s.parts := parts_sendOn s _ m

theorem exec_resetNoticeResend {n p : Fin 64} {g : BitVec 16} (hon : mainOn s = true) (hnotices : s.fab.notices = [(p.val, g, [n.val])]) :
    exec (.resetNoticeResend p) s = .next (noticeCheck (sendCtl s n.val (.notice n.val p.val g)) p.val true) := by
  have hfind : s.fab.notices.find? (fun n => decide (n.1 = p.val)) = some (p.val, g, [n.val]) := by
    rw [hnotices]
    exact List.find?_cons_of_pos (by simp)
  show execResetNoticeResend p s = _
  rw [execResetNoticeResend, inRun_of_mainOn _ hon]
  rw [hfind]
  rfl

/-- Settles O43: a response or a timeout takes its request from the store, and a notice sets one generation. -/
theorem fabricReplies : Obligations.FabricReplies := by
  unfold Obligations.FabricReplies
  refine ⟨fun s a via o hon hcomb hout hdst hseq => ?_, fun s n q o hon hout hdst hseq => ⟨fun hlate => ?_, fun hintime => ?_⟩,
    fun s n p g via hon hg => ?_, fun s n p g via hon hnotices hlive i hi => ?_⟩
  · -- a response
    refine ⟨_, exec_fabricResponseRx hon hcomb hout hdst hseq, fun hdma => ?_⟩
    rw [(finishOut_effect _ o _ _ _).2 ((dma_arrived _ _ _ _ _).trans hdma)]
    exact outstWithout_single ((outst_arrived _ _ _ _ _).trans hout)
  · -- a timeout
    have hwork := fabWork_timeoutNoted s o n.val
    obtain ⟨htimeouts, hend⟩ := finishOut_effect (timeoutNoted s o n.val) o stTimeout [] false
    refine ⟨_, (exec_fabTimeout hon hout hdst hseq).trans (by rw [if_pos ((overdueReq_iff s o).2 hlate)]), htimeouts.trans ?_, fun hdma => ?_⟩
    · exact congrArg (fun w : List FabOut × List Dma × Nat => w.2.2) hwork
    · rw [hend ((congrArg (fun w : List FabOut × List Dma × Nat => w.2.1) hwork).trans hdma)]
      exact outstWithout_single ((congrArg (fun w : List FabOut × List Dma × Nat => w.1) hwork).trans hout)
  · rw [exec_fabTimeout hon hout hdst hseq, if_neg (fun h => hintime ((overdueReq_iff s o).1 h))]
  · -- a notice
    obtain ⟨hpeer, hnode⟩ := peerReset_effect (received s via) n.val p.val g
    have hrest := fabRest_received s via
    have hpeer0 : (received s via).fab.peerGen = s.fab.peerGen := fab_of_fabRest (·.peerGen) (fun _ => rfl) hrest
    have hnode0 : (received s via).fab.node = s.fab.node := fab_of_fabRest (·.node) (fun _ => rfl) hrest
    have hsent : ∀ n2 p2, peerGen (sendCtl (peerReset (received s via) n.val p.val g) n.val (.noticeAck n.val p.val)) n2 p2 =
        tabGet 0 (tabSet 0 s.fab.peerGen (64 * n.val + p.val) g) (64 * n2 + p2) := fun n2 p2 => by
      rw [sendCtl, peerGen_of_fabRest (fabRest_sendOn _ _ _), peerGen, hpeer, hpeer0]
    refine ⟨_, exec_resetNoticeRx hon, (hsent _ _).trans (tabGet_tabSet_self _ _ _ hg), fun hown => ?_, fun n2 p2 hp2 hother => ?_⟩
    · have hself : n.val = ownNode (peerReset (received s via) n.val p.val g) := hown.trans (by rw [ownNode, ownNode, hnode, hnode0])
      refine ⟨(peerReset (received s via) n.val p.val g).out, ?_⟩
      rw [show sendCtl _ n.val _ = sendCtl _ (ownNode _) _ from congrArg (fun x => sendCtl _ x _) hself, sendCtl_own]
      rfl
    · rw [hsent, tabGet_tabSet_other _ _ _ (by have := p.isLt; omega), peerGen]
  · -- the end of a wait
    obtain rfl | rfl := hi
    · obtain ⟨u, hexec, hnone, hparts⟩ := exec_resetNoticeAckRx (via := via) hon hnotices
      exact ⟨_, hexec, noticeOpen_noticeCheck (by rw [getPart_congr hparts]; exact hlive) (.inr hnone)⟩
    · exact ⟨_, exec_resetNoticeResend hon hnotices,
        noticeOpen_noticeCheck (by rw [getPart_congr (parts_sendCtl _ _ _)]; exact hlive) (.inl rfl)⟩

end Sys2Proof.Machine
end

section
/-! PROOFS. O40: the entries of a fabric queue (R269 to R275, R280, R281). An entry that goes out issues a list of requests one after another. -/

namespace Sys2Proof.Machine

open Sys2Proof

variable {s₀ s t u v : State} {p : Nat}

/-! ### A partition keeps its generation -/

/-- A partition that is alive stays so, with its generation. -/
def GenKept (p : Nat) (s t : State) : Prop :=
  (getPart s p).live = true → (getPart t p).live = true ∧ (getPart t p).gen = (getPart s p).gen

theorem GenKept.refl (p : Nat) (s : State) : GenKept p s s := fun h => ⟨h, rfl⟩

theorem GenKept.trans (h : GenKept p s t) (k : GenKept p t u) : GenKept p s u := fun hs =>
  have ⟨hlive, hgen⟩ := h hs
  have ⟨klive, kgen⟩ := k hlive
  ⟨klive, kgen.trans hgen⟩

theorem genKept_of_parts (h : t.parts = s.parts) : GenKept p s t := fun hs => by rw [getPart_congr h]; exact ⟨hs, rfl⟩

theorem OnlyReports.genKept (h : OnlyReports s t) : GenKept p s t := fun hs =>
  have hcore := (onlyReports_iff.1 h).2 p
  ⟨(show (partCore t p).live = (partCore s p).live from congrArg Part.live hcore).trans hs,
    show (partCore t p).gen = (partCore s p).gen from congrArg Part.gen hcore⟩

theorem genKept_modPart {f : Part → Part} (q : Nat)
    (hf : ∀ P, (f P).live = P.live ∧ (f P).gen = P.gen := by exact fun _ => ⟨rfl, rfl⟩) : GenKept p s (modPart s q f) := by
  intro hs
  by_cases hq : q = p
  · subst hq
    obtain ⟨hlive, hgen⟩ := hf (getPart s q)
    rw [getPart_modPart_self _ _ _ (part_ne_of_live (hlive.trans hs))]
    exact ⟨hlive.trans hs, hgen⟩
  · rw [getPart_modPart_other _ _ hq]
    exact ⟨hs, rfl⟩

theorem genKept_ite {c : Prop} [Decidable c] (ht : GenKept p s t) (hu : GenKept p s u) : GenKept p s (if c then t else u) := by
  split <;> assumption

theorem genKept_foldl {β : Type} {f : State → β → State} {l : List β} (hf : ∀ t x, GenKept p t (f t x)) : GenKept p s (l.foldl f s) :=
  List.foldlRecOn (motive := GenKept p s) l f (.refl p s) fun t ht x _ => ht.trans (hf t x)

theorem genKept_repairTable (q bad good : Nat) : GenKept p s (repairTable s q bad good) := by
  unfold repairTable
  split
  · exact .refl p s
  · next n _ =>
    have hmod : GenKept p s (replaceTable s q bad n) :=
      (genKept_of_parts (t := setTable (setTable s bad 0) n (q + 1)) rfl).trans (genKept_modPart q)
    refine hmod.trans ?_
    unfold retirePage
    extract_lets _ h
    split
    · exact .refl p _
    · exact .trans (t := { replaceTable s q bad n with hbm := h }) (genKept_of_parts rfl) (onlyReports_evPool _ _ _).genKept

theorem genKept_walkAll (q : Nat) (vas : List Nat) : GenKept p s (walkAll s q vas) := by
  refine genKept_foldl fun t g => genKept_foldl fun v x => ?_
  extract_lets P n
  split
  · exact genKept_ite (genKept_repairTable q _ _) (.refl p v)
  · exact .refl p v

theorem genKept_sigAdd {q c space addr : Nat} {w : Writer} {data : GranuleBits} {psn : Bool} :
    GenKept p s (sigAdd s q c w space addr data psn) := by
  unfold sigAdd runWrote
  extract_lets h
  exact genKept_ite (.refl p s) ((genKept_ite (genKept_modPart q) (.refl p s)).trans
    (genKept_modPart q))

theorem genKept_foSig {q c ga : Nat} {e : List Word} {d : List Byte × Bool} : GenKept p s (foSig s q c e ga d) :=
  genKept_ite (.refl p s) (genKept_ite genKept_sigAdd (genKept_foldl fun _ _ => genKept_sigAdd))

theorem onlyFabric_sigAdd {q c space addr : Nat} {w : Writer} {data : GranuleBits} {psn : Bool} (h : OnlyFabric s₀ s) :
    OnlyFabric s₀ (sigAdd s q c w space addr data psn) := by
  unfold sigAdd runWrote
  extract_lets x
  exact onlyFabric_ite h (onlyFabric_modPart (onlyFabric_ite (onlyFabric_modPart h) h))

theorem onlyFabric_foSig {q c ga : Nat} {e : List Word} {d : List Byte × Bool} (h : OnlyFabric s₀ s) : OnlyFabric s₀ (foSig s q c e ga d) :=
  onlyFabric_ite h (onlyFabric_ite (onlyFabric_sigAdd h) (onlyFabric_foldl h fun _ _ => onlyFabric_sigAdd))

/-! ### Requests issued one after another (R271, R273, R275) -/

/-- A request waits in the store as one of those that were to be issued at a time. -/
def SentAt (now : TimeUnit) (o o0 : FabOut) : Prop := ∃ v : State, v.time = now ∧ o = sentAs v o0

/-- Requests that are issued one after another wait in the store in their order. -/
theorem outst_issueAll (l : List FabOut) (s : State) :
    ∃ os, (l.foldl issueFab s).fab.outst = s.fab.outst ++ os ∧ List.Forall₂ (SentAt s.time) os l ∧ os.head? = l.head?.map (sentAs s) := by
  induction l generalizing s with
  | nil => exact ⟨[], (List.append_nil _).symm, .nil, rfl⟩
  | cons o l ih =>
    have htime : (issueFab s o).time = s.time := (onlyFabric_issueFab (.refl s)).time
    obtain ⟨os, hout, hsent, -⟩ := ih (issueFab s o)
    refine ⟨sentAs s o :: os, ?_, .cons ⟨s, rfl, rfl⟩ (htime ▸ hsent), rfl⟩
    rw [List.foldl_cons, hout, outst_issueFab, List.append_assoc]
    rfl

/-- What they leave in the cache was there before, and is no copy of a line that one of them writes. -/
theorem cache_issueAll (l : List FabOut) (s : State) :
    (∀ y ∈ (l.foldl issueFab s).fab.cache, y ∈ s.fab.cache) ∧
    ∀ o ∈ l, o.req.op ≠ 0 → ∀ y ∈ (l.foldl issueFab s).fab.cache, y.part = o.req.part.val → y.addr ≠ o.req.addr.toNat / 64 := by
  induction l generalizing s with
  | nil => exact ⟨fun _ hy => hy, nofun⟩
  | cons o l ih =>
    obtain ⟨hsub, hgone⟩ := ih (issueFab s o)
    obtain ⟨tx, cache, hfab, hsub1, hgone1⟩ := fab_issueFab s o
    have hcache : (issueFab s o).fab.cache = cache := congrArg (fun f : Fabric => f.cache) hfab
    rw [hcache] at hsub
    refine ⟨fun y hy => hsub1 y (hsub y hy), fun x hx hop y hy => ?_⟩
    obtain rfl | hx := List.mem_cons.1 hx
    · exact hgone1 hop y (hsub y hy)
    · exact hgone x hx hop y hy

theorem onlyFabric_issueAll (l : List FabOut) (h : OnlyFabric s₀ s) : OnlyFabric s₀ (l.foldl issueFab s) :=
  onlyFabric_foldl h fun _ _ => onlyFabric_issueFab

/-! ### The requests of an entry (R269 to R271, R274) -/

/-- The request for a part of a line. -/
def lineReq (op ga : Nat) (d : List Byte × Bool) (o : FabOut) (x : Nat × Nat) : FabOut :=
  { o with
    req := { o.req with addr := BitVec.ofNat 52 (ga + x.1), len := x.2, data := if op = 0 then [] else (d.1.drop x.1).take x.2 }
    localVa := o.localVa + x.1, off := 0, take := x.2 }

/-- The request for the whole line of a part. -/
def loadReq (ga : Nat) (o : FabOut) (x : Nat × Nat) : FabOut :=
  { o with
    req := { o.req with addr := BitVec.ofNat 52 ((ga + x.1) / 64 * 64), len := 64, data := [] }
    localVa := o.localVa + x.1, off := ga + x.1 - (ga + x.1) / 64 * 64, take := x.2 }

theorem issueLines_eq (s : State) (op ga n : Nat) (d : List Byte × Bool) (o : FabOut) :
    issueLines s op ga n d o = ((lineParts ga n).map (lineReq op ga d o)).foldl issueFab s := by
  rw [List.foldl_map]
  rfl

theorem issueLoads_eq (s : State) (ga n : Nat) (o : FabOut) :
    issueLoads s ga n o = ((lineParts ga n).map (loadReq ga o)).foldl issueFab s := by
  rw [List.foldl_map]
  rfl

/-- The requests of an entry; o is the whole of it. -/
def entryReqs (keep : Bool) (op ga : Nat) (e : List Word) (d : List Byte × Bool) (o : FabOut) : List FabOut :=
  if keep then (lineParts ga (foLen e)).map (loadReq ga o)
  else if foAtomic e then [o] else (lineParts ga (foLen e)).map (lineReq op ga d o)

/-- Whole lines are fetched for the cache (R274). -/
def keepsLines (s : State) (op : Nat) (e : List Word) : Bool := decide (op = 0) && !foNc e && s.fab.cacheEn

/-- The state in which an entry has its number. -/
def entryNumbered (s : State) : State :=
  { s with fab := { s.fab with ops := tabSet 0 s.fab.ops s.fab.nextOp stOk, nextOp := s.fab.nextOp + 1 } }

/-- The state in which the requests of an entry are issued: it is in the signature of its cluster too. -/
def entrySigned (s : State) (c p ga : Nat) (e : List Word) : State := foSig (entryNumbered s) p c e ga (foData s p e)

/-- The whole of an entry. -/
def entryWhole (s : State) (c p op ga : Nat) (sl : Option (Nat × Nat)) (e : List Word) : FabOut :=
  { mkOut (mkReq (entrySigned s c p ga e) p op (foTyp e) (foFetch e || decide (op = 6)) ga (foLen e) (foData s p e).1 (foData s p e).2)
      c (foLocal e) 0 0 (foLen e) (keepsLines s op e) with slice := sl, grp := s.fab.nextOp }

theorem issueOpReqs_eq (s : State) (c p op ga : Nat) (sl : Option (Nat × Nat)) (e : List Word) :
    issueOpReqs s c p op ga sl e =
      (entryReqs (keepsLines s op e) op ga e (foData s p e) (entryWhole s c p op ga sl e)).foldl issueFab (entrySigned s c p ga e) := by
  have hcases : issueOpReqs s c p op ga sl e =
      if keepsLines s op e then issueLoads (entrySigned s c p ga e) ga (foLen e) (entryWhole s c p op ga sl e)
      else if foAtomic e then issueFab (entrySigned s c p ga e) (entryWhole s c p op ga sl e)
      else issueLines (entrySigned s c p ga e) op ga (foLen e) (foData s p e) (entryWhole s c p op ga sl e) := rfl
  rw [hcases, issueLoads_eq, issueLines_eq]
  unfold entryReqs
  split
  · rfl
  · split <;> rfl

end Sys2Proof.Machine
end

section
/-! PROOFS. O40, settled: an entry that its checks stop, that the cache serves, that waits, and that goes out (R269 to R275, R280, R281). -/

namespace Sys2Proof.Machine

open Sys2Proof

variable {s t u : State} {p : Nat} {e : List Word} {op ga : Nat}

/-! ### The rows -/

/-- What a row of a FAB_OP entry does once the walks of its addresses have been taken. -/
def entryChecked (u : State) (c a : Nat) (x : Bool) (p op : Nat) (e : List Word) : State :=
  let sl := issuer u c a x p
  let errs := foErrs u p e
  if !errs.isEmpty then
    let st := lowest errs
    let s := foDone u p c sl st
    if st = stRefusedMode then
      evPart (modPart s p (fun P => { P with refused := satInc 16 P.refused 1 })) p 0x0401 [(1, c), (1, a)]
    else s
  else
    let ga := (foTarget u p e).getD 0
    match (if op = 0 ∧ !foNc e then cacheRead u p ga (foLen e) else none) with
    | some (bs, q) =>
      foDone (wrLocal u p c (foLocal e) bs q) p c sl
        (worse (if q then stPoisoned else stOk) (if writeLost u p (foLocal e) bs.length then stTimeout else stOk))
    | none => if mayIssue u p (64 * (linesOf ga (foLen e)).length) then issueOpReqs u c p op ga sl e else u

theorem issueFo_eq {c a : Nat} {x : Bool} (hop : foOp e = op) (hruns : partRuns s p = true) :
    issueFo s c a x p op e = entryChecked (walkAll s p [foRemote e, foLocal e]) c a x p op e := by
  unfold issueFo
  rw [if_neg (by simp [hop, hruns])]
  rfl

theorem exec_fabEntry {c : Fin 20} {a : Fin 16} {x : Bool} {p : Fin 64} {i : Instr} (hon : mainOn s = true) (hruns : partRuns s p.val = true)
    (hop : foOp e = op)
    (hi : (i, op) ∈ [(Instr.load ⟨c, a, x⟩ p e, 0), (.store ⟨c, a, x⟩ p e, 1), (.storeWithOrderedFlag ⟨c, a, x⟩ p e, 2),
      (.atomicAdd ⟨c, a, x⟩ p e, 3), (.atomicMin ⟨c, a, x⟩ p e, 4), (.atomicMax ⟨c, a, x⟩ p e, 5),
      (.compareAndSwap ⟨c, a, x⟩ p e, 6)]) :
    op ≤ 6 ∧ exec i s = .next (entryChecked (walkAll s p.val [foRemote e, foLocal e]) c.val a.val x p.val op e) := by
  rw [← issueFo_eq hop hruns]
  simp only [List.mem_cons, Prod.mk.injEq, List.not_mem_nil, or_false] at hi
  obtain ⟨rfl, rfl⟩ | ⟨rfl, rfl⟩ | ⟨rfl, rfl⟩ | ⟨rfl, rfl⟩ | ⟨rfl, rfl⟩ | ⟨rfl, rfl⟩ | ⟨rfl, rfl⟩ := hi
  all_goals exact ⟨by decide, (show _ = inRun s (fun s => issueFo s c.val a.val x p.val _ e) from rfl).trans (inRun_of_mainOn _ hon)⟩

/-! ### Entries that end at once (R281) -/

/-- The first status of the checks ends the entry. -/
theorem entryChecked_fails {c a : Nat} {x : Bool} (herrs : foErrs u p e ≠ []) (hmode : lowest (foErrs u p e) ≠ stRefusedMode) :
    entryChecked u c a x p op e = foDone u p c (issuer u c a x p) (lowest (foErrs u p e)) := by
  unfold entryChecked
  extract_lets sl errs
  rw [if_pos (by simpa [errs] using herrs)]
  exact if_neg hmode

/-- A status of a check leaves the partition's work alone. -/
theorem parts_noteOp_refused (s : State) (p c : Nat) (sl : Option (Nat × Nat)) : (noteOp s p c sl stRefusedMode).parts = s.parts := by
  unfold noteOp
  rw [if_neg (by decide)]
  split
  · rfl
  · split
    · rfl
    · rfl

/-- An operation that DETERMINISTIC refuses is counted. -/
theorem refused_entryChecked {c a : Nat} {x : Bool} (hlive : (getPart u p).live = true) (herrs : foErrs u p e ≠ [])
    (hmode : lowest (foErrs u p e) = stRefusedMode) :
    (getPart (entryChecked u c a x p op e) p).refused = satInc 16 (getPart u p).refused 1 := by
  have hparts : (foDone u p c (issuer u c a x p) stRefusedMode).parts = u.parts := parts_noteOp_refused _ _ _ _
  have hread : (getPart (foDone u p c (issuer u c a x p) stRefusedMode) p) = getPart u p := getPart_congr hparts p
  unfold entryChecked
  extract_lets sl errs st v
  rw [if_pos (by simpa [errs] using herrs), if_pos hmode]
  have hcore := (onlyReports_iff.1 (onlyReports_evPart (modPart v p fun P => { P with refused := satInc 16 P.refused 1 }) p 0x0401
    [(1, c), (1, a)])).2 p
  refine (congrArg Part.refused hcore).trans ?_
  have hv : getPart v p = getPart u p := by
    show getPart (foDone u p c (issuer u c a x p) (lowest (foErrs u p e))) p = _
    rw [hmode, hread]
  show (getPart (modPart v p _) p).refused = _
  rw [getPart_modPart_self _ _ _ (part_ne_of_live (by rw [hv]; exact hlive)), hv]

/-- A load whose lines the cache holds completes from it. -/
theorem entryChecked_cached {c a : Nat} {x : Bool} {bs : List Byte} {q : Bool} (herrs : foErrs u p e = []) (hga : foTarget u p e = some ga)
    (hnc : foNc e = false) (hread : cacheRead u p ga (foLen e) = some (bs, q)) (hkept : writeLost u p (foLocal e) bs.length = false) :
    entryChecked u c a x p 0 e = foDone (wrLocal u p c (foLocal e) bs q) p c (issuer u c a x p) (if q then stPoisoned else stOk) := by
  unfold entryChecked
  simp only [herrs, hga, hnc, Option.getD_some]
  simp only [List.isEmpty_nil, Bool.not_true, Bool.false_eq_true, if_false, Bool.not_false, and_self, if_true, hread]
  rw [hkept]
  cases q <;> rfl

/-- Another entry waits until it may be issued. -/
theorem entryChecked_goes {c a : Nat} {x : Bool} (herrs : foErrs u p e = []) (hga : foTarget u p e = some ga)
    (hmiss : op ≠ 0 ∨ foNc e = true ∨ cacheRead u p ga (foLen e) = none) :
    entryChecked u c a x p op e =
      if mayIssue u p (64 * (linesOf ga (foLen e)).length) then issueOpReqs u c p op ga (issuer u c a x p) e else u := by
  have hnone : (if op = 0 ∧ (!foNc e) = true then cacheRead u p ga (foLen e) else none) = none := by
    split
    · next h => exact (hmiss.resolve_left (not_not_intro h.1)).resolve_left (by simpa using h.2)
    · rfl
  unfold entryChecked
  simp only [herrs, hga, Option.getD_some, hnone]
  rfl

/-! ### Entries that go out -/

/-- What the requests of an entry have in common. -/
structure OfEntry (o o0 : FabOut) : Prop where
  cluster : o0.cluster = o.cluster
  slice : o0.slice = o.slice
  op : o0.req.op = o.req.op
  part : o0.req.part = o.req.part
  gen : o0.req.gen = o.req.gen
  psn : o0.req.psn = o.req.psn

theorem ofEntry_of_mem {keep : Bool} {d : List Byte × Bool} {o o0 : FabOut} (h : o0 ∈ entryReqs keep op ga e d o) : OfEntry o o0 := by
  unfold entryReqs at h
  split at h
  · obtain ⟨x, -, rfl⟩ := List.mem_map.1 h
    exact ⟨rfl, rfl, rfl, rfl, rfl, rfl⟩
  · split at h
    · rw [List.mem_singleton.1 h]
      exact ⟨rfl, rfl, rfl, rfl, rfl, rfl⟩
    · obtain ⟨x, -, rfl⟩ := List.mem_map.1 h
      exact ⟨rfl, rfl, rfl, rfl, rfl, rfl⟩

theorem fin64_val (p : Fin 64) : fin64 p.val = p := Fin.ext (Nat.mod_eq_of_lt p.isLt)

theorem fab_entrySigned (u : State) (c p ga : Nat) (e : List Word) :
    (entrySigned u c p ga e).fab = { u.fab with ops := tabSet 0 u.fab.ops u.fab.nextOp stOk, nextOp := u.fab.nextOp + 1 } :=
  (fab_foSig _ _ _ _ _ _).trans rfl

/-- An atomic goes out as one request, and so are its lines no loads for the cache. -/
theorem keepsLines_of_atomic (hop : foOp e = op) (hatomic : foAtomic e = true) : keepsLines u op e = false := by
  have h3 : 3 ≤ op := by
    simp only [foAtomic, Bool.and_eq_true, decide_eq_true_eq] at hatomic
    omega
  simp [keepsLines, show op ≠ 0 by omega]

theorem keepsLines_iff : keepsLines u op e = true ↔ op = 0 ∧ foNc e = false ∧ u.fab.cacheEn = true := by
  simp [keepsLines, and_assoc]

/-- An atomic is one request, any other entry one for each of its lines. -/
theorem length_entryReqs {d : List Byte × Bool} {o : FabOut} (hop : foOp e = op) :
    (entryReqs (keepsLines u op e) op ga e d o).length = if foAtomic e then 1 else (lineParts ga (foLen e)).length := by
  unfold entryReqs
  split
  · next hkeep =>
    rw [List.length_map, if_neg]
    intro hatomic
    rw [keepsLines_of_atomic hop hatomic] at hkeep
    cases hkeep
  · split
    · rfl
    · exact List.length_map _

theorem entryReqs_of_lines {keep : Bool} {d : List Byte × Bool} {o : FabOut} (hlines : foAtomic e = false) :
    entryReqs keep op ga e d o = (lineParts ga (foLen e)).map (if keep then loadReq ga o else lineReq op ga d o) := by
  cases keep
  · simp [entryReqs, hlines]
  · rfl

/-- The requests of an entry that goes out. -/
theorem issueOpReqs_effect {c : Nat} {p : Fin 64} {sl : Option (Nat × Nat)} (hlive : (getPart u p.val).live = true) (hop : op ≤ 6) :
    ∃ os, (issueOpReqs u c p.val op ga sl e).fab.outst = u.fab.outst ++ os ∧ (issueOpReqs u c p.val op ga sl e).hbm = u.hbm ∧
      List.Forall₂ (SentAt u.time) os
        (entryReqs (keepsLines u op e) op ga e (foData u p.val e) (entryWhole u c p.val op ga sl e)) ∧
      (∀ o ∈ os, o.dst = fabNode o.req.addr.toNat ∧ o.issued = u.time.now ∧ o.cluster = c ∧ o.slice = sl ∧ o.req.op.val = op ∧
        o.req.part = p ∧ o.req.gen = (getPart u p.val).gen ∧ o.req.psn = (foData u p.val e).2 ∧
        (op ≠ 0 → ∀ y ∈ (issueOpReqs u c p.val op ga sl e).fab.cache, y.part = p.val → y.addr ≠ o.req.addr.toNat / 64)) ∧
      ∀ o, os.head? = some o → o.req.seq = BitVec.ofNat 32 (tabGet 0 u.fab.seqTx o.dst) := by
  have hfab := fab_entrySigned u c p.val ga e
  have hsigned : OnlyFabric u (entrySigned u c p.val ga e) := onlyFabric_foSig (onlyFabric_fab (.refl u))
  have hgen : (getPart (entrySigned u c p.val ga e) p.val).gen = (getPart u p.val).gen :=
    ((genKept_of_parts (t := entryNumbered u) rfl).trans genKept_foSig hlive).2
  have hwhole : (entryWhole u c p.val op ga sl e).req.op.val = op ∧ (entryWhole u c p.val op ga sl e).req.part = p :=
    ⟨Nat.mod_eq_of_lt (by omega), fin64_val p⟩
  rw [issueOpReqs_eq]
  obtain ⟨os, hout, hsent, hhead⟩ := outst_issueAll
    (entryReqs (keepsLines u op e) op ga e (foData u p.val e) (entryWhole u c p.val op ga sl e)) (entrySigned u c p.val ga e)
  obtain ⟨-, hgone⟩ := cache_issueAll
    (entryReqs (keepsLines u op e) op ga e (foData u p.val e) (entryWhole u c p.val op ga sl e)) (entrySigned u c p.val ga e)
  have hof := fun o0 => ofEntry_of_mem (op := op) (ga := ga) (e := e) (keep := keepsLines u op e) (d := foData u p.val e)
    (o := entryWhole u c p.val op ga sl e) (o0 := o0)
  generalize entryReqs (keepsLines u op e) op ga e (foData u p.val e) (entryWhole u c p.val op ga sl e) = l at *
  rw [hsigned.time] at hsent
  rw [hfab] at hout
  refine ⟨os, hout, (onlyFabric_issueAll l hsigned).hbm, hsent, fun o ho => ?_, fun o ho => ?_⟩
  · obtain ⟨o0, ho0, v, hv, rfl⟩ : ∃ o0 ∈ l, SentAt u.time o o0 := by
      obtain ⟨n, hn, rfl⟩ := List.mem_iff_getElem.1 ho
      have hn' : n < l.length := hsent.length_eq ▸ hn
      exact ⟨l[n], List.getElem_mem hn', hsent.get hn hn'⟩
    obtain ⟨hcluster, hslice, hop0, hpart, hgen0, hpsn⟩ := hof o0 ho0
    have hop0' : o0.req.op.val = op := (congrArg Fin.val hop0).trans hwhole.1
    refine ⟨rfl, congrArg (·.now) hv, hcluster, hslice, hop0', hpart.trans hwhole.2, hgen0.trans hgen, hpsn, fun hne y hy hy1 => ?_⟩
    refine hgone o0 ho0 (fun h0 => hne ?_) y hy (hy1.trans (congrArg Fin.val (hpart.trans hwhole.2)).symm)
    rw [← hop0', h0]
    rfl
  · rw [hhead, Option.map_eq_some_iff] at ho
    obtain ⟨o0, -, rfl⟩ := ho
    show BitVec.ofNat 32 (tabGet 0 (entrySigned u c p.val ga e).fab.seqTx _) = _
    rw [hfab]
    rfl

/-- Settles O40: the checks, the cache and the store decide what an entry does; its requests follow from the list of its lines. -/
theorem fabricSources : Obligations.FabricSources := by
  unfold Obligations.FabricSources
  intro s c a x p e i op hon hruns hi hop
  obtain ⟨hop6, hexec⟩ := exec_fabEntry hon hruns hop hi
  have hlive : (getPart s p.val).live = true := by
    simp only [partRuns, Bool.and_eq_true] at hruns
    exact hruns.1.1.2
  obtain ⟨hulive, hugen⟩ := genKept_walkAll (s := s) p.val [foRemote e, foLocal e] hlive
  have hufab : (walkAll s p.val [foRemote e, foLocal e]).fab = s.fab := fab_walkAll _ _ _
  have hutime : (walkAll s p.val [foRemote e, foLocal e]).time = s.time :=
    congrArg ReadView.time (loaded_walkAll hlive p.val [foRemote e, foLocal e]).2.1
  dsimp only
  generalize walkAll s p.val [foRemote e, foLocal e] = u at *
  refine ⟨fun herrs => ⟨fun hmode => ?_, fun hmode => ⟨_, hexec, refused_entryChecked hulive herrs hmode⟩⟩,
    fun herrs ga hga => ⟨?_, fun hmiss => ⟨fun hwait => ?_, fun hmay => ?_⟩⟩⟩
  · rw [hexec, entryChecked_fails herrs hmode]
  · rintro bs q rfl hnc hread hkept
    rw [hexec, entryChecked_cached herrs hga hnc hread hkept]
  · rw [hexec, entryChecked_goes herrs hga hmiss, if_neg (by simp [hwait])]
  · rw [entryChecked_goes herrs hga hmiss, if_pos hmay] at hexec
    obtain ⟨os, hout, hhbm, hsent, hall, hhead⟩ := issueOpReqs_effect (c := c.val) (ga := ga) (e := e)
      (sl := issuer u c.val a.val x p.val) hulive hop6
    rw [hufab] at hout hhead
    rw [hutime, hugen] at hall
    refine ⟨_, os, hexec, hout, hhbm, ?_, hall, hhead, fun hatomic o ho => ?_, fun hlines j y hy => ?_⟩
    · rw [hsent.length_eq]
      exact length_entryReqs hop
    · rw [entryReqs, if_neg (by simp [keepsLines_of_atomic hop hatomic]), if_pos hatomic] at hsent
      obtain ⟨v, -, rfl⟩ : SentAt u.time o (entryWhole u c.val p.val op ga (issuer u c.val a.val x p.val) e) := by
        cases hsent with
        | cons hone hnil =>
          cases hnil
          obtain rfl := List.mem_singleton.1 ho
          exact hone
      exact ⟨rfl, rfl, rfl⟩
    · rw [entryReqs_of_lines hlines] at hsent
      obtain ⟨hj, rfl⟩ := List.getElem?_eq_some_iff.1 hy
      have hj' : j < os.length := by
        rw [hsent.length_eq, List.length_map]
        exact hj
      obtain ⟨v, -, ho⟩ := hsent.get hj' (by rw [List.length_map]; exact hj)
      rw [List.get_eq_getElem, List.get_eq_getElem, List.getElem_map] at ho
      refine ⟨os[j], List.getElem?_eq_getElem hj', ?_⟩
      rw [ho, ← hufab]
      by_cases hkeep : keepsLines u op e = true
      · rw [if_pos hkeep, if_pos (keepsLines_iff.1 hkeep)]
        exact ⟨rfl, rfl⟩
      · rw [if_neg hkeep, if_neg (fun h => hkeep (keepsLines_iff.2 h))]
        exact ⟨rfl, rfl, rfl⟩

end Sys2Proof.Machine
end

section
/-! PROOFS. O53: segments that have arrived (R282 to R284, R371): those of this chip's own FAB_DMA, and those that another chip puts here. -/

namespace Sys2Proof.Machine

open Sys2Proof

variable {s t u : State} {d e : Dma} {g : DmaSeg} {rest : List DmaSeg}

/-! ### A FAB_DMA takes its new state (R284) -/

/-- A FAB_DMA with segments left goes on. -/
theorem dmaCheck_of_segs (hdma : s.fab.dma = [d]) (hid : e.id = d.id) (hsegs : e.segs ≠ []) :
    dmaCheck s e = { s with fab := { s.fab with dma := [e] } } := by
  unfold dmaCheck
  rw [if_pos (by simpa using hsegs), hdma]
  simp [hid]

/-- The command is over: it is gone, and nothing waits for it any more. -/
def DmaEnds (t : State) (id : Nat) : Prop := t.fab.dma = [] ∧ ∀ o ∈ t.outst, o.why ≠ .dma id

/-- A FAB_DMA with no segment left ends. -/
theorem dmaCheck_ends (hdma : s.fab.dma = [d]) (hid : e.id = d.id) (hsegs : e.segs = []) :
    DmaEnds (dmaCheck s e) d.id ∧ OnlyReports { s with fab := (dmaCheck s e).fab, outst := (dmaCheck s e).outst } (dmaCheck s e) := by
  have hend : dmaCheck s e = completeWhere { s with fab := { s.fab with dma := [] } } (fun o => decide (o.why = .dma d.id))
      (fun _ => (dmaStatus e, mapWords e.map)) := by
    unfold dmaCheck
    rw [if_neg (by simp [hsegs]), hdma]
    simp [hid]
  have honly := onlyReports_completeWhere { s with fab := { s.fab with dma := [] } } (fun o => decide (o.why = .dma d.id))
    (fun _ => (dmaStatus e, mapWords e.map))
  rw [← hend] at honly
  have hfab : (dmaCheck s e).fab = { s.fab with dma := [] } := onlyReports_fab honly
  refine ⟨⟨congrArg (fun f : Fabric => f.dma) hfab, fun o ho hwhy => ?_⟩, ?_⟩
  · rw [hend] at ho
    simpa [hwhy] using not_pick_of_mem_completeWhere ho
  · rw [hfab, onlyReports_outst honly]
    exact honly

/-! ### A segment of this chip's own command (R283) -/

/-- The first segment of the one FAB_DMA. -/
structure OwnSeg (s : State) (d : Dma) (g : DmaSeg) (rest : List DmaSeg) : Prop where
  dma : s.fab.dma = [d]
  segs : d.segs = g :: rest
  other : ∀ y ∈ rest, y.n ≠ g.n
  noFlag : g.flag = false

theorem OwnSeg.findSeg (h : OwnSeg s d g rest) : findSeg s d.id g.n = some (d, g) := by simp [Machine.findSeg, h.dma, h.segs]

/-- What is left without the segment. -/
theorem OwnSeg.left (h : OwnSeg s d g rest) : d.segs.filter (fun x => decide (x.n ≠ g.n)) = rest := by
  rw [h.segs, List.filter_cons_of_neg (by simp), List.filter_eq_self]
  exact fun y hy => by simpa using h.other y hy

/-- What is left with the segment's flag to be sent. -/
theorem OwnSeg.flagged (h : OwnSeg s d g rest) :
    d.segs.map (fun x => if x.n = g.n then { x with flag := true } else x) = { g with flag := true } :: rest := by
  rw [h.segs, List.map_cons, if_pos rfl]
  exact congrArg _ ((List.map_congr_left fun y hy => if_neg (h.other y hy)).trans (List.map_id _))

theorem OwnSeg.failSeg (h : OwnSeg s d g rest) (status : Nat) :
    failSeg s d.id g.n status = dmaCheck s { d with segs := rest, fails := d.fails ++ [(g.n, status)] } := by
  unfold Machine.failSeg
  rw [h.findSeg]
  dsimp only
  rw [h.left]

theorem exec_dmaSegmentCommit_own {p seg : Fin 64} (hon : mainOn s = true) (h : OwnSeg s d g rest) (hn : g.n = seg.val) (hpart : d.part = p.val) :
    exec (.dmaSegmentCommit (.own p d.id seg)) s = .next (ownSeg s d g) := by
  show execDmaSegmentCommit (.own p d.id seg) s = _
  rw [execDmaSegmentCommit, inRun_of_mainOn _ hon]
  dsimp only
  rw [← hn, h.findSeg]
  exact congrArg _ (if_pos hpart)

theorem ownSeg_of_part (hgot : g.got < segLen g) : ownSeg s d g = s := if_pos (by simp [hgot])

/-- A get that may not write fails. -/
theorem OwnSeg.ownSeg_bounds (h : OwnSeg s d g rest) (hgot : segLen g ≤ g.got) (hget : d.get = true)
    (hbad : canWrVa s d.part (fld48 g.e 0) (segLen g) = false) :
    ownSeg s d g = dmaCheck s { d with segs := rest, fails := d.fails ++ [(g.n, stBounds)] } := by
  unfold ownSeg
  extract_lets la
  rw [if_neg (by simp [h.noFlag, Nat.not_lt.2 hgot]), if_pos (by simp [hget, la, hbad]), h.failSeg]

/-- The state with the data of a get in memory. -/
def segWritten (s : State) (d : Dma) (g : DmaSeg) : State :=
  if d.get then wrVaP s d.part (fld48 g.e 0) (stagedData g) g.psn else s

theorem fab_segWritten (s : State) (d : Dma) (g : DmaSeg) : (segWritten s d g).fab = s.fab := sameFabric_ite (fab_wrVaP _ _ _ _ _) (.refl s)

/-- The command with a segment in its map. -/
def withBit (d : Dma) (g : DmaSeg) (segs : List DmaSeg) : Dma :=
  { d with segs := segs, map := d.map ||| BitVec.ofNat 64 (2 ^ g.n), psn := d.psn || g.psn }

/-- A segment commits: a put with FLAG goes on with its flag, any other is done. -/
theorem OwnSeg.ownSeg_commits (h : OwnSeg s d g rest) (hgot : segLen g ≤ g.got)
    (hwrite : d.get = true → canWrVa s d.part (fld48 g.e 0) (segLen g) = true ∧ writeLost s d.part (fld48 g.e 0) (segLen g) = false) :
    ownSeg s d g = runDma (dmaCheck (segWritten s d g)
      (withBit d g (if !d.get && bit (wd g.e 4) 19 then { g with flag := true } :: rest else rest))) := by
  unfold ownSeg
  extract_lets la v flag segs
  have hsegs : segs = if !d.get && bit (wd g.e 4) 19 then { g with flag := true } :: rest else rest := by
    unfold segs
    rw [h.flagged, h.left]
  rw [if_neg (by simp [h.noFlag, Nat.not_lt.2 hgot]), if_neg (fun hbad => ?_), if_neg (fun hlost => ?_), hsegs]
  · rfl
  · rw [Bool.and_eq_true] at hlost
    simp [la, (hwrite hlost.1).2] at hlost
  · rw [Bool.and_eq_true] at hbad
    simp [la, (hwrite hbad.1).1] at hbad

/-! ### A segment that another chip puts here (R273, R283) -/

theorem foldl_add_length (l : List FabReq) (n : Nat) : l.foldl (fun n q => n + q.data.length) n = n + (l.map (fun y => y.data.length)).sum := by
  induction l generalizing n with
  | nil => rfl
  | cons q l ih => rw [List.foldl_cons, ih, List.map_cons, List.sum_cons, Nat.add_assoc]

/-- The state without the one segment that is staged. -/
def unstaged (s : State) : State := { s with fab := { s.fab with staged := [] } }

/-- A staged segment that is not dead, of a length. -/
structure Staged (s : State) (g : StagedSeg) (total : Nat) : Prop where
  staged : s.fab.staged = [g]
  alive : g.dead = false
  first : ∃ q r x, g.parts = q :: r ∧ q.stage = some x ∧ x.total = total
  pos : 0 < total

/-- The bytes of a staged segment, as its first part gives them. -/
def stagedTotal (g : StagedSeg) : Nat :=
  match g.parts with
  | q :: _ => (match q.stage with
    | some x => x.total
    | none => 0)
  | [] => 0

/-- What becomes of a segment every byte of which has come. -/
def segTaken (s : State) (g : StagedSeg) : State :=
  if g.parts.any (fun q => (admitting s q).isNone) then g.parts.foldl denyReq s
  else g.parts.foldl (fun s q => applyReq s ((admitting s q).getD (0, 0)).1 q) s

theorem incomingSeg_def (s : State) (g : StagedSeg) :
    incomingSeg s g =
      if g.dead || decide (stagedTotal g = 0) || decide (g.parts.foldl (fun n q => n + q.data.length) 0 < stagedTotal g) then s
      else segTaken { s with fab := { s.fab with staged := s.fab.staged.erase g } } g := rfl

theorem incomingSeg_eq {g : StagedSeg} {total : Nat} (h : Staged s g total) :
    incomingSeg s g = if (g.parts.map (fun y => y.data.length)).sum < total then s else segTaken (unstaged s) g := by
  obtain ⟨hstaged, halive, ⟨q, r, x, hparts, hstage, htotal⟩, hpos⟩ := h
  have hwhole : stagedTotal g = total := by
    rw [stagedTotal, hparts]
    dsimp only
    rw [hstage]
    exact htotal
  have hrest : s.fab.staged.erase g = [] := by rw [hstaged, List.erase_cons_head]
  rw [incomingSeg_def, hwhole, foldl_add_length, hrest, Nat.zero_add, halive, decide_eq_false hpos.ne']
  by_cases hshort : (g.parts.map (fun y => y.data.length)).sum < total
  · rw [if_pos hshort, if_pos (by simpa using hshort)]
  · rw [if_neg hshort, if_neg (by simpa using hshort)]
    rfl

theorem exec_dmaSegmentCommit_incoming {node part seg : Fin 64} {dma : Nat} {g : StagedSeg} (hon : mainOn s = true)
    (hstaged : s.fab.staged = [g]) (hmine : isStage node.val part.val dma seg.val g = true) :
    exec (.dmaSegmentCommit (.incoming node part dma seg)) s = .next (incomingSeg s g) := by
  have hfind : s.fab.staged.find? (isStage node.val part.val dma seg.val) = some g := by
    rw [hstaged]
    exact List.find?_cons_of_pos hmine
  show execDmaSegmentCommit (.incoming node part dma seg) s = _
  rw [execDmaSegmentCommit, inRun_of_mainOn _ hon]
  dsimp only
  rw [hfind]

/-- Parts that are denied one after another are counted, and change no memory. -/
theorem denyAll_effect (l : List FabReq) (s : State) :
    (l.foldl denyReq s).hbm = s.hbm ∧ (l.foldl denyReq s).fab.denied = s.fab.denied + l.length := by
  refine ⟨(onlyFabric_foldl (.refl s) fun _ _ => onlyFabric_denyReq).hbm, ?_⟩
  induction l generalizing s with
  | nil => rfl
  | cons q l ih =>
    have hone : (denyReq s q).fab.denied = s.fab.denied + 1 := (Prod.mk.inj (answersKept_denyReq s q)).2
    rw [List.foldl_cons, ih, hone, List.length_cons, Nat.add_right_comm, Nat.add_assoc]

/-- Settles O53: a segment of this chip's own command takes its place in the map, or fails; parts that have come are applied, or denied. -/
theorem dmaSegments : Obligations.DmaSegments := by
  unfold Obligations.DmaSegments
  refine ⟨fun s p seg d g rest hon hdma hpart hsegs hn hother hflag => ?_,
    fun s node part seg dma g q r x hon hstaged hmine halive hparts hstage hpos => ?_⟩
  · have hown : OwnSeg s d g rest := ⟨hdma, hsegs, fun y hy => by rw [hn]; exact hother y hy, hflag⟩
    have hexec := exec_dmaSegmentCommit_own hon hown hn hpart
    dsimp only
    refine ⟨fun hpart => ?_, fun hgot hget hbad => ?_, fun hgot hwrite => ?_⟩
    · rw [hexec, ownSeg_of_part hpart]
    · -- a get that may not write
      rw [← hpart] at hbad
      rw [hexec, hown.ownSeg_bounds hgot hget hbad, hn]
      refine ⟨fun hrest => ?_, fun hrest => ⟨_, rfl, ?_⟩⟩
      · rw [dmaCheck_of_segs hdma (by rfl) hrest]
      · exact dmaCheck_ends hdma (by rfl) hrest
    · -- a segment that commits
      rw [← hpart] at hwrite ⊢
      have hfab := fab_segWritten s d g
      have hdma' : (segWritten s d g).fab.dma = [d] := (congrArg (fun f : Fabric => f.dma) hfab).trans hdma
      rw [hexec, hown.ownSeg_commits hgot hwrite, ← hn]
      refine ⟨fun hput hbit => ?_, fun hdone => ?_⟩
      · rw [if_pos (by simp [hput, hbit]), dmaCheck_of_segs hdma' (by rfl) (by exact List.cons_ne_nil _ _)]
        rw [show segWritten s d g = s from if_neg (by simp [hput])]
        rfl
      · rw [if_neg (by rcases hdone with h | h <;> simp [h])]
        refine ⟨fun hrest => ?_, fun hrest => ?_⟩
        · rw [dmaCheck_of_segs hdma' (by rfl) hrest, hfab]
          rfl
        · obtain ⟨hends, honly⟩ := dmaCheck_ends (e := withBit d g rest) hdma' rfl hrest
          exact ⟨_, congrArg _ (runDma_of_dma_nil hends.1), hends, honly⟩
  · have heq := incomingSeg_eq (total := x.total) ⟨hstaged, halive, ⟨q, r, x, hparts, hstage, rfl⟩, hpos⟩
    have hexec := exec_dmaSegmentCommit_incoming hon hstaged hmine
    rw [heq] at hexec
    dsimp only
    refine ⟨fun hshort => ?_, fun hfull hall => ?_, fun hfull hnone => ?_⟩
    · rw [hexec, if_pos hshort]
    · rw [hexec, if_neg (Nat.not_lt.2 hfull), segTaken, if_neg]
      · rfl
      · simp only [List.any_eq_true, not_exists, not_and]
        intro y hy hno
        have hsome : (admitting (unstaged s) y).isSome = true := hall y hy
        simp [Option.isNone_iff_eq_none.1 hno] at hsome
    · have hany : (g.parts.any fun y => (admitting (unstaged s) y).isNone) = true := by
        obtain ⟨y, hy, hno⟩ := hnone
        exact List.any_eq_true.2 ⟨y, hy, Option.isNone_iff_eq_none.2 hno⟩
      rw [if_neg (Nat.not_lt.2 hfull), segTaken, if_pos hany] at hexec
      obtain ⟨hhbm, hdenied⟩ := denyAll_effect g.parts (unstaged s)
      exact ⟨_, hexec, hhbm, hdenied⟩

end Sys2Proof.Machine
end
